-- ==== Sys2Proof/Word.lean ====
section
/-!
DEFINITION. The word types of the ZW1152 model and their plainest arithmetic.
Bit vectors are used where the spec treats a value as bits that are masked, sliced or wrapped: written register
words, bytes, arithmetic formats. Counts, rings, identifiers and measured quantities are natural or whole numbers.
-/
namespace Sys2Proof

/-- A byte. -/
abbrev Byte := BitVec 8
/-- A 64-bit host register word (R10). -/
abbrev Word64 := BitVec 64
/-- A 32-bit word: an FP32 or INT32 accumulator word, an S-net word. -/
abbrev Word32 := BitVec 32
/-- A 16-bit word. -/
abbrev Word16 := BitVec 16

/-- Ring numbers are 48-bit and wrap (R43). -/
def ringMod : Nat := 2 ^ 48

end Sys2Proof
end

