-- ==== Sys2Proof/Machine/Sparse.lean ====
section
/-!
DEFINITION. Sparse maps in one canonical form: association lists with strictly rising keys and no entry equal to the
value an unlisted key reads as. Every large store of the machine (register fields, scratchpad bytes, cells,
sessions, ...) is one of these, so that equal contents are equal data.
-/
namespace Sys2Proof.Machine

/-- A sparse map from natural-number keys. -/
abbrev SMap (α : Type) := List (Nat × α)

/-- Reads a key; an unlisted key reads as `d`. -/
def sget {α : Type} (d : α) : SMap α → Nat → α
  | [], _ => d
  | (k, v) :: m, x => if k = x then v else sget d m x

/-- Writes a key, keeping the canonical form: writing `d` removes the entry. -/
def sset {α : Type} [DecidableEq α] (d : α) : SMap α → Nat → α → SMap α
  | [], x, v => if v = d then [] else [(x, v)]
  | (k, w) :: m, x, v =>
    if x < k then (if v = d then (k, w) :: m else (x, v) :: (k, w) :: m)
    else if x = k then (if v = d then m else (x, v) :: m)
    else (k, w) :: sset d m x v

/-- The canonical form from a lower bound on the keys. -/
def swfFrom {α : Type} [DecidableEq α] (d : α) : Nat → SMap α → Bool
  | _, [] => true
  | lo, (k, v) :: m => decide (lo ≤ k) && decide (v ≠ d) && swfFrom d (k + 1) m

/-- The canonical form: keys strictly rise and no entry holds the unlisted value. -/
def swf {α : Type} [DecidableEq α] (d : α) (m : SMap α) : Bool := swfFrom d 0 m

/-- Updates one key by a function. -/
def smod {α : Type} [DecidableEq α] (d : α) (m : SMap α) (x : Nat) (f : α → α) : SMap α :=
  sset d m x (f (sget d m x))

/-- Applies `f` to every listed entry, dropping those that become `d`. -/
def smap {α : Type} [DecidableEq α] (d : α) (f : Nat → α → α) : SMap α → SMap α
  | [] => []
  | (k, v) :: m => if f k v = d then smap d f m else (k, f k v) :: smap d f m

/-- Drops every entry whose key does not satisfy `p`. -/
def skeep {α : Type} (p : Nat → Bool) : SMap α → SMap α
  | [] => []
  | (k, v) :: m => if p k then (k, v) :: skeep p m else skeep p m

/-- Memory: bytes by address, an unlisted address reading 0. -/
abbrev Memory := List Host.Cell

/-- What a byte of memory that nothing has written reads as: 0 (DESIGN CHOICE, log 12). -/
def Memory.fill : Byte := 0

/-- Reads one byte. -/
def Memory.read (m : Memory) (a : Nat) : Byte := sget Memory.fill m a

/-- Writes one byte and keeps the canonical form. -/
def Memory.write (m : Memory) (a : Nat) (b : Byte) : Memory := sset Memory.fill m a b

/-- The canonical form of memory. -/
def Memory.wf (m : Memory) : Bool := swf Memory.fill m

/-- Writes bytes at consecutive addresses. -/
def Memory.writeBytes : Memory → Nat → List Byte → Memory
  | m, _, [] => m
  | m, a, b :: bs => Memory.writeBytes (m.write a b) (a + 1) bs

/-- Reads `n` consecutive bytes. -/
def Memory.readBytes (m : Memory) (a : Nat) : Nat → List Byte
  | 0 => []
  | n + 1 => m.read a :: Memory.readBytes m (a + 1) n

/-- Little-endian value of bytes (R12). -/
def leNat : List Byte → Nat
  | [] => 0
  | b :: bs => b.toNat + 256 * leNat bs

/-- The `n` little-endian bytes of a value (R12). -/
def leBytes : Nat → Nat → List Byte
  | 0, _ => []
  | n + 1, v => BitVec.ofNat 8 v :: leBytes n (v / 256)

/-- A little-endian field of n bytes at an offset. -/
def rd (bs : List Byte) (off n : Nat) : Nat := leNat ((bs.drop off).take n)

/-- Bytes at an offset. -/
def cut (bs : List Byte) (off n : Nat) : List Byte := (bs.drop off).take n

/-- Whether bytes are all zero. -/
def zeros (bs : List Byte) : Bool := bs.all (· == 0)

/-- Bytes filled up with zeros. -/
def padTo (n : Nat) (bs : List Byte) : List Byte := bs ++ List.replicate (n - bs.length) 0

/-- Reads `n` little-endian bytes as a number. -/
def Memory.readNat (m : Memory) (a n : Nat) : Nat := leNat (m.readBytes a n)

/-- Zeroes every byte for which `p` holds. -/
def Memory.clear (m : Memory) (p : Nat → Bool) : Memory := skeep (fun a => ! p a) m

end Sys2Proof.Machine
end

