-- ==== Sys2Proof/Machine/CellTypes.lean ====
section
/-!
DEFINITION. What one cell holds: its two configuration planes, its compute unit, its memory unit, its network queues
and steering units (chapters 3 to 7 of the spec), and the decoded forms of the plane regions whose byte layout the
spec leaves to the Tamis toolchain (R207).
-/
namespace Sys2Proof.Machine

/-! ## Names -/

/-- The value formats of Table 3.3 (R83). -/
inductive Fmt where
  | fp32 | bf16 | fp16 | e4m3 | e5m2 | mxE4m3 | mxE5m2 | mxE3m2 | mxE2m3 | mxE2m1 | int8 | int4 | int32
  deriving DecidableEq, Repr, Inhabited

/-- The three networks of Table 6.1 (R174). -/
inductive Net where
  | v | s | c
  deriving DecidableEq, Repr, Inhabited

/-- The inputs of a switch box, in the round-robin order of R180. -/
inductive InPort where
  | n | e | s | w | t | lPack | lSteer0 | lSteer1 | lMemory
  deriving DecidableEq, Repr, Inhabited

/-- The outputs of a switch box (R178). -/
inductive OutPort where
  | n | e | s | w | t | loc
  deriving DecidableEq, Repr, Inhabited

/-- The local targets of Table 6.4 (R183). -/
inductive Target where
  | memory | accum | steer0 | steer1
  deriving DecidableEq, Repr, Inhabited

/-- Scratchpad ports (R106). -/
inductive Port where
  | a | b | w
  deriving DecidableEq, Repr, Inhabited

/-- A window's state (R136). -/
inductive WinSt where
  | closed | opened | closing
  deriving DecidableEq, Repr, Inhabited

/-- One byte as a client receives it, with the poison that travels with it (R95). -/
structure PByte where
  b : Byte
  poison : Bool
  deriving DecidableEq, Repr, Inhabited

/-- A unit on a network: a flit, a word or a token, with its sideband (R174). -/
structure NetUnit where
  route : Nat
  tag : Nat
  head : Bool
  tail : Bool
  poison : Bool
  data : Nat
  deriving DecidableEq, Repr, Inhabited

/-! ## Configuration -/

/-- A configuration plane: 1,024 bytes, and whether a TEMPLATE covered the cell (R207, R208). -/
structure Plane where
  configured : Bool
  bytes : Memory
  deriving DecidableEq, Repr, Inhabited

/-- The empty plane. -/
def Plane.empty : Plane := ⟨false, []⟩

/-- An address-generator pattern (Table 4.1, R109). -/
structure AgPattern where
  port : Port
  window : Nat
  base : Nat
  counts : List Nat
  strides : List Int
  indirect : Bool
  isrc : Nat
  iscale : Nat
  check : Bool
  deriving DecidableEq, Repr, Inhabited

/-- Where a per-output value of activate or of a predicate comes from (R97, R102). -/
inductive ValSrc where
  | const (w : Word32)
  | ag (n : Nat)
  deriving DecidableEq, Repr, Inhabited

/-- The compare codes of R102. -/
inductive PredOp where
  | gt | ge | lt | le | eq | ne | isNan | isZero | always | never
  deriving DecidableEq, Repr, Inhabited

/-- The predicate reduction modes of Table 3.10 (R103). -/
inductive RedMode where
  | any | all | count | maskLo | maskHi | argFirst
  deriving DecidableEq, Repr, Inhabited

/-- Where a condition token goes (R104). -/
inductive TokenDest where
  | none | steer0 | steer1 | cnet (route : Nat)
  deriving DecidableEq, Repr, Inhabited

/-- The two paths of an INT32 output through activate (R97). -/
inductive IntPath where
  | convert
  | requant (m : Int) (sh : Nat) (zp : Int)
  deriving DecidableEq, Repr, Inhabited

/-- Where pack places its stream (R101): through a write pattern; as data flits with neither HEAD nor TAIL on a V-net route, for
steering units; as remote writes of `beats` beats into a window of the owner cell the graft plans, each at the offset generator `n`'s
pattern gives (R133), with the S-net routes of a credit request and its answer where credit is requested (R131); or one TERM message
an output, each with its row, entry and index at the receiver (R90, R182). -/
inductive PackDest where
  | ag (n : Nat)
  | vnet (route : Nat)
  | remote (route win ox oy beats n : Nat) (ask : Option (Nat × Nat))
  | term (route : Nat) (slots : List (Nat × Nat × Nat))
  deriving DecidableEq, Repr, Inhabited

/-- A remote term of an output's declared term list: its term index and the cell that sends it (R90). -/
structure RemoteTerm where
  idx : Nat
  sx : Nat
  sy : Nat
  deriving DecidableEq, Repr, Inhabited

/-- The weight-gradient mode (R162): the generator that delivers the rows of dY, their format code, and the batch extent. -/
structure GradCfg where
  ag : Nat
  code : Nat
  extent : Nat
  deriving DecidableEq, Repr, Inhabited

/-- The decoded pipeline region of a plane: format codes, term lists, activate, pack, predicates, STEAL, ACCUM_CHECK
(Table 7.4). `remote` gives for an output (row, column) its remote terms in the order the graft lists them (R90); `rowBase` and
`colBase` are the layer-wide row and column index of tile 0's first output (R168), `predX` the window of the activation columns a
predictor reads (R165), `rowIdx` the index elements a row of weights takes from an INDIRECT generator's source (R166), `refresh` the
windows of W, Wᵀ and value map of a supplied copy with a map (R161). -/
structure PipeCfg where
  wCode : Nat
  aCode : Nat
  steal : Bool
  accumCheck : Bool
  initLoad : Option Nat
  remote : List ((Nat × Nat) × List RemoteTerm)
  extent : Nat
  rows : Nat
  cols : List Nat
  weightAg : Nat
  actAg : Nat
  spans : List (Nat × Nat)
  grad : Option GradCfg
  rowBase : Nat
  colBase : Nat
  predX : Nat
  rowIdx : Nat
  refresh : Option (Nat × Nat × Nat)
  fn : Nat
  aSrc : ValSrc
  bSrc : ValSrc
  cConst : Word32
  lo : Word32
  hi : Word32
  intPath : IntPath
  tableWin : Nat
  outCode : Nat
  sat : Bool
  dest : PackDest
  scaleAg : Nat
  predicate : Option PredOp
  predSrc : ValSrc
  redMode : RedMode
  token : TokenDest
  mutateFlag : Bool
  deriving DecidableEq, Repr, Inhabited

/-- The format of a code of Table 3.3; codes 0xD to 0xF are invalid (R83). -/
def Fmt.ofCode : Nat → Option Fmt
  | 0 => some .fp32 | 1 => some .bf16 | 2 => some .fp16 | 3 => some .e4m3 | 4 => some .e5m2 | 5 => some .mxE4m3
  | 6 => some .mxE5m2 | 7 => some .mxE3m2 | 8 => some .mxE2m3 | 9 => some .mxE2m1 | 10 => some .int8 | 11 => some .int4
  | 12 => some .int32 | _ => none

/-- The weight format. Graft verification lets no invalid code into a plane (R83). -/
def PipeCfg.wFmt (cfg : PipeCfg) : Fmt := (Fmt.ofCode cfg.wCode).getD .fp32

/-- The activation format. -/
def PipeCfg.aFmt (cfg : PipeCfg) : Fmt := (Fmt.ofCode cfg.aCode).getD .fp32

/-- The output format of pack. -/
def PipeCfg.outFmt (cfg : PipeCfg) : Fmt := (Fmt.ofCode cfg.outCode).getD .fp32

/-- The format of the first multiply operand: the weights', or dY's in the weight-gradient mode (R162). -/
def PipeCfg.opFmt (cfg : PipeCfg) : Fmt :=
  match cfg.grad with
  | none => cfg.wFmt
  | some g => (Fmt.ofCode g.code).getD .fp32

/-- The remote terms of an output, in the order the graft lists them (R90). -/
def PipeCfg.remoteOf (cfg : PipeCfg) (row col : Nat) : List RemoteTerm :=
  match cfg.remote.find? (fun p => p.1 == (row, col)) with
  | some p => p.2
  | none => []

/-- Steering modes (Table 6.9, R194). -/
inductive SteerMode where
  | off | pass | branch | merge | repeatN
  deriving DecidableEq, Repr, Inhabited

/-- A steering unit's configuration (Table 6.8). `unitSize = none` is MESSAGE; `tokenRoute = none` is PREDICATE; an entry
`none` of `map` is DISCARD. -/
structure SteerCfg where
  mode : SteerMode
  unitSize : Option Nat
  tokenRoute : Option Nat
  map : List (Option Nat)
  outs : List Nat
  deriving DecidableEq, Repr, Inhabited

/-! ## The compute unit -/

/-- One stored weight of a group: its position code, its bits, its MX scale byte (127 where the format has none) and
the scale block it falls under (R143, R145). -/
structure Stored where
  pos : Nat
  bits : Nat
  scale : Nat
  blk : Nat
  deriving DecidableEq, Repr, Inhabited

/-- A value of dY: its bits, its MX scale byte (127 without one) and its poison (R162). -/
structure GradVal where
  bits : Nat
  scale : Nat
  poison : Bool
  deriving DecidableEq, Repr, Inhabited

/-- A group entry of a lane queue (R147). In the weight-gradient mode `idx` is the batch group, `col` the group of W, `vals` its
stored values, one output each, and `dy` the values of dY under the batch group (R162). -/
structure Group where
  idx : Nat
  row : Nat
  col : Nat
  vals : List Stored
  dy : List GradVal
  poison : Bool
  stolen : Bool
  deriving DecidableEq, Repr, Inhabited

/-- A term: the value a group or a remote cell contributes to an output (R87, R90). `value = none` is an empty term
(R89); `remote` is the position in the output's remote list, `none` for a local term; `lane` the lane that formed it, 8 for the
network. -/
structure Term where
  row : Nat
  col : Nat
  idx : Nat
  remote : Option Nat
  value : Option Word32
  poison : Bool
  lane : Nat
  deriving DecidableEq, Repr, Inhabited

/-- An output of an accumulator row (R80, R90): its ordinal among the outputs of its row and among those of the tile, its accumulator,
the local term indices the parser has declared and no term has filled yet, the least index a later local term can have, whether the
row's last block has been parsed, and the positions of the remote terms still expected. `started` is set by the first accepted
term, `ready` when the output is complete and waits for its set (R92, R462). -/
structure Output where
  row : Nat
  col : Nat
  ord : Nat
  seq : Nat
  acc : Word32
  poison : Bool
  started : Bool
  locals : List Nat
  frontier : Nat
  closed : Bool
  remotes : List Nat
  ready : Bool
  deriving DecidableEq, Repr, Inhabited

/-- The accumulator entry an output occupies: its ordinal among the outputs of its row, modulo 16 (log 6). -/
def Output.entry (o : Output) : Nat := o.ord % 16

/-- An output that has left activate: `y` is the value of R97, `int` says whether it is INT32. -/
structure Activated where
  row : Nat
  col : Nat
  y : Word32
  int : Bool
  poison : Bool
  deriving DecidableEq, Repr, Inhabited

/-- An output set between activate and pack, with its row predicates (R102). -/
structure ActSet where
  outs : List Activated
  preds : List Bool
  deriving DecidableEq, Repr, Inhabited

/-- What a cell does with the tile it runs (R247, R252). -/
inductive TileRole where
  | owner | check (ox oy : Nat) | vote (ox oy : Nat)
  deriving DecidableEq, Repr, Inhabited

/-- A tile a cell has taken and not finished. -/
structure TileWork where
  group : Nat
  tile : Nat
  sampled : Bool
  role : TileRole
  deriving DecidableEq, Repr, Inhabited

/-- The block the parser is in: its header, the next group, the counts summed, the stored values passed, the scale bytes
(R140, R145); in the weight-gradient mode the batch groups of the next group already placed (R162). -/
structure BlockCtx where
  header : Nat
  nextGroup : Nat
  sum : Nat
  scales : List Nat
  used : Nat
  part : Nat
  deriving DecidableEq, Repr, Inhabited

/-- An output of an open MX block of pack: its value, whether it is INT32, its poison (R100). -/
structure BlockVal where
  y : Word32
  int : Bool
  poison : Bool
  deriving DecidableEq, Repr, Inhabited

/-- A word of a pack stream that waits for write port W: its generator, its bytes, its poison (R101, R107). -/
structure PackWord where
  ag : Nat
  bytes : List Byte
  poison : Bool
  deriving DecidableEq, Repr, Inhabited

/-- The tile in the pipeline: whether its outputs are scored (R165), progress of the parser in rows, columns and blocks, the end of the
previous block of the row, poison (R155) and overflow (R93), outputs opened and left per accumulator row, in the weight-gradient
mode the outputs in stored order that have not left and the row of dY (R162), initial values read (R90), output sets that have left
activate and pack, the bits with their poison of the word pack is filling, the outputs of the MX block it is filling, the bytes
pack has written for the hash (R251), whether the stream's last word is filled, the lines read (R252), the predictor's skips and
audits (R165 to R169). -/
structure TileRun where
  work : Option TileWork
  scored : Bool
  pRow : Nat
  pCol : Nat
  pBlock : Nat
  pEnd : Nat
  spansLoaded : Nat
  ctx : Option BlockCtx
  faulted : Bool
  poison : Bool
  overflowed : Bool
  opened : List Nat
  left : List Nat
  order : List (Nat × Nat)
  grad : List GradVal
  inits : List (Word32 × Bool)
  setsOut : Nat
  setsPacked : Nat
  wordBits : List (Bool × Bool)
  block : List BlockVal
  data : List Byte
  scales : List Byte
  scaleWord : List PByte
  flushed : Bool
  lines : List Nat
  skips : List (Nat × Nat)
  audits : List (Nat × Nat × Word32)
  deriving DecidableEq, Repr, Inhabited

/-- A tile not begun. -/
def TileRun.fresh (w : Option TileWork) : TileRun :=
  { work := w, scored := false, pRow := 0, pCol := 0, pBlock := 0, pEnd := 0, spansLoaded := 0, ctx := none, faulted := false
    poison := false, overflowed := false, opened := [0, 0, 0, 0, 0, 0, 0, 0], left := [0, 0, 0, 0, 0, 0, 0, 0], order := []
    grad := [], inits := [], setsOut := 0, setsPacked := 0, wordBits := [], block := [], data := [], scales := [], scaleWord := []
    flushed := false, lines := [], skips := [], audits := [] }

/-- A bank of the span buffer: the span and column it holds and its 1,024 activations with their scale bytes (R148), and the poison of
each beat of both. -/
structure SpanBank where
  span : Nat
  col : Nat
  vals : List Nat
  scales : List Nat
  poison : List Bool
  scalePoison : List Bool
  deriving DecidableEq, Repr, Inhabited

/-- An address generator at work: addresses produced, and the bytes delivered to its client. -/
structure AgRun where
  count : Nat
  fifo : List PByte
  deriving DecidableEq, Repr, Inhabited

/-- The compute unit (chapter 3 and 5). `lanes` are the eight queues, oldest group first; `rows` the eight accumulator
rows; `reorder` the eight reorder buffers; `flight` the terms formed and not yet delivered; `packQ` the set between activate and pack;
`packOut` the words that wait for port W, `netOut` the units that wait for the local network queues, `message` the words of a remote
write message being gathered, with their poison. -/
structure Compute where
  lanes : List (List Group)
  rows : List (List Output)
  reorder : List (List Term)
  flight : List Term
  packQ : List ActSet
  packOut : List PackWord
  netOut : List (Net × NetUnit)
  message : List (List Byte × Bool)
  spans : List SpanBank
  ags : List AgRun
  tile : TileRun
  queueWork : List TileWork
  deriving DecidableEq, Repr, Inhabited

/-- The idle compute unit. -/
def Compute.idle : Compute :=
  { lanes := [[], [], [], [], [], [], [], []], rows := [[], [], [], [], [], [], [], []]
    reorder := [[], [], [], [], [], [], [], []], flight := [], packQ := [], packOut := [], netOut := [], message := [], spans := []
    ags := [⟨0, []⟩, ⟨0, []⟩, ⟨0, []⟩, ⟨0, []⟩], tile := TileRun.fresh none, queueWork := [] }

/-! ## The memory unit -/

/-- The stored code state of a 64-bit word: bits in error against the inner code, the poison pattern, and whether the
word raised an uncorrectable error in this job and was rewritten since (R112 to R114). -/
structure WordCode where
  flips : Nat
  poison : Bool
  failed : Bool
  rewritten : Bool
  deriving DecidableEq, Repr, Inhabited

/-- A word without error. -/
def WordCode.good : WordCode := ⟨0, false, false, false⟩

/-- A line's outer code (R115). -/
structure LineCode where
  crc : Nat
  isSealed : Bool
  deriving DecidableEq, Repr, Inhabited

/-- The engine-kept attributes of a window (Table 4.2): generation, state, credit pool in bytes, and whether a reopen
waits for accepted messages to complete (R136). -/
structure Window where
  gen : Nat
  st : WinSt
  pool : Nat
  reopening : Bool
  deriving DecidableEq, Repr, Inhabited

/-- A window after ENGINE or DIE reset (R124). -/
def Window.reset : Window := ⟨0, .closed, 0, false⟩

/-- Who writes under a credit (R130). -/
inductive Writer where
  | cell (x y : Nat)
  | session (i epoch : Nat)
  deriving DecidableEq, Repr, Inhabited

/-- An entry of the credit table (R130). `standing` is the declared byte count of a standing credit. -/
structure Credit where
  writer : Writer
  window : Nat
  gen : Nat
  bytes : Nat
  standing : Option Nat
  deriving DecidableEq, Repr, Inhabited

/-- A remote write message accepted and not complete (R133): where its next beat goes and how many are left; a fill's bytes as they
came (R115); its header and the ring and cycle it came in, until that cycle is over (R137). -/
structure InMsg where
  window : Nat
  addr : Nat
  beats : Nat
  fill : Bool
  start : Nat
  came : List Byte
  head : Nat
  ring : Nat
  cycle : Nat
  deriving DecidableEq, Repr, Inhabited

/-- A client of a scratchpad port in a cycle (R106, R107, R198): a generator's next read, a generator's next write with its
beat, the word at the head of pack's, the next beat of a remote write or fill, the write and the read of a spilled flit or beat. -/
inductive Client where
  | ag (n : Nat)
  | agWrite (n : Nat) (data : List Byte)
  | packOut
  | beat
  | spillWrite (k : Nat)
  | spillRead (k : Nat)
  deriving DecidableEq, Repr, Inhabited

/-- Credit a cell's network interface holds as a writer (R131). -/
structure HeldCredit where
  ox : Nat
  oy : Nat
  window : Nat
  gen : Nat
  bytes : Nat
  deriving DecidableEq, Repr, Inhabited

/-- A credit request of a cell's network interface (R131): the owner and window it went to, whether it awaits its answer, and
otherwise the ring from which the writer may ask again, `none` after a refusal. -/
structure CreditAsk where
  ox : Nat
  oy : Nat
  window : Nat
  out : Bool
  again : Option Nat
  deriving DecidableEq, Repr, Inhabited

/-- The memory unit. `held` and `asked` are the writer side of credits; `out` units of answers that wait for the local network queue;
`dropped` counts messages dropped for generation or state (R134); `lost` counts the loss of contents that stands (a woken die, a
return from DEEP: R129, R393), and `kept` lists the byte addresses written or retained since; `refreshed` is the ring of the last
refresh of standing credits (R137). -/
structure MemUnit where
  bytes : Memory
  words : SMap WordCode
  lines : SMap LineCode
  wins : SMap Window
  credits : List Credit
  held : List HeldCredit
  asked : List CreditAsk
  msgs : List InMsg
  out : List (Net × NetUnit)
  dropped : Nat
  waiting : List Client
  scrubAt : Nat
  writeBack : List Nat
  lost : Option Nat
  kept : SMap Bool
  refreshed : Option Nat
  deriving DecidableEq, Repr, Inhabited

/-- The memory unit with every byte reading as unwritten memory reads. -/
def MemUnit.empty : MemUnit :=
  { bytes := [], words := [], lines := [], wins := [], credits := [], held := [], asked := [], msgs := [], out := [], dropped := 0
    waiting := [], scrubAt := 0, writeBack := [], lost := none, kept := [], refreshed := none }

/-! ## Fabric -/

/-- A unit in a spill queue (R197): the network and input it came by, its beat and its place in it, and how far it is: 0 not yet
written, 1 stored, 2 read back. -/
structure Spilled where
  net : Net
  port : InPort
  u : NetUnit
  beat : Nat
  slot : Nat
  stage : Nat
  deriving DecidableEq, Repr, Inhabited

/-- A switch box: input queues, units in flight towards its inputs, spill queues, delivered units waiting at local
targets, round-robin winners and the input that holds each output for its message (R174 to R183, R197). Keys of the
sparse maps pack network, port and spill number as the accessors of CellOps.lean do. -/
structure Box where
  queues : SMap (List NetUnit)
  flight : SMap (List NetUnit)
  spills : SMap (List Spilled)
  inbox : SMap (List NetUnit)
  winner : SMap Nat
  holder : SMap Nat
  dropping : SMap Nat
  linkUE : SMap Nat
  deriving DecidableEq, Repr, Inhabited

/-- An idle switch box. -/
def Box.idle : Box := ⟨[], [], [], [], [], [], [], []⟩

/-- A steering action in progress: the network and data input it takes units from, the route it forwards on (`none` discards), units
left (`none`: until TAIL), the repeat count of REPEAT with the unit collected for it (R194, R195). -/
structure SteerAct where
  net : Net
  inp : Nat
  out : Option Nat
  left : Option Nat
  rep : Option Nat
  buf : List NetUnit
  deriving DecidableEq, Repr, Inhabited

/-- A steering unit at work (R194 to R196): token queue, the action in progress, and copies still to inject. -/
structure Steer where
  tokens : List Nat
  act : Option SteerAct
  outgoing : List (Net × NetUnit)
  deriving DecidableEq, Repr, Inhabited

/-- One entry of a cell's gate table (R253): the tile, the cell's part in it, its hash, and the operand lines that an owner holds for
the checkers (R252). -/
structure GateEntry where
  group : Nat
  tile : Nat
  role : TileRole
  hash : Option Nat
  lines : List Nat
  deriving DecidableEq, Repr, Inhabited

/-- A cell: everything chapters 3 to 8 give it. -/
structure Cell where
  active : Plane
  shadow : Plane
  comp : Compute
  mem : MemUnit
  box : Box
  steer0 : Steer
  steer1 : Steer
  gate : List GateEntry
  watchMiss : Nat
  dead : Bool
  deriving DecidableEq, Repr, Inhabited

/-- A cell after ENGINE or DIE reset (R445): planes cleared, windows CLOSED with GEN 0, queues empty. -/
def Cell.init : Cell :=
  ⟨Plane.empty, Plane.empty, Compute.idle, MemUnit.empty, Box.idle, ⟨[], none, []⟩, ⟨[], none, []⟩, [], 0, false⟩

end Sys2Proof.Machine
end

