-- ==== Sys2Proof/Machine/FaultTypes.lean ====
section
/-!
DEFINITION. Fault classes, codes and records (chapter 15, and the code tables of every chapter); armed injections, the
recovery unit, the journal and the replay state; and ring arithmetic.
-/
namespace Sys2Proof.Machine

/-! ## Rings -/

/-- Rings from a to b, modulo 2^48 (R43). -/
def ringsTo (a b : Nat) : Nat := (b + ringMod - a % ringMod) % ringMod

/-- Ring a lies before ring b (R43). -/
def ringBefore (a b : Nat) : Bool := decide (1 ≤ ringsTo a b) && decide (ringsTo a b ≤ 2 ^ 47 - 1)

/-- A ring plus rings, modulo 2^48 (R43). -/
def ringAdd (a n : Nat) : Nat := (a + n) % ringMod

/-! ## Faults -/

/-- The fault classes of Table 15.3: the only ones (R420). -/
inductive FaultClass where
  | sparseMeta | overflow | ringOverrun | credit | eccInnerUe | outerCode | dupMismatch | cellDead | link
  | deadlineMiss | peer | staleToken | thermal | power | clock | security | heartwood | predictor | graft
  deriving DecidableEq, Repr, Inhabited

/-- The class number of Table 15.3. -/
def FaultClass.code : FaultClass → Nat
  | .sparseMeta => 0x01 | .overflow => 0x02 | .ringOverrun => 0x03 | .credit => 0x04 | .eccInnerUe => 0x05
  | .outerCode => 0x06 | .dupMismatch => 0x07 | .cellDead => 0x08 | .link => 0x09 | .deadlineMiss => 0x0A
  | .peer => 0x0B | .staleToken => 0x0C | .thermal => 0x0D | .power => 0x0E | .clock => 0x0F | .security => 0x10
  | .heartwood => 0x11 | .predictor => 0x12 | .graft => 0x13

/-- A fault as its chapter names it: class and code. -/
structure FaultCode where
  cls : FaultClass
  code : Nat
  deriving DecidableEq, Repr, Inhabited

/-- Who a record names (Table 15.2). -/
inductive Src where
  | engine
  | cell (x y : Nat)
  | die (d : Nat)
  | port (p : Nat) (half : Bool)
  | tap (t : Nat)
  | session (i : Nat)
  | heartwood (r : Nat)
  | hostPort
  deriving DecidableEq, Repr, Inhabited

/-- When a fault was detected (R418): at the edge that ended ring `r`, at cycle 0 of the ring that begins, or during the ring,
at a cycle the model does not keep (a free value, log 1). -/
inductive When where
  | ended (r : Nat)
  | start
  | during
  deriving DecidableEq, Repr, Inhabited

/-- A 64-byte fault record (Table 15.1). `num` is s of R418; `detail` is the 32-byte DETAIL, little-endian. -/
structure FaultRec where
  num : Nat
  ring : Nat
  cycle : Nat
  cls : FaultClass
  code : Nat
  injected : Bool
  blocks : Bool
  src : Src
  px : Nat
  py : Nat
  jobId : Nat
  epoch : Nat
  detail : Nat
  deriving DecidableEq, Repr, Inhabited

/-- An armed injection (R422): detector, its location and parameter words as written, the captured INJ_AT.RING. -/
structure Armed where
  det : Nat
  param : Nat
  loc : Nat
  atRing : Nat
  deriving DecidableEq, Repr, Inhabited

/-- The four INJ registers' armed state (R442). -/
structure Inject where
  cell : Option Armed
  net : Option Armed
  edge : Option Armed
  root : Option Armed
  deriving DecidableEq, Repr, Inhabited

/-- Recovery stages of Table 15.7 (R426). -/
inductive RecStage where
  | idle | shift | copy | restore | replay
  deriving DecidableEq, Repr, Inhabited

/-- The recovery unit: stage, dead cells and their bands, the ring it began, whether the fault struck in UPDATE, the record number
that led to the declaration, the bands still to shift with the physical rows to retire, and the step at which the job resumes (R426,
R429, R430). -/
structure Recovery where
  stage : RecStage
  cells : List (Nat × Nat)
  bands : List Nat
  beganAt : Nat
  inUpdate : Bool
  cause : Option Nat
  declared : Option Nat
  pendingShifts : List (Nat × Nat)
  resumeAt : Nat
  deriving DecidableEq, Repr, Inhabited

/-- Field self-test progress (R431): per band, the next cell of the idle order; per band, the next claimant to withdraw in a step;
cells withdrawn for the running step. -/
structure SelfTest where
  position : SMap Nat
  stepAt : SMap Nat
  withdrawn : List (Nat × Nat)
  deriving DecidableEq, Repr, Inhabited

/-- The RAS unit: the newest records first, at most 256 (R418), records written in the current ring (R419), faults
raised in the current step per die (R249), the watchdog and self-test state. -/
structure Ras where
  log : List FaultRec
  seq : Nat
  ringCount : Nat
  overflowDies : List Nat
  inj : Inject
  recov : Recovery
  selftest : SelfTest
  deriving DecidableEq, Repr, Inhabited

/-- Journal record (Table 15.10): kind, injected flag, ring, cycle and the body as bytes. -/
structure JournalRec where
  kind : Nat
  injected : Bool
  ring : Nat
  cycle : Nat
  seq : Nat
  body : List Byte
  deriving DecidableEq, Repr, Inhabited

/-- The journal unit (R434 to R440): records not yet written out, bytes in the buffer, the record number within the job, blocks or
chunks used, the records a replay still has to consume, and bytes of records that an earlier block could not hold. -/
structure Journal where
  buffer : List JournalRec
  fill : Nat
  nextSeq : Nat
  used : Nat
  pos : Nat
  recording : Bool
  replaying : Bool
  stopped : Bool
  stopRing : Nat
  replay : List JournalRec
  tail : List Byte
  deriving DecidableEq, Repr, Inhabited

end Sys2Proof.Machine
end

