-- ==== Sys2Proof/Machine/JobTypes.lean ====
section
/-!
DEFINITION. Grafts as the loader holds them (chapter 7), and jobs, claim groups, the commit gate and checkpoints
(chapter 8).
-/
namespace Sys2Proof.Machine

/-! ## Grafts -/

/-- A cell set: a strided rectangle of logical cells (R206). -/
structure CellSet where
  x0 : Nat
  x1 : Nat
  y0 : Nat
  y1 : Nat
  xs : Nat
  ys : Nat
  deriving DecidableEq, Repr, Inhabited

/-- A TEMPLATE record (R209). -/
structure Template where
  sets : List CellSet
  image : List Byte
  deriving DecidableEq, Repr, Inhabited

/-- A PATCH record (R210). -/
structure Patch where
  x : Nat
  y : Nat
  off : Nat
  data : List Byte
  deriving DecidableEq, Repr, Inhabited

/-- A ROUTE, WINDOW or CREDIT record: its cell set and bytes 8 to 15 (R211 to R213). -/
structure SetRec where
  set : CellSet
  val : Nat
  deriving DecidableEq, Repr, Inhabited

/-- A CLAIM record (R214). -/
structure ClaimRec where
  set : CellSet
  cx : Nat
  cy : Nat
  counter : Nat
  order : Nat
  tiles : Nat
  deriving DecidableEq, Repr, Inhabited

/-- A PREDICT record: its cell set and bytes 8 to 31 (R217). -/
structure PredictRec where
  set : CellSet
  body : List Byte
  deriving DecidableEq, Repr, Inhabited

/-- A RESERVE record (R216). -/
structure Reserve where
  port : Nat
  half : Bool
  ingress : Bool
  slot : Nat
  units : Nat
  deriving DecidableEq, Repr, Inhabited

/-- An XPOSE record (R216). -/
structure Xpose where
  wWin : Nat
  wtWin : Nat
  mapWin : Nat
  route : Nat
  set : CellSet
  deriving DecidableEq, Repr, Inhabited

/-- The SCHEDULE section (R216, Table 7.6). -/
structure Sched where
  cNeed : Nat
  stride : Nat
  period : Nat
  freePeriod : Nat
  freeOffsets : List Nat
  crossLatency : Nat
  xposeRings : Nat
  reserves : List Reserve
  xposes : List Xpose
  deriving DecidableEq, Repr, Inhabited

/-- A section header and payload as staged (R204). -/
structure Section where
  kind : Nat
  version : Nat
  count : Nat
  digest : List Byte
  header : List Byte
  payload : List Byte
  deriving DecidableEq, Repr, Inhabited

/-- A graft: the header fields of Table 7.1 and the records of every section; `message` is the SHA-384 of the signed
message of R218, `owner` the key hash of the keys in its signature block (R342); `unusable` is the mark of R425. -/
structure Graft where
  strict : Bool
  id : Nat
  epoch : Nat
  variant : Nat
  rollbackIdx : Nat
  svn : Nat
  swapRing : Nat
  templates : List Template
  patches : List Patch
  routes : List SetRec
  windows : List SetRec
  credits : List SetRec
  claims : List ClaimRec
  taps : List (Nat × Nat)
  ports : List (Nat × Nat × Bool)
  sched : Sched
  predicts : List PredictRec
  message : List Byte
  owner : List Byte
  unusable : Bool
  deriving DecidableEq, Repr, Inhabited

/-- States of the SHADOW planes (Table 7.10). -/
inductive LoadState where
  | empty | staging | verifying | broadcast | loaded | failed
  deriving DecidableEq, Repr, Inhabited

/-- The code of a load state in GRAFT_STATUS (R231). -/
def LoadState.code : LoadState → Nat
  | .empty => 0 | .staging => 1 | .verifying => 2 | .broadcast => 3 | .loaded => 4 | .failed => 5

/-- The graft unit: load state, staged bytes, the graft they parse to, loader beats written per tap region, whether this
load only refills reset dies, and which (R223), the first ring edge the load counts as ready for (R225), active and shadow
grafts, active tag, armed SWAP_RING, the ring of the last swap or failed swap, dies that have raised ARRIVED since the last
swap with the units each dropped, and whether STALE_TOKEN stops the next step (R229). -/
structure GraftUnit where
  load : LoadState
  bytes : List Byte
  parsed : Option Graft
  pos : SMap Nat
  refill : Bool
  refillDies : List Nat
  readyRing : Nat
  active : Option Graft
  shadow : Option Graft
  tag : Nat
  armed : Option Nat
  swapAt : Option Nat
  arrived : List Nat
  arrivedCount : SMap Nat
  staleBlock : Bool
  deriving DecidableEq, Repr, Inhabited

/-- The graft unit after ENGINE reset (R224, R228). -/
def GraftUnit.reset : GraftUnit :=
  ⟨.empty, [], none, [], false, [], 0, none, none, 0, none, none, [], [], false⟩

/-! ## Jobs -/

/-- A binding (Table 8.4). -/
structure Binding where
  label : Nat
  kind : Nat
  output : Bool
  window : Nat
  addr : Nat
  deriving DecidableEq, Repr, Inhabited

/-- A job descriptor (Table 8.3), with the 128 bytes as fetched. -/
structure Desc where
  seq : Nat
  jobId : Nat
  graftId : Nat
  epoch : Nat
  asap : Bool
  recover : Bool
  coppice : Bool
  steps : Nat
  start : Nat
  workStrides : Nat
  updateStrides : Nat
  gateRings : Nat
  sampleExp : Nat
  journal : Nat
  seed : Nat
  ckptSteps : Nat
  bindings : List Binding
  raw : List Byte
  deriving DecidableEq, Repr, Inhabited

/-- Step phases (Table 8.7). -/
inductive Phase where
  | work | makeup | gate | update
  deriving DecidableEq, Repr, Inhabited

/-- The code of a phase in JOB_STATUS (R260). -/
def Phase.code : Phase → Nat
  | .work => 0 | .makeup => 1 | .gate => 2 | .update => 3

/-- Stages of a job that has left the queue (Table 8.8). -/
inductive JobStage where
  | preparing | running | recovering
  deriving DecidableEq, Repr, Inhabited

/-- The code of a stage in JOB_STATUS (R260). -/
def JobStage.code : JobStage → Nat
  | .preparing => 1 | .running => 2 | .recovering => 3

/-- A completion record before its tag (Table 8.5). -/
structure Completion where
  seq : Nat
  jobId : Nat
  status : Nat
  reason : Nat
  faultCount : Nat
  firstRing : Nat
  lastRing : Nat
  energy : Nat
  committed : Nat
  firstClass : Nat
  firstCode : Nat
  deriving DecidableEq, Repr, Inhabited

/-- A fault's place in the order of R249: ring, cycle, die. -/
structure FaultKey where
  ring : Nat
  cycle : Nat
  die : Nat
  cls : Nat
  code : Nat
  deriving DecidableEq, Repr, Inhabited

/-- An audit miss of a step (R169, R172): its layer's POLICY, the claim group of its tile, its cell, its DETAIL. -/
structure Miss where
  policy : Nat
  layer : Nat
  group : Nat
  x : Nat
  y : Nat
  detail : Nat
  deriving DecidableEq, Repr, Inhabited

/-- A job from admission on: planned schedule (R240 to R242), stage, running step, phase, whether the step in the UPDATE
phase committed and whether a fault stops its commit, steps committed, faults, the abort registered (reason and ring),
audit misses of the step, transpose builds still running, stream
opens still unserved at S, energy at p. `zCode` is the code Z was computed at; `records` and `origS` hold the
recording of a replay job (R439). -/
structure Job where
  desc : Desc
  fetchRing : Nat
  s : Nat
  p : Nat
  z : Nat
  x : Nat
  k : Nat
  m : Nat
  l : Nat
  stage : JobStage
  step : Nat
  phase : Phase
  stepCommitted : Bool
  blocked : Bool
  deadDeclared : Bool
  committed : Nat
  faultCount : Nat
  first : Option FaultKey
  firstRing : Nat
  energyStart : Nat
  abort : Option (Nat × Nat)
  misses : List Miss
  building : Bool
  zCode : Nat
  origS : Nat
  records : List JournalRec
  deriving DecidableEq, Repr, Inhabited

/-- What the gate knows of one sampled tile (R252, R253). -/
inductive TileState where
  | checking | clean | suspect | resolved | unresolved | skipped
  deriving DecidableEq, Repr, Inhabited

/-- A sampled tile of the running step: ranks of owner, checker and vote checkers, their hashes, and whether an injection
altered one. -/
structure GateItem where
  tile : Nat
  owner : Nat
  checker : Option Nat
  votes : List Nat
  ownerHash : Option Nat
  checkHash : Option Nat
  voteHashes : List (Nat × Nat)
  st : TileState
  injected : Bool
  deriving DecidableEq, Repr, Inhabited

/-- A claim group at work (R246, R252): claims served, ranks that claim no more in the phase, ranks withdrawn for the job,
sampled tiles of the step, the claim order for the journal (R436). -/
structure GroupRun where
  v : Nat
  stopped : List Nat
  withdrawn : List Nat
  items : List GateItem
  log : List (Nat × Nat)
  deriving DecidableEq, Repr, Inhabited

/-- A group no cell has claimed from. -/
def GroupRun.fresh : GroupRun := ⟨0, [], [], [], []⟩

/-- A CLAIM_REPLY (Table 8.9). -/
structure ClaimReply where
  ox : Nat
  oy : Nat
  tile : Nat
  sampled : Bool
  check : Bool
  vote : Bool
  exhausted : Bool
  deriving DecidableEq, Repr, Inhabited

/-- The checkpoint being written (R259, R300, R304): its step, half and commit ring, the job and the region its CKPT binding names,
whether its data chunks and its header chunk were sent, whether it belongs to the final step, and the job's energy at p. -/
structure Ckpt where
  step : Nat
  half : Nat
  ring : Nat
  jobId : Nat
  label : Nat
  base : Nat
  dataSent : Bool
  headerSent : Bool
  final : Bool
  energyStart : Nat
  deriving DecidableEq, Repr, Inhabited

/-- The job unit (R232 to R260). `m` and `k` count slots since ENABLE; `queue` the admitted jobs; `outbox` completion
records to be written next and `held` those kept on the wafer (R318); `lastPlanned` the planned last ring of the last
admitted job; `valid` the steps of the valid checkpoint halves. -/
structure JobUnit where
  m : Nat
  k : Nat
  queue : List Job
  cur : Option Job
  outbox : List Completion
  held : List Completion
  finalWait : Option Completion
  lastPlanned : Option Nat
  groups : SMap GroupRun
  ckpt : Option Ckpt
  valid0 : Option Nat
  valid1 : Option Nat
  delta : Int
  deriving DecidableEq, Repr, Inhabited

/-- The job unit after ENGINE reset. -/
def JobUnit.reset : JobUnit := ⟨0, 0, [], none, [], [], none, none, [], none, none, none, 0⟩

end Sys2Proof.Machine
end

