-- ==== Sys2Proof/Machine/NetTypes.lean ====
section
/-!
DEFINITION. Edge ports and links, Sap sessions and frames, limb dies with their staging caches and pending requests,
taps and the stream unit (chapters 6, 9 and 10).
-/
namespace Sys2Proof.Machine

/-- Link states (Table 9.2). -/
inductive LinkState where
  | disabled | detect | negotiate | train | up
  deriving DecidableEq, Repr, Inhabited

/-- The code of a link state in EDGE_PORT_STATUS (R287). -/
def LinkState.code : LinkState → Nat
  | .disabled => 0 | .detect => 1 | .negotiate => 2 | .train => 3 | .up => 4

/-- An edge port (R261, R262, R267, R287): presence, auxiliary power, PORT epoch, its two links (`link1` is half .1),
the failure counts, and the class S and U units sent in the ring by the port or half .0 and by half .1. -/
structure EdgePort where
  present : Bool
  auxOn : Bool
  auxOff : Bool
  epoch : Nat
  link0 : LinkState
  link1 : LinkState
  trainFails : Nat
  downs : Nat
  role : Nat
  split : Bool
  usedS : Nat
  usedU : Nat
  usedS1 : Nat
  usedU1 : Nat
  deriving DecidableEq, Repr, Inhabited

/-- A port after ENGINE reset. -/
def EdgePort.reset : EdgePort := ⟨false, false, false, 0, .disabled, .disabled, 0, 0, 0, false, 0, 0, 0, 0⟩

/-- A Sap frame (Table 9.3): header fields, message fields and data. -/
structure Frame where
  typ : Nat
  resp : Bool
  ackValid : Bool
  nak : Bool
  late : Bool
  more : Bool
  cls : Nat
  attempt : Nat
  session : Nat
  epoch : Nat
  stamp : Nat
  seq : Nat
  ack : Nat
  credit : Nat
  deadline : Nat
  fields : List Byte
  data : List Byte
  deriving DecidableEq, Repr, Inhabited

/-- A data frame of a session (R276 to R279): its sequence count once sent, the frame, its deadline ring, the pending request it
carries (limb die and tag), and whether UNACKED has been raised for it. -/
structure TxFrame where
  count : Nat
  frame : Frame
  due : Option Nat
  req : Option (Nat × Nat)
  raised : Bool
  deriving DecidableEq, Repr, Inhabited

/-- Session states (Table 9.9). -/
inductive SessState where
  | closed | listen | opening | opened | closing
  deriving DecidableEq, Repr, Inhabited

/-- The code of a session state in SAP_SESSION (R288). -/
def SessState.code : SessState → Nat
  | .closed => 0 | .listen => 1 | .opening => 2 | .opened => 3 | .closing => 4

/-- The epoch before the one in force, for its grace period: its number, the ring the grace ends, its keys toward and from the peer,
the next count to send and the count expected (R282). -/
structure PrevEpoch where
  epoch : Nat
  until_ : Nat
  tx : List Byte
  rx : List Byte
  txNext : Nat
  expect : Nat
  deriving DecidableEq, Repr, Inhabited

/-- What the initiator of a handshake keeps until OPEN_ACK: its ECDH scalar, its ML-KEM decapsulation key and the OPEN it sent (R355). -/
structure Shaking where
  scalar : Nat
  dk : List Byte
  opn : List Byte
  deriving DecidableEq, Repr, Inhabited

/-- A handshake message under reassembly or whole: the port or half it came on, the sender's address, the fields of its CONTROL frames, the
data so far, and whether the last frame has come (R271, R355). -/
structure ShakeIn where
  port : Nat
  half : Bool
  mac : Nat
  fields : List Byte
  data : List Byte
  whole : Bool
  deriving DecidableEq, Repr, Inhabited

/-- A session record (R269 to R283). `mac` is the peer's address; `queue` holds frames waiting to be sent for the first time,
`unacked` those sent; `expect` is E; `held` frames above a gap; `inbox` frames delivered and not yet acted on; `ackDue` says E
advanced with no report, `lateDue` that the report must carry LATE; `ackTx` counts acknowledgement frames; `openReady` and
`closeReady` wait for the next step boundary; `prev` is the previous epoch; `keys` are the keys of the epoch in force toward and
from the peer, `secret` is S, and `initiator` says which direction is 0 (R357); `shake` is kept while an OPEN awaits its answer;
`acks` are acknowledgement frames not yet acted on and `ackRx` the next count of theirs expected; `epochSent` that a CONTROL EPOCH
awaits its answer. `epoch` counts the advances since ENGINE reset (R282). -/
structure Session where
  st : SessState
  store : Bool
  port : Nat
  half : Bool
  remote : Option Nat
  mac : Nat
  epoch : Nat
  prev : Option PrevEpoch
  keys : Option (List Byte × List Byte)
  secret : Option (List Byte)
  initiator : Bool
  shake : Option Shaking
  acks : List Frame
  ackRx : Nat
  tagFails : Nat
  txNext : Nat
  queue : List TxFrame
  unacked : List TxFrame
  window : Nat
  expect : Nat
  held : List (Nat × Frame)
  inbox : List Frame
  ackDue : Bool
  lateDue : Bool
  ackTx : Nat
  openReady : Bool
  closeReady : Bool
  closeSince : Nat
  epochSent : Bool
  deriving DecidableEq, Repr, Inhabited

/-- A session after ENGINE reset; no advance of its epoch yet (R282). -/
def Session.reset : Session :=
  { st := .closed, store := false, port := 0, half := false, remote := none, mac := 0, epoch := 0, prev := none, keys := none
    secret := none, initiator := false, shake := none, acks := [], ackRx := 0
    tagFails := 0, txNext := 0, queue := [], unacked := [], window := 128, expect := 0, held := [], inbox := []
    ackDue := false, lateDue := false, ackTx := 0, openReady := false, closeReady := false, closeSince := 0
    epochSent := false }

/-- What a pending request is for (R273, R292, R298, R368): `stream` is a cell's stream READ, which STREAM_READs to stores
(`streamRead`) serve; `gather` a stream WRITE whose source is being read; `streamWrite` a STREAM_WRITE sent. -/
inductive ReqKind where
  | read | credit | stream | streamRead | gather | streamWrite | streamOpen | treeRead
  deriving DecidableEq, Repr, Inhabited

/-- A chunk of a cell's stream READ: not asked for yet, asked of its store, verified at a version and held in the cache, or
failed (R293, R299). -/
inductive ChunkSt where
  | idle | asked
  | ready (v : Nat)
  | failed
  deriving DecidableEq, Repr, Inhabited

/-- A pending request of a limb die (R273, R295): what is needed to act on its response or reissue it. `seq` is the SEQ it was
sent under; `reissue` the ring of a deferred request; `inward` marks a peer's request this engine serves; `due` is its deadline
ring; `frame` the request frame, or the data gathered for an answer. A cell's stream READ holds the state of each chunk in
`chunks` and the fills sent in `done`; a STREAM_READ for it names it as `parent` and counts the chunks that have come in `done`;
a stream WRITE counts the READ_DATA messages that have come in `done`. -/
structure PendReq where
  tag : Nat
  kind : ReqKind
  inward : Bool
  session : Nat
  seq : Option Nat
  cls : Nat
  due : Option Nat
  tap : Nat
  x : Nat
  y : Nat
  route : Nat
  reply : Nat
  window : Nat
  gen : Nat
  offset : Nat
  count : Nat
  label : Nat
  chunk : Nat
  addr : Nat
  reissue : Option Nat
  parent : Nat
  done : Nat
  chunks : List ChunkSt
  frame : Frame
  deriving DecidableEq, Repr, Inhabited

/-- A staging-cache entry (R295, R296). Entries stand in use order, least recently used first. -/
structure CacheEntry where
  addr : Nat
  version : Nat
  pins : Nat
  data : List Byte
  deriving DecidableEq, Repr, Inhabited

/-- A write the limb die sent into a cell for a peer, kept to match a NACK (R184, R274): the newest 4,096. -/
structure WriteRec where
  session : Nat
  epoch : Nat
  window : Nat
  offset : Nat
  seq : Nat
  x : Nat
  y : Nat
  deriving DecidableEq, Repr, Inhabited

/-- A limb die: pending requests (at most 4,096), staging cache, MiB a staged graft holds, writes under way for peers, and the
tap of each WRITE sent to a peer (session, SEQ, tap; the newest 4,096). -/
structure Limb where
  pending : List PendReq
  cache : List CacheEntry
  stagedMib : Nat
  writes : List WriteRec
  outWrites : List (Nat × Nat × Nat)
  deriving DecidableEq, Repr, Inhabited

/-- A limb die after reset. -/
def Limb.reset : Limb := ⟨[], [], 0, [], []⟩

/-- A tap's long-reach channel (R190 to R193, R202): its bound function, units crossing each way (those toward the cell include the
ones that wait at the limb end for channel credit) and units in the limb die's receive buffer, per network. -/
structure Tap where
  func : Nat
  toCellV : List NetUnit
  toCellS : List NetUnit
  toLimbV : List NetUnit
  toLimbS : List NetUnit
  bufV : List NetUnit
  bufS : List NetUnit
  inHwm : Nat
  outHwm : Nat
  deriving DecidableEq, Repr, Inhabited

/-- A tap after reset: unbound and idle. -/
def Tap.reset : Tap := ⟨0, [], [], [], [], [], [], 0, 0⟩

/-- A store write sent and not yet SERVED (R255, R300): which group it belongs to (0 UPDATE, 1 checkpoint, 2 journal), the
chunk's stream address and version, its deadline ring, and whether it is acknowledged. -/
structure StoreWrite where
  group : Nat
  limb : Nat
  session : Nat
  addr : Nat
  version : Nat
  due : Option Nat
  acked : Bool
  deriving DecidableEq, Repr, Inhabited

/-- The stream unit: opens of the preparing job (session, label, served), store writes outstanding, whether the UPDATE phase's tree
writes have been sent, the commit ring, JOB_ID and step of the UPDATE phase whose writes are outstanding (R301), sessions owed a
DISCARD first in their new epoch (R298 to R303, R369). -/
structure Stream where
  opens : List (Nat × Nat × Bool)
  writes : List StoreWrite
  treeSent : Bool
  mark : Nat × Nat × Nat
  oweDiscard : List Nat
  deriving DecidableEq, Repr, Inhabited

/-- The session command unit (R280, R288): a command in progress with its index, and the last RESULT. -/
structure SessCmd where
  busy : Option Nat
  result : Nat
  deriving DecidableEq, Repr, Inhabited

end Sys2Proof.Machine
end

