-- ==== Sys2Proof/Machine/RootTypes.lean ====
section
/-!
DEFINITION. The root die's own units: variant certificate, Bark (chapter 12), heartwood (chapter 13), flash and boot
(chapter 16), host and management ports (chapter 11), and the record of what the engine sends outside.
-/
namespace Sys2Proof.Machine

/-- What a variant certificate says (R344, Table 12.4), with its security version and hash. -/
structure Cert where
  variant : Nat
  line : Nat
  disRow : Option Nat
  disCol : Option Nat
  svn : Nat
  hash : List Byte
  deriving DecidableEq, Repr, Inhabited

/-! ## Heartwood -/

/-- A heartwood slot as the array holds it: the fields of Table 13.1, `valid` whether the CRC over them passed and the slot is not retired,
and `taken` the writes it has taken (R375, R378). -/
structure HwSlot where
  value : Nat
  wcount : Nat
  retired : Nat
  hours : Nat
  valid : Bool
  taken : Nat
  deriving DecidableEq, Repr, Inhabited

/-- A heartwood register: its four slots, the RETIRED mask, whether WEAR_WARN and READ_FAIL were raised and the limit
reached (R375, R378). -/
structure HwReg where
  slots : List HwSlot
  retired : Nat
  warned : Bool
  limit : Bool
  deriving DecidableEq, Repr, Inhabited

/-- Lanes of R377. -/
inductive HwLane where
  | host | general | gasp
  deriving DecidableEq, Repr, Inhabited

/-- A heartwood write in progress or waiting. `last` starts only when every earlier write of Bark has persisted (the state
register is written last, R350). -/
structure HwWrite where
  reg : Nat
  value : Nat
  lane : HwLane
  refresh : Bool
  last : Bool
  deriving DecidableEq, Repr, Inhabited

/-- The heartwood unit: registers, writes in progress (at most 8), host writes waiting and engine writes waiting in arrival
order, powered hours, kWh of the energy since ENGINE reset already written, and whether an input failure stopped new writes (R377, R384). -/
structure Heartwood where
  regs : SMap HwReg
  busy : List HwWrite
  hostQ : List HwWrite
  engineQ : List HwWrite
  hours : Nat
  kwh : Nat
  closed : Bool
  deriving DecidableEq, Repr, Inhabited

/-! ## Bark -/

/-- A grant (R352). -/
structure Grant where
  id : Nat
  inject : Bool
  planeRead : Bool
  first : Nat
  last : Nat
  on : Bool
  deriving DecidableEq, Repr, Inhabited

/-- The host session (R358, R359): its key, the last host counter accepted, the next engine counter. -/
structure HostSess where
  key : List Byte
  hostCtr : Option Nat
  engCtr : Nat
  deriving DecidableEq, Repr, Inhabited

/-- The integrity-tree unit (R365 to R369): validity, the top node's counters, cached nodes (key 2^36 · level + index, eight
counters each), and the pending version of each chunk written and not promoted. -/
structure Tree where
  valid : Bool
  top : List Nat
  cached : SMap (List Nat)
  pendingVer : SMap Nat
  deriving DecidableEq, Repr, Inhabited

/-- The tree after ENGINE reset (R367). -/
def Tree.reset : Tree := ⟨false, [], [], []⟩

/-- Bark: the device secret once reconstructed (R337), the entropy verdict, nonce, sealing, grant and host session, measurements M0 to M8,
the signing leaf, the store keys, the mailbox, an ATTEST in progress with its challenge, draws made from the DRBG, injected events since
ENGINE reset, and the entries of tag blocks not written yet, by the address of the tag block (R361). -/
structure Bark where
  ds : Option (List Byte)
  entropyOk : Bool
  nonce : List Byte
  sealed : Bool
  grant : Option Grant
  host : Option HostSess
  meas : List (List Byte)
  lmsGen : Nat
  lmsTree : Nat
  lmsLeaf : Nat
  lmsDone : Bool
  keyRecOk : Bool
  smk : Option (List Byte)
  labels : SMap (List Byte)
  mbox : Memory
  attest : Option (List Byte)
  draws : Nat
  injected : Nat
  scrubbing : Bool
  stalled : Option (Nat × Nat × Nat)
  tags : SMap (SMap (List Byte))
  deriving DecidableEq, Repr, Inhabited

/-! ## Flash and boot -/

/-- A firmware image (R449). -/
structure FwImage where
  kind : Nat
  svn : Nat
  version : Nat
  line : Nat
  variants : Nat
  size : Nat
  digest : List Byte
  deriving DecidableEq, Repr, Inhabited

/-- A flash bank: its bytes and its record, SEQUENCE, image length and CRC-32C (R450). -/
structure Bank where
  seq : Nat
  len : Nat
  crc : Nat
  data : List Byte
  deriving DecidableEq, Repr, Inhabited

/-- The on-module flash (Table 16.4): banks, the variant certificate's bytes, whether the PUF helper record is whole, and the key record,
none when erased. -/
structure Flash where
  seedA : Bank
  seedB : Bank
  trunkA : Bank
  trunkB : Bank
  limbA : Bank
  limbB : Bank
  cert : List Byte
  helperOk : Bool
  keyRecord : Option (List Byte)
  deriving DecidableEq, Repr, Inhabited

/-- Recovery modes (Table 16.5). -/
inductive RecMode where
  | none | rom | seed | limb
  deriving DecidableEq, Repr, Inhabited

/-- The boot unit: stage code, recovery mode, boot stopped for good, RECOVERY_ENTER latched, whether Trunk runs, faults to
record when Trunk runs (R454), the images running, Limb image SVNs per limb die, kinds whose bank B booted last, the
recovery buffer, a reboot due after a recovery commit, a Trunk handover due, limb dies waiting to boot a new image, and the ring of
the last FW_ACTIVATE (R459). -/
structure Boot where
  stage : Nat
  recovery : RecMode
  stopped : Bool
  latched : Bool
  trunk : Bool
  faults : List (Nat × Nat × Nat)
  seed : Option FwImage
  trunkImg : Option FwImage
  limbs : SMap (Option FwImage)
  bootedB : List Nat
  buffer : Memory
  rebootDue : Bool
  handover : Bool
  limbBoots : List Nat
  activateAt : Option Nat
  deriving DecidableEq, Repr, Inhabited

/-! ## Host and management ports -/

/-- The host port (R313 to R327): link up with SPEED and WIDTH, Bus Master Enable, D-state (0, 3), IDE Secure, an SPDM
session, MSI-X table words and masks, pending bits, the HOSTPORT epoch, clocking mode in force, and whether PCIE_PERST_N is low, which
holds the port in reset (R32). -/
structure HostPort where
  up : Bool
  speed : Nat
  width : Nat
  bme : Bool
  dstate : Nat
  cold : Bool
  ideSecure : Bool
  spdm : Bool
  msix : SMap Word32
  pba : Nat
  epoch : Nat
  clkMode : Nat
  perstLow : Bool
  deriving DecidableEq, Repr, Inhabited

/-- The management port (R328 to R335): dynamic address, the response last made (status and data), and the rings of the last
SET_POWER and of the last WAKE_N pulse, which win within their ring (R333, R334). -/
structure Mgmt where
  dyn : Option Nat
  status : Nat
  data : List Byte
  setAt : Option Nat
  wakeAt : Option Nat
  deriving DecidableEq, Repr, Inhabited

/-! ## What the engine sends outside -/

/-- An output of the engine: an MSI-X message, a write of host memory, a frame on a port or half, byte for byte, a management in-band
interrupt, RING_MON_OUT, a DOE reply. -/
inductive Emit where
  | msix (v : Nat)
  | hostWrite (addr : Nat) (data : List Byte)
  | frame (port : Nat) (half : Bool) (bytes : List Byte)
  | inBand
  | ringPulse
  | doe
  deriving DecidableEq, Repr

end Sys2Proof.Machine
end

