-- ==== Sys2Proof/Machine/OperandTypes.lean ====
section
/-!
DEFINITION. The types of command operands: frames as the receiver sees them, measured quantities, and data that comes from host memory or from a store.
-/
namespace Sys2Proof.Machine

/-- A timecode frame as received (R36 to R41, R46): whether both timing inputs are driven (R29), kind, RING (RING_LO of a SHORT frame),
GROVE, the FLAGS fields, CHUNK, the CRC field, the measured period against the coded one in ppm, where its delimiter came (the offset in ns
from the predicted edge, or from the generated edge in HOLDOVER), and the master's period against the crystal in ppb (R69). -/
structure RingFrame where
  driven : Bool
  short : Bool
  number : Nat
  grove : Nat
  change : Bool
  emerg : Bool
  period : Nat
  chunk : Nat
  crc : Nat
  ppm : Int
  offsetNs : Int
  ppb : Int
  deriving DecidableEq, Repr, Inhabited

/-- What is measured at a ring edge: powers in W (R395, R410), the highest 100 µs means of engine and input power (R403), input
voltage in 10 mV, the smallest marker margin and its die (R60), the cells that have not reached their ring-end marker (R59), seam
slips, coolant flow in 0.01 L/min, inlet, outlet, dew point and ambient temperatures in 0.01 °C (R25, R34), corrected crystal offset
of the source in ppb. -/
structure EdgeObs where
  p1ms : Nat
  compute : Nat
  memory : Nat
  links : Nat
  input : Nat
  inputMv : Nat
  mean100 : Nat
  input100 : Nat
  margin : Nat
  marginDie : Nat
  overruns : List (Nat × Nat)
  seamSlips : Nat
  flow : Nat
  inlet : Int
  outlet : Int
  dew : Int
  ambient : Int
  diePower : List Nat
  ppb : Int
  deriving DecidableEq, Repr, Inhabited

/-- A PTP Sync exchange (R53 to R56; IEEE 1588): port and domain it came on, whether the master is two-step and its Follow_Up has come, the
times in ns at which the Sync left the master and reached the engine (t1, t2) and at which the Delay_Req left the engine and reached the
master (t3, t4), and the correction fields of both ways. -/
structure PtpObs where
  port : Nat
  domain : Nat
  twoStep : Bool
  followUp : Bool
  t1 : Int
  t2 : Int
  t3 : Int
  t4 : Int
  corrSync : Int
  corrResp : Int
  deriving DecidableEq, Repr, Inhabited

/-- The post-area header as read (Table 8.2). -/
structure PostHeader where
  magic : Nat
  version : Nat
  publish : Nat
  reaped : Nat
  deriving DecidableEq, Repr, Inhabited

/-- A job slot as read: its 128 bytes, and for JOURNAL = 3 the bytes read from JOURNAL_REPLAY (R439). -/
structure SlotRead where
  raw : List Byte
  source : List Byte
  deriving DecidableEq, Repr, Inhabited

/-- D-states the host can select (R319). -/
inductive DState where
  | d0 | d3hot | d3cold
  deriving DecidableEq, Repr, Inhabited

/-- What resets the HOSTPORT domain (R317): PCIE_PERST_N going low, a hot reset, a link disable, a function level reset, or a
surprise link down. -/
inductive HostReset where
  | perst | hot | linkDisable | flr | surprise
  deriving DecidableEq, Repr, Inhabited

/-- What a host read that failed was for (R327). -/
inductive HostRead where
  | post | graft
  deriving DecidableEq, Repr, Inhabited

/-- What RELOAD and RESTORE read (R428): the SECURITY code of the first chunk that failed its checks, if one did; the plain data
chunks of the newer valid checkpoint half (R304), the plain reload image, and the job's own journal (R438). -/
structure Restore where
  chunkFault : Option Nat
  ckpt : List Byte
  reload : List Byte
  journal : List Byte
  deriving DecidableEq, Repr, Inhabited

/-- What a boot stage finds (R447 to R452): the bit errors of the PUF array, dies whose CPLL failed, cells that failed self-test
(physical), the link's speed and width, and whether PCIE_PERST_N (R32) and RESET_N (R446) are
low. -/
structure BootObs where
  pufBits : Nat
  dead : List Nat
  failed : List (Nat × Nat)
  speed : Nat
  width : Nat
  perstLow : Bool
  resetLow : Bool
  deriving DecidableEq, Repr, Inhabited

end Sys2Proof.Machine
end

