-- ==== Sys2Proof/Syntax.lean ====
section
/-!
DEFINITION. The commands of the ZW1152: one constructor per row of the table of operations and events, with the
operands each needs: which cell, tap, port, session or die it befalls, the word written, and what arrives with it.
-/
namespace Sys2Proof

open Sys2Proof.Machine

/-- A command (one row of the operation and event table each). -/
inductive Instr where
  /-- TIMECODE_FRAME (R46). A timecode frame (FULL or SHORT) arrives at RING_IN and is judged valid or invalid,
  driving the ring lock state machine. -/
  | timecodeFrame (f : RingFrame)
  /-- DELIMITER_MISSING (R46). The predicted-edge window passes with no delimiter; MISSING is counted and an edge is
  generated from prediction. -/
  | delimiterMissing
  /-- PERIOD_CHANGE (R51). At the announced ring c the new period is accepted, CHANGE_PENDING clears and the budget
  is recomputed. -/
  | periodChange
  /-- RING_EDGE (R45). The internal ring edge reaches every die and starts cycle 0 of the new ring. -/
  | ringEdge (o : EdgeObs)
  /-- FREQ_CHANGE (R62). A pending frequency code takes effect glitch-free on all CPLLs at the first edge at least 24
  us after the decision. -/
  | freqChange
  /-- PTP_SYNC (R54). A PTP Sync exchange updates the offset and drives PTP-derived lock and edge steering. -/
  | ptpSync (o : PtpObs)
  /-- CRYSTAL_LOSS (R73). No crystal transition for 100 ns forces safe states, raises CLOCK/LOSS and unlocks the
  ring. -/
  | crystalLoss
  /-- CRYSTAL_GOOD (R65). The crystal-good detector passes after 4,096 good crystal cycles. -/
  | crystalGood
  /-- CLOCK_HANDOVER (R65). Once the crystal is good and Seed is verified, the root die switches glitch-free to the
  crystal and PLLs start. -/
  | clockHandover
  /-- PLL_UNLOCK (R74). A CPLL or LPLL loses lock; the die's clocks stop and relock attempts begin. -/
  | pllUnlock (pll : Nat)
  /-- PLL_RELOCK (R74). A relock attempt locks and the die's clocks restart; for a CPLL this is a DIE reset. -/
  | pllRelock (pll : Nat)
  /-- RELOCK_TIMEOUT (R74). All relock attempts fail within 1 ms and grafts using the die are refused until ENGINE
  reset. -/
  | relockTimeout (pll : Nat)
  /-- CLK_MEAS_WINDOW (R69). A 65,536-crystal-cycle measurement window ends and CLK_MEAS is updated. -/
  | clkMeasWindow (pll : Nat) (khz : Nat)
  /-- RING_CONFIG_WRITE (R76). A RING_CONFIG write is applied at the next edge or rejected whole with CFG_REJECT. -/
  | ringConfigWrite (w : Word64)
  /-- RING_ENABLE_WRITE (R46). A write of RING_CTRL.ENABLE; 0 forces UNLOCKED and aborts the running step. -/
  | ringEnableWrite (b : Bool)
  /-- RING_SOURCE_WRITE (R53). A write of RING_CTRL.SOURCE selects RING_IN or PTP, ignored while a job runs or the
  guard rule fails. -/
  | ringSourceWrite (b : Bool)
  /-- CLR_STATS (R76). RING_CTRL.CLR_STATS clears RING_ERRORS, RING_ERRORS2 and resets RING_MARGIN. -/
  | clrStats
  /-- CLK_FREQ_WRITE (R77). A CLK_FREQ write sets MIN_CODE and MAX_CODE or is ignored with CFG_REJECT. -/
  | clkFreqWrite (w : Word64)
  /-- CLK_SSC_WRITE (R77). A CLK_SSC write sets spread depth and rate from the next edge or is ignored with
  CFG_REJECT. -/
  | clkSscWrite (w : Word64)
  /-- CLK_GATE_REQ (R71). A gating request is submitted and refused if invalid, busy or a child is in use. -/
  | clkGateReq (w : Word64)
  /-- GATE_REQUEST_DONE (R71). A gate or ungate request in progress completes and CLK_GATE_STATUS reports DONE. -/
  | gateRequestDone
  /-- BLOCK_PARSE (R146). The block parser reads weight beats and places group entries in lane queues, recording
  empty terms. -/
  | blockParse (x : Nat) (y : Nat)
  /-- GROUP_ISSUE (R147). A lane removes the head group of its queue and issues its products back to back. -/
  | groupIssue (x : Nat) (y : Nat) (lane : Nat)
  /-- GROUP_STEAL (R150). An idle lane takes the youngest queued group of a neighbour lane. -/
  | groupSteal (x : Nat) (y : Nat) (lane : Nat)
  /-- SPAN_LOAD (R148). A span of activations finishes loading into the idle span-buffer bank. -/
  | spanLoad (x : Nat) (y : Nat)
  /-- PREDICT_SCORE (R165). A cell scores its tile's outputs against T and decides which outputs to compute or skip.
  -/
  | predictScore (x : Nat) (y : Nat)
  /-- TERM_ACCEPT (R91). A local or remote term reaches an accumulator row and is accepted in term-index order or
  held in the reorder buffer. -/
  | termAccept (x : Nat) (y : Nat) (row : Nat) (net : Bool)
  /-- OUTPUT_COMPLETE (R92). An output whose term list is fully accepted leaves accumulate. -/
  | outputComplete (x : Nat) (y : Nat) (row : Nat)
  /-- OUTPUT_SET_ACTIVATE (R462). An output set leaves activate in output order once complete, with predicates
  evaluated. -/
  | outputSetActivate (x : Nat) (y : Nat)
  /-- PACK (R99). Pack converts an output set and places it in the scratchpad or on the V-net. -/
  | pack (x : Nat) (y : Nat)
  /-- BANK_ACCESS (R106). A port access to a scratchpad bank is served in A, B, W order with window and right checks.
  -/
  | bankAccess (x : Nat) (y : Nat) (clients : (List Client)) (upsets : (List (Nat×Nat)))
  /-- SCRUB_ACCESS (R118). The scrubber reads a beat in a free bank cycle and corrects or poisons it. -/
  | scrubAccess (x : Nat) (y : Nat) (cycle : Nat) (ended : Bool) (upsets : (List (Nat×Nat)))
  /-- REMOTE_WRITE_HEADER (R133). A remote write header arrives and is accepted against GEN, window and credit or
  dropped. -/
  | remoteWriteHeader (x : Nat) (y : Nat) (cycle : Nat)
  /-- REMOTE_WRITE_BEAT (R133). A data beat of an accepted remote write message arrives and is written. -/
  | remoteWriteBeat (x : Nat) (y : Nat)
  /-- CREDIT_REQ (R131). A credit request reaches the owning memory unit and is answered with a disposition. -/
  | creditReq (x : Nat) (y : Nat)
  /-- CREDIT_GRANT (R131). A credit grant or disposition reaches the writer's network interface. -/
  | creditGrant (x : Nat) (y : Nat)
  /-- NACK_RECEIVE (R134). A writer receives NACK_CLOSED and its credit under older generations evaporates. -/
  | nackReceive (x : Nat) (y : Nat)
  /-- CREDIT_RELEASE (R131). The owner's schedule returns consumed bytes to the window's credit pool. -/
  | creditRelease (x : Nat) (y : Nat) (window : Nat) (units : Nat)
  /-- CREDIT_REFRESH (R132). At a stride boundary each standing credit is reset to its declared count and bound to
  the current GEN. -/
  | creditRefresh (x : Nat) (y : Nat)
  /-- WINDOW_CLOSE (R136). A window is closed, GEN advances and it becomes CLOSING or CLOSED. -/
  | windowClose (x : Nat) (y : Nat) (window : Nat) (cycle : Nat)
  /-- WINDOW_OPEN (R136). A CLOSED window opens with its pool set and standing credits bound. -/
  | windowOpen (x : Nat) (y : Nat) (window : Nat)
  /-- WINDOW_REOPEN (R136). An OPEN window is reopened, GEN advances and the pool is reset. -/
  | windowReopen (x : Nat) (y : Nat) (window : Nat) (cycle : Nat)
  /-- WINDOW_CLOSED (R136). The last accepted message into a CLOSING window completes and the window becomes CLOSED.
  -/
  | windowClosed (x : Nat) (y : Nat) (window : Nat)
  /-- READ_REQ (R184). A READ_REQ reaches an owner, which answers with READ_DATA or a NACK with poisoned beats. -/
  | readReq (x : Nat) (y : Nat)
  /-- READ_DATA (R183). READ_DATA reaches the requester's network interface. -/
  | readData (x : Nat) (y : Nat)
  /-- UNIT_ARRIVE (R177). A V-net or S-net unit arrives at a box input and is checked for code, tag and route. -/
  | unitArrive (x : Nat) (y : Nat) (net : Net) (port : InPort) (errs : Nat)
  /-- TOKEN_ARRIVE (R176). A C-net token reaches a queue and is enqueued, or dropped with OVERFLOW/QUEUE when full.
  -/
  | tokenArrive (x : Nat) (y : Nat) (port : InPort) (err : Bool)
  /-- PORT_GRANT (R180). An output port grants one head unit in round-robin order and forwards it. -/
  | portGrant (x : Nat) (y : Nat) (net : Net) (out : OutPort)
  /-- STEER_ACT (R195). A steering unit with its token and data forwards, repeats or discards units. -/
  | steerAct (x : Nat) (y : Nat) (unit : Bool)
  /-- TAP_CHANNEL_DELIVER (R191). A flit or word crosses a long-reach channel into the receiving end's buffer. -/
  | tapChannelDeliver (tap : Nat) (net : Net) (toCell : Bool) (errs : Nat)
  /-- WATCHDOG (R421). A cell fails to echo its watchdog token in two consecutive rings and is declared
  CELL_DEAD/WATCHDOG. -/
  | watchdog (x : Nat) (y : Nat)
  /-- LOADER_WRITE (R222). The graft loader writes one plane beat to a set of cells of a tap region. -/
  | loaderWrite (tap : Nat)
  /-- GRAFT_LOAD (R224). GRAFT_CTRL.LOAD starts staging from GRAFT_SRC or is refused as busy. -/
  | graftLoad
  /-- ABORT_LOAD (R224). GRAFT_CTRL.ABORT_LOAD stops a load, releases staging and empties the shadow planes. -/
  | abortLoad
  /-- GRAFT_CLR_COUNTERS (R231). GRAFT_CTRL.CLR_COUNTERS clears every GRAFT_CNT. -/
  | graftClrCounters
  /-- STAGING_DONE (R224). The last graft byte is staged and hashed and verification begins. -/
  | stagingDone (bytes : (List Byte))
  /-- STAGING_READ_ERROR (R224). A host read error during staging ends the load FAILED with GRAFT/FORMAT. -/
  | stagingReadError
  /-- VERIFY_DONE (R219). Verification of a staged graft passes and broadcast starts, or fails and the load ends
  FAILED. -/
  | verifyDone
  /-- BROADCAST_DONE (R224). The last loader beat is written; the shadow planes become LOADED and SWAP_RING is armed.
  -/
  | broadcastDone (late : Bool)
  /-- SWAP (R227). At the activation edge the planes are exchanged, the tag advances, queues are flushed and windows
  rebound, or the swap fails. -/
  | swap
  /-- POST_POLL (R234). At a poll edge the engine reads the post-area header and fetches published job slots. -/
  | postPoll (h : (Option PostHeader)) (slots : (List SlotRead))
  /-- COMPLETION_WRITE (R235). The engine writes a completion record, then COMPLETED, then signals the completion
  vector. -/
  | completionWrite
  /-- PREPARATION_EDGE (R243). At edge p the job is activated if needed, zeroing and transpose build begin, and
  stream opens are sent, or it is refused. -/
  | preparationEdge
  /-- TRANSPOSE_BUILD_DONE (R160). The on-engine Wt build completes, or faults and ends the job FAULTED. -/
  | transposeBuildDone
  /-- STEP_START (R243). At edge S step 0 starts and the job becomes RUNNING, unless a stream open was not served. -/
  | stepStart
  /-- PHASE_START (R242). A step phase (WORK, MAKEUP, GATE, UPDATE) begins, resetting claim counters or starting
  mutations. -/
  | phaseStart
  /-- COMMIT_DECISION (R253). At the end of the commit ring the gate decides whether the step commits and SYNC is
  sent to peers. -/
  | commitDecision
  /-- JOB_END (R243). The last ring of the final step ends and the job completes. -/
  | jobEnd
  /-- CLAIM (R246). A claim counter answers a CLAIM with a tile, EXHAUSTED or OVERFLOW/COUNTER, and assigns a check
  for sampled tiles. -/
  | claim (cx : Nat) (cy : Nat) (x : Nat) (y : Nat)
  /-- CLAIM_REPLY (R247). A claimant receives a CLAIM_REPLY and starts a tile, check or vote, or stops claiming. -/
  | claimReply (x : Nat) (y : Nat)
  /-- HASH_COMPARE (R252). Owner and checker hashes are compared; a difference raises SUSPECT and assigns votes. -/
  | hashCompare (g : Nat) (tile : Nat)
  /-- VOTE_RESOLVE (R252). The vote resolves the suspect tile, withdraws cells, declares CELL_DEAD or raises
  NO_MAJORITY. -/
  | voteResolve (g : Nat) (tile : Nat)
  /-- JOB_ABORT (R256). JOB_ABORT.GO registers an abort of the named job. -/
  | jobAbort (jobId : Nat)
  /-- JOB_ENABLE_WRITE (R260). A write of JOB_CTRL.ENABLE starts or stops polling; 0 to 1 resets m and k, 1 to 0
  discards held records. -/
  | jobEnableWrite (b : Bool)
  /-- JOB_CLR_COUNTERS (R260). JOB_CTRL.CLR_COUNTERS clears every JOB_CNT. -/
  | jobClrCounters
  /-- CHECKPOINT_WRITE (R259). After a qualifying committed step the engine writes checkpoint chunks and then the
  header chunk. -/
  | checkpointWrite
  /-- ADMIN_EN_WRITE (R267). A write of EDGE_PORT_CTRL.ADMIN_EN enables a link to DETECT or forces it DISABLED. -/
  | adminEnWrite (port : Nat) (b : Bool)
  /-- PRESENCE_CHANGE (R267). A port's presence input changes, starting negotiation or training or dropping the link.
  -/
  | presenceChange (port : Nat) (b : Bool)
  /-- NEGOTIATION_DONE (R267). Clause 73 auto-negotiation completes in the configured mode. -/
  | negotiationDone (port : Nat) (half : Bool) (split : Bool)
  /-- NEGOTIATION_TIMEOUT (R267). No agreement within 3 s raises LINK/TRAIN_FAIL and returns to DETECT. -/
  | negotiationTimeout (port : Nat) (half : Bool)
  /-- TRAIN_DONE (R267). Training converges with FEC and alignment lock and the link goes UP. -/
  | trainDone (port : Nat) (half : Bool)
  /-- TRAIN_TIMEOUT (R267). Training not converged within 500 ms raises LINK/TRAIN_FAIL. -/
  | trainTimeout (port : Nat) (half : Bool)
  /-- LINK_DOWN (R268). An UP link loses lock or exceeds the uncorrectable limit, raising LINK/DOWN and retraining.
  -/
  | linkDown (port : Nat) (half codewords : Bool)
  /-- RETRAIN (R267). EDGE_PORT_CTRL.RETRAIN sends every UP link of the port to TRAIN. -/
  | retrain (port : Nat)
  /-- PORT_RESET (R445). EDGE_PORT_CTRL.RESET resets the PORT domain and advances its epoch. -/
  | portReset (port : Nat)
  /-- AUX_OVERCURRENT (R31). Auxiliary current above 1.5 A for 1 ms removes the port's auxiliary power and raises a
  LINK fault. -/
  | auxOvercurrent (port : Nat)
  /-- EDGE_CLR_COUNTERS (R287). EDGE_CTRL.CLR_COUNTERS clears FEC and port status counts. -/
  | edgeClrCounters
  /-- FRAME_RECEIVE (R276). A frame arrives at a port and is filtered, authenticated and sequenced for delivery, with
  NAK on a gap. -/
  | frameReceive (port : Nat) (half : Bool) (bytes : (List Byte))
  /-- FRAME_TRANSMIT (R306). A port sends its next data frame in class order S, U, S beyond reservation, B. -/
  | frameTransmit (port : Nat) (half : Bool)
  /-- ACK_FRAME_SEND (R277). ACK_DELAY passes with E advanced and no report, so an acknowledgement frame is sent. -/
  | ackFrameSend (i : Nat)
  /-- ACK_RECEIVE (R278). An acknowledgement or NAK arrives, releasing acknowledged frames or retransmitting the
  named one. -/
  | ackReceive (i : Nat)
  /-- RTO_EXPIRY (R278). RTO passes without ACK advance and the oldest unacknowledged frame is retransmitted or the
  session is lost. -/
  | rtoExpiry (i : Nat)
  /-- DEADLINE_UNACKED (R279). A class S frame is still unacknowledged at the edge ending ring d + 1 and raises
  DEADLINE_MISS/UNACKED. -/
  | deadlineUnacked (i : Nat) (count : Nat)
  /-- SAP_EGRESS (R273). A cell's message reaches a tap bound SAP and the limb die builds a WRITE, READ or CREDIT
  frame. -/
  | sapEgress (tap : Nat) (net : Net)
  /-- WRITE_RECEIVE (R274). A delivered Sap WRITE is checked and turned into V-net WRITE messages to the target cell.
  -/
  | writeReceive (i : Nat)
  /-- READ_RECEIVE (R274). A delivered Sap READ is checked and turned into an S-net READ_REQ, or refused. -/
  | readReceive (i : Nat)
  /-- CREDIT_RECEIVE (R274). A delivered Sap CREDIT request becomes an S-net CREDIT_REQ. -/
  | creditReceive (i : Nat)
  /-- RESPONSE_RECEIVE (R273). A READ or CREDIT response returns to the requester as READ_DATA or CREDIT_GRANT. -/
  | responseReceive (i : Nat)
  /-- NOTICE_RECEIVE (R274). A NOTICE NACK_CLOSED reaches the writer's tap cell and is handled as a NACK. -/
  | noticeReceive (i : Nat)
  /-- SYNC_RECEIVE (R310). A SYNC COMMITTED or NOT_COMMITTED arrives; with HALT_ON_PEER it raises
  PEER/PEER_NOT_COMMITTED. -/
  | syncReceive (i : Nat)
  /-- SESSION_OPEN (R280). SAP_SESSION_CMD OPEN sends CONTROL OPEN and starts the Bark handshake. -/
  | sessionOpen (w : Word64)
  /-- SESSION_LISTEN (R280). SAP_SESSION_CMD LISTEN prepares an index to accept an OPEN from a MAC address. -/
  | sessionListen (w : Word64)
  /-- SESSION_CLOSE (R281). SAP_SESSION_CMD CLOSE moves a session to CLOSING at the next step boundary. -/
  | sessionClose (w : Word64)
  /-- CONTROL_OPEN (R280). A received CONTROL OPEN is accepted on a listening or free index or refused. -/
  | controlOpen (port : Nat) (half : Bool)
  /-- OPEN_ACK (R281). The handshake completes, epoch and keys are installed and the session goes OPEN. -/
  | openAck (i : Nat)
  /-- OPEN_REFUSE (R281). An OPEN_REFUSE ends the opening session CLOSED. -/
  | openRefuse (i : Nat)
  /-- HANDSHAKE_TIMEOUT (R281). An opening session not complete within 10 ms returns to CLOSED with TIMEOUT. -/
  | handshakeTimeout (i : Nat)
  /-- CONTROL_EPOCH (R282). A received CONTROL EPOCH advances the session epoch, answers EPOCH_ACK and completes
  pending requests. -/
  | controlEpoch (i : Nat)
  /-- EPOCH_ACK (R281). An EPOCH_ACK puts the session under its new epoch. -/
  | epochAck (i : Nat)
  /-- CONTROL_CLOSE (R281). A received CONTROL CLOSE moves the session to CLOSING. -/
  | controlClose (i : Nat)
  /-- CLOSING_DONE (R281). All frames are acknowledged or 64 rings pass; CLOSE and CLOSE_ACK are exchanged and the
  session is CLOSED. -/
  | closingDone (i : Nat)
  /-- KEEPALIVE (R281). A session that has sent nothing for 1 ms sends a KEEPALIVE. -/
  | keepalive (i : Nat)
  /-- HOLD_EXPIRY (R281). No frame or no link for HOLD ms loses the session with PEER/SESSION_LOST. -/
  | holdExpiry (i : Nat)
  /-- GRACE_EXPIRY (R282). GRACE rings after an epoch advance the previous epoch's keys are erased. -/
  | graceExpiry (i : Nat)
  /-- SAP_CONFIG_WRITE (R288). A SAP_CONFIG write is applied or rejected whole with CFG_REJECT. -/
  | sapConfigWrite (w : Word64)
  /-- SAP_CLR_COUNTERS (R288). SAP_CTRL.CLR_COUNTERS clears every SAP_CNT. -/
  | sapClrCounters
  /-- STREAM_REQUEST (R292). A stream request flit reaches a STREAM tap; hits are served from cache and misses sent
  as STREAM_READ. -/
  | streamRequest (tap : Nat)
  /-- STREAM_DATA_RECEIVE (R299). A STREAM_DATA chunk arrives, is checked for version and tag, and its fills are
  sent. -/
  | streamDataReceive (i : Nat)
  /-- STREAM_WRITE (R294). The source beats of a stream WRITE are read back and one STREAM_WRITE is sent, or
  PEER/REFUSED is raised. -/
  | streamWrite (limb : Nat)
  /-- STREAM_RESPONSE (R308). A store response to STREAM_OPEN, STREAM_READ or STREAM_WRITE is acted on by its
  disposition. -/
  | streamResponse (i : Nat)
  /-- DEFERRED_REISSUE (R308). n rings after DEFERRED(n) the limb die reissues the request. -/
  | deferredReissue (limb : Nat) (tag : Nat)
  /-- CACHE_UNPIN (R296). A staging-cache entry is unpinned and a miss waiting for room proceeds. -/
  | cacheUnpin (limb : Nat) (addr : Nat)
  /-- ROOT_ADVANCE (R255). All data and tree writes are acknowledged, the tree root advances and PROMOTE is sent. -/
  | rootAdvance
  /-- TREE_WRITE (R369). After an UPDATE phase's data writes the tree unit writes back dirty tree chunks. -/
  | treeWrite
  /-- STREAM_FLUSH (R312). STREAM_CTRL.FLUSH invalidates every unpinned staging-cache entry. -/
  | streamFlush
  /-- STREAM_EXTENT_WRITE (R312). A STREAM_EXTENT write sets the tracked extent and invalidates the tree, or is
  rejected. -/
  | streamExtentWrite (w : Word64)
  /-- STREAM_CLR_COUNTERS (R312). STREAM_CTRL.CLR_COUNTERS clears every STREAM_CNT. -/
  | streamClrCounters
  /-- HOSTPORT_RESET (R317). PERST, hot reset, link disable, FLR or surprise link down resets the HOSTPORT domain. -/
  | hostportReset (cause : HostReset)
  /-- HOSTPORT_UP (R316). The host link trains after the host port domain powers up or a reset ends. -/
  | hostportUp (speed : Nat) (width : Nat) (perstLow : Bool)
  /-- BUS_MASTER_ENABLE (R318). The host sets or clears Bus Master Enable, holding or releasing engine-mastered
  traffic. -/
  | busMasterEnable (b : Bool)
  /-- DSTATE_CHANGE (R319). The host moves the function between D0, D3hot and D3cold. -/
  | dstateChange (d : DState)
  /-- IDE_FAIL (R320). An IDE integrity failure makes the stream Insecure and resets the HOSTPORT domain. -/
  | ideFail
  /-- COMPLETION_TIMEOUT (R327). A non-posted read not completed in CPL_TIMEOUT, or an error completion, is a host
  read error. -/
  | completionTimeout (r : HostRead)
  /-- BAR0_BAD_ACCESS (R322). A BAR0 access of unsupported size or alignment is not executed and sets ACCESS_ERR. -/
  | bar0BadAccess
  /-- REGISTER_WRITE (R10). A write to a register field that has no row of its own takes effect per its access code.
  -/
  | registerWrite (addr : Nat) (w : Word64)
  /-- INT_CAUSE_CLEAR (R325). A W1C write to ID_INT_CAUSE clears cause bits and re-arms their vectors. -/
  | intCauseClear (w : Word64)
  /-- INT_ENABLE_WRITE (R325). A write of ID_INT_ENABLE enables vectors and sends a message at once for causes
  already set. -/
  | intEnableWrite (w : Word64)
  /-- ID_CLR_COUNTERS (R336). ID_HOST_CTRL.CLR_COUNTERS clears every ID_HOST_CNT. -/
  | idClrCounters
  /-- DYNAMIC_ADDRESS (R328). SETDASA or ENTDAA assigns the management port an I3C dynamic address. -/
  | dynamicAddress (addr : Nat)
  /-- GET_ID (R331). Management command returning variant, line, serial and firmware versions. -/
  | getId
  /-- GET_STATUS (R331). Management command returning the status bytes of Table 11.6. -/
  | getStatus
  /-- GET_ENV (R331). Management command returning input, coolant and temperature readings. -/
  | getEnv
  /-- GET_FAULT (R331). Management command returning one of the 16 newest fault records. -/
  | getFault (i : Nat)
  /-- SET_POWER (R331). Management command requesting a power state. -/
  | setPower (st : Nat)
  /-- SET_CAP (R332). Management command setting the management power cap. -/
  | setCap (n : Nat)
  /-- ABORT (R333). Management command registering an abort of a job with REASON 3. -/
  | abort (jobId : Nat)
  /-- RESET (R333). Management command performing an ENGINE or HOSTPORT reset. -/
  | reset (kind : Nat)
  /-- CLEAR_LOSS (R331). Management command clearing CLK_SRC.LOSS. -/
  | clearLoss
  /-- RECOVERY_ENTER (R335). Management command latching recovery entry for the next boot. -/
  | recoveryEnter
  /-- RECOVERY_WRITE (R335). Management command writing bytes into the recovery buffer. -/
  | recoveryWrite (off : Nat) (data : (List Byte))
  /-- RECOVERY_COMMIT (R335). Management command verifying the recovery buffer and writing it to flash. -/
  | recoveryCommit (kind : Nat)
  /-- RECOVERY_REBOOT (R455). 100 ms after a passing recovery commit the engine performs an ENGINE reset. -/
  | recoveryReboot
  /-- NEW_NONCE (R374). Bark command replacing BARK_NONCE. -/
  | newNonce
  /-- DEVICE_CERT (R374). Bark command returning the device certificate. -/
  | deviceCert
  /-- ATTEST (R370). Bark command producing a signed attestation report, recomputing M7 when asked. -/
  | attest (len : Nat)
  /-- M7_MEASUREMENT_DONE (R371). The resident-window measurement completes and the attestation report is signed, or
  is abandoned at edge p. -/
  | m7MeasurementDone
  /-- BARK_CLAIM (R350). Bark command taking ownership of an UNOWNED engine with a CLAIM object. -/
  | barkClaim (len : Nat)
  /-- RELEASE (R350). Bark command releasing ownership and starting the scrub. -/
  | release (len : Nat)
  /-- RECOVER (R350). Bark command executing a vendor RECOVER order, aborting jobs and scrubbing. -/
  | recover (len : Nat)
  /-- SCRUB_COMPLETE (R351). The ownership scrub completes and the engine becomes UNOWNED. -/
  | scrubComplete
  /-- HOST_OPEN (R358). Bark command opening the host session and deriving K_host. -/
  | hostOpen (len : Nat)
  /-- GRANT (R352). Bark command accepting a debug or injection grant. -/
  | grant (len : Nat)
  /-- GRANT_START (R352). An accepted grant becomes active at its FIRST_RING. -/
  | grantStart
  /-- GRANT_EXPIRY (R352). A grant ends after its LAST_RING and armed injections are disarmed. -/
  | grantExpiry
  /-- REVOKE (R374). Bark command revoking the active grant. -/
  | revoke (len : Nat)
  /-- KEY_LOAD (R363). Bark command loading SMK or a label key and rewriting the key record. -/
  | keyLoad (len : Nat)
  /-- SMK_GENERATE (R363). Bark command generating the store master key. -/
  | smkGenerate (len : Nat)
  /-- SMK_EXPORT (R362). Bark command returning SMK in an envelope on the -S line. -/
  | smkExport (len : Nat)
  /-- TREE_RESET (R367). Bark command advancing TREE_ID and starting an all-zero tree. -/
  | treeReset (len : Nat)
  /-- ROOT_LOAD (R367). Bark command reading the stored top node and accepting it if it matches ROOT. -/
  | rootLoad (len : Nat) (top : (List Byte))
  /-- ROLLBACK_ADVANCE (R349). Bark command raising an owner anti-rollback counter. -/
  | rollbackAdvance (len : Nat)
  /-- PLANE_READ (R353). Bark command returning one cell's plane under a PLANE_READ grant. -/
  | planeRead (len : Nat)
  /-- FW_WRITE (R456). Bark command writing firmware bytes into the recovery buffer. -/
  | fwWrite (len : Nat)
  /-- FW_COMMIT (R456). Bark command verifying a firmware image and writing its flash bank. -/
  | fwCommit (len : Nat)
  /-- FW_ACTIVATE (R456). Bark command activating a committed Trunk or Limb image. -/
  | fwActivate (len : Nat)
  /-- TRUNK_HANDOVER (R457). At the next ring edge the old Trunk hands over to the new one, with a HOSTPORT reset. -/
  | trunkHandover
  /-- LIMB_DIE_BOOT (R458). A limb die named by FW_ACTIVATE is DIE reset and boots the new Limb image. -/
  | limbDieBoot (limb : Nat)
  /-- SEAL (R354). BARK_CTRL.SEAL seals the RWS fields of the BARK block. -/
  | barkSeal
  /-- BARK_CLR_COUNTERS (R373). BARK_CTRL.CLR_COUNTERS clears every BARK_CNT. -/
  | barkClrCounters
  /-- PUF_HEALTH_CHECK (R340). Every 24 hours the PUF test segment and helper record are checked, raising PUF_MARGIN
  if needed. -/
  | pufHealthCheck (percent : Nat) (helperOk : Bool)
  /-- HEARTWOOD_WRITE (R376). A heartwood write is verified and becomes persistent, retrying on a retired slot. -/
  | heartwoodWrite (reg : Nat) (first : (Option Nat)) (second : (Option Nat))
  /-- HEARTWOOD_REFRESH (R383). A register whose newest slot is 4,320 powered hours old is rewritten. -/
  | heartwoodRefresh (reg : Nat)
  /-- RWH_WRITE (R377). A host write to an RWH field starts a heartwood write on the host or a general lane. -/
  | rwhWrite (addr : Nat) (w : Word64)
  /-- HW_CLR_COUNTERS (R387). HW_CTRL.CLR_COUNTERS clears every HW_CNT. -/
  | hwClrCounters
  /-- POWER_REQUEST (R389). PWR_CTRL.GO requests a power state, pending while jobs are present. -/
  | powerRequest (w : Word64)
  /-- POWER_ENTRY_COMPLETE (R389). Entry into a lower power state completes and the POWER cause is raised. -/
  | powerEntryComplete
  /-- POWER_RETURN_COMPLETE (R389). Return to RUN completes and the POWER cause is raised. -/
  | powerReturnComplete
  /-- WAKE_N (R334). A WAKE_N pulse requests RUN, or starts a full boot from OFF. -/
  | wakeN (ns : Nat)
  /-- DECISION_EDGE (R396). At a decision edge the controller allots class power, sheds or restores work and moves
  the cap and thermal ceilings. -/
  | decisionEdge
  /-- DROOP_EVENT (R404). A droop detector fires and stretches the die's clock, raising POWER/DROOP above the limit.
  -/
  | droopEvent (die : Nat) (cycles : Nat)
  /-- RAIL_FAULT (R405). A die rail outside 10 % for 10 us is removed with POWER/RAIL. -/
  | railFault (die : Nat)
  /-- SENSOR_SAMPLE (R406). Every 10 us the temperature sensors are sampled and validated, raising THERMAL/SENSOR
  when too few are valid. -/
  | sensorSample (r : (List Int))
  /-- HARD_TRIP (R409). An analogue comparator trips, LAST_GASP is written and main rails drop. -/
  | hardTrip (die : Nat)
  /-- DOMAIN_WAKE_DONE (R393). An OFF compute die woken by an access reaches ON and the stalled access proceeds. -/
  | domainWakeDone (die : Nat)
  /-- DOMAIN_WAKE_TIMEOUT (R393). A die not ON within 1 ms raises POWER/DOMAIN_WAKE and becomes UNAVAILABLE. -/
  | domainWakeTimeout (die : Nat)
  /-- EXCURSION_WRITE (R402). A write of PWR_EXCURSION.ALLOW_J sets the allowance A. -/
  | excursionWrite (joules : Nat)
  /-- PWR_CLR_COUNTERS (R415). PWR_CTRL.CLR_COUNTERS clears every PWR_CNT. -/
  | pwrClrCounters
  /-- TRIP_CLEAR (R408). A W1C clear of THM_STATUS.TRIP deasserts THERM_TRIP_N once every die is below THROTTLE minus
  HYST. -/
  | tripClear
  /-- CLR_PEAK (R416). THM_CTRL.CLR_PEAK clears every THM_DIE.PEAK. -/
  | clrPeak
  /-- THM_CLR_COUNTERS (R416). THM_CTRL.CLR_COUNTERS clears every THM_CNT. -/
  | thmClrCounters
  /-- TELEMETRY_RECORD (R411). At an interval end a telemetry record and its tag entry are written. -/
  | telemetryRecord
  /-- TEL_ENABLE_WRITE (R411). A write of TEL_CTRL.ENABLE starts or stops telemetry and restarts record numbering. -/
  | telEnableWrite (b : Bool)
  /-- TEL_CLR_COUNTERS (R417). TEL_CTRL.CLR_COUNTERS clears every TEL_CNT. -/
  | telClrCounters
  /-- CONDENSATION_HOLD (R26). The cold-plate inlet comes within 1 K of the dew point and a condensation hold begins.
  -/
  | condensationHold
  /-- CONDENSATION_CLEAR (R26). The inlet is 2 K above the dew point and the hold ends with an ENGINE reset or boot
  continuation. -/
  | condensationClear
  /-- TILT_WARNING (R20). A tilt beyond 2 degrees is reported over the management port. -/
  | tiltWarning
  /-- INPUT_FAIL (R23). Main input undervoltage or overvoltage writes LAST_GASP, asserts FAULT_N and drops main
  rails. -/
  | inputFail
  /-- INPUT_RETURN (R23). Main input back in range for 100 ms starts an ENGINE reset and boot. -/
  | inputReturn
  /-- STANDBY_LOSS (R22). Loss of standby stops the main stage within 50 us. -/
  | standbyLoss
  /-- POWER_ON (R445). STBY_12V rising into range performs a power-on reset and starts boot at stage 0. -/
  | powerOn (slot : Nat)
  /-- RESET_N (R28). A filtered RESET_N pulse performs an ENGINE reset. -/
  | resetN (ns : Nat)
  /-- INJ_CELL (R422). INJ_CELL.GO arms a cell detector injection. -/
  | injCell (w : Word64)
  /-- INJ_NET (R422). INJ_NET.GO arms a network detector injection. -/
  | injNet (w : Word64)
  /-- INJ_EDGE (R422). INJ_EDGE.GO arms an edge-link detector injection. -/
  | injEdge (w : Word64)
  /-- INJ_ROOT (R422). INJ_ROOT.GO arms a root-die detector injection. -/
  | injRoot (w : Word64)
  /-- RECOVERY_START (R426). At the first ring edge after CELL_DEAD under RECOVER the step is abandoned and SHIFT
  writes the band entry. -/
  | recoveryStart
  /-- BAND_SHIFT (R426). Under STOP or with no job present the dead cell's band is shifted before the next job. -/
  | bandShift
  /-- SHIFT_COMPLETE (R426). The band entry write persists and COPY of the moved cells begins. -/
  | shiftComplete
  /-- COPY_COMPLETE (R426). The last moved row is copied and RELOAD and RESTORE begin. -/
  | copyComplete
  /-- RESTORE_COMPLETE (R428). Every reload and checkpoint chunk is verified and placed, and REPLAY begins, or
  RESTORE_FAIL ends the job. -/
  | restoreComplete (r : Restore)
  /-- REPLAY_COMPLETE (R429). Recovery replay ends and the job resumes at the dead step with a moved start ring. -/
  | replayComplete
  /-- SELF_TEST_DONE (R431). A field self-test of one cell completes, declaring CELL_DEAD/SELF_TEST on failure. -/
  | selfTestDone (px : Nat) (py : Nat) (pass : Bool)
  /-- JOURNAL_WRITE (R434). Journal records are written from the root-die buffer to the host or store target. -/
  | journalWrite
  /-- RAS_CLR_COUNTERS (R441). RAS_CTRL.CLR_COUNTERS clears RAS_CNT and RAS_DIE_ERR. -/
  | rasClrCounters
  /-- JOURNAL_CLR_COUNTERS (R443). JOURNAL_CTRL.CLR_COUNTERS clears every JOURNAL_CNT. -/
  | journalClrCounters
  /-- SPARSE_CLR_COUNTERS (R173). SPARSE_CTRL.CLR_COUNTERS clears the SPARSE counters and LAST fields. -/
  | sparseClrCounters
  /-- FAB_CLR_COUNTERS (R202). FAB_CTRL.CLR_COUNTERS clears the FAB counters, probe and high-water fields. -/
  | fabClrCounters
  /-- FAB_PROBE_SEL_WRITE (R202). A FAB_PROBE_SEL write selects the probed input at the next edge and clears the
  probe count, or is rejected. -/
  | fabProbeSelWrite (w : Word64)
  /-- BOOT_STAGE (R447). A boot stage completes and the next stage begins. -/
  | bootStage (o : BootObs)
  /-- READY (R453). Stages 0-17 are complete and the ring is LOCKED or HOLDOVER; lifetime and rollback counters
  update and polling starts. -/
  | ready
  /-- GAP_NAK_REPEAT (R277). While a receiver still holds a frame above a gap, it repeats the acknowledgement frame
  with NAK = 1 at most once per RTO. -/
  | gapNakRepeat (i : Nat)
  /-- LIFE_COUNTER_UPDATE (R384). Every 24 powered hours the engine writes the volatile powered-hours and energy
  counts into LIFE[0] and LIFE[2]. -/
  | lifeCounterUpdate
  /-- ENTROPY_HEALTH_FAIL (R339). The on-die entropy source fails its SP 800-90B health tests, and Bark makes no key
  or nonce until the source recovers at the next reseed. -/
  | entropyHealthFail
  /-- IDE_KM_REQUEST (R320). The host sends an SPDM 1.2 or IDE_KM message through the DOE mailbox to set up the
  secure session and program IDE keys, making a stream Secure. -/
  | ideKmRequest (secure : Bool)
  deriving DecidableEq, Repr

end Sys2Proof
end

