-- ==== Sys2Proof/Decode.lean ====
section
/-!
DEFINITION. The command a table word spells: the rows of the table of operations and events give no bits, so none.
-/
namespace Sys2Proof

/-- The rows of the table carry no bit fields: no word spells a command. -/
def decodeTableWord (_nbits _w : Nat) : Option Instr := none

end Sys2Proof
end

