-- ==== Sys2Proof/Machine/Sha.lean ====
section
/-!
DEFINITION. SHA-384 and SHA-256 (FIPS 180-4) and HKDF-SHA-384 (RFC 5869): the hash of graft digests, measurements, key hashes, the tree
root and every key derivation (R204, R338, R342, R344, R348, R357, R364, R367, R371). The constants are the fractional parts of roots of primes.
-/
namespace Sys2Proof.Machine

/-- The round constants of the SHA-512 family. -/
def shaK : List Nat :=
  [0x428A2F98D728AE22, 0x7137449123EF65CD, 0xB5C0FBCFEC4D3B2F, 0xE9B5DBA58189DBBC,
   0x3956C25BF348B538, 0x59F111F1B605D019, 0x923F82A4AF194F9B, 0xAB1C5ED5DA6D8118,
   0xD807AA98A3030242, 0x12835B0145706FBE, 0x243185BE4EE4B28C, 0x550C7DC3D5FFB4E2,
   0x72BE5D74F27B896F, 0x80DEB1FE3B1696B1, 0x9BDC06A725C71235, 0xC19BF174CF692694,
   0xE49B69C19EF14AD2, 0xEFBE4786384F25E3, 0x0FC19DC68B8CD5B5, 0x240CA1CC77AC9C65,
   0x2DE92C6F592B0275, 0x4A7484AA6EA6E483, 0x5CB0A9DCBD41FBD4, 0x76F988DA831153B5,
   0x983E5152EE66DFAB, 0xA831C66D2DB43210, 0xB00327C898FB213F, 0xBF597FC7BEEF0EE4,
   0xC6E00BF33DA88FC2, 0xD5A79147930AA725, 0x06CA6351E003826F, 0x142929670A0E6E70,
   0x27B70A8546D22FFC, 0x2E1B21385C26C926, 0x4D2C6DFC5AC42AED, 0x53380D139D95B3DF,
   0x650A73548BAF63DE, 0x766A0ABB3C77B2A8, 0x81C2C92E47EDAEE6, 0x92722C851482353B] ++
  [0xA2BFE8A14CF10364, 0xA81A664BBC423001, 0xC24B8B70D0F89791, 0xC76C51A30654BE30,
   0xD192E819D6EF5218, 0xD69906245565A910, 0xF40E35855771202A, 0x106AA07032BBD1B8,
   0x19A4C116B8D2D0C8, 0x1E376C085141AB53, 0x2748774CDF8EEB99, 0x34B0BCB5E19B48A8,
   0x391C0CB3C5C95A63, 0x4ED8AA4AE3418ACB, 0x5B9CCA4F7763E373, 0x682E6FF3D6B2B8A3,
   0x748F82EE5DEFB2FC, 0x78A5636F43172F60, 0x84C87814A1F0AB72, 0x8CC702081A6439EC,
   0x90BEFFFA23631E28, 0xA4506CEBDE82BDE9, 0xBEF9A3F7B2C67915, 0xC67178F2E372532B,
   0xCA273ECEEA26619C, 0xD186B8C721C0C207, 0xEADA7DD6CDE0EB1E, 0xF57D4F7FEE6ED178,
   0x06F067AA72176FBA, 0x0A637DC5A2C898A6, 0x113F9804BEF90DAE, 0x1B710B35131C471B,
   0x28DB77F523047D84, 0x32CAAB7B40C72493, 0x3C9EBE0A15C9BEBC, 0x431D67C49C100D4C,
   0x4CC5D4BECB3E42B6, 0x597F299CFC657E2A, 0x5FCB6FAB3AD6FAEC, 0x6C44198C4A475817]

/-- The initial hash value of SHA-384. -/
def shaInit : List Nat :=
  [0xCBBB9D5DC1059ED8, 0x629A292A367CD507, 0x9159015A3070DD17, 0x152FECD8F70E5939,
   0x67332667FFC00B31, 0x8EB44A8768581511, 0xDB0C2E0D64F98FA7, 0x47B5481DBEFA4FA4]

/-- Rotate right on 64 bits. -/
def rotr64 (n x : Nat) : Nat := ((x >>> n) ||| (x <<< (64 - n))) % 2 ^ 64

/-- Addition modulo 2^64. -/
def add64 (a b : Nat) : Nat := (a + b) % 2 ^ 64

/-- The working variables of one compression. -/
structure ShaVars where
  a : Nat
  b : Nat
  c : Nat
  d : Nat
  e : Nat
  f : Nat
  g : Nat
  h : Nat
  deriving DecidableEq, Repr

/-- One round: constant `k`, schedule word `w`. -/
def shaRound (v : ShaVars) (k w : Nat) : ShaVars :=
  let s1 := rotr64 14 v.e ^^^ rotr64 18 v.e ^^^ rotr64 41 v.e
  let ch := (v.e &&& v.f) ^^^ ((2 ^ 64 - 1 - v.e) &&& v.g)
  let t1 := (v.h + s1 + ch + k + w) % 2 ^ 64
  let s0 := rotr64 28 v.a ^^^ rotr64 34 v.a ^^^ rotr64 39 v.a
  let mj := (v.a &&& v.b) ^^^ (v.a &&& v.c) ^^^ (v.b &&& v.c)
  ⟨add64 t1 (s0 + mj), v.a, v.b, v.c, add64 v.d t1, v.e, v.f, v.g⟩

/-- The next schedule word from a window of sixteen. -/
def shaNext (win : List Nat) : Nat :=
  let w1 := win.getD 1 0
  let w14 := win.getD 14 0
  let s0 := rotr64 1 w1 ^^^ rotr64 8 w1 ^^^ (w1 >>> 7)
  let s1 := rotr64 19 w14 ^^^ rotr64 61 w14 ^^^ (w14 >>> 6)
  (win.getD 0 0 + s0 + win.getD 9 0 + s1) % 2 ^ 64

/-- All rounds over a list of round constants, the window sliding by one word a round. -/
def shaRounds : List Nat → List Nat → ShaVars → ShaVars
  | [], _, v => v
  | k :: ks, win, v => shaRounds ks (win.drop 1 ++ [shaNext win]) (shaRound v k (win.getD 0 0))

/-- The compression of one block of sixteen words into the chaining value. -/
def shaBlock (h : List Nat) (win : List Nat) : List Nat :=
  let v0 : ShaVars := ⟨h.getD 0 0, h.getD 1 0, h.getD 2 0, h.getD 3 0, h.getD 4 0, h.getD 5 0, h.getD 6 0, h.getD 7 0⟩
  let v := shaRounds shaK win v0
  [add64 v0.a v.a, add64 v0.b v.b, add64 v0.c v.c, add64 v0.d v.d,
   add64 v0.e v.e, add64 v0.f v.f, add64 v0.g v.g, add64 v0.h v.h]

/-- Big-endian value of bytes. -/
def beNat (bs : List Byte) : Nat := bs.foldl (fun n b => 256 * n + b.toNat) 0

/-- The `n` big-endian bytes of a value. -/
def beBytes : Nat → Nat → List Byte
  | 0, _ => []
  | n + 1, v => BitVec.ofNat 8 (v / 256 ^ n) :: beBytes n v

/-- The words of a byte list, eight bytes each, first byte most significant; `n` words. -/
def shaWords : Nat → List Byte → List Nat
  | 0, _ => []
  | n + 1, bs => beNat (bs.take 8) :: shaWords n (bs.drop 8)

/-- The padding after a message of `n` bytes: 0x80, zeros, the 128-bit length in bits. -/
def shaPad (n : Nat) : List Byte :=
  0x80 :: List.replicate ((239 - n % 128) % 128) 0 ++ beBytes 16 (8 * n)

/-- Compresses `n` blocks of a padded message. -/
def shaBlocks : Nat → List Nat → List Byte → List Nat
  | 0, h, _ => h
  | n + 1, h, bs => shaBlocks n (shaBlock h (shaWords 16 bs)) (bs.drop 128)

/-- SHA-384 of a byte string, 48 bytes. -/
def sha384 (msg : List Byte) : List Byte :=
  let m := msg ++ shaPad msg.length
  ((shaBlocks (m.length / 128) shaInit m).take 6).flatMap (beBytes 8)

/-! ## SHA-256 (FIPS 180-4), the hash of the LMS trees (R338) -/

/-- The round constants of SHA-256 are the leading halves of the first 64 of the SHA-512 family. -/
def sha256K : List Nat := (shaK.take 64).map (· / 2 ^ 32)

/-- The initial hash value of SHA-256. -/
def sha256Init : List Nat :=
  [0x6A09E667, 0xBB67AE85, 0x3C6EF372, 0xA54FF53A, 0x510E527F, 0x9B05688C, 0x1F83D9AB, 0x5BE0CD19]

/-- Rotate right on 32 bits. -/
def rotr32 (n x : Nat) : Nat := ((x >>> n) ||| (x <<< (32 - n))) % 2 ^ 32

/-- One round of SHA-256. -/
def sha256Round (v : ShaVars) (k w : Nat) : ShaVars :=
  let s1 := rotr32 6 v.e ^^^ rotr32 11 v.e ^^^ rotr32 25 v.e
  let ch := (v.e &&& v.f) ^^^ ((2 ^ 32 - 1 - v.e) &&& v.g)
  let t1 := v.h + s1 + ch + k + w
  let s0 := rotr32 2 v.a ^^^ rotr32 13 v.a ^^^ rotr32 22 v.a
  let mj := (v.a &&& v.b) ^^^ (v.a &&& v.c) ^^^ (v.b &&& v.c)
  ⟨(t1 + s0 + mj) % 2 ^ 32, v.a, v.b, v.c, (v.d + t1) % 2 ^ 32, v.e, v.f, v.g⟩

/-- The next schedule word of SHA-256. -/
def sha256Next (win : List Nat) : Nat :=
  let w1 := win.getD 1 0
  let w14 := win.getD 14 0
  let s0 := rotr32 7 w1 ^^^ rotr32 18 w1 ^^^ (w1 >>> 3)
  let s1 := rotr32 17 w14 ^^^ rotr32 19 w14 ^^^ (w14 >>> 10)
  (win.getD 0 0 + s0 + win.getD 9 0 + s1) % 2 ^ 32

/-- All rounds of SHA-256. -/
def sha256Rounds : List Nat → List Nat → ShaVars → ShaVars
  | [], _, v => v
  | k :: ks, win, v => sha256Rounds ks (win.drop 1 ++ [sha256Next win]) (sha256Round v k (win.getD 0 0))

/-- The working variables as words, in order. -/
def ShaVars.words (v : ShaVars) : List Nat := [v.a, v.b, v.c, v.d, v.e, v.f, v.g, v.h]

/-- The compression of a 64-byte block. -/
def sha256Block (h : List Nat) (bs : List Byte) : List Nat :=
  let win := (List.range 16).map (fun k => beNat ((bs.drop (4 * k)).take 4))
  let v := sha256Rounds sha256K win
    ⟨h.getD 0 0, h.getD 1 0, h.getD 2 0, h.getD 3 0, h.getD 4 0, h.getD 5 0, h.getD 6 0, h.getD 7 0⟩
  List.zipWith (fun x y => (x + y) % 2 ^ 32) h v.words

/-- Compresses `n` blocks of a padded message. -/
def sha256Blocks : Nat → List Nat → List Byte → List Nat
  | 0, h, _ => h
  | n + 1, h, bs => sha256Blocks n (sha256Block h (bs.take 64)) (bs.drop 64)

/-- SHA-256 of a byte string, 32 bytes. -/
def sha256 (msg : List Byte) : List Byte :=
  let m := msg ++ (0x80 :: List.replicate ((119 - msg.length % 64) % 64) 0 ++ beBytes 8 (8 * msg.length))
  (sha256Blocks (m.length / 64) sha256Init m).flatMap (beBytes 4)

/-! ## HMAC and HKDF with SHA-384 (RFC 5869; R338, R357, R358, R364, R366) -/

/-- Every byte of a 128-byte key block with a constant added bit by bit. -/
def padKey (key : List Byte) (c : Byte) : List Byte :=
  let k := if 128 < key.length then sha384 key else key
  (k ++ List.replicate (128 - k.length) 0).map (· ^^^ c)

/-- HMAC-SHA-384. -/
def hmac384 (key msg : List Byte) : List Byte := sha384 (padKey key 0x5C ++ sha384 (padKey key 0x36 ++ msg))

/-- HKDF-Extract; an empty salt is 48 zero bytes, which pad to the same key block. -/
def hkdfExtract (salt ikm : List Byte) : List Byte := hmac384 salt ikm

/-- The blocks T(i) of HKDF-Expand, `n` of them. -/
def hkdfBlocks (prk info : List Byte) : Nat → Nat → List Byte → List Byte
  | 0, _, _ => []
  | n + 1, k, prev =>
    let t := hmac384 prk (prev ++ info ++ [BitVec.ofNat 8 k])
    t ++ hkdfBlocks prk info n (k + 1) t

/-- HKDF-Expand to `len` bytes. -/
def hkdfExpand (prk info : List Byte) (len : Nat) : List Byte := (hkdfBlocks prk info ((len + 47) / 48) 1 []).take len

/-- The bytes of an info string: ASCII without a terminator (R357). -/
def ascii (t : String) : List Byte := t.toList.map (fun c => BitVec.ofNat 8 c.toNat)

end Sys2Proof.Machine
end

