-- ==== Sys2Proof/Machine/Aes.lean ====
section
/-!
DEFINITION. AES-256 (FIPS 197) in GCM and GMAC (NIST SP 800-38D): the cipher of the key record, the host session, Sap frames, store
chunks and tree nodes (R270, R338, R359, R363, R364, R366).
-/
namespace Sys2Proof.Machine

/-! ## AES-256 -/

/-- Doubling in the field of 256 elements. -/
def xtime (a : Nat) : Nat := if 128 ≤ a then (2 * a) % 256 ^^^ 0x1B else 2 * a

/-- The product of two field elements, over `n` bits of the second. -/
def gmul8 : Nat → Nat → Nat → Nat
  | 0, _, _ => 0
  | n + 1, a, b => (if b % 2 = 1 then a else 0) ^^^ gmul8 n (xtime a) (b / 2)

/-- The inverse of a field element, its 254th power; 0 for 0. -/
def ginv8 (a : Nat) : Nat :=
  let sq (x : Nat) : Nat := gmul8 8 x x
  let x2 := sq a
  let x4 := sq x2
  let x8 := sq x4
  let x16 := sq x8
  let x32 := sq x16
  let x64 := sq x32
  [x4, x8, x16, x32, x64, sq x64].foldl (gmul8 8) x2

/-- The substitution of one byte: the inverse under the affine map. -/
def aesSub (a : Nat) : Nat :=
  let b := ginv8 a
  let rot (k : Nat) : Nat := (b * 2 ^ k) % 256 + b / 2 ^ (8 - k)
  b ^^^ rot 1 ^^^ rot 2 ^^^ rot 3 ^^^ rot 4 ^^^ 0x63

/-- The round constant of a power of the round. -/
def aesRcon : Nat → Nat
  | 0 => 1
  | n + 1 => xtime (aesRcon n)

/-- Addition of two byte strings, bit by bit. -/
def addBytes (a b : List Nat) : List Nat := List.zipWith (· ^^^ ·) a b

/-- The next word of the key schedule, number `k`, from the last eight. -/
def aesKeyWord (k : Nat) (last : List (List Nat)) : List Nat :=
  let w := last.getD 7 []
  let t :=
    if k % 8 = 0 then addBytes ((w.drop 1 ++ w.take 1).map aesSub) [aesRcon (k / 8 - 1), 0, 0, 0]
    else if k % 8 = 4 then w.map aesSub
    else w
  addBytes (last.getD 0 []) t

/-- `n` more words of the key schedule. -/
def aesKeyWords : Nat → Nat → List (List Nat) → List (List Nat)
  | 0, _, _ => []
  | n + 1, k, last =>
    let w := aesKeyWord k last
    w :: aesKeyWords n (k + 1) (last.drop 1 ++ [w])

/-- The 15 round keys of a 32-byte key, 16 bytes each. -/
def aesKeys (key : List Nat) : List (List Nat) :=
  let w0 := (List.range 8).map (fun k => (key.drop (4 * k)).take 4)
  let w := w0 ++ aesKeyWords 52 8 w0
  (List.range 15).map (fun r => ((w.drop (4 * r)).take 4).flatten)

/-- Row r of the state moves r columns. -/
def shiftRows (s : List Nat) : List Nat :=
  (List.range 16).map (fun k => s.getD (4 * ((k / 4 + k % 4) % 4) + k % 4) 0)

/-- The column mix. -/
def mixColumns (s : List Nat) : List Nat :=
  (List.range 16).map (fun k =>
    let b (r : Nat) : Nat := s.getD (4 * (k / 4) + (k + r) % 4) 0
    xtime (b 0) ^^^ xtime (b 1) ^^^ b 1 ^^^ b 2 ^^^ b 3)

/-- The rounds after the first key addition; the last has no mix. -/
def aesRounds : List (List Nat) → List Nat → List Nat
  | [], s => s
  | [k], s => addBytes (shiftRows (s.map aesSub)) k
  | k :: ks, s => aesRounds ks (addBytes (mixColumns (shiftRows (s.map aesSub))) k)

/-- AES-256 of a block, under its round keys. -/
def aesBlock (keys : List (List Nat)) (blk : List Nat) : List Nat := aesRounds (keys.drop 1) (addBytes blk (keys.getD 0 []))

/-! ## GCM -/

/-- The bits of an element from the first, with the running multiple of the other factor. -/
def ghashMul : Nat → Nat → Nat → Nat
  | 0, _, _ => 0
  | n + 1, x, v =>
    (if x.testBit n then v else 0) ^^^ ghashMul n x (if v % 2 = 1 then v / 2 ^^^ 0xE1 * 2 ^ 120 else v / 2)

/-- GHASH over `n` blocks of 16 bytes, a short last block filled with zeros. -/
def ghash (h : Nat) : Nat → Nat → List Byte → Nat
  | 0, y, _ => y
  | n + 1, y, bs =>
    let b := bs.take 16
    ghash h n (ghashMul 128 (y ^^^ beNat (b ++ List.replicate (16 - b.length) 0)) h) (bs.drop 16)

/-- How many 16-byte blocks bytes take. -/
def blocks16 (bs : List Byte) : Nat := (bs.length + 15) / 16

/-- Counter block `k` of a 12-byte IV; block 1 makes the tag. -/
def gcmBlock (keys : List (List Nat)) (iv : List Byte) (k : Nat) : List Byte :=
  (aesBlock keys ((iv.take 12 ++ beBytes 4 (k % 2 ^ 32)).map (·.toNat))).map (BitVec.ofNat 8)

/-- The key stream added to `n` blocks of text, from counter block `k`. -/
def gcmStream (keys : List (List Nat)) (iv : List Byte) : Nat → Nat → List Byte → List Byte
  | 0, _, _ => []
  | n + 1, k, bs => List.zipWith (· ^^^ ·) (bs.take 16) (gcmBlock keys iv k) ++ gcmStream keys iv n (k + 1) (bs.drop 16)

/-- The tag over additional data and ciphertext. -/
def gcmTag (keys : List (List Nat)) (iv aad ct : List Byte) : List Byte :=
  let h := beNat ((aesBlock keys (List.replicate 16 0)).map (BitVec.ofNat 8))
  let y := ghash h (blocks16 ct) (ghash h (blocks16 aad) 0 aad) ct
  let y := ghashMul 128 (y ^^^ (8 * aad.length * 2 ^ 64 + 8 * ct.length)) h
  List.zipWith (· ^^^ ·) (beBytes 16 y) (gcmBlock keys iv 1)

/-- The round keys of a key in bytes. -/
def keySchedule (key : List Byte) : List (List Nat) := aesKeys (((key ++ List.replicate 32 0).take 32).map (fun (b : Byte) => b.toNat))

/-- AES-256-GCM encryption: the ciphertext and the 16-byte tag. -/
def gcmSeal (key iv aad text : List Byte) : List Byte × List Byte :=
  let ks := keySchedule key
  let ct := gcmStream ks iv (blocks16 text) 2 text
  (ct, gcmTag ks iv aad ct)

/-- AES-256-GCM decryption: nothing where the tag fails. -/
def gcmOpen (key iv aad ct tag : List Byte) : Option (List Byte) :=
  let ks := keySchedule key
  if gcmTag ks iv aad ct = tag then some (gcmStream ks iv (blocks16 ct) 2 ct) else none

/-- AES-256-GMAC: the tag over data alone. -/
def gmac (key iv data : List Byte) : List Byte := (gcmSeal key iv data []).2

end Sys2Proof.Machine
end

