-- ==== Sys2Proof/Config.lean ====
section
/-!
DEFINITION. What the spec leaves open: opaque constants with no body, so that nothing can be proved about the value.
A claim about the machine holds whatever they are. Each is named in the assumption log.
-/
namespace Sys2Proof.Config

open Sys2Proof.Machine

/-- A free bit, by a counter the step advances (log 1). -/
opaque freeBit : Nat → Bool
/-- A free number, by a counter the step advances (log 1). -/
opaque freeNat : Nat → Nat
/-- Random bytes of Bark's DRBG: draw number, length (R339; log 2). -/
opaque randomBytes : Nat → Nat → List Byte
/-- The device secret DS that the PUF gives (R337; log 2). -/
opaque deviceSecret : List Byte
/-- The ROM revision word (R348; log 2). -/
opaque romWord : List Byte
/-- The vendor key hash that boot ROM holds (R342; log 2). -/
opaque vendorKeyHash : List Byte
/-- The vendor's signature block over a message: of the device certificate and of what the module shipped with (R341, R345; log 2). -/
opaque vendorSign : List Byte → List Byte
/-- The body of the firmware image of a kind that the module shipped with (R449; log 17). -/
opaque firmwareBody : Nat → List Byte
/-- Identifier, seed and randomizer of bottom tree q of an HSS key, by the key's 48 bytes (R338, R346; log 46). -/
opaque lowerTree : List Byte → Nat → List Byte
/-- The byte at an address of a scratchpad whose contents were lost: loss number, cell, address (R129, R393; log 3). -/
opaque lostByte : Nat → Nat → Nat → Byte
/-- The pipeline region of a plane as Tamis lays it out (R207; log 4). -/
opaque pipeOf : List Byte → PipeCfg
/-- An address-generator pattern of a plane as Tamis lays it out: 32 bytes (R207; log 4). -/
opaque agOf : List Byte → AgPattern
/-- A steering unit's region of a plane as Tamis lays it out: 32 bytes (R207; log 4). -/
opaque steerOf : List Byte → SteerCfg
/-- The fixed tables of activation functions 4 to 10, the same in every cell of every engine: function, segment, coefficient (R97;
log 5). -/
opaque actTable : Nat → Nat → Nat → Word32
/-- The bounds of those tables (R97; log 5). -/
opaque actBounds : Nat → Word32 × Word32
/-- What a tree slot of a tree chunk holds that the model does not follow: chunk, slot (R366; log 47). -/
opaque unknownSlot : Nat → Nat → List Byte
/-- The S-net route of a NACK from an owner's cell to a writer's, by their keys: the spec gives a NACK no route (R184; log 21). -/
opaque nackRoute : Nat → Nat → Nat
/-- The S-net route of a CLAIM_REPLY from a counter cell to a claimant, by their keys: the spec gives it no route (R247; log 22). -/
opaque claimRoute : Nat → Nat → Nat
/-- Where DETAIL of an edge or Sap record names its port or half, session and SEQ, or the cause of a LINK/DOWN: the spec gives the fact, not
the place (R267, R285; log 7). -/
opaque sapDetail : Nat → Nat → Nat → Nat

end Sys2Proof.Config
end

