-- ==== Sys2Proof/Machine/Crc.lean ====
section
/-!
DEFINITION. The cyclic redundancy codes the spec names by polynomial, initial value and reflection: CRC-32C (R115),
CRC-64 (R251), and the unreflected CRCs of the timecode frame (R47).
-/
namespace Sys2Proof.Machine

/-- One bit of an unreflected CRC of width `w`: the message bit enters at the top. -/
def crcBit (w poly c : Nat) (b : Bool) : Nat :=
  let top := xor (c.testBit (w - 1)) b
  let sh := (2 * c) % 2 ^ w
  if top then sh ^^^ poly else sh

/-- An unreflected CRC over bits, first bit first. -/
def crcBits (w poly init : Nat) (bs : List Bool) : Nat := bs.foldl (crcBit w poly) init

/-- Eight shifts of a reflected CRC register. -/
def crcShift (poly : Nat) : Nat → Nat → Nat
  | 0, c => c
  | n + 1, c => crcShift poly n (if c % 2 = 1 then (c / 2) ^^^ poly else c / 2)

/-- One byte of a reflected CRC. -/
def crcByte (poly c : Nat) (b : Byte) : Nat := crcShift poly 8 (c ^^^ b.toNat)

/-- A reflected CRC over bytes. -/
def crcBytes (poly init xorOut : Nat) (bs : List Byte) : Nat := (bs.foldl (crcByte poly) init) ^^^ xorOut

/-- CRC-32C: the Castagnoli polynomial 0x1EDC_6F41, reflected, initial value and final XOR all ones (R115). -/
def crc32c (bs : List Byte) : Nat := crcBytes 0x82F63B78 0xFFFFFFFF 0xFFFFFFFF bs

/-- The CRC-64 of R251: polynomial 0x42F0_E1EB_A9EA_3693, reflected, initial value and final XOR all ones. -/
def crc64 (bs : List Byte) : Nat :=
  crcBytes 0xC96C5795D7870F42 0xFFFFFFFFFFFFFFFF 0xFFFFFFFFFFFFFFFF bs

end Sys2Proof.Machine
end

