-- ==== Sys2Proof/Machine/Curve.lean ====
section
/-!
DEFINITION. Curve P-384 (NIST SP 800-186), ECDSA with SHA-384 and key generation by extra random bits (FIPS 186-5), and the ECDH shared
secret (R338, R341, R355, R357).
-/
namespace Sys2Proof.Machine

/-- The field of the curve. -/
def curveP : Nat := 2 ^ 384 - 2 ^ 128 - 2 ^ 96 + 2 ^ 32 - 1
/-- The order of the base point. -/
def curveN : Nat := 0xFFFFFFFFFFFFFFFFFFFFFFFFFFFFFFFFFFFFFFFFFFFFFFFFC7634D81F4372DDF581A0DB248B0A77AECEC196ACCC52973
/-- The constant of the curve's equation y² = x³ − 3x + b. -/
def curveB : Nat := 0xB3312FA7E23EE7E4988E056BE3F82D19181D9C6EFE8141120314088F5013875AC656398D8A2ED19D2A85C8EDD3EC2AEF

/-- A point by its coordinates; nothing is the point at infinity. -/
abbrev Point := Option (Nat × Nat)

/-- The base point. -/
def curveG : Point :=
  some (0xAA87CA22BE8B05378EB1C71EF320AD746E1D3B628BA79B9859F741E082542A385502F25DBF55296C3A545E3872760AB7,
    0x3617DE4A96262C6F5D9E98BF9292DC29F8F41DBD289A147CE9DA3113B5F0B8C00A60B1CE1D7E819D7A431D7C90EA0E5F)

/-- A power modulo m, over `n` bits of the exponent. -/
def powMod (m : Nat) : Nat → Nat → Nat → Nat
  | 0, _, _ => 1 % m
  | n + 1, b, e => (if e % 2 = 1 then b else 1) * powMod m n (b * b % m) (e / 2) % m

/-- The inverse modulo a prime of at most 384 bits. -/
def invMod (m a : Nat) : Nat := powMod m 384 (a % m) (m - 2)

/-- Subtraction in the field. -/
def subP (a b : Nat) : Nat := (a + curveP - b % curveP) % curveP

/-- The sum on the line of slope `l` through a point and a second abscissa. -/
def chord (l : Nat) (p : Nat × Nat) (x2 : Nat) : Point :=
  let x := subP (l * l) (p.1 + x2)
  some (x, subP (l * subP p.1 x) p.2)

/-- The sum of two points. -/
def Point.add : Point → Point → Point
  | none, q => q
  | p, none => p
  | some (x1, y1), some (x2, y2) =>
    if x1 ≠ x2 then chord (subP y2 y1 * invMod curveP (subP x2 x1) % curveP) (x1, y1) x2
    else if y1 ≠ y2 ∨ y1 = 0 then none
    else chord (subP (3 * x1 * x1) 3 * invMod curveP (2 * y1) % curveP) (x1, y1) x2

/-- A multiple of a point, over `n` bits of the factor. -/
def Point.mulBits : Nat → Nat → Point → Point
  | 0, _, _ => none
  | n + 1, k, p =>
    let q := Point.mulBits n (k / 2) (Point.add p p)
    if k % 2 = 1 then Point.add p q else q

/-- A multiple of a point. -/
def Point.mul (k : Nat) (p : Point) : Point := Point.mulBits 384 k p

/-- Whether coordinates lie on the curve. -/
def onCurve (x y : Nat) : Bool :=
  decide (x < curveP) && decide (y < curveP) && y * y % curveP == (x * x * x + curveB + 3 * (curveP - x)) % curveP

/-- The 97 bytes of a point: 0x04, X, Y (Table 7.8). -/
def Point.bytes : Point → List Byte
  | none => List.replicate 97 0
  | some (x, y) => 0x04 :: beBytes 48 x ++ beBytes 48 y

/-- The point that 97 bytes spell; nothing where they spell none. -/
def pointOf (bs : List Byte) : Point :=
  let x := beNat ((bs.drop 1).take 48)
  let y := beNat (bs.drop 49)
  if bs.length = 97 ∧ bs.head? = some 0x04 ∧ onCurve x y = true then some (x, y) else none

/-- A private key from 56 bytes, 64 bits more than the order has (FIPS 186-5 A.2.1; R338). -/
def scalarOf (bits : List Byte) : Nat := beNat bits % (curveN - 1) + 1

/-- The public key of a private key. -/
def publicPoint (d : Nat) : List Byte := (Point.mul d curveG).bytes

/-- The hash of a message as a number, 384 bits. -/
def hashNat (msg : List Byte) : Nat := beNat (sha384 msg)

/-- An ECDSA signature, r then s, 48 bytes each, with the secret number `k` of the message. -/
def ecdsaSign (d k : Nat) (msg : List Byte) : List Byte :=
  let r := ((Point.mul k curveG).getD (0, 0)).1 % curveN
  beBytes 48 r ++ beBytes 48 (invMod curveN k * (hashNat msg + r * d) % curveN)

/-- Whether an ECDSA signature verifies under a public key (R341). -/
def ecdsaVerify (key msg sig : List Byte) : Bool :=
  let r := beNat (sig.take 48)
  let s := beNat (sig.drop 48)
  let w := invMod curveN s
  match pointOf key, sig.length == 96 && decide (0 < r) && decide (r < curveN) && decide (0 < s) && decide (s < curveN) with
  | some q, true =>
    match Point.add (Point.mul (hashNat msg * w % curveN) curveG) (Point.mul (r * w % curveN) (some q)) with
    | some (x, _) => x % curveN == r
    | none => false
  | _, _ => false

/-- The 48-byte ECDH shared secret: the abscissa of the product (R357); nothing where the peer's bytes spell no point. -/
def ecdh (d : Nat) (peer : List Byte) : Option (List Byte) :=
  match pointOf peer with
  | none => none
  | some q => (Point.mul d (some q)).map (fun p => beBytes 48 p.1)

end Sys2Proof.Machine
end

