-- ==== Sys2Proof/Machine/Lms.lean ====
section
/-!
DEFINITION. HSS of two levels, each LMS_SHA256_M32_H10 with LMOTS_SHA256_N32_W4 (NIST SP 800-208, RFC 8554; R338, R341, R346).
-/
namespace Sys2Proof.Machine

/-- The prefix of every hash of a tree: its identifier I, a number, and a 16-bit tag. -/
def lmsHead (ident : List Byte) (q tag : Nat) : List Byte := ident ++ beBytes 4 q ++ beBytes 2 tag

/-- A chain of hashes: step `j` on, `n` of them. -/
def otsChain (head : List Byte) : Nat → Nat → List Byte → List Byte
  | 0, _, v => v
  | n + 1, j, v => otsChain head n (j + 1) (sha256 (head ++ [BitVec.ofNat 8 j] ++ v))

/-- The 67 digits of a message hash: 64 of the hash, four bits each, and three of the checksum. -/
def otsDigits (q : List Byte) : List Nat :=
  let d := q.flatMap (fun b => [b.toNat / 16, b.toNat % 16])
  let sum := (d.map (15 - ·)).foldl (· + ·) 0
  d ++ [sum / 256, sum / 16 % 16, sum % 16]

/-- The hash of a message under leaf q of a tree and the randomizer C. -/
def otsHash (ident : List Byte) (q : Nat) (c msg : List Byte) : List Byte := sha256 (lmsHead ident q 0x8181 ++ c ++ msg)

/-- The public value of a leaf from the ends of its chains. -/
def otsPublic (ident : List Byte) (q : Nat) (ends : List (List Byte)) : List Byte :=
  sha256 (lmsHead ident q 0x8080 ++ ends.flatten)

/-- The value of a leaf node, and of a node above two others. -/
def leafNode (ident : List Byte) (q : Nat) (k : List Byte) : List Byte := sha256 (lmsHead ident (1024 + q) 0x8282 ++ k)
/-- The value of a node above two others. -/
def innerNode (ident : List Byte) (r : Nat) (a b : List Byte) : List Byte := sha256 (lmsHead ident r 0x8383 ++ a ++ b)

/-- A private chain start of leaf q from the tree's seed (RFC 8554 appendix A). -/
def otsSecret (ident seed : List Byte) (q k : Nat) : List Byte := sha256 (lmsHead ident q k ++ [0xFF] ++ seed)

/-- The public value of leaf q of a tree. -/
def otsKey (ident seed : List Byte) (q : Nat) : List Byte :=
  otsPublic ident q ((List.range 67).map (fun k => otsChain (lmsHead ident q k) 15 0 (otsSecret ident seed q k)))

/-- The LMOTS signature of a message under leaf q: type, randomizer, 67 chain values. -/
def otsSign (ident seed : List Byte) (q : Nat) (c msg : List Byte) : List Byte :=
  let d := otsDigits (otsHash ident q c msg)
  beBytes 4 3 ++ c ++ (List.range 67).flatMap (fun k => otsChain (lmsHead ident q k) (d.getD k 0) 0 (otsSecret ident seed q k))

/-- Node `r` of a tree, `lvl` levels above the leaves. -/
def treeNode (ident seed : List Byte) : Nat → Nat → List Byte
  | 0, r => leafNode ident (r - 1024) (otsKey ident seed (r - 1024))
  | lvl + 1, r => innerNode ident r (treeNode ident seed lvl (2 * r)) (treeNode ident seed lvl (2 * r + 1))

/-- The 56 bytes of a tree's public key: both types, identifier, root. -/
def lmsPublic (ident seed : List Byte) : List Byte := beBytes 4 6 ++ beBytes 4 3 ++ ident ++ treeNode ident seed 10 1

/-- The LMS signature of a message under leaf q, 2,508 bytes. -/
def lmsSign (ident seed : List Byte) (q : Nat) (c msg : List Byte) : List Byte :=
  beBytes 4 q ++ otsSign ident seed q c msg ++ beBytes 4 6
    ++ (List.range 10).flatMap (fun lvl => treeNode ident seed lvl (((1024 + q) / 2 ^ lvl) ^^^ 1))

/-- The root that a leaf and its path give: `n` levels from node `r`. -/
def pathRoot (ident : List Byte) : Nat → Nat → List Byte → List Byte → List Byte
  | 0, _, v, _ => v
  | n + 1, r, v, path =>
    let sib := path.take 32
    pathRoot ident n (r / 2) (if r % 2 = 1 then innerNode ident (r / 2) sib v else innerNode ident (r / 2) v sib) (path.drop 32)

/-- Whether an LMS signature verifies under a 56-byte public key. -/
def lmsVerify (key msg sig : List Byte) : Bool :=
  let ident := (key.drop 8).take 16
  let q := beNat (sig.take 4)
  let c := (sig.drop 8).take 32
  let d := otsDigits (otsHash ident q c msg)
  let ends := (List.range 67).map (fun k =>
    otsChain (lmsHead ident q k) (15 - d.getD k 0) (d.getD k 0) ((sig.drop (40 + 32 * k)).take 32))
  key.length == 56 && key.take 8 == beBytes 4 6 ++ beBytes 4 3 && sig.length == 2508 && decide (q < 1024) &&
    (sig.drop 4).take 4 == beBytes 4 3 && (sig.drop 2184).take 4 == beBytes 4 6 &&
    pathRoot ident 10 (1024 + q) (leafNode ident q (otsPublic ident q ends)) (sig.drop 2188) == key.drop 24

/-- The 60 bytes of an HSS public key of two levels. -/
def hssPublic (ident seed : List Byte) : List Byte := beBytes 4 2 ++ lmsPublic ident seed

/-- Whether an HSS signature with one signed public key verifies under a 60-byte key (R341). -/
def hssVerify (key msg sig : List Byte) : Bool :=
  let low := (sig.drop 2512).take 56
  key.length == 60 && key.take 4 == beBytes 4 2 && sig.length == 5076 && sig.take 4 == beBytes 4 1 &&
    lmsVerify (key.drop 4) low ((sig.drop 4).take 2508) && lmsVerify low msg (sig.drop 2568)

end Sys2Proof.Machine
end

