-- ==== Sys2Proof/Machine/Identity.lean ====
section
/-!
DEFINITION. The engine's keys, all derived from the device secret (R338, Table 12.1), signature blocks (R341, R342, Table 7.8), headers of
signed objects (Table 12.3), and the two certificates (R344, R345).
-/
namespace Sys2Proof.Machine

/-! ## The key hierarchy -/

/-- The pseudorandom key of the hierarchy: HKDF-Extract of DS with an empty salt (R338). -/
def rootKey (ds : List Byte) : List Byte := hkdfExtract [] ds

/-- The identity ECDSA key: 56 expanded bytes, taken by extra random bits (R338). -/
def identityScalar (ds : List Byte) : Nat := scalarOf (hkdfExpand (rootKey ds) (ascii "zw identity ecdsa") 56)

/-- Identifier and seed of the HSS key of generation g: 48 expanded bytes (R338; DESIGN CHOICE, log 46). -/
def hssKey (ds : List Byte) (g : Nat) : List Byte := hkdfExpand (rootKey ds) (ascii "zw identity hss" ++ leBytes 1 g) 48

/-- The record wrapping key (R338, R363). -/
def recordKey (ds : List Byte) : List Byte := hkdfExpand (rootKey ds) (ascii "zw key record") 32

/-- The identity public key, 97 bytes. -/
def identityPublic (ds : List Byte) : List Byte := publicPoint (identityScalar ds)

/-- The HSS public key of generation g, 60 bytes. -/
def hssPublicOf (ds : List Byte) (g : Nat) : List Byte := hssPublic (cut (hssKey ds g) 0 16) (cut (hssKey ds g) 16 32)

/-! ## Signature blocks -/

/-- Bytes of a signature block (Table 7.8). -/
def sigBlock : Nat := 5329

/-- The HSS signature of a message by generation g: bottom tree q signed by leaf q of the top tree, the message by a leaf of the bottom tree
with randomizer `c` (R346, NIST SP 800-208). -/
def hssSign (key : List Byte) (q leaf : Nat) (c msg : List Byte) : List Byte :=
  let low := Config.lowerTree key q
  let lowKey := lmsPublic (cut low 0 16) (cut low 16 32)
  beBytes 4 1 ++ lmsSign (cut key 0 16) (cut key 16 32) q (cut low 48 32) lowKey ++ lowKey ++ lmsSign (cut low 0 16) (cut low 16 32) leaf c msg

/-- The engine's two signatures of a message, by generation, bottom tree and leaf and 88 random bytes: ECDSA, then HSS, which covers the
ECDSA signature too where `chained` (R341, R346, R355). -/
def engineSigs (ds : List Byte) (g q leaf : Nat) (rnd msg : List Byte) (chained : Bool) : List Byte :=
  let e := ecdsaSign (identityScalar ds) (scalarOf (cut rnd 0 56)) msg
  e ++ hssSign (hssKey ds g) q leaf (cut rnd 56 32) (if chained then msg ++ e else msg)

/-- The key hash of a signature block's two public keys (R342). -/
def blockKeyHash (blk : List Byte) : List Byte := sha384 (cut blk 0 157)

/-- Which signatures fail: bit 0 ECDSA, bit 1 HSS; both are evaluated (R341). -/
def sigFails (ecdsaKey hssPub msg ecdsa hss : List Byte) : Nat :=
  (if ecdsaVerify ecdsaKey msg ecdsa then 0 else 1) + (if hssVerify hssPub msg hss then 0 else 2)

/-- Which signatures of a block fail over a message (R341). -/
def blockFails (msg blk : List Byte) : Nat := sigFails (cut blk 0 97) (cut blk 97 60) msg (cut blk 157 96) (cut blk 253 5076)

/-! ## Objects -/

/-- The header of an object (Table 12.3). -/
def objHeader (kind serial : Nat) (nonce : List Byte) (len svn : Nat) : List Byte :=
  leBytes 4 0x4B524142 ++ leBytes 2 kind ++ leBytes 2 1 ++ leBytes 8 serial ++ nonce ++ leBytes 4 len ++ [0, 0, 0, 0] ++ leBytes 8 svn

/-- Whether bytes begin with the header of an object of a kind, its body length and total length as they must be (R343, Table 12.3). -/
def headerOk (kind body : Nat) (bound : Bool) (obj : List Byte) : Bool :=
  decide (rd obj 0 4 = 0x4B524142) && decide (rd obj 4 2 = kind) && decide (rd obj 6 2 = 1) && decide (rd obj 0x30 4 = body) &&
    decide (rd obj 0x34 4 = 0) && decide (obj.length = 64 + body + sigBlock) && (bound || zeros (cut obj 0x10 32))

/-- What an object's signatures cover: every byte before the block (R341). -/
def signedPart (obj : List Byte) : List Byte := obj.take (obj.length - sigBlock)

/-- An object's signature block (R341). -/
def blockOf (obj : List Byte) : List Byte := obj.drop (obj.length - sigBlock)

/-- A message under the vendor's signature block. -/
def vendorSigned (msg : List Byte) : List Byte := msg ++ cut (Config.vendorSign msg ++ List.replicate sigBlock 0) 0 sigBlock

/-- The device certificate, 6,481 bytes (R345): the vendor computed all 16 HSS public keys at test. -/
def deviceCert (ds : List Byte) (serial variant line : Nat) : List Byte :=
  vendorSigned (objHeader 8 serial (List.replicate 32 0) 1088 0 ++ identityPublic ds ++ List.replicate 15 0
    ++ (List.range 16).flatMap (hssPublicOf ds) ++ leBytes 1 variant ++ leBytes 1 line ++ List.replicate 14 0)

/-- A variant certificate (R344, Table 12.4). -/
def variantCert (serial variant line row col dies ports svn : Nat) : List Byte :=
  vendorSigned (objHeader 6 serial (List.replicate 32 0) 64 svn ++ leBytes 1 variant ++ leBytes 1 line ++ leBytes 1 row ++ leBytes 1 col
    ++ [0, 0, 0, 0] ++ leBytes 8 dies ++ leBytes 16 ports ++ List.replicate 32 0)

end Sys2Proof.Machine
end

