-- ==== Sys2Proof/Machine/PowerTypes.lean ====
section
/-!
DEFINITION. Module pins and input conditions (chapter 1), power states, domains, shedding and thermal control, and the
accumulators of a telemetry interval (chapter 14).
-/
namespace Sys2Proof.Machine

/-- Pins the root die drives or samples (R27), asserted as true, and the input conditions it watches (R20 to R26):
`hold` is the condensation hold, `holdDropped` says it dropped main rails, `hardTripped` and `inputFailed` say what rails
dropped for. -/
structure Module where
  faultN : Bool
  thermTripN : Bool
  pwrGood : Bool
  slotId : Nat
  standby : Bool
  mains : Bool
  inputOk : Bool
  inputFailed : Bool
  hardTripped : Bool
  hold : Bool
  holdDropped : Bool
  tilt : Bool
  flow : Nat
  inlet : Int
  outlet : Int
  dew : Int
  ambient : Int
  deriving DecidableEq, Repr, Inhabited

/-- Power states (Table 14.1). -/
inductive PState where
  | run | idle | sleep | deep | off
  deriving DecidableEq, Repr, Inhabited

/-- The code of a power state (R415). -/
def PState.code : PState → Nat
  | .run => 0 | .idle => 1 | .sleep => 2 | .deep => 3 | .off => 4

/-- The power state of a code; `none` for 5 to 7 (R389). -/
def PState.ofCode : Nat → Option PState
  | 0 => some .run | 1 => some .idle | 2 => some .sleep | 3 => some .deep | 4 => some .off | _ => none

/-- A transition in progress (Table 14.2): entering a state, or returning to RUN and then entering `next`. -/
inductive Transit where
  | none
  | entering (state : PState)
  | returning (next : Option PState)
  deriving DecidableEq, Repr, Inhabited

/-- Domain states of a compute die (R392). -/
inductive Domain where
  | off | waking | on | unavailable
  deriving DecidableEq, Repr, Inhabited

/-- The code of a domain state in PWR_DIE (R415). -/
def Domain.code : Domain → Nat
  | .off => 0 | .waking => 1 | .on => 2 | .unavailable => 3

/-- The power controller. `allow` is A in nanojoules (R402); `memShed` and `linkShed` count the shedding actions taken (Table 14.3);
`overlimit` an OVERLIMIT episode and the step it last raised in; `codeHeld` says the code is held at 0 by OVERLIMIT; `energy` is
engine energy since ENGINE reset in nanojoules; `droops` counts DROOP events per die of the last millisecond; `cap` is the lower of
ENGINE_CAP and the management cap as the last decision edge took them, `capInForce` C, in 50 W units (R395, R396), `classInForce`
PWR_CLASS as taken; `boostW` is what an injection adds to P_1ms for `boostLeft` rings (DET 37), `measW` P_1ms at the last edge;
`lostDies` holds, for a die that woke and was not zeroed since, the number of the loss of its contents plus 1 (R393). -/
structure Power where
  state : PState
  transit : Transit
  pending : Option PState
  wake : Bool
  fetchStop : Bool
  domains : SMap Domain
  capCeil : Nat
  memShed : Nat
  linkShed : Nat
  linksFloor : Bool
  capUnmet : Bool
  allow : Nat
  overOn : Bool
  overStep : Option Nat
  codeHeld : Bool
  energy : Nat
  droops : SMap Nat
  droopSince : Nat
  mgmtCap : Nat
  cap : Nat
  capInForce : Nat
  classInForce : Nat
  boostW : Nat
  boostLeft : Nat
  measW : Nat
  lostDies : SMap Nat
  deriving DecidableEq, Repr, Inhabited

/-- Thermal control (R406 to R408): thermal ceiling, a HOLD episode, a throttle episode, whether a trip stands. -/
structure Thermal where
  ceil : Nat
  hold : Bool
  tripped : Bool
  deriving DecidableEq, Repr, Inhabited

/-- The telemetry interval in progress (R411 to R413). Powers are sums of W over rings, to be divided by `rings`.
`due` is a record waiting to be written: its FLAGS and its bytes from RING on; `block` the records of the data block in progress. -/
structure Tel where
  dropped : Bool
  due : Option (Nat × List Byte)
  rings : Nat
  lastRing : Nat
  energyStart : Nat
  codeMin : Nat
  codeMax : Nat
  pSum : Nat
  computeSum : Nat
  memorySum : Nat
  linksSum : Nat
  inputSum : Nat
  peak : Nat
  capMin : Nat
  coolMin : Nat
  slackMin : Nat
  marginMin : Nat
  marginDie : Nat
  faults : Nat
  droops : Nat
  droopCd : SMap Nat
  seamSlips : Nat
  scrubs : Nat
  capUnmet : Bool
  throttled : Bool
  hold : Bool
  injected : Bool
  floor : Bool
  hot : SMap Bool
  block : List (List Byte)
  deriving DecidableEq, Repr, Inhabited

/-- An interval not begun. -/
def Tel.reset : Tel :=
  ⟨false, none, 0, 0, 0, 127, 0, 0, 0, 0, 0, 0, 0, 65535, 65535, 65535, 65535, 0, 0, 0, [], 0, 0, false, false, false,
   false, false, [], []⟩

end Sys2Proof.Machine
end

