-- ==== Sys2Proof/Machine/RegTable.lean ====
section
/-!
DEFINITION. The host-visible registers: one named constant for every non-reserved field of every register table of
the spec (offset in BAR0, low bit, width, the Reset column), and the list of registers with their access codes (R10).
A field whose Reset column names a source in place of a number (Variant, Certificate, Vendor, Strap, Heartwood,
Map, DRBG, Table 6.7) carries 0 here and is shown from its own home (see View.lean).
-/
namespace Sys2Proof.Machine

/-- The access codes of Table 0.5 (R10). -/
inductive Access where
 | ro | rw | w1c | wo | rwh | rws
  deriving DecidableEq, Repr

/-- A register field: BAR0 offset of its register, low bit, width in bits, value at reset. -/
structure Fld where
  addr : Nat
  lo : Nat
  width : Nat
  reset : Nat
  deriving DecidableEq, Repr

/-- One field of a register table row. -/
structure FieldRow where
  lo : Nat
  width : Nat
  acc : Access
  reset : Nat
  deriving DecidableEq, Repr

/-- A register or array of registers: offset of element 0, number of elements 8 bytes apart, its fields. -/
structure RegRow where
  base : Nat
  count : Nat
  fields : List FieldRow
  deriving DecidableEq, Repr

/-! ## RING and CLK registers (02_ring_time.md) -/

/-- RING_CTRL.PTP_PERIOD, bits 6:4, RW, reset 1 (R76). -/
def RING_CTRL_PTP_PERIOD : Fld := ⟨0x10000, 4, 3, 1⟩
/-- RING_CTRL.CLR_STATS, bits 2:2, WO, reset 0 (R76). -/
def RING_CTRL_CLR_STATS : Fld := ⟨0x10000, 2, 1, 0⟩
/-- RING_CTRL.SOURCE, bits 1:1, RW, reset 0 (R76). -/
def RING_CTRL_SOURCE : Fld := ⟨0x10000, 1, 1, 0⟩
/-- RING_CTRL.ENABLE, bits 0:0, RW, reset 1 (R76). -/
def RING_CTRL_ENABLE : Fld := ⟨0x10000, 0, 1, 1⟩
/-- RING_CONFIG.PTP_PORT, bits 54:48, RW, reset 0 (R76). -/
def RING_CONFIG_PTP_PORT : Fld := ⟨0x10008, 48, 7, 0⟩
/-- RING_CONFIG.PTP_DOMAIN, bits 47:40, RW, reset 0 (R76). -/
def RING_CONFIG_PTP_DOMAIN : Fld := ⟨0x10008, 40, 8, 0⟩
/-- RING_CONFIG.HOLDOVER_MAX, bits 39:30, RW, reset 1,000 (R76). -/
def RING_CONFIG_HOLDOVER_MAX : Fld := ⟨0x10008, 30, 10, 1000⟩
/-- RING_CONFIG.EDGE_DELAY, bits 29:20, RW, reset 64 (R76). -/
def RING_CONFIG_EDGE_DELAY : Fld := ⟨0x10008, 20, 10, 64⟩
/-- RING_CONFIG.GUARD, bits 19:10, RW, reset 48 (R76). -/
def RING_CONFIG_GUARD : Fld := ⟨0x10008, 10, 10, 48⟩
/-- RING_CONFIG.GROVE_ID, bits 9:0, RW, reset 0 (R76). -/
def RING_CONFIG_GROVE_ID : Fld := ⟨0x10008, 0, 10, 0⟩
/-- RING_STATUS.HOLDOVER_COUNT, bits 18:9, RO, reset 0 (R76). -/
def RING_STATUS_HOLDOVER_COUNT : Fld := ⟨0x10010, 9, 10, 0⟩
/-- RING_STATUS.CFG_REJECT, bits 8:8, W1C, reset 0 (R76). -/
def RING_STATUS_CFG_REJECT : Fld := ⟨0x10010, 8, 1, 0⟩
/-- RING_STATUS.EMERG, bits 7:7, RO, reset 0 (R76). -/
def RING_STATUS_EMERG : Fld := ⟨0x10010, 7, 1, 0⟩
/-- RING_STATUS.CHANGE_PENDING, bits 6:6, RO, reset 0 (R76). -/
def RING_STATUS_CHANGE_PENDING : Fld := ⟨0x10010, 6, 1, 0⟩
/-- RING_STATUS.PERIOD_CODE, bits 5:3, RO, reset 1 (R76). -/
def RING_STATUS_PERIOD_CODE : Fld := ⟨0x10010, 3, 3, 1⟩
/-- RING_STATUS.SLEWING, bits 2:2, RO, reset 0 (R76). -/
def RING_STATUS_SLEWING : Fld := ⟨0x10010, 2, 1, 0⟩
/-- RING_STATUS.LOCK_STATE, bits 1:0, RO, reset 0 (R76). -/
def RING_STATUS_LOCK_STATE : Fld := ⟨0x10010, 0, 2, 0⟩
/-- RING_NUMBER.RING, bits 47:0, RO, reset 0 (R76). -/
def RING_NUMBER_RING : Fld := ⟨0x10018, 0, 48, 0⟩
/-- RING_CHANGE_AT.RING, bits 47:0, RO, reset 0 (R76). -/
def RING_CHANGE_AT_RING : Fld := ⟨0x10020, 0, 48, 0⟩
/-- RING_ERRORS.SEAM_SLIPS, bits 63:48, RO, reset 0 (R76). -/
def RING_ERRORS_SEAM_SLIPS : Fld := ⟨0x10028, 48, 16, 0⟩
/-- RING_ERRORS.GROVE_MISMATCH, bits 47:32, RO, reset 0 (R76). -/
def RING_ERRORS_GROVE_MISMATCH : Fld := ⟨0x10028, 32, 16, 0⟩
/-- RING_ERRORS.MISSING, bits 31:16, RO, reset 0 (R76). -/
def RING_ERRORS_MISSING : Fld := ⟨0x10028, 16, 16, 0⟩
/-- RING_ERRORS.CRC_ERR, bits 15:0, RO, reset 0 (R76). -/
def RING_ERRORS_CRC_ERR : Fld := ⟨0x10028, 0, 16, 0⟩
/-- RING_MARGIN.RING_LO, bits 63:32, RO, reset 0 (R76). -/
def RING_MARGIN_RING_LO : Fld := ⟨0x10030, 32, 32, 0⟩
/-- RING_MARGIN.DIE, bits 21:16, RO, reset 0 (R76). -/
def RING_MARGIN_DIE : Fld := ⟨0x10030, 16, 6, 0⟩
/-- RING_MARGIN.MIN_MARGIN, bits 15:0, RO, reset 0xFFFF (R76). -/
def RING_MARGIN_MIN_MARGIN : Fld := ⟨0x10030, 0, 16, 65535⟩
/-- RING_BUDGET.STRIDE, bits 54:48, RO, reset 0 (R76). -/
def RING_BUDGET_STRIDE : Fld := ⟨0x10038, 48, 7, 0⟩
/-- RING_BUDGET.NEED, bits 47:32, RO, reset 0 (R76). -/
def RING_BUDGET_NEED : Fld := ⟨0x10038, 32, 16, 0⟩
/-- RING_BUDGET.FREQ_CODE, bits 22:16, RO, reset 48 (R76). -/
def RING_BUDGET_FREQ_CODE : Fld := ⟨0x10038, 16, 7, 48⟩
/-- RING_BUDGET.BUDGET, bits 15:0, RO, reset 0 (R76). -/
def RING_BUDGET_BUDGET : Fld := ⟨0x10038, 0, 16, 0⟩
/-- RING_PERIOD_MEAS.OFFSET_PPB, bits 31:0, RO, reset 0 (R76). -/
def RING_PERIOD_MEAS_OFFSET_PPB : Fld := ⟨0x10040, 0, 32, 0⟩
/-- RING_PTP_ORIGIN.ORIGIN, bits 63:0, RW, reset 0 (R76). -/
def RING_PTP_ORIGIN_ORIGIN : Fld := ⟨0x10048, 0, 64, 0⟩
/-- RING_PTP_OFFSET.OFFSET, bits 31:0, RO, reset 0 (R76). -/
def RING_PTP_OFFSET_OFFSET : Fld := ⟨0x10050, 0, 32, 0⟩
/-- RING_ERRORS2.FORMAT_ERR, bits 15:0, RO, reset 0 (R76). -/
def RING_ERRORS2_FORMAT_ERR : Fld := ⟨0x10058, 0, 16, 0⟩
/-- CLK_SRC.CFG_REJECT, bits 6:6, W1C, reset 0 (R77). -/
def CLK_SRC_CFG_REJECT : Fld := ⟨0x20000, 6, 1, 0⟩
/-- CLK_SRC.FREQ_ERR, bits 5:5, W1C, reset 0 (R77). -/
def CLK_SRC_FREQ_ERR : Fld := ⟨0x20000, 5, 1, 0⟩
/-- CLK_SRC.PLL_UNLOCK, bits 4:4, W1C, reset 0 (R77). -/
def CLK_SRC_PLL_UNLOCK : Fld := ⟨0x20000, 4, 1, 0⟩
/-- CLK_SRC.LOSS, bits 3:3, W1C, reset 0 (R77). -/
def CLK_SRC_LOSS : Fld := ⟨0x20000, 3, 1, 0⟩
/-- CLK_SRC.TRIM_VALID, bits 2:2, RO, reset 0 (R77). -/
def CLK_SRC_TRIM_VALID : Fld := ⟨0x20000, 2, 1, 0⟩
/-- CLK_SRC.XTAL_GOOD, bits 1:1, RO, reset 0 (R77). -/
def CLK_SRC_XTAL_GOOD : Fld := ⟨0x20000, 1, 1, 0⟩
/-- CLK_SRC.SOURCE, bits 0:0, RO, reset 0 (R77). -/
def CLK_SRC_SOURCE : Fld := ⟨0x20000, 0, 1, 0⟩
/-- CLK_FREQ.NEXT_RING, bits 63:32, RO, reset 0 (R77). -/
def CLK_FREQ_NEXT_RING : Fld := ⟨0x20008, 32, 32, 0⟩
/-- CLK_FREQ.NEXT_VALID, bits 31:31, RO, reset 0 (R77). -/
def CLK_FREQ_NEXT_VALID : Fld := ⟨0x20008, 31, 1, 0⟩
/-- CLK_FREQ.NEXT_CODE, bits 30:24, RO, reset 0 (R77). -/
def CLK_FREQ_NEXT_CODE : Fld := ⟨0x20008, 24, 7, 0⟩
/-- CLK_FREQ.CUR_CODE, bits 22:16, RO, reset 48 (R77). -/
def CLK_FREQ_CUR_CODE : Fld := ⟨0x20008, 16, 7, 48⟩
/-- CLK_FREQ.MIN_CODE, bits 14:8, RW, reset 0 (R77). -/
def CLK_FREQ_MIN_CODE : Fld := ⟨0x20008, 8, 7, 0⟩
/-- CLK_FREQ.MAX_CODE, bits 6:0, RW, reset 120 (R77). -/
def CLK_FREQ_MAX_CODE : Fld := ⟨0x20008, 0, 7, 120⟩
/-- CLK_SSC.ENABLE, bits 15:15, RW, reset 1 (R77). -/
def CLK_SSC_ENABLE : Fld := ⟨0x20010, 15, 1, 1⟩
/-- CLK_SSC.RATE, bits 14:8, RW, reset 30 (R77). -/
def CLK_SSC_RATE : Fld := ⟨0x20010, 8, 7, 30⟩
/-- CLK_SSC.DEPTH, bits 4:0, RW, reset 10 (R77). -/
def CLK_SSC_DEPTH : Fld := ⟨0x20010, 0, 5, 10⟩
/-- CLK_GATE_REQ.GO, bits 31:31, WO, reset 0 (R77). -/
def CLK_GATE_REQ_GO : Fld := ⟨0x20018, 31, 1, 0⟩
/-- CLK_GATE_REQ.ACTION, bits 30:29, RW, reset 0 (R77). -/
def CLK_GATE_REQ_ACTION : Fld := ⟨0x20018, 29, 2, 0⟩
/-- CLK_GATE_REQ.LEVEL, bits 28:26, RW, reset 0 (R77). -/
def CLK_GATE_REQ_LEVEL : Fld := ⟨0x20018, 26, 3, 0⟩
/-- CLK_GATE_REQ.DIE, bits 25:20, RW, reset 0 (R77). -/
def CLK_GATE_REQ_DIE : Fld := ⟨0x20018, 20, 6, 0⟩
/-- CLK_GATE_REQ.BAND, bits 19:16, RW, reset 0 (R77). -/
def CLK_GATE_REQ_BAND : Fld := ⟨0x20018, 16, 4, 0⟩
/-- CLK_GATE_REQ.CLUSTER, bits 15:8, RW, reset 0 (R77). -/
def CLK_GATE_REQ_CLUSTER : Fld := ⟨0x20018, 8, 8, 0⟩
/-- CLK_GATE_REQ.CELL, bits 7:4, RW, reset 0 (R77). -/
def CLK_GATE_REQ_CELL : Fld := ⟨0x20018, 4, 4, 0⟩
/-- CLK_GATE_REQ.UNIT, bits 3:2, RW, reset 0 (R77). -/
def CLK_GATE_REQ_UNIT : Fld := ⟨0x20018, 2, 2, 0⟩
/-- CLK_GATE_STATUS.RESULT, bits 2:1, RO, reset 0 (R77). -/
def CLK_GATE_STATUS_RESULT : Fld := ⟨0x20020, 1, 2, 0⟩
/-- CLK_GATE_STATUS.BUSY, bits 0:0, RO, reset 0 (R77). -/
def CLK_GATE_STATUS_BUSY : Fld := ⟨0x20020, 0, 1, 0⟩
/-- CLK_MEAS[i].FREQ_ERR, bits 25:25, RO, reset 0 (R77). -/
def CLK_MEAS_FREQ_ERR (i : Nat) : Fld := ⟨0x20100 + 8 * i, 25, 1, 0⟩
/-- CLK_MEAS[i].LOCKED, bits 24:24, RO, reset 0 (R77). -/
def CLK_MEAS_LOCKED (i : Nat) : Fld := ⟨0x20100 + 8 * i, 24, 1, 0⟩
/-- CLK_MEAS[i].FREQ_KHZ, bits 23:0, RO, reset 0 (R77). -/
def CLK_MEAS_FREQ_KHZ (i : Nat) : Fld := ⟨0x20100 + 8 * i, 0, 24, 0⟩
/-! ## SPARSE registers (05_needle_sparsity.md) -/

/-- SPARSE_CTRL.STRICT_FLOOR, bits 1:1, RW, reset 0 (R173). -/
def SPARSE_CTRL_STRICT_FLOOR : Fld := ⟨0x70000, 1, 1, 0⟩
/-- SPARSE_CTRL.CLR_COUNTERS, bits 0:0, WO, reset 0 (R173). -/
def SPARSE_CTRL_CLR_COUNTERS : Fld := ⟨0x70000, 0, 1, 0⟩
/-- SPARSE_STATUS.LAST_RING_LO, bits 63:32, RO, reset 0 (R173). -/
def SPARSE_STATUS_LAST_RING_LO : Fld := ⟨0x70008, 32, 32, 0⟩
/-- SPARSE_STATUS.XPOSE_STATE, bits 19:18, RO, reset 0 (R173). -/
def SPARSE_STATUS_XPOSE_STATE : Fld := ⟨0x70008, 18, 2, 0⟩
/-- SPARSE_STATUS.LAST_DIE, bits 17:12, RO, reset 0 (R173). -/
def SPARSE_STATUS_LAST_DIE : Fld := ⟨0x70008, 12, 6, 0⟩
/-- SPARSE_STATUS.LAST_PRED, bits 7:4, RO, reset 0 (R173). -/
def SPARSE_STATUS_LAST_PRED : Fld := ⟨0x70008, 4, 4, 0⟩
/-- SPARSE_STATUS.LAST_META, bits 3:0, RO, reset 0 (R173). -/
def SPARSE_STATUS_LAST_META : Fld := ⟨0x70008, 0, 4, 0⟩
/-- SPARSE_META_COUNT.HEADER, bits 63:48, RO, reset 0 (R173). -/
def SPARSE_META_COUNT_HEADER : Fld := ⟨0x70010, 48, 16, 0⟩
/-- SPARSE_META_COUNT.RANGE, bits 47:32, RO, reset 0 (R173). -/
def SPARSE_META_COUNT_RANGE : Fld := ⟨0x70010, 32, 16, 0⟩
/-- SPARSE_META_COUNT.ORDER, bits 31:16, RO, reset 0 (R173). -/
def SPARSE_META_COUNT_ORDER : Fld := ⟨0x70010, 16, 16, 0⟩
/-- SPARSE_META_COUNT.COUNT, bits 15:0, RO, reset 0 (R173). -/
def SPARSE_META_COUNT_COUNT : Fld := ⟨0x70010, 0, 16, 0⟩
/-- SPARSE_CNT[i].COUNT, bits 63:0, RO, reset 0 (R173). -/
def SPARSE_CNT_COUNT (i : Nat) : Fld := ⟨0x70100 + 8 * i, 0, 64, 0⟩
/-! ## FAB registers (06_mesh_fabric.md) -/

/-- FAB_CTRL.PROBE_EN, bits 1:1, RW, reset 0 (R202). -/
def FAB_CTRL_PROBE_EN : Fld := ⟨0x80000, 1, 1, 0⟩
/-- FAB_CTRL.CLR_COUNTERS, bits 0:0, WO, reset 0 (R202). -/
def FAB_CTRL_CLR_COUNTERS : Fld := ⟨0x80000, 0, 1, 0⟩
/-- FAB_STATUS.LAST_RING_LO, bits 63:32, RO, reset 0 (R202). -/
def FAB_STATUS_LAST_RING_LO : Fld := ⟨0x80008, 32, 32, 0⟩
/-- FAB_STATUS.LAST_DIE, bits 25:20, RO, reset 0 (R202). -/
def FAB_STATUS_LAST_DIE : Fld := ⟨0x80008, 20, 6, 0⟩
/-- FAB_STATUS.LAST_KIND, bits 19:16, RO, reset 0 (R202). -/
def FAB_STATUS_LAST_KIND : Fld := ⟨0x80008, 16, 4, 0⟩
/-- FAB_STATUS.CFG_REJECT, bits 0:0, W1C, reset 0 (R202). -/
def FAB_STATUS_CFG_REJECT : Fld := ⟨0x80008, 0, 1, 0⟩
/-- FAB_PROBE_SEL.PORT, bits 25:23, RW, reset 0 (R202). -/
def FAB_PROBE_SEL_PORT : Fld := ⟨0x80010, 23, 3, 0⟩
/-- FAB_PROBE_SEL.NET, bits 22:21, RW, reset 0 (R202). -/
def FAB_PROBE_SEL_NET : Fld := ⟨0x80010, 21, 2, 0⟩
/-- FAB_PROBE_SEL.X, bits 20:10, RW, reset 0 (R202). -/
def FAB_PROBE_SEL_X : Fld := ⟨0x80010, 10, 11, 0⟩
/-- FAB_PROBE_SEL.Y, bits 9:0, RW, reset 0 (R202). -/
def FAB_PROBE_SEL_Y : Fld := ⟨0x80010, 0, 10, 0⟩
/-- FAB_PROBE_CNT.STALLS, bits 63:32, RO, reset 0 (R202). -/
def FAB_PROBE_CNT_STALLS : Fld := ⟨0x80018, 32, 32, 0⟩
/-- FAB_PROBE_CNT.UNITS, bits 31:0, RO, reset 0 (R202). -/
def FAB_PROBE_CNT_UNITS : Fld := ⟨0x80018, 0, 32, 0⟩
/-- FAB_CNT[i].COUNT, bits 63:0, RO, reset 0 (R202). -/
def FAB_CNT_COUNT (i : Nat) : Fld := ⟨0x80100 + 8 * i, 0, 64, 0⟩
/-- FAB_TAP[i].IN_HWM, bits 63:48, RO, reset 0 (R202). -/
def FAB_TAP_IN_HWM (i : Nat) : Fld := ⟨0x81000 + 8 * i, 48, 16, 0⟩
/-- FAB_TAP[i].OUT_HWM, bits 47:32, RO, reset 0 (R202). -/
def FAB_TAP_OUT_HWM (i : Nat) : Fld := ⟨0x81000 + 8 * i, 32, 16, 0⟩
/-- FAB_TAP[i].LIMB, bits 7:4, RO, reset Table 6.7 (R202). -/
def FAB_TAP_LIMB (i : Nat) : Fld := ⟨0x81000 + 8 * i, 4, 4, 0⟩
/-- FAB_TAP[i].FUNC, bits 3:2, RO, reset 0 (R202). -/
def FAB_TAP_FUNC (i : Nat) : Fld := ⟨0x81000 + 8 * i, 2, 2, 0⟩
/-- FAB_TAP[i].ENABLED, bits 0:0, RO, reset Variant (R202). -/
def FAB_TAP_ENABLED (i : Nat) : Fld := ⟨0x81000 + 8 * i, 0, 1, 0⟩
/-! ## GRAFT registers (07_graft.md) -/

/-- GRAFT_CTRL.CLR_COUNTERS, bits 2:2, WO, reset 0 (R231). -/
def GRAFT_CTRL_CLR_COUNTERS : Fld := ⟨0x60000, 2, 1, 0⟩
/-- GRAFT_CTRL.ABORT_LOAD, bits 1:1, WO, reset 0 (R231). -/
def GRAFT_CTRL_ABORT_LOAD : Fld := ⟨0x60000, 1, 1, 0⟩
/-- GRAFT_CTRL.LOAD, bits 0:0, WO, reset 0 (R231). -/
def GRAFT_CTRL_LOAD : Fld := ⟨0x60000, 0, 1, 0⟩
/-- GRAFT_SRC.ADDR, bits 63:12, RW, reset 0 (R231). -/
def GRAFT_SRC_ADDR : Fld := ⟨0x60008, 12, 52, 0⟩
/-- GRAFT_SRC_LEN.LEN, bits 29:0, RW, reset 0 (R231). -/
def GRAFT_SRC_LEN_LEN : Fld := ⟨0x60010, 0, 30, 0⟩
/-- GRAFT_STATUS.SWAP_FAIL, bits 11:11, W1C, reset 0 (R231). -/
def GRAFT_STATUS_SWAP_FAIL : Fld := ⟨0x60018, 11, 1, 0⟩
/-- GRAFT_STATUS.REFUSED_BUSY, bits 10:10, W1C, reset 0 (R231). -/
def GRAFT_STATUS_REFUSED_BUSY : Fld := ⟨0x60018, 10, 1, 0⟩
/-- GRAFT_STATUS.LOAD_FAIL, bits 9:9, W1C, reset 0 (R231). -/
def GRAFT_STATUS_LOAD_FAIL : Fld := ⟨0x60018, 9, 1, 0⟩
/-- GRAFT_STATUS.LOAD_DONE, bits 8:8, W1C, reset 0 (R231). -/
def GRAFT_STATUS_LOAD_DONE : Fld := ⟨0x60018, 8, 1, 0⟩
/-- GRAFT_STATUS.STATE, bits 2:0, RO, reset 0 (R231). -/
def GRAFT_STATUS_STATE : Fld := ⟨0x60018, 0, 3, 0⟩
/-- GRAFT_ERROR.RECORD, bits 63:32, RO, reset 0 (R231). -/
def GRAFT_ERROR_RECORD : Fld := ⟨0x60020, 32, 32, 0⟩
/-- GRAFT_ERROR.SECTION, bits 31:24, RO, reset 0 (R231). -/
def GRAFT_ERROR_SECTION : Fld := ⟨0x60020, 24, 8, 0⟩
/-- GRAFT_ERROR.CHECK, bits 23:16, RO, reset 0 (R231). -/
def GRAFT_ERROR_CHECK : Fld := ⟨0x60020, 16, 8, 0⟩
/-- GRAFT_ERROR.CODE, bits 15:0, RO, reset 0 (R231). -/
def GRAFT_ERROR_CODE : Fld := ⟨0x60020, 0, 16, 0⟩
/-- GRAFT_ACTIVE.STRICT, bits 51:51, RO, reset 0 (R231). -/
def GRAFT_ACTIVE_STRICT : Fld := ⟨0x60028, 51, 1, 0⟩
/-- GRAFT_ACTIVE.VALID, bits 50:50, RO, reset 0 (R231). -/
def GRAFT_ACTIVE_VALID : Fld := ⟨0x60028, 50, 1, 0⟩
/-- GRAFT_ACTIVE.TAG, bits 49:48, RO, reset 0 (R231). -/
def GRAFT_ACTIVE_TAG : Fld := ⟨0x60028, 48, 2, 0⟩
/-- GRAFT_ACTIVE.EPOCH, bits 47:32, RO, reset 0 (R231). -/
def GRAFT_ACTIVE_EPOCH : Fld := ⟨0x60028, 32, 16, 0⟩
/-- GRAFT_ACTIVE.GRAFT_ID, bits 31:0, RO, reset 0 (R231). -/
def GRAFT_ACTIVE_GRAFT_ID : Fld := ⟨0x60028, 0, 32, 0⟩
/-- GRAFT_SHADOW.STRICT, bits 51:51, RO, reset 0 (R231). -/
def GRAFT_SHADOW_STRICT : Fld := ⟨0x60030, 51, 1, 0⟩
/-- GRAFT_SHADOW.VALID, bits 50:50, RO, reset 0 (R231). -/
def GRAFT_SHADOW_VALID : Fld := ⟨0x60030, 50, 1, 0⟩
/-- GRAFT_SHADOW.EPOCH, bits 47:32, RO, reset 0 (R231). -/
def GRAFT_SHADOW_EPOCH : Fld := ⟨0x60030, 32, 16, 0⟩
/-- GRAFT_SHADOW.GRAFT_ID, bits 31:0, RO, reset 0 (R231). -/
def GRAFT_SHADOW_GRAFT_ID : Fld := ⟨0x60030, 0, 32, 0⟩
/-- GRAFT_SWAP.ARMED, bits 48:48, RO, reset 0 (R231). -/
def GRAFT_SWAP_ARMED : Fld := ⟨0x60038, 48, 1, 0⟩
/-- GRAFT_SWAP.RING, bits 47:0, RO, reset 0 (R231). -/
def GRAFT_SWAP_RING : Fld := ⟨0x60038, 0, 48, 0⟩
/-- GRAFT_CNT[i].COUNT, bits 63:0, RO, reset 0 (R231). -/
def GRAFT_CNT_COUNT (i : Nat) : Fld := ⟨0x60100 + 8 * i, 0, 64, 0⟩
/-! ## JOB registers (08_jobs_steps_tiles.md) -/

/-- JOB_CTRL.POLL_INTERVAL, bits 31:16, RW, reset 1 (R260). -/
def JOB_CTRL_POLL_INTERVAL : Fld := ⟨0x50000, 16, 16, 1⟩
/-- JOB_CTRL.CLR_COUNTERS, bits 1:1, WO, reset 0 (R260). -/
def JOB_CTRL_CLR_COUNTERS : Fld := ⟨0x50000, 1, 1, 0⟩
/-- JOB_CTRL.ENABLE, bits 0:0, RW, reset 0 (R260). -/
def JOB_CTRL_ENABLE : Fld := ⟨0x50000, 0, 1, 0⟩
/-- JOB_POST_BASE.ADDR, bits 63:16, RW, reset 0 (R260). -/
def JOB_POST_BASE_ADDR : Fld := ⟨0x50008, 16, 48, 0⟩
/-- JOB_FETCHED.COUNT, bits 63:0, RO, reset 0 (R260). -/
def JOB_FETCHED_COUNT : Fld := ⟨0x50010, 0, 64, 0⟩
/-- JOB_COMPLETED.COUNT, bits 63:0, RO, reset 0 (R260). -/
def JOB_COMPLETED_COUNT : Fld := ⟨0x50018, 0, 64, 0⟩
/-- JOB_STATUS.QUEUED, bits 36:32, RO, reset 0 (R260). -/
def JOB_STATUS_QUEUED : Fld := ⟨0x50020, 32, 5, 0⟩
/-- JOB_STATUS.PHASE, bits 7:6, RO, reset 0 (R260). -/
def JOB_STATUS_PHASE : Fld := ⟨0x50020, 6, 2, 0⟩
/-- JOB_STATUS.BAD_DESC, bits 5:5, W1C, reset 0 (R260). -/
def JOB_STATUS_BAD_DESC : Fld := ⟨0x50020, 5, 1, 0⟩
/-- JOB_STATUS.POST_ERR, bits 4:4, W1C, reset 0 (R260). -/
def JOB_STATUS_POST_ERR : Fld := ⟨0x50020, 4, 1, 0⟩
/-- JOB_STATUS.STATE, bits 2:0, RO, reset 0 (R260). -/
def JOB_STATUS_STATE : Fld := ⟨0x50020, 0, 3, 0⟩
/-- JOB_CURRENT.STEP, bits 63:32, RO, reset 0 (R260). -/
def JOB_CURRENT_STEP : Fld := ⟨0x50028, 32, 32, 0⟩
/-- JOB_CURRENT.JOB_ID, bits 31:0, RO, reset 0 (R260). -/
def JOB_CURRENT_JOB_ID : Fld := ⟨0x50028, 0, 32, 0⟩
/-- JOB_COMMIT_RING.RING, bits 47:0, RO, reset 0 (R260). -/
def JOB_COMMIT_RING_RING : Fld := ⟨0x50030, 0, 48, 0⟩
/-- JOB_ABORT.GO, bits 63:63, WO, reset 0 (R260). -/
def JOB_ABORT_GO : Fld := ⟨0x50038, 63, 1, 0⟩
/-- JOB_ABORT.JOB_ID, bits 31:0, RW, reset 0 (R260). -/
def JOB_ABORT_JOB_ID : Fld := ⟨0x50038, 0, 32, 0⟩
/-- JOB_CNT[i].COUNT, bits 63:0, RO, reset 0 (R260). -/
def JOB_CNT_COUNT (i : Nat) : Fld := ⟨0x50100 + 8 * i, 0, 64, 0⟩
/-! ## EDGE and SAP registers (09_edge_links.md) -/

/-- EDGE_CTRL.PCP, bits 35:33, RW, reset 0 (R287). -/
def EDGE_CTRL_PCP : Fld := ⟨0x90000, 33, 3, 0⟩
/-- EDGE_CTRL.VLAN_EN, bits 32:32, RW, reset 0 (R287). -/
def EDGE_CTRL_VLAN_EN : Fld := ⟨0x90000, 32, 1, 0⟩
/-- EDGE_CTRL.VLAN_ID, bits 31:20, RW, reset 0 (R287). -/
def EDGE_CTRL_VLAN_ID : Fld := ⟨0x90000, 20, 12, 0⟩
/-- EDGE_CTRL.CLR_COUNTERS, bits 16:16, WO, reset 0 (R287). -/
def EDGE_CTRL_CLR_COUNTERS : Fld := ⟨0x90000, 16, 1, 0⟩
/-- EDGE_CTRL.ETHERTYPE, bits 15:0, RW, reset 0x88B5 (R287). -/
def EDGE_CTRL_ETHERTYPE : Fld := ⟨0x90000, 0, 16, 34997⟩
/-- EDGE_MAC_BASE.BASE, bits 47:0, RO, reset Vendor (R287). -/
def EDGE_MAC_BASE_BASE : Fld := ⟨0x90008, 0, 48, 0⟩
/-- EDGE_PORT_CTRL[i].RESET, bits 7:7, WO, reset 0 (R287). -/
def EDGE_PORT_CTRL_RESET (i : Nat) : Fld := ⟨0x90100 + 8 * i, 7, 1, 0⟩
/-- EDGE_PORT_CTRL[i].RETRAIN, bits 6:6, WO, reset 0 (R287). -/
def EDGE_PORT_CTRL_RETRAIN (i : Nat) : Fld := ⟨0x90100 + 8 * i, 6, 1, 0⟩
/-- EDGE_PORT_CTRL[i].MEDIA, bits 5:4, RW, reset 0 (R287). -/
def EDGE_PORT_CTRL_MEDIA (i : Nat) : Fld := ⟨0x90100 + 8 * i, 4, 2, 0⟩
/-- EDGE_PORT_CTRL[i].AN_EN, bits 3:3, RW, reset 1 (R287). -/
def EDGE_PORT_CTRL_AN_EN (i : Nat) : Fld := ⟨0x90100 + 8 * i, 3, 1, 1⟩
/-- EDGE_PORT_CTRL[i].AUX_EN, bits 1:1, RW, reset 1 (R287). -/
def EDGE_PORT_CTRL_AUX_EN (i : Nat) : Fld := ⟨0x90100 + 8 * i, 1, 1, 1⟩
/-- EDGE_PORT_CTRL[i].ADMIN_EN, bits 0:0, RW, reset 1 (R287). -/
def EDGE_PORT_CTRL_ADMIN_EN (i : Nat) : Fld := ⟨0x90100 + 8 * i, 0, 1, 1⟩
/-- EDGE_PORT_STATUS[i].EPOCH, bits 63:48, RO, reset 0 (R287). -/
def EDGE_PORT_STATUS_EPOCH (i : Nat) : Fld := ⟨0x90400 + 8 * i, 48, 16, 0⟩
/-- EDGE_PORT_STATUS[i].STATE1, bits 39:37, RO, reset 0 (R287). -/
def EDGE_PORT_STATUS_STATE1 (i : Nat) : Fld := ⟨0x90400 + 8 * i, 37, 3, 0⟩
/-- EDGE_PORT_STATUS[i].STATE0, bits 36:34, RO, reset 0 (R287). -/
def EDGE_PORT_STATUS_STATE0 (i : Nat) : Fld := ⟨0x90400 + 8 * i, 34, 3, 0⟩
/-- EDGE_PORT_STATUS[i].ROLE, bits 33:32, RO, reset 0 (R287). -/
def EDGE_PORT_STATUS_ROLE (i : Nat) : Fld := ⟨0x90400 + 8 * i, 32, 2, 0⟩
/-- EDGE_PORT_STATUS[i].SPLIT, bits 31:31, RO, reset 0 (R287). -/
def EDGE_PORT_STATUS_SPLIT (i : Nat) : Fld := ⟨0x90400 + 8 * i, 31, 1, 0⟩
/-- EDGE_PORT_STATUS[i].ENABLED, bits 30:30, RO, reset Variant (R287). -/
def EDGE_PORT_STATUS_ENABLED (i : Nat) : Fld := ⟨0x90400 + 8 * i, 30, 1, 0⟩
/-- EDGE_PORT_STATUS[i].PRESENT, bits 29:29, RO, reset 0 (R287). -/
def EDGE_PORT_STATUS_PRESENT (i : Nat) : Fld := ⟨0x90400 + 8 * i, 29, 1, 0⟩
/-- EDGE_PORT_STATUS[i].AUX_OFF, bits 28:28, RO, reset 0 (R287). -/
def EDGE_PORT_STATUS_AUX_OFF (i : Nat) : Fld := ⟨0x90400 + 8 * i, 28, 1, 0⟩
/-- EDGE_PORT_STATUS[i].TRAIN_FAILS, bits 23:16, RO, reset 0 (R287). -/
def EDGE_PORT_STATUS_TRAIN_FAILS (i : Nat) : Fld := ⟨0x90400 + 8 * i, 16, 8, 0⟩
/-- EDGE_PORT_STATUS[i].DOWNS, bits 15:0, RO, reset 0 (R287). -/
def EDGE_PORT_STATUS_DOWNS (i : Nat) : Fld := ⟨0x90400 + 8 * i, 0, 16, 0⟩
/-- EDGE_PORT_FEC[i].CORRECTED, bits 63:32, RO, reset 0 (R287). -/
def EDGE_PORT_FEC_CORRECTED (i : Nat) : Fld := ⟨0x90700 + 8 * i, 32, 32, 0⟩
/-- EDGE_PORT_FEC[i].UNCORRECTED, bits 31:0, RO, reset 0 (R287). -/
def EDGE_PORT_FEC_UNCORRECTED (i : Nat) : Fld := ⟨0x90700 + 8 * i, 0, 32, 0⟩
/-- SAP_CTRL.CLR_COUNTERS, bits 0:0, WO, reset 0 (R288). -/
def SAP_CTRL_CLR_COUNTERS : Fld := ⟨0xa0000, 0, 1, 0⟩
/-- SAP_CONFIG.TAGFAIL_LIMIT, bits 63:56, RW, reset 64 (R288). -/
def SAP_CONFIG_TAGFAIL_LIMIT : Fld := ⟨0xa0008, 56, 8, 64⟩
/-- SAP_CONFIG.HOLD, bits 55:46, RW, reset 100 (R288). -/
def SAP_CONFIG_HOLD : Fld := ⟨0xa0008, 46, 10, 100⟩
/-- SAP_CONFIG.GRACE, bits 45:38, RW, reset 64 (R288). -/
def SAP_CONFIG_GRACE : Fld := ⟨0xa0008, 38, 8, 64⟩
/-- SAP_CONFIG.ACK_DELAY, bits 37:30, RW, reset 40 (R288). -/
def SAP_CONFIG_ACK_DELAY : Fld := ⟨0xa0008, 30, 8, 40⟩
/-- SAP_CONFIG.RX_WINDOW, bits 29:22, RW, reset 128 (R288). -/
def SAP_CONFIG_RX_WINDOW : Fld := ⟨0xa0008, 22, 8, 128⟩
/-- SAP_CONFIG.RETX_LIMIT, bits 21:19, RW, reset 7 (R288). -/
def SAP_CONFIG_RETX_LIMIT : Fld := ⟨0xa0008, 19, 3, 7⟩
/-- SAP_CONFIG.RTO, bits 7:0, RW, reset 20 (R288). -/
def SAP_CONFIG_RTO : Fld := ⟨0xa0008, 0, 8, 20⟩
/-- SAP_STATUS.LAST_RING_LO, bits 63:32, RO, reset 0 (R288). -/
def SAP_STATUS_LAST_RING_LO : Fld := ⟨0xa0010, 32, 32, 0⟩
/-- SAP_STATUS.LAST_SESSION, bits 31:22, RO, reset 0 (R288). -/
def SAP_STATUS_LAST_SESSION : Fld := ⟨0xa0010, 22, 10, 0⟩
/-- SAP_STATUS.LAST_CLASS, bits 21:14, RO, reset 0 (R288). -/
def SAP_STATUS_LAST_CLASS : Fld := ⟨0xa0010, 14, 8, 0⟩
/-- SAP_STATUS.LAST_CODE, bits 13:6, RO, reset 0 (R288). -/
def SAP_STATUS_LAST_CODE : Fld := ⟨0xa0010, 6, 8, 0⟩
/-- SAP_STATUS.CFG_REJECT, bits 0:0, W1C, reset 0 (R288). -/
def SAP_STATUS_CFG_REJECT : Fld := ⟨0xa0010, 0, 1, 0⟩
/-- SAP_SESSION_CMD.GO, bits 63:63, WO, reset 0 (R288). -/
def SAP_SESSION_CMD_GO : Fld := ⟨0xa0018, 63, 1, 0⟩
/-- SAP_SESSION_CMD.OP, bits 62:60, RW, reset 0 (R288). -/
def SAP_SESSION_CMD_OP : Fld := ⟨0xa0018, 60, 3, 0⟩
/-- SAP_SESSION_CMD.KIND, bits 41:40, RW, reset 0 (R288). -/
def SAP_SESSION_CMD_KIND : Fld := ⟨0xa0018, 40, 2, 0⟩
/-- SAP_SESSION_CMD.HALF, bits 39:39, RW, reset 0 (R288). -/
def SAP_SESSION_CMD_HALF : Fld := ⟨0xa0018, 39, 1, 0⟩
/-- SAP_SESSION_CMD.PORT, bits 38:32, RW, reset 0 (R288). -/
def SAP_SESSION_CMD_PORT : Fld := ⟨0xa0018, 32, 7, 0⟩
/-- SAP_SESSION_CMD.ANY_REMOTE, bits 26:26, RW, reset 0 (R288). -/
def SAP_SESSION_CMD_ANY_REMOTE : Fld := ⟨0xa0018, 26, 1, 0⟩
/-- SAP_SESSION_CMD.REMOTE_INDEX, bits 25:16, RW, reset 0 (R288). -/
def SAP_SESSION_CMD_REMOTE_INDEX : Fld := ⟨0xa0018, 16, 10, 0⟩
/-- SAP_SESSION_CMD.INDEX, bits 9:0, RW, reset 0 (R288). -/
def SAP_SESSION_CMD_INDEX : Fld := ⟨0xa0018, 0, 10, 0⟩
/-- SAP_SESSION_PEER.MAC, bits 47:0, RW, reset 0 (R288). -/
def SAP_SESSION_PEER_MAC : Fld := ⟨0xa0020, 0, 48, 0⟩
/-- SAP_SESSION_RESULT.RESULT, bits 3:1, RO, reset 0 (R288). -/
def SAP_SESSION_RESULT_RESULT : Fld := ⟨0xa0028, 1, 3, 0⟩
/-- SAP_SESSION_RESULT.BUSY, bits 0:0, RO, reset 0 (R288). -/
def SAP_SESSION_RESULT_BUSY : Fld := ⟨0xa0028, 0, 1, 0⟩
/-- SAP_DOMAIN_EPOCH.HOSTPORT, bits 31:16, RO, reset 0 (R288). -/
def SAP_DOMAIN_EPOCH_HOSTPORT : Fld := ⟨0xa0030, 16, 16, 0⟩
/-- SAP_DOMAIN_EPOCH.ENGINE, bits 15:0, RO, reset Heartwood (R288). -/
def SAP_DOMAIN_EPOCH_ENGINE : Fld := ⟨0xa0030, 0, 16, 0⟩
/-- SAP_DIE_EPOCH[i].EPOCH, bits 15:0, RO, reset 0 (R288). -/
def SAP_DIE_EPOCH_EPOCH (i : Nat) : Fld := ⟨0xa0100 + 8 * i, 0, 16, 0⟩
/-- SAP_CNT[i].COUNT, bits 63:0, RO, reset 0 (R288). -/
def SAP_CNT_COUNT (i : Nat) : Fld := ⟨0xa0800 + 8 * i, 0, 64, 0⟩
/-- SAP_SESSION[i].TAGFAILS, bits 63:56, RO, reset 0 (R288). -/
def SAP_SESSION_TAGFAILS (i : Nat) : Fld := ⟨0xa8000 + 8 * i, 56, 8, 0⟩
/-- SAP_SESSION[i].REMOTE_INDEX, bits 55:46, RO, reset 0 (R288). -/
def SAP_SESSION_REMOTE_INDEX (i : Nat) : Fld := ⟨0xa8000 + 8 * i, 46, 10, 0⟩
/-- SAP_SESSION[i].KIND, bits 45:44, RO, reset 0 (R288). -/
def SAP_SESSION_KIND (i : Nat) : Fld := ⟨0xa8000 + 8 * i, 44, 2, 0⟩
/-- SAP_SESSION[i].HALF, bits 43:43, RO, reset 0 (R288). -/
def SAP_SESSION_HALF (i : Nat) : Fld := ⟨0xa8000 + 8 * i, 43, 1, 0⟩
/-- SAP_SESSION[i].PORT, bits 42:36, RO, reset 0 (R288). -/
def SAP_SESSION_PORT (i : Nat) : Fld := ⟨0xa8000 + 8 * i, 36, 7, 0⟩
/-- SAP_SESSION[i].EPOCH, bits 31:16, RO, reset 0 (R288). -/
def SAP_SESSION_EPOCH (i : Nat) : Fld := ⟨0xa8000 + 8 * i, 16, 16, 0⟩
/-- SAP_SESSION[i].STATE, bits 2:0, RO, reset 0 (R288). -/
def SAP_SESSION_STATE (i : Nat) : Fld := ⟨0xa8000 + 8 * i, 0, 3, 0⟩
/-! ## STREAM registers (10_stream_and_peers.md) -/

/-- STREAM_CTRL.FLUSH, bits 2:2, WO, reset 0 (R312). -/
def STREAM_CTRL_FLUSH : Fld := ⟨0xb0000, 2, 1, 0⟩
/-- STREAM_CTRL.HALT_ON_PEER, bits 1:1, RW, reset 0 (R312). -/
def STREAM_CTRL_HALT_ON_PEER : Fld := ⟨0xb0000, 1, 1, 0⟩
/-- STREAM_CTRL.CLR_COUNTERS, bits 0:0, WO, reset 0 (R312). -/
def STREAM_CTRL_CLR_COUNTERS : Fld := ⟨0xb0000, 0, 1, 0⟩
/-- STREAM_EXTENT.CHUNKS, bits 34:0, RW, reset 0 (R312). -/
def STREAM_EXTENT_CHUNKS : Fld := ⟨0xb0008, 0, 35, 0⟩
/-- STREAM_U_ALLOW.UNITS, bits 23:8, RW, reset 256 (R312). -/
def STREAM_U_ALLOW_UNITS : Fld := ⟨0xb0010, 8, 16, 256⟩
/-- STREAM_U_ALLOW.DEFER_MAX, bits 7:0, RW, reset 4 (R312). -/
def STREAM_U_ALLOW_DEFER_MAX : Fld := ⟨0xb0010, 0, 8, 4⟩
/-- STREAM_STATUS.LAST_RING_LO, bits 63:32, RO, reset 0 (R312). -/
def STREAM_STATUS_LAST_RING_LO : Fld := ⟨0xb0018, 32, 32, 0⟩
/-- STREAM_STATUS.LAST_REASON, bits 31:24, RO, reset 0 (R312). -/
def STREAM_STATUS_LAST_REASON : Fld := ⟨0xb0018, 24, 8, 0⟩
/-- STREAM_STATUS.PROMOTE_PENDING, bits 1:1, RO, reset 0 (R312). -/
def STREAM_STATUS_PROMOTE_PENDING : Fld := ⟨0xb0018, 1, 1, 0⟩
/-- STREAM_STATUS.CFG_REJECT, bits 0:0, W1C, reset 0 (R312). -/
def STREAM_STATUS_CFG_REJECT : Fld := ⟨0xb0018, 0, 1, 0⟩
/-- STREAM_LABEL_LEN[i].CHUNKS, bits 30:0, RW, reset 0 (R312). -/
def STREAM_LABEL_LEN_CHUNKS (i : Nat) : Fld := ⟨0xb0100 + 8 * i, 0, 31, 0⟩
/-- STREAM_LABEL_MAP[i].STRIPE_EXP, bits 19:16, RW, reset 0 (R312). -/
def STREAM_LABEL_MAP_STRIPE_EXP (i : Nat) : Fld := ⟨0xb0200 + 8 * i, 16, 4, 0⟩
/-- STREAM_LABEL_MAP[i].WIDTH, bits 13:10, RW, reset 0 (R312). -/
def STREAM_LABEL_MAP_WIDTH (i : Nat) : Fld := ⟨0xb0200 + 8 * i, 10, 4, 0⟩
/-- STREAM_LABEL_MAP[i].FIRST, bits 9:0, RW, reset 0 (R312). -/
def STREAM_LABEL_MAP_FIRST (i : Nat) : Fld := ⟨0xb0200 + 8 * i, 0, 10, 0⟩
/-- STREAM_CACHE[i].PINNED, bits 46:32, RO, reset 0 (R312). -/
def STREAM_CACHE_PINNED (i : Nat) : Fld := ⟨0xb0800 + 8 * i, 32, 15, 0⟩
/-- STREAM_CACHE[i].STAGED_MIB, bits 31:24, RO, reset 0 (R312). -/
def STREAM_CACHE_STAGED_MIB (i : Nat) : Fld := ⟨0xb0800 + 8 * i, 24, 8, 0⟩
/-- STREAM_CACHE[i].VALID, bits 14:0, RO, reset 0 (R312). -/
def STREAM_CACHE_VALID (i : Nat) : Fld := ⟨0xb0800 + 8 * i, 0, 15, 0⟩
/-- STREAM_CNT[i].COUNT, bits 63:0, RO, reset 0 (R312). -/
def STREAM_CNT_COUNT (i : Nat) : Fld := ⟨0xb1000 + 8 * i, 0, 64, 0⟩
/-! ## ID registers (11_host_port.md) -/

/-- ID_DEVICE.VENDOR, bits 63:48, RO, reset Vendor (R336). -/
def ID_DEVICE_VENDOR : Fld := ⟨0x0, 48, 16, 0⟩
/-- ID_DEVICE.DEVICE, bits 47:32, RO, reset 0x1152 (R336). -/
def ID_DEVICE_DEVICE : Fld := ⟨0x0, 32, 16, 4434⟩
/-- ID_DEVICE.REVISION, bits 23:16, RO, reset Vendor (R336). -/
def ID_DEVICE_REVISION : Fld := ⟨0x0, 16, 8, 0⟩
/-- ID_DEVICE.LINE, bits 8:8, RO, reset Certificate (R336). -/
def ID_DEVICE_LINE : Fld := ⟨0x0, 8, 1, 0⟩
/-- ID_DEVICE.VARIANT, bits 1:0, RO, reset Certificate (R336). -/
def ID_DEVICE_VARIANT : Fld := ⟨0x0, 0, 2, 0⟩
/-- ID_SERIAL.SERIAL, bits 63:0, RO, reset Vendor (R336). -/
def ID_SERIAL_SERIAL : Fld := ⟨0x8, 0, 64, 0⟩
/-- ID_HOST_CTRL.CLK_MODE, bits 16:16, RWH, reset 0 (R336). -/
def ID_HOST_CTRL_CLK_MODE : Fld := ⟨0x10, 16, 1, 0⟩
/-- ID_HOST_CTRL.CLR_COUNTERS, bits 8:8, WO, reset 0 (R336). -/
def ID_HOST_CTRL_CLR_COUNTERS : Fld := ⟨0x10, 8, 1, 0⟩
/-- ID_HOST_CTRL.CPL_TIMEOUT, bits 7:0, RW, reset 50 (R336). -/
def ID_HOST_CTRL_CPL_TIMEOUT : Fld := ⟨0x10, 0, 8, 50⟩
/-- ID_HOST_STATUS.HELD_COUNT, bits 24:16, RO, reset 0 (R336). -/
def ID_HOST_STATUS_HELD_COUNT : Fld := ⟨0x18, 16, 9, 0⟩
/-- ID_HOST_STATUS.HELD, bits 15:15, RO, reset 0 (R336). -/
def ID_HOST_STATUS_HELD : Fld := ⟨0x18, 15, 1, 0⟩
/-- ID_HOST_STATUS.ACCESS_ERR, bits 14:14, W1C, reset 0 (R336). -/
def ID_HOST_STATUS_ACCESS_ERR : Fld := ⟨0x18, 14, 1, 0⟩
/-- ID_HOST_STATUS.IDE_SECURE, bits 13:13, RO, reset 0 (R336). -/
def ID_HOST_STATUS_IDE_SECURE : Fld := ⟨0x18, 13, 1, 0⟩
/-- ID_HOST_STATUS.SESSION, bits 12:12, RO, reset 0 (R336). -/
def ID_HOST_STATUS_SESSION : Fld := ⟨0x18, 12, 1, 0⟩
/-- ID_HOST_STATUS.DSTATE, bits 11:10, RO, reset 0 (R336). -/
def ID_HOST_STATUS_DSTATE : Fld := ⟨0x18, 10, 2, 0⟩
/-- ID_HOST_STATUS.WIDTH, bits 9:5, RO, reset 0 (R336). -/
def ID_HOST_STATUS_WIDTH : Fld := ⟨0x18, 5, 5, 0⟩
/-- ID_HOST_STATUS.SPEED, bits 4:2, RO, reset 0 (R336). -/
def ID_HOST_STATUS_SPEED : Fld := ⟨0x18, 2, 3, 0⟩
/-- ID_INT_CAUSE.CAUSE, bits 16:0, W1C, reset 0 (R336). -/
def ID_INT_CAUSE_CAUSE : Fld := ⟨0x20, 0, 17, 0⟩
/-- ID_INT_ENABLE.ENABLE, bits 16:0, RW, reset 0 (R336). -/
def ID_INT_ENABLE_ENABLE : Fld := ⟨0x28, 0, 17, 0⟩
/-- ID_MGMT.LAST_STATUS, bits 31:24, RO, reset 0 (R336). -/
def ID_MGMT_LAST_STATUS : Fld := ⟨0x30, 24, 8, 0⟩
/-- ID_MGMT.LAST_CMD, bits 23:16, RO, reset 0 (R336). -/
def ID_MGMT_LAST_CMD : Fld := ⟨0x30, 16, 8, 0⟩
/-- ID_MGMT.I3C, bits 15:15, RO, reset 0 (R336). -/
def ID_MGMT_I3C : Fld := ⟨0x30, 15, 1, 0⟩
/-- ID_MGMT.DYN_ADDR, bits 14:8, RO, reset 0 (R336). -/
def ID_MGMT_DYN_ADDR : Fld := ⟨0x30, 8, 7, 0⟩
/-- ID_MGMT.STATIC_ADDR, bits 6:0, RO, reset Strap (R336). -/
def ID_MGMT_STATIC_ADDR : Fld := ⟨0x30, 0, 7, 0⟩
/-- ID_HOST_CNT[i].COUNT, bits 63:0, RO, reset 0 (R336). -/
def ID_HOST_CNT_COUNT (i : Nat) : Fld := ⟨0x100 + 8 * i, 0, 64, 0⟩
/-! ## BARK registers (12_bark_security.md) -/

/-- BARK_CTRL.CLR_COUNTERS, bits 1:1, WO, reset 0 (R373). -/
def BARK_CTRL_CLR_COUNTERS : Fld := ⟨0xc0000, 1, 1, 0⟩
/-- BARK_CTRL.SEAL, bits 0:0, WO, reset 0 (R373). -/
def BARK_CTRL_SEAL : Fld := ⟨0xc0000, 0, 1, 0⟩
/-- BARK_STATUS.LAST_RING_LO, bits 63:32, RO, reset 0 (R373). -/
def BARK_STATUS_LAST_RING_LO : Fld := ⟨0xc0008, 32, 32, 0⟩
/-- BARK_STATUS.LAST_CODE, bits 31:16, RO, reset 0 (R373). -/
def BARK_STATUS_LAST_CODE : Fld := ⟨0xc0008, 16, 16, 0⟩
/-- BARK_STATUS.EVENT, bits 11:11, W1C, reset 0 (R373). -/
def BARK_STATUS_EVENT : Fld := ⟨0xc0008, 11, 1, 0⟩
/-- BARK_STATUS.KEY_RECORD_OK, bits 10:10, RO, reset 0 (R373). -/
def BARK_STATUS_KEY_RECORD_OK : Fld := ⟨0xc0008, 10, 1, 0⟩
/-- BARK_STATUS.SMK_VALID, bits 9:9, RO, reset 0 (R373). -/
def BARK_STATUS_SMK_VALID : Fld := ⟨0xc0008, 9, 1, 0⟩
/-- BARK_STATUS.GRANT_ACTIVE, bits 8:8, RO, reset 0 (R373). -/
def BARK_STATUS_GRANT_ACTIVE : Fld := ⟨0xc0008, 8, 1, 0⟩
/-- BARK_STATUS.HOST_SESSION, bits 7:7, RO, reset 0 (R373). -/
def BARK_STATUS_HOST_SESSION : Fld := ⟨0xc0008, 7, 1, 0⟩
/-- BARK_STATUS.SEALED, bits 6:6, RO, reset 0 (R373). -/
def BARK_STATUS_SEALED : Fld := ⟨0xc0008, 6, 1, 0⟩
/-- BARK_STATUS.LINE, bits 5:5, RO, reset Certificate (R373). -/
def BARK_STATUS_LINE : Fld := ⟨0xc0008, 5, 1, 0⟩
/-- BARK_STATUS.PUF_MARGIN_LOW, bits 4:4, RO, reset 0 (R373). -/
def BARK_STATUS_PUF_MARGIN_LOW : Fld := ⟨0xc0008, 4, 1, 0⟩
/-- BARK_STATUS.PUF_OK, bits 3:3, RO, reset 0 (R373). -/
def BARK_STATUS_PUF_OK : Fld := ⟨0xc0008, 3, 1, 0⟩
/-- BARK_STATUS.OWNER_STATE, bits 1:0, RO, reset Heartwood (R373). -/
def BARK_STATUS_OWNER_STATE : Fld := ⟨0xc0008, 0, 2, 0⟩
/-- BARK_CMD.GO, bits 63:63, WO, reset 0 (R373). -/
def BARK_CMD_GO : Fld := ⟨0xc0010, 63, 1, 0⟩
/-- BARK_CMD.OP, bits 55:48, RW, reset 0 (R373). -/
def BARK_CMD_OP : Fld := ⟨0xc0010, 48, 8, 0⟩
/-- BARK_CMD.LEN, bits 14:0, RW, reset 0 (R373). -/
def BARK_CMD_LEN : Fld := ⟨0xc0010, 0, 15, 0⟩
/-- BARK_RESULT.OUT_LEN, bits 46:32, RO, reset 0 (R373). -/
def BARK_RESULT_OUT_LEN : Fld := ⟨0xc0018, 32, 15, 0⟩
/-- BARK_RESULT.DETAIL, bits 15:8, RO, reset 0 (R373). -/
def BARK_RESULT_DETAIL : Fld := ⟨0xc0018, 8, 8, 0⟩
/-- BARK_RESULT.RESULT, bits 4:1, RO, reset 0 (R373). -/
def BARK_RESULT_RESULT : Fld := ⟨0xc0018, 1, 4, 0⟩
/-- BARK_RESULT.BUSY, bits 0:0, RO, reset 0 (R373). -/
def BARK_RESULT_BUSY : Fld := ⟨0xc0018, 0, 1, 0⟩
/-- BARK_NONCE[i].NONCE, bits 63:0, RO, reset DRBG (R373). -/
def BARK_NONCE_NONCE (i : Nat) : Fld := ⟨0xc0020 + 8 * i, 0, 64, 0⟩
/-- BARK_POLICY.ACCEPT_DEBUG_PEERS, bits 1:1, RWS, reset 0 (R373). -/
def BARK_POLICY_ACCEPT_DEBUG_PEERS : Fld := ⟨0xc0040, 1, 1, 0⟩
/-- BARK_POLICY.GRANTS_ALLOWED, bits 0:0, RWS, reset 1 (R373). -/
def BARK_POLICY_GRANTS_ALLOWED : Fld := ⟨0xc0040, 0, 1, 1⟩
/-- BARK_LMS.EXHAUSTED, bits 28:28, RO, reset 0 (R373). -/
def BARK_LMS_EXHAUSTED : Fld := ⟨0xc0048, 28, 1, 0⟩
/-- BARK_LMS.GEN, bits 27:24, RO, reset Heartwood (R373). -/
def BARK_LMS_GEN : Fld := ⟨0xc0048, 24, 4, 0⟩
/-- BARK_LMS.TREE, bits 20:11, RO, reset Heartwood (R373). -/
def BARK_LMS_TREE : Fld := ⟨0xc0048, 11, 10, 0⟩
/-- BARK_LMS.LEAF, bits 10:0, RO, reset 1,024 (R373). -/
def BARK_LMS_LEAF : Fld := ⟨0xc0048, 0, 11, 1024⟩
/-- BARK_TREE_CFG.VALID, bits 31:31, RO, reset 0 (R373). -/
def BARK_TREE_CFG_VALID : Fld := ⟨0xc0050, 31, 1, 0⟩
/-- BARK_TREE_CFG.DEPTH, bits 30:27, RO, reset 0 (R373). -/
def BARK_TREE_CFG_DEPTH : Fld := ⟨0xc0050, 27, 4, 0⟩
/-- BARK_TREE_CFG.WIDTH, bits 22:20, RW, reset 0 (R373). -/
def BARK_TREE_CFG_WIDTH : Fld := ⟨0xc0050, 20, 3, 0⟩
/-- BARK_TREE_CFG.FIRST, bits 9:0, RW, reset 0 (R373). -/
def BARK_TREE_CFG_FIRST : Fld := ⟨0xc0050, 0, 10, 0⟩
/-- BARK_GRANT.PLANE_READ, bits 49:49, RO, reset 0 (R373). -/
def BARK_GRANT_PLANE_READ : Fld := ⟨0xc0058, 49, 1, 0⟩
/-- BARK_GRANT.INJECT, bits 48:48, RO, reset 0 (R373). -/
def BARK_GRANT_INJECT : Fld := ⟨0xc0058, 48, 1, 0⟩
/-- BARK_GRANT.LAST_RING, bits 47:0, RO, reset 0 (R373). -/
def BARK_GRANT_LAST_RING : Fld := ⟨0xc0058, 0, 48, 0⟩
/-- BARK_ROOT[i].ROOT, bits 63:0, RO, reset 0 (R373). -/
def BARK_ROOT_ROOT (i : Nat) : Fld := ⟨0xc0060 + 8 * i, 0, 64, 0⟩
/-- BARK_TREE_ID.TREE_ID, bits 63:0, RO, reset Heartwood (R373). -/
def BARK_TREE_ID_TREE_ID : Fld := ⟨0xc0090, 0, 64, 0⟩
/-- BARK_ROLLBACK[i].COUNT, bits 63:0, RO, reset Heartwood (R373). -/
def BARK_ROLLBACK_COUNT (i : Nat) : Fld := ⟨0xc0100 + 8 * i, 0, 64, 0⟩
/-- BARK_MEAS[i].VALUE, bits 63:0, RO, reset 0 (R373). -/
def BARK_MEAS_VALUE (i : Nat) : Fld := ⟨0xc0200 + 8 * i, 0, 64, 0⟩
/-- BARK_CNT[i].COUNT, bits 63:0, RO, reset 0 (R373). -/
def BARK_CNT_COUNT (i : Nat) : Fld := ⟨0xc0400 + 8 * i, 0, 64, 0⟩
/-- BARK_MBOX[i].DATA, bits 63:0, RW, reset 0 (R373). -/
def BARK_MBOX_DATA (i : Nat) : Fld := ⟨0xc8000 + 8 * i, 0, 64, 0⟩
/-! ## HW registers (13_heartwood.md) -/

/-- HW_CTRL.CLR_COUNTERS, bits 0:0, WO, reset 0 (R387). -/
def HW_CTRL_CLR_COUNTERS : Fld := ⟨0xd0000, 0, 1, 0⟩
/-- HW_STATUS.LAST_REG, bits 25:16, RO, reset 0 (R387). -/
def HW_STATUS_LAST_REG : Fld := ⟨0xd0008, 16, 10, 0⟩
/-- HW_STATUS.REFRESH_ACTIVE, bits 7:7, RO, reset 0 (R387). -/
def HW_STATUS_REFRESH_ACTIVE : Fld := ⟨0xd0008, 7, 1, 0⟩
/-- HW_STATUS.WRITES_BUSY, bits 6:3, RO, reset 0 (R387). -/
def HW_STATUS_WRITES_BUSY : Fld := ⟨0xd0008, 3, 4, 0⟩
/-- HW_STATUS.READ_FAIL, bits 2:2, W1C, reset 0 (R387). -/
def HW_STATUS_READ_FAIL : Fld := ⟨0xd0008, 2, 1, 0⟩
/-- HW_STATUS.WEAR_LIMIT, bits 1:1, W1C, reset 0 (R387). -/
def HW_STATUS_WEAR_LIMIT : Fld := ⟨0xd0008, 1, 1, 0⟩
/-- HW_STATUS.WEAR_WARN, bits 0:0, W1C, reset 0 (R387). -/
def HW_STATUS_WEAR_WARN : Fld := ⟨0xd0008, 0, 1, 0⟩
/-- HW_HEADROOM.MIN_REG, bits 41:32, RO, reset 0 (R387). -/
def HW_HEADROOM_MIN_REG : Fld := ⟨0xd0010, 32, 10, 0⟩
/-- HW_HEADROOM.MIN_REMAINING, bits 18:0, RO, reset Heartwood (R387). -/
def HW_HEADROOM_MIN_REMAINING : Fld := ⟨0xd0010, 0, 19, 0⟩
/-- HW_REG[i].VALUE, bits 63:0, RO, reset Heartwood (R387). -/
def HW_REG_VALUE (i : Nat) : Fld := ⟨0xd2000 + 8 * i, 0, 64, 0⟩
/-- HW_INFO[i].AGE_HOURS, bits 63:40, RO, reset Heartwood (R387). -/
def HW_INFO_AGE_HOURS (i : Nat) : Fld := ⟨0xd4000 + 8 * i, 40, 24, 0⟩
/-- HW_INFO[i].CONFIG, bits 28:28, RO, reset Map (R387). -/
def HW_INFO_CONFIG (i : Nat) : Fld := ⟨0xd4000 + 8 * i, 28, 1, 0⟩
/-- HW_INFO[i].READONLY, bits 27:27, RO, reset Heartwood (R387). -/
def HW_INFO_READONLY (i : Nat) : Fld := ⟨0xd4000 + 8 * i, 27, 1, 0⟩
/-- HW_INFO[i].CLASS, bits 26:25, RO, reset Map (R387). -/
def HW_INFO_CLASS (i : Nat) : Fld := ⟨0xd4000 + 8 * i, 25, 2, 0⟩
/-- HW_INFO[i].LIVE, bits 22:19, RO, reset Heartwood (R387). -/
def HW_INFO_LIVE (i : Nat) : Fld := ⟨0xd4000 + 8 * i, 19, 4, 0⟩
/-- HW_INFO[i].WCOUNT, bits 18:0, RO, reset Heartwood (R387). -/
def HW_INFO_WCOUNT (i : Nat) : Fld := ⟨0xd4000 + 8 * i, 0, 19, 0⟩
/-- HW_GP[i].VALUE, bits 63:0, RWH, reset Heartwood (R387). -/
def HW_GP_VALUE (i : Nat) : Fld := ⟨0xd6000 + 8 * i, 0, 64, 0⟩
/-- HW_CNT[i].COUNT, bits 63:0, RO, reset 0 (R387). -/
def HW_CNT_COUNT (i : Nat) : Fld := ⟨0xd7000 + 8 * i, 0, 64, 0⟩
/-! ## PWR, THM and TEL registers (14_power_thermal.md) -/

/-- PWR_CTRL.GO, bits 63:63, WO, reset 0 (R415). -/
def PWR_CTRL_GO : Fld := ⟨0x30000, 63, 1, 0⟩
/-- PWR_CTRL.CLR_COUNTERS, bits 5:5, WO, reset 0 (R415). -/
def PWR_CTRL_CLR_COUNTERS : Fld := ⟨0x30000, 5, 1, 0⟩
/-- PWR_CTRL.AUTO_WAKE, bits 4:4, RW, reset 1 (R415). -/
def PWR_CTRL_AUTO_WAKE : Fld := ⟨0x30000, 4, 1, 1⟩
/-- PWR_CTRL.STATE, bits 2:0, RW, reset 0 (R415). -/
def PWR_CTRL_STATE : Fld := ⟨0x30000, 0, 3, 0⟩
/-- PWR_STATUS.LAST_RING_LO, bits 63:32, RO, reset 0 (R415). -/
def PWR_STATUS_LAST_RING_LO : Fld := ⟨0x30008, 32, 32, 0⟩
/-- PWR_STATUS.PENDING_STATE, bits 18:16, RO, reset 0 (R415). -/
def PWR_STATUS_PENDING_STATE : Fld := ⟨0x30008, 16, 3, 0⟩
/-- PWR_STATUS.CFG_REJECT, bits 9:9, W1C, reset 0 (R415). -/
def PWR_STATUS_CFG_REJECT : Fld := ⟨0x30008, 9, 1, 0⟩
/-- PWR_STATUS.EXCURSION_SPENT, bits 8:8, W1C, reset 0 (R415). -/
def PWR_STATUS_EXCURSION_SPENT : Fld := ⟨0x30008, 8, 1, 0⟩
/-- PWR_STATUS.LINKS_AT_FLOOR, bits 7:7, RO, reset 0 (R415). -/
def PWR_STATUS_LINKS_AT_FLOOR : Fld := ⟨0x30008, 7, 1, 0⟩
/-- PWR_STATUS.CAP_UNMET, bits 6:6, RO, reset 0 (R415). -/
def PWR_STATUS_CAP_UNMET : Fld := ⟨0x30008, 6, 1, 0⟩
/-- PWR_STATUS.WAKE_QUEUED, bits 5:5, RO, reset 0 (R415). -/
def PWR_STATUS_WAKE_QUEUED : Fld := ⟨0x30008, 5, 1, 0⟩
/-- PWR_STATUS.PENDING, bits 4:4, RO, reset 0 (R415). -/
def PWR_STATUS_PENDING : Fld := ⟨0x30008, 4, 1, 0⟩
/-- PWR_STATUS.TRANSITION, bits 3:3, RO, reset 0 (R415). -/
def PWR_STATUS_TRANSITION : Fld := ⟨0x30008, 3, 1, 0⟩
/-- PWR_STATUS.STATE, bits 2:0, RO, reset 0 (R415). -/
def PWR_STATUS_STATE : Fld := ⟨0x30008, 0, 3, 0⟩
/-- PWR_CAP.EFFECTIVE, bits 63:48, RO, reset 920 (R415). -/
def PWR_CAP_EFFECTIVE : Fld := ⟨0x30010, 48, 16, 920⟩
/-- PWR_CAP.COOL, bits 47:32, RO, reset 920 (R415). -/
def PWR_CAP_COOL : Fld := ⟨0x30010, 32, 16, 920⟩
/-- PWR_CAP.MGMT, bits 31:16, RO, reset 920 (R415). -/
def PWR_CAP_MGMT : Fld := ⟨0x30010, 16, 16, 920⟩
/-- PWR_CAP.ENGINE_CAP, bits 9:0, RW, reset 920 (R415). -/
def PWR_CAP_ENGINE_CAP : Fld := ⟨0x30010, 0, 10, 920⟩
/-- PWR_CLASS.FLOOR_LINKS, bits 37:28, RW, reset 60 (R415). -/
def PWR_CLASS_FLOOR_LINKS : Fld := ⟨0x30018, 28, 10, 60⟩
/-- PWR_CLASS.FLOOR_MEMORY, bits 27:18, RW, reset 12 (R415). -/
def PWR_CLASS_FLOOR_MEMORY : Fld := ⟨0x30018, 18, 10, 12⟩
/-- PWR_CLASS.FLOOR_COMPUTE, bits 17:8, RW, reset 96 (R415). -/
def PWR_CLASS_FLOOR_COMPUTE : Fld := ⟨0x30018, 8, 10, 96⟩
/-- PWR_CLASS.PRIO, bits 5:0, RW, reset 0x18 (R415). -/
def PWR_CLASS_PRIO : Fld := ⟨0x30018, 0, 6, 24⟩
/-- PWR_EXCURSION.REMAIN_MJ, bits 63:32, RO, reset 2,000,000 (R415). -/
def PWR_EXCURSION_REMAIN_MJ : Fld := ⟨0x30020, 32, 32, 2000000⟩
/-- PWR_EXCURSION.REFILL_W, bits 31:16, RW, reset 500 (R415). -/
def PWR_EXCURSION_REFILL_W : Fld := ⟨0x30020, 16, 16, 500⟩
/-- PWR_EXCURSION.ALLOW_J, bits 15:0, RW, reset 2,000 (R415). -/
def PWR_EXCURSION_ALLOW_J : Fld := ⟨0x30020, 0, 16, 2000⟩
/-- PWR_MEAS.MEMORY_W, bits 63:48, RO, reset 0 (R415). -/
def PWR_MEAS_MEMORY_W : Fld := ⟨0x30028, 48, 16, 0⟩
/-- PWR_MEAS.COMPUTE_W, bits 47:32, RO, reset 0 (R415). -/
def PWR_MEAS_COMPUTE_W : Fld := ⟨0x30028, 32, 16, 0⟩
/-- PWR_MEAS.INPUT_W, bits 31:16, RO, reset 0 (R415). -/
def PWR_MEAS_INPUT_W : Fld := ⟨0x30028, 16, 16, 0⟩
/-- PWR_MEAS.ENGINE_W, bits 15:0, RO, reset 0 (R415). -/
def PWR_MEAS_ENGINE_W : Fld := ⟨0x30028, 0, 16, 0⟩
/-- PWR_MEAS2.INPUT_10MV, bits 31:16, RO, reset 0 (R415). -/
def PWR_MEAS2_INPUT_10MV : Fld := ⟨0x30030, 16, 16, 0⟩
/-- PWR_MEAS2.LINKS_W, bits 15:0, RO, reset 0 (R415). -/
def PWR_MEAS2_LINKS_W : Fld := ⟨0x30030, 0, 16, 0⟩
/-- PWR_ENERGY.ENERGY_MJ, bits 63:0, RO, reset 0 (R415). -/
def PWR_ENERGY_ENERGY_MJ : Fld := ⟨0x30038, 0, 64, 0⟩
/-- PWR_SLACK.HEADROOM, bits 63:48, RO, reset 0 (R415). -/
def PWR_SLACK_HEADROOM : Fld := ⟨0x30040, 48, 16, 0⟩
/-- PWR_SLACK.FIT_CODE, bits 38:32, RO, reset 0 (R415). -/
def PWR_SLACK_FIT_CODE : Fld := ⟨0x30040, 32, 7, 0⟩
/-- PWR_SLACK.MIN_MARGIN, bits 31:16, RO, reset 0 (R415). -/
def PWR_SLACK_MIN_MARGIN : Fld := ⟨0x30040, 16, 16, 0⟩
/-- PWR_SLACK.PLANNED_SLACK, bits 15:0, RO, reset 0 (R415). -/
def PWR_SLACK_PLANNED_SLACK : Fld := ⟨0x30040, 0, 16, 0⟩
/-- PWR_DROOP.EVENTS, bits 63:32, RO, reset 0 (R415). -/
def PWR_DROOP_EVENTS : Fld := ⟨0x30048, 32, 32, 0⟩
/-- PWR_DROOP.LIMIT, bits 31:16, RW, reset 1,000 (R415). -/
def PWR_DROOP_LIMIT : Fld := ⟨0x30048, 16, 16, 1000⟩
/-- PWR_DROOP.THRESH_MV, bits 6:0, RW, reset 50 (R415). -/
def PWR_DROOP_THRESH_MV : Fld := ⟨0x30048, 0, 7, 50⟩
/-- PWR_DIE[i].WAKES, bits 63:48, RO, reset 0 (R415). -/
def PWR_DIE_WAKES (i : Nat) : Fld := ⟨0x30100 + 8 * i, 48, 16, 0⟩
/-- PWR_DIE[i].DROOPS, bits 47:32, RO, reset 0 (R415). -/
def PWR_DIE_DROOPS (i : Nat) : Fld := ⟨0x30100 + 8 * i, 32, 16, 0⟩
/-- PWR_DIE[i].POWER_W, bits 31:16, RO, reset 0 (R415). -/
def PWR_DIE_POWER_W (i : Nat) : Fld := ⟨0x30100 + 8 * i, 16, 16, 0⟩
/-- PWR_DIE[i].TRANSIT, bits 2:2, RO, reset 0 (R415). -/
def PWR_DIE_TRANSIT (i : Nat) : Fld := ⟨0x30100 + 8 * i, 2, 1, 0⟩
/-- PWR_DIE[i].DOMAIN, bits 1:0, RO, reset Variant (R415). -/
def PWR_DIE_DOMAIN (i : Nat) : Fld := ⟨0x30100 + 8 * i, 0, 2, 0⟩
/-- PWR_CNT[i].COUNT, bits 63:0, RO, reset 0 (R415). -/
def PWR_CNT_COUNT (i : Nat) : Fld := ⟨0x30800 + 8 * i, 0, 64, 0⟩
/-- THM_CONFIG.TRIP, bits 23:16, RO, reset 110 (R416). -/
def THM_CONFIG_TRIP : Fld := ⟨0x40000, 16, 8, 110⟩
/-- THM_CONFIG.STEP, bits 15:12, RW, reset 2 (R416). -/
def THM_CONFIG_STEP : Fld := ⟨0x40000, 12, 4, 2⟩
/-- THM_CONFIG.HYST, bits 11:8, RW, reset 3 (R416). -/
def THM_CONFIG_HYST : Fld := ⟨0x40000, 8, 4, 3⟩
/-- THM_CONFIG.THROTTLE, bits 7:0, RW, reset 95 (R416). -/
def THM_CONFIG_THROTTLE : Fld := ⟨0x40000, 0, 8, 95⟩
/-- THM_STATUS.HOTTEST_TEMP, bits 63:48, RO, reset 0 (R416). -/
def THM_STATUS_HOTTEST_TEMP : Fld := ⟨0x40008, 48, 16, 0⟩
/-- THM_STATUS.HOTTEST_DIE, bits 39:34, RO, reset 0 (R416). -/
def THM_STATUS_HOTTEST_DIE : Fld := ⟨0x40008, 34, 6, 0⟩
/-- THM_STATUS.CEILING, bits 33:27, RO, reset 120 (R416). -/
def THM_STATUS_CEILING : Fld := ⟨0x40008, 27, 7, 120⟩
/-- THM_STATUS.SENSOR_FAULT, bits 4:4, W1C, reset 0 (R416). -/
def THM_STATUS_SENSOR_FAULT : Fld := ⟨0x40008, 4, 1, 0⟩
/-- THM_STATUS.CFG_REJECT, bits 3:3, W1C, reset 0 (R416). -/
def THM_STATUS_CFG_REJECT : Fld := ⟨0x40008, 3, 1, 0⟩
/-- THM_STATUS.TRIP, bits 2:2, W1C, reset 0 (R416). -/
def THM_STATUS_TRIP : Fld := ⟨0x40008, 2, 1, 0⟩
/-- THM_STATUS.HOLD, bits 1:1, RO, reset 0 (R416). -/
def THM_STATUS_HOLD : Fld := ⟨0x40008, 1, 1, 0⟩
/-- THM_STATUS.THROTTLING, bits 0:0, RO, reset 0 (R416). -/
def THM_STATUS_THROTTLING : Fld := ⟨0x40008, 0, 1, 0⟩
/-- THM_COOLANT.DEW, bits 63:48, RO, reset 0 (R416). -/
def THM_COOLANT_DEW : Fld := ⟨0x40010, 48, 16, 0⟩
/-- THM_COOLANT.FLOW, bits 47:32, RO, reset 0 (R416). -/
def THM_COOLANT_FLOW : Fld := ⟨0x40010, 32, 16, 0⟩
/-- THM_COOLANT.OUTLET, bits 31:16, RO, reset 0 (R416). -/
def THM_COOLANT_OUTLET : Fld := ⟨0x40010, 16, 16, 0⟩
/-- THM_COOLANT.INLET, bits 15:0, RO, reset 0 (R416). -/
def THM_COOLANT_INLET : Fld := ⟨0x40010, 0, 16, 0⟩
/-- THM_CTRL.CLR_COUNTERS, bits 1:1, WO, reset 0 (R416). -/
def THM_CTRL_CLR_COUNTERS : Fld := ⟨0x40018, 1, 1, 0⟩
/-- THM_CTRL.CLR_PEAK, bits 0:0, WO, reset 0 (R416). -/
def THM_CTRL_CLR_PEAK : Fld := ⟨0x40018, 0, 1, 0⟩
/-- THM_DIE[i].VALID, bits 54:50, RO, reset 0 (R416). -/
def THM_DIE_VALID (i : Nat) : Fld := ⟨0x40100 + 8 * i, 50, 5, 0⟩
/-- THM_DIE[i].INVALID, bits 49:49, RO, reset 0 (R416). -/
def THM_DIE_INVALID (i : Nat) : Fld := ⟨0x40100 + 8 * i, 49, 1, 0⟩
/-- THM_DIE[i].HOT, bits 48:48, RO, reset 0 (R416). -/
def THM_DIE_HOT (i : Nat) : Fld := ⟨0x40100 + 8 * i, 48, 1, 0⟩
/-- THM_DIE[i].PEAK, bits 47:32, RO, reset 0 (R416). -/
def THM_DIE_PEAK (i : Nat) : Fld := ⟨0x40100 + 8 * i, 32, 16, 0⟩
/-- THM_DIE[i].TEMP, bits 15:0, RO, reset 0 (R416). -/
def THM_DIE_TEMP (i : Nat) : Fld := ⟨0x40100 + 8 * i, 0, 16, 0⟩
/-- THM_SENSOR[i].VALID, bits 16:16, RO, reset 0 (R416). -/
def THM_SENSOR_VALID (i : Nat) : Fld := ⟨0x41000 + 8 * i, 16, 1, 0⟩
/-- THM_SENSOR[i].TEMP, bits 15:0, RO, reset 0 (R416). -/
def THM_SENSOR_TEMP (i : Nat) : Fld := ⟨0x41000 + 8 * i, 0, 16, 0⟩
/-- THM_CNT[i].COUNT, bits 63:0, RO, reset 0 (R416). -/
def THM_CNT_COUNT (i : Nat) : Fld := ⟨0x40800 + 8 * i, 0, 64, 0⟩
/-- TEL_CTRL.INTERVAL, bits 31:8, RW, reset 1,000 (R417). -/
def TEL_CTRL_INTERVAL : Fld := ⟨0x100000, 8, 24, 1000⟩
/-- TEL_CTRL.CLR_COUNTERS, bits 1:1, WO, reset 0 (R417). -/
def TEL_CTRL_CLR_COUNTERS : Fld := ⟨0x100000, 1, 1, 0⟩
/-- TEL_CTRL.ENABLE, bits 0:0, RW, reset 0 (R417). -/
def TEL_CTRL_ENABLE : Fld := ⟨0x100000, 0, 1, 0⟩
/-- TEL_BASE.ADDR, bits 63:12, RW, reset 0 (R417). -/
def TEL_BASE_ADDR : Fld := ⟨0x100008, 12, 52, 0⟩
/-- TEL_LEN.GROUPS, bits 15:0, RW, reset 0 (R417). -/
def TEL_LEN_GROUPS : Fld := ⟨0x100010, 0, 16, 0⟩
/-- TEL_SEQ.SEQ, bits 63:0, RO, reset 0 (R417). -/
def TEL_SEQ_SEQ : Fld := ⟨0x100018, 0, 64, 0⟩
/-- TEL_CNT[i].COUNT, bits 63:0, RO, reset 0 (R417). -/
def TEL_CNT_COUNT (i : Nat) : Fld := ⟨0x100100 + 8 * i, 0, 64, 0⟩
/-! ## RAS, INJ, JOURNAL and BURL registers (15_faults_recovery_replay.md) -/

/-- RAS_CTRL.SELFTEST_EN, bits 1:1, RW, reset 1 (R441). -/
def RAS_CTRL_SELFTEST_EN : Fld := ⟨0xe0000, 1, 1, 1⟩
/-- RAS_CTRL.CLR_COUNTERS, bits 0:0, WO, reset 0 (R441). -/
def RAS_CTRL_CLR_COUNTERS : Fld := ⟨0xe0000, 0, 1, 0⟩
/-- RAS_STATUS.LAST_RING_LO, bits 63:32, RO, reset 0 (R441). -/
def RAS_STATUS_LAST_RING_LO : Fld := ⟨0xe0008, 32, 32, 0⟩
/-- RAS_STATUS.LAST_RESULT, bits 10:8, RO, reset 0 (R441). -/
def RAS_STATUS_LAST_RESULT : Fld := ⟨0xe0008, 8, 3, 0⟩
/-- RAS_STATUS.STAGE, bits 2:0, RO, reset 0 (R441). -/
def RAS_STATUS_STAGE : Fld := ⟨0xe0008, 0, 3, 0⟩
/-- RAS_FAULT_SEQ.COUNT, bits 63:0, RO, reset 0 (R441). -/
def RAS_FAULT_SEQ_COUNT : Fld := ⟨0xe0010, 0, 64, 0⟩
/-- RAS_RELOAD.VALID, bits 4:4, RW, reset 0 (R441). -/
def RAS_RELOAD_VALID : Fld := ⟨0xe0018, 4, 1, 0⟩
/-- RAS_RELOAD.LABEL, bits 3:0, RW, reset 0 (R441). -/
def RAS_RELOAD_LABEL : Fld := ⟨0xe0018, 0, 4, 0⟩
/-- RAS_LAST_RECOVERY.RINGS, bits 63:48, RO, reset 0 (R441). -/
def RAS_LAST_RECOVERY_RINGS : Fld := ⟨0xe0020, 48, 16, 0⟩
/-- RAS_LAST_RECOVERY.BAND, bits 40:32, RO, reset 0 (R441). -/
def RAS_LAST_RECOVERY_BAND : Fld := ⟨0xe0020, 32, 9, 0⟩
/-- RAS_LAST_RECOVERY.JOB_ID, bits 31:0, RO, reset 0 (R441). -/
def RAS_LAST_RECOVERY_JOB_ID : Fld := ⟨0xe0020, 0, 32, 0⟩
/-- RAS_DIE_ERR[i].CORRECTED, bits 63:32, RO, reset 0 (R441). -/
def RAS_DIE_ERR_CORRECTED (i : Nat) : Fld := ⟨0xe0100 + 8 * i, 32, 32, 0⟩
/-- RAS_DIE_ERR[i].UNCORRECTABLE, bits 31:16, RO, reset 0 (R441). -/
def RAS_DIE_ERR_UNCORRECTABLE (i : Nat) : Fld := ⟨0xe0100 + 8 * i, 16, 16, 0⟩
/-- RAS_DIE_ERR[i].DEAD, bits 15:0, RO, reset 0 (R441). -/
def RAS_DIE_ERR_DEAD (i : Nat) : Fld := ⟨0xe0100 + 8 * i, 0, 16, 0⟩
/-- RAS_CNT[i].COUNT, bits 63:0, RO, reset 0 (R441). -/
def RAS_CNT_COUNT (i : Nat) : Fld := ⟨0xe0400 + 8 * i, 0, 64, 0⟩
/-- RAS_LOG[i].DATA, bits 63:0, RO, reset 0 (R441). -/
def RAS_LOG_DATA (i : Nat) : Fld := ⟨0xe8000 + 8 * i, 0, 64, 0⟩
/-- INJ_AT.RING, bits 47:0, RW, reset 0 (R442). -/
def INJ_AT_RING : Fld := ⟨0xf0000, 0, 48, 0⟩
/-- INJ_CELL.GO, bits 63:63, WO, reset 0 (R442). -/
def INJ_CELL_GO : Fld := ⟨0xf0008, 63, 1, 0⟩
/-- INJ_CELL.DET, bits 62:56, RW, reset 0 (R442). -/
def INJ_CELL_DET : Fld := ⟨0xf0008, 56, 7, 0⟩
/-- INJ_CELL.PARAM, bits 47:32, RW, reset 0 (R442). -/
def INJ_CELL_PARAM : Fld := ⟨0xf0008, 32, 16, 0⟩
/-- INJ_CELL.X, bits 20:10, RW, reset 0 (R442). -/
def INJ_CELL_X : Fld := ⟨0xf0008, 10, 11, 0⟩
/-- INJ_CELL.Y, bits 9:0, RW, reset 0 (R442). -/
def INJ_CELL_Y : Fld := ⟨0xf0008, 0, 10, 0⟩
/-- INJ_NET.GO, bits 63:63, WO, reset 0 (R442). -/
def INJ_NET_GO : Fld := ⟨0xf0010, 63, 1, 0⟩
/-- INJ_NET.DET, bits 62:56, RW, reset 0 (R442). -/
def INJ_NET_DET : Fld := ⟨0xf0010, 56, 7, 0⟩
/-- INJ_NET.BITS, bits 38:37, RW, reset 0 (R442). -/
def INJ_NET_BITS : Fld := ⟨0xf0010, 37, 2, 0⟩
/-- INJ_NET.PORT, bits 36:34, RW, reset 0 (R442). -/
def INJ_NET_PORT : Fld := ⟨0xf0010, 34, 3, 0⟩
/-- INJ_NET.NET, bits 33:32, RW, reset 0 (R442). -/
def INJ_NET_NET : Fld := ⟨0xf0010, 32, 2, 0⟩
/-- INJ_NET.X, bits 20:10, RW, reset 0 (R442). -/
def INJ_NET_X : Fld := ⟨0xf0010, 10, 11, 0⟩
/-- INJ_NET.Y, bits 9:0, RW, reset 0 (R442). -/
def INJ_NET_Y : Fld := ⟨0xf0010, 0, 10, 0⟩
/-- INJ_EDGE.GO, bits 63:63, WO, reset 0 (R442). -/
def INJ_EDGE_GO : Fld := ⟨0xf0018, 63, 1, 0⟩
/-- INJ_EDGE.DET, bits 62:56, RW, reset 0 (R442). -/
def INJ_EDGE_DET : Fld := ⟨0xf0018, 56, 7, 0⟩
/-- INJ_EDGE.PARAM, bits 47:32, RW, reset 0 (R442). -/
def INJ_EDGE_PARAM : Fld := ⟨0xf0018, 32, 16, 0⟩
/-- INJ_EDGE.SESSION, bits 25:16, RW, reset 0 (R442). -/
def INJ_EDGE_SESSION : Fld := ⟨0xf0018, 16, 10, 0⟩
/-- INJ_EDGE.HALF, bits 7:7, RW, reset 0 (R442). -/
def INJ_EDGE_HALF : Fld := ⟨0xf0018, 7, 1, 0⟩
/-- INJ_EDGE.PORT, bits 6:0, RW, reset 0 (R442). -/
def INJ_EDGE_PORT : Fld := ⟨0xf0018, 0, 7, 0⟩
/-- INJ_ROOT.GO, bits 63:63, WO, reset 0 (R442). -/
def INJ_ROOT_GO : Fld := ⟨0xf0020, 63, 1, 0⟩
/-- INJ_ROOT.DET, bits 62:56, RW, reset 0 (R442). -/
def INJ_ROOT_DET : Fld := ⟨0xf0020, 56, 7, 0⟩
/-- INJ_ROOT.PARAM, bits 47:32, RW, reset 0 (R442). -/
def INJ_ROOT_PARAM : Fld := ⟨0xf0020, 32, 16, 0⟩
/-- INJ_ROOT.DIE, bits 5:0, RW, reset 0 (R442). -/
def INJ_ROOT_DIE : Fld := ⟨0xf0020, 0, 6, 0⟩
/-- INJ_STATUS.GRANT, bits 4:4, RO, reset 0 (R442). -/
def INJ_STATUS_GRANT : Fld := ⟨0xf0028, 4, 1, 0⟩
/-- INJ_STATUS.ARMED, bits 3:0, RO, reset 0 (R442). -/
def INJ_STATUS_ARMED : Fld := ⟨0xf0028, 0, 4, 0⟩
/-- INJ_COUNT.IGNORED, bits 63:32, RO, reset 0 (R442). -/
def INJ_COUNT_IGNORED : Fld := ⟨0xf0030, 32, 32, 0⟩
/-- INJ_COUNT.FIRED, bits 31:0, RO, reset 0 (R442). -/
def INJ_COUNT_FIRED : Fld := ⟨0xf0030, 0, 32, 0⟩
/-- JOURNAL_CTRL.LABEL, bits 15:12, RW, reset 0 (R443). -/
def JOURNAL_CTRL_LABEL : Fld := ⟨0x110000, 12, 4, 0⟩
/-- JOURNAL_CTRL.LIMB, bits 11:8, RW, reset 0 (R443). -/
def JOURNAL_CTRL_LIMB : Fld := ⟨0x110000, 8, 4, 0⟩
/-- JOURNAL_CTRL.TARGET, bits 2:1, RW, reset 0 (R443). -/
def JOURNAL_CTRL_TARGET : Fld := ⟨0x110000, 1, 2, 0⟩
/-- JOURNAL_CTRL.CLR_COUNTERS, bits 0:0, WO, reset 0 (R443). -/
def JOURNAL_CTRL_CLR_COUNTERS : Fld := ⟨0x110000, 0, 1, 0⟩
/-- JOURNAL_BASE.ADDR, bits 63:12, RW, reset 0 (R443). -/
def JOURNAL_BASE_ADDR : Fld := ⟨0x110008, 12, 52, 0⟩
/-- JOURNAL_LEN.SIZE, bits 31:0, RW, reset 0 (R443). -/
def JOURNAL_LEN_SIZE : Fld := ⟨0x110010, 0, 32, 0⟩
/-- JOURNAL_REPLAY.ADDR, bits 51:12, RW, reset 0 (R443). -/
def JOURNAL_REPLAY_ADDR : Fld := ⟨0x110018, 12, 40, 0⟩
/-- JOURNAL_REPLAY_LEN.CHUNKS, bits 31:0, RW, reset 0 (R443). -/
def JOURNAL_REPLAY_LEN_CHUNKS : Fld := ⟨0x110020, 0, 32, 0⟩
/-- JOURNAL_STATUS.STOP_RING_LO, bits 63:32, RO, reset 0 (R443). -/
def JOURNAL_STATUS_STOP_RING_LO : Fld := ⟨0x110028, 32, 32, 0⟩
/-- JOURNAL_STATUS.DIVERGED, bits 7:7, W1C, reset 0 (R443). -/
def JOURNAL_STATUS_DIVERGED : Fld := ⟨0x110028, 7, 1, 0⟩
/-- JOURNAL_STATUS.STOPPED, bits 6:6, W1C, reset 0 (R443). -/
def JOURNAL_STATUS_STOPPED : Fld := ⟨0x110028, 6, 1, 0⟩
/-- JOURNAL_STATUS.HWM, bits 5:5, W1C, reset 0 (R443). -/
def JOURNAL_STATUS_HWM : Fld := ⟨0x110028, 5, 1, 0⟩
/-- JOURNAL_STATUS.STATE, bits 1:0, RO, reset 0 (R443). -/
def JOURNAL_STATUS_STATE : Fld := ⟨0x110028, 0, 2, 0⟩
/-- JOURNAL_POS.BYTES, bits 63:0, RO, reset 0 (R443). -/
def JOURNAL_POS_BYTES : Fld := ⟨0x110030, 0, 64, 0⟩
/-- JOURNAL_DIVERGE.COUNT, bits 63:32, RO, reset 0 (R443). -/
def JOURNAL_DIVERGE_COUNT : Fld := ⟨0x110038, 32, 32, 0⟩
/-- JOURNAL_DIVERGE.FIRST_STEP, bits 31:0, RO, reset 0 (R443). -/
def JOURNAL_DIVERGE_FIRST_STEP : Fld := ⟨0x110038, 0, 32, 0⟩
/-- JOURNAL_CNT[i].COUNT, bits 63:0, RO, reset 0 (R443). -/
def JOURNAL_CNT_COUNT (i : Nat) : Fld := ⟨0x110100 + 8 * i, 0, 64, 0⟩
/-- BURL_DIE.MASK, bits 47:0, RO, reset Heartwood (R444). -/
def BURL_DIE_MASK : Fld := ⟨0x120000, 0, 48, 0⟩
/-- BURL_PORT.MASK, bits 63:0, RO, reset Heartwood (R444). -/
def BURL_PORT_MASK : Fld := ⟨0x120008, 0, 64, 0⟩
/-- BURL_PORT_HI.MASK, bits 7:0, RO, reset Heartwood (R444). -/
def BURL_PORT_HI_MASK : Fld := ⟨0x120010, 0, 8, 0⟩
/-- BURL_STATUS.UNUSABLE, bits 56:48, RO, reset Heartwood (R444). -/
def BURL_STATUS_UNUSABLE : Fld := ⟨0x120018, 48, 9, 0⟩
/-- BURL_STATUS.LAST_BAND, bits 40:32, RO, reset 0 (R444). -/
def BURL_STATUS_LAST_BAND : Fld := ⟨0x120018, 32, 9, 0⟩
/-- BURL_STATUS.LAST_RING_LO, bits 31:0, RO, reset 0 (R444). -/
def BURL_STATUS_LAST_RING_LO : Fld := ⟨0x120018, 0, 32, 0⟩
/-- BURL_BAND[i].SPARE_FAIL, bits 38:35, RO, reset Heartwood (R444). -/
def BURL_BAND_SPARE_FAIL (i : Nat) : Fld := ⟨0x121000 + 8 * i, 35, 4, 0⟩
/-- BURL_BAND[i].FREE, bits 34:32, RO, reset Heartwood (R444). -/
def BURL_BAND_FREE (i : Nat) : Fld := ⟨0x121000 + 8 * i, 32, 3, 0⟩
/-- BURL_BAND[i].UNUSABLE, bits 31:31, RO, reset Heartwood (R444). -/
def BURL_BAND_UNUSABLE (i : Nat) : Fld := ⟨0x121000 + 8 * i, 31, 1, 0⟩
/-- BURL_BAND[i].COUNT, bits 30:28, RO, reset Heartwood (R444). -/
def BURL_BAND_COUNT (i : Nat) : Fld := ⟨0x121000 + 8 * i, 28, 3, 0⟩
/-- BURL_BAND[i].SKIP3, bits 27:21, RO, reset Heartwood (R444). -/
def BURL_BAND_SKIP3 (i : Nat) : Fld := ⟨0x121000 + 8 * i, 21, 7, 0⟩
/-- BURL_BAND[i].SKIP2, bits 20:14, RO, reset Heartwood (R444). -/
def BURL_BAND_SKIP2 (i : Nat) : Fld := ⟨0x121000 + 8 * i, 14, 7, 0⟩
/-- BURL_BAND[i].SKIP1, bits 13:7, RO, reset Heartwood (R444). -/
def BURL_BAND_SKIP1 (i : Nat) : Fld := ⟨0x121000 + 8 * i, 7, 7, 0⟩
/-- BURL_BAND[i].SKIP0, bits 6:0, RO, reset Heartwood (R444). -/
def BURL_BAND_SKIP0 (i : Nat) : Fld := ⟨0x121000 + 8 * i, 0, 7, 0⟩

/-- The RING and CLK registers (02_ring_time.md). -/
def regs02 : List RegRow := [
  ⟨0x10000, 1, [⟨4, 3, .rw, 1⟩, ⟨2, 1, .wo, 0⟩, ⟨1, 1, .rw, 0⟩, ⟨0, 1, .rw, 1⟩]⟩,
  ⟨0x10008, 1, [⟨48, 7, .rw, 0⟩, ⟨40, 8, .rw, 0⟩, ⟨30, 10, .rw, 1000⟩, ⟨20, 10, .rw, 64⟩, ⟨10, 10, .rw, 48⟩, ⟨0, 10, .rw, 0⟩]⟩,
  ⟨0x10010, 1, [⟨9, 10, .ro, 0⟩, ⟨8, 1, .w1c, 0⟩, ⟨7, 1, .ro, 0⟩, ⟨6, 1, .ro, 0⟩, ⟨3, 3, .ro, 1⟩, ⟨2, 1, .ro, 0⟩, ⟨0, 2, .ro, 0⟩]⟩,
  ⟨0x10018, 1, [⟨0, 48, .ro, 0⟩]⟩,
  ⟨0x10020, 1, [⟨0, 48, .ro, 0⟩]⟩,
  ⟨0x10028, 1, [⟨48, 16, .ro, 0⟩, ⟨32, 16, .ro, 0⟩, ⟨16, 16, .ro, 0⟩, ⟨0, 16, .ro, 0⟩]⟩,
  ⟨0x10030, 1, [⟨32, 32, .ro, 0⟩, ⟨16, 6, .ro, 0⟩, ⟨0, 16, .ro, 65535⟩]⟩,
  ⟨0x10038, 1, [⟨48, 7, .ro, 0⟩, ⟨32, 16, .ro, 0⟩, ⟨16, 7, .ro, 48⟩, ⟨0, 16, .ro, 0⟩]⟩,
  ⟨0x10040, 1, [⟨0, 32, .ro, 0⟩]⟩,
  ⟨0x10048, 1, [⟨0, 64, .rw, 0⟩]⟩,
  ⟨0x10050, 1, [⟨0, 32, .ro, 0⟩]⟩,
  ⟨0x10058, 1, [⟨0, 16, .ro, 0⟩]⟩,
  ⟨0x20000, 1, [⟨6, 1, .w1c, 0⟩, ⟨5, 1, .w1c, 0⟩, ⟨4, 1, .w1c, 0⟩, ⟨3, 1, .w1c, 0⟩, ⟨2, 1, .ro, 0⟩, ⟨1, 1, .ro, 0⟩, ⟨0, 1, .ro, 0⟩]⟩,
  ⟨0x20008, 1, [⟨32, 32, .ro, 0⟩, ⟨31, 1, .ro, 0⟩, ⟨24, 7, .ro, 0⟩, ⟨16, 7, .ro, 48⟩, ⟨8, 7, .rw, 0⟩, ⟨0, 7, .rw, 120⟩]⟩,
  ⟨0x20010, 1, [⟨15, 1, .rw, 1⟩, ⟨8, 7, .rw, 30⟩, ⟨0, 5, .rw, 10⟩]⟩,
  ⟨0x20018, 1, [⟨31, 1, .wo, 0⟩, ⟨29, 2, .rw, 0⟩, ⟨26, 3, .rw, 0⟩, ⟨20, 6, .rw, 0⟩, ⟨16, 4, .rw, 0⟩, ⟨8, 8, .rw, 0⟩, ⟨4, 4, .rw, 0⟩, ⟨2, 2, .rw, 0⟩]⟩,
  ⟨0x20020, 1, [⟨1, 2, .ro, 0⟩, ⟨0, 1, .ro, 0⟩]⟩,
  ⟨0x20100, 62, [⟨25, 1, .ro, 0⟩, ⟨24, 1, .ro, 0⟩, ⟨0, 24, .ro, 0⟩]⟩]

/-- The SPARSE registers (05_needle_sparsity.md). -/
def regs05 : List RegRow := [
  ⟨0x70000, 1, [⟨1, 1, .rw, 0⟩, ⟨0, 1, .wo, 0⟩]⟩,
  ⟨0x70008, 1, [⟨32, 32, .ro, 0⟩, ⟨18, 2, .ro, 0⟩, ⟨12, 6, .ro, 0⟩, ⟨4, 4, .ro, 0⟩, ⟨0, 4, .ro, 0⟩]⟩,
  ⟨0x70010, 1, [⟨48, 16, .ro, 0⟩, ⟨32, 16, .ro, 0⟩, ⟨16, 16, .ro, 0⟩, ⟨0, 16, .ro, 0⟩]⟩,
  ⟨0x70100, 12, [⟨0, 64, .ro, 0⟩]⟩]

/-- The FAB registers (06_mesh_fabric.md). -/
def regs06 : List RegRow := [
  ⟨0x80000, 1, [⟨1, 1, .rw, 0⟩, ⟨0, 1, .wo, 0⟩]⟩,
  ⟨0x80008, 1, [⟨32, 32, .ro, 0⟩, ⟨20, 6, .ro, 0⟩, ⟨16, 4, .ro, 0⟩, ⟨0, 1, .w1c, 0⟩]⟩,
  ⟨0x80010, 1, [⟨23, 3, .rw, 0⟩, ⟨21, 2, .rw, 0⟩, ⟨10, 11, .rw, 0⟩, ⟨0, 10, .rw, 0⟩]⟩,
  ⟨0x80018, 1, [⟨32, 32, .ro, 0⟩, ⟨0, 32, .ro, 0⟩]⟩,
  ⟨0x80100, 10, [⟨0, 64, .ro, 0⟩]⟩,
  ⟨0x81000, 384, [⟨48, 16, .ro, 0⟩, ⟨32, 16, .ro, 0⟩, ⟨4, 4, .ro, 0⟩, ⟨2, 2, .ro, 0⟩, ⟨0, 1, .ro, 0⟩]⟩]

/-- The GRAFT registers (07_graft.md). -/
def regs07 : List RegRow := [
  ⟨0x60000, 1, [⟨2, 1, .wo, 0⟩, ⟨1, 1, .wo, 0⟩, ⟨0, 1, .wo, 0⟩]⟩,
  ⟨0x60008, 1, [⟨12, 52, .rw, 0⟩]⟩,
  ⟨0x60010, 1, [⟨0, 30, .rw, 0⟩]⟩,
  ⟨0x60018, 1, [⟨11, 1, .w1c, 0⟩, ⟨10, 1, .w1c, 0⟩, ⟨9, 1, .w1c, 0⟩, ⟨8, 1, .w1c, 0⟩, ⟨0, 3, .ro, 0⟩]⟩,
  ⟨0x60020, 1, [⟨32, 32, .ro, 0⟩, ⟨24, 8, .ro, 0⟩, ⟨16, 8, .ro, 0⟩, ⟨0, 16, .ro, 0⟩]⟩,
  ⟨0x60028, 1, [⟨51, 1, .ro, 0⟩, ⟨50, 1, .ro, 0⟩, ⟨48, 2, .ro, 0⟩, ⟨32, 16, .ro, 0⟩, ⟨0, 32, .ro, 0⟩]⟩,
  ⟨0x60030, 1, [⟨51, 1, .ro, 0⟩, ⟨50, 1, .ro, 0⟩, ⟨32, 16, .ro, 0⟩, ⟨0, 32, .ro, 0⟩]⟩,
  ⟨0x60038, 1, [⟨48, 1, .ro, 0⟩, ⟨0, 48, .ro, 0⟩]⟩,
  ⟨0x60100, 6, [⟨0, 64, .ro, 0⟩]⟩]

/-- The JOB registers (08_jobs_steps_tiles.md). -/
def regs08 : List RegRow := [
  ⟨0x50000, 1, [⟨16, 16, .rw, 1⟩, ⟨1, 1, .wo, 0⟩, ⟨0, 1, .rw, 0⟩]⟩,
  ⟨0x50008, 1, [⟨16, 48, .rw, 0⟩]⟩,
  ⟨0x50010, 1, [⟨0, 64, .ro, 0⟩]⟩,
  ⟨0x50018, 1, [⟨0, 64, .ro, 0⟩]⟩,
  ⟨0x50020, 1, [⟨32, 5, .ro, 0⟩, ⟨6, 2, .ro, 0⟩, ⟨5, 1, .w1c, 0⟩, ⟨4, 1, .w1c, 0⟩, ⟨0, 3, .ro, 0⟩]⟩,
  ⟨0x50028, 1, [⟨32, 32, .ro, 0⟩, ⟨0, 32, .ro, 0⟩]⟩,
  ⟨0x50030, 1, [⟨0, 48, .ro, 0⟩]⟩,
  ⟨0x50038, 1, [⟨63, 1, .wo, 0⟩, ⟨0, 32, .rw, 0⟩]⟩,
  ⟨0x50100, 12, [⟨0, 64, .ro, 0⟩]⟩]

/-- The EDGE and SAP registers (09_edge_links.md). -/
def regs09 : List RegRow := [
  ⟨0x90000, 1, [⟨33, 3, .rw, 0⟩, ⟨32, 1, .rw, 0⟩, ⟨20, 12, .rw, 0⟩, ⟨16, 1, .wo, 0⟩, ⟨0, 16, .rw, 34997⟩]⟩,
  ⟨0x90008, 1, [⟨0, 48, .ro, 0⟩]⟩,
  ⟨0x90100, 72, [⟨7, 1, .wo, 0⟩, ⟨6, 1, .wo, 0⟩, ⟨4, 2, .rw, 0⟩, ⟨3, 1, .rw, 1⟩, ⟨1, 1, .rw, 1⟩, ⟨0, 1, .rw, 1⟩]⟩,
  ⟨0x90400, 72, [⟨48, 16, .ro, 0⟩, ⟨37, 3, .ro, 0⟩, ⟨34, 3, .ro, 0⟩, ⟨32, 2, .ro, 0⟩, ⟨31, 1, .ro, 0⟩, ⟨30, 1, .ro, 0⟩, ⟨29, 1, .ro, 0⟩, ⟨28, 1, .ro, 0⟩, ⟨16, 8, .ro, 0⟩, ⟨0, 16, .ro, 0⟩]⟩,
  ⟨0x90700, 72, [⟨32, 32, .ro, 0⟩, ⟨0, 32, .ro, 0⟩]⟩,
  ⟨0xa0000, 1, [⟨0, 1, .wo, 0⟩]⟩,
  ⟨0xa0008, 1, [⟨56, 8, .rw, 64⟩, ⟨46, 10, .rw, 100⟩, ⟨38, 8, .rw, 64⟩, ⟨30, 8, .rw, 40⟩, ⟨22, 8, .rw, 128⟩, ⟨19, 3, .rw, 7⟩, ⟨0, 8, .rw, 20⟩]⟩,
  ⟨0xa0010, 1, [⟨32, 32, .ro, 0⟩, ⟨22, 10, .ro, 0⟩, ⟨14, 8, .ro, 0⟩, ⟨6, 8, .ro, 0⟩, ⟨0, 1, .w1c, 0⟩]⟩,
  ⟨0xa0018, 1, [⟨63, 1, .wo, 0⟩, ⟨60, 3, .rw, 0⟩, ⟨40, 2, .rw, 0⟩, ⟨39, 1, .rw, 0⟩, ⟨32, 7, .rw, 0⟩, ⟨26, 1, .rw, 0⟩, ⟨16, 10, .rw, 0⟩, ⟨0, 10, .rw, 0⟩]⟩,
  ⟨0xa0020, 1, [⟨0, 48, .rw, 0⟩]⟩,
  ⟨0xa0028, 1, [⟨1, 3, .ro, 0⟩, ⟨0, 1, .ro, 0⟩]⟩,
  ⟨0xa0030, 1, [⟨16, 16, .ro, 0⟩, ⟨0, 16, .ro, 0⟩]⟩,
  ⟨0xa0100, 60, [⟨0, 16, .ro, 0⟩]⟩,
  ⟨0xa0800, 14, [⟨0, 64, .ro, 0⟩]⟩,
  ⟨0xa8000, 1024, [⟨56, 8, .ro, 0⟩, ⟨46, 10, .ro, 0⟩, ⟨44, 2, .ro, 0⟩, ⟨43, 1, .ro, 0⟩, ⟨36, 7, .ro, 0⟩, ⟨16, 16, .ro, 0⟩, ⟨0, 3, .ro, 0⟩]⟩]

/-- The STREAM registers (10_stream_and_peers.md). -/
def regs10 : List RegRow := [
  ⟨0xb0000, 1, [⟨2, 1, .wo, 0⟩, ⟨1, 1, .rw, 0⟩, ⟨0, 1, .wo, 0⟩]⟩,
  ⟨0xb0008, 1, [⟨0, 35, .rw, 0⟩]⟩,
  ⟨0xb0010, 1, [⟨8, 16, .rw, 256⟩, ⟨0, 8, .rw, 4⟩]⟩,
  ⟨0xb0018, 1, [⟨32, 32, .ro, 0⟩, ⟨24, 8, .ro, 0⟩, ⟨1, 1, .ro, 0⟩, ⟨0, 1, .w1c, 0⟩]⟩,
  ⟨0xb0100, 16, [⟨0, 31, .rw, 0⟩]⟩,
  ⟨0xb0200, 192, [⟨16, 4, .rw, 0⟩, ⟨10, 4, .rw, 0⟩, ⟨0, 10, .rw, 0⟩]⟩,
  ⟨0xb0800, 12, [⟨32, 15, .ro, 0⟩, ⟨24, 8, .ro, 0⟩, ⟨0, 15, .ro, 0⟩]⟩,
  ⟨0xb1000, 12, [⟨0, 64, .ro, 0⟩]⟩]

/-- The ID registers (11_host_port.md). -/
def regs11 : List RegRow := [
  ⟨0x0, 1, [⟨48, 16, .ro, 0⟩, ⟨32, 16, .ro, 4434⟩, ⟨16, 8, .ro, 0⟩, ⟨8, 1, .ro, 0⟩, ⟨0, 2, .ro, 0⟩]⟩,
  ⟨0x8, 1, [⟨0, 64, .ro, 0⟩]⟩,
  ⟨0x10, 1, [⟨16, 1, .rwh, 0⟩, ⟨8, 1, .wo, 0⟩, ⟨0, 8, .rw, 50⟩]⟩,
  ⟨0x18, 1, [⟨16, 9, .ro, 0⟩, ⟨15, 1, .ro, 0⟩, ⟨14, 1, .w1c, 0⟩, ⟨13, 1, .ro, 0⟩, ⟨12, 1, .ro, 0⟩, ⟨10, 2, .ro, 0⟩, ⟨5, 5, .ro, 0⟩, ⟨2, 3, .ro, 0⟩]⟩,
  ⟨0x20, 1, [⟨0, 17, .w1c, 0⟩]⟩,
  ⟨0x28, 1, [⟨0, 17, .rw, 0⟩]⟩,
  ⟨0x30, 1, [⟨24, 8, .ro, 0⟩, ⟨16, 8, .ro, 0⟩, ⟨15, 1, .ro, 0⟩, ⟨8, 7, .ro, 0⟩, ⟨0, 7, .ro, 0⟩]⟩,
  ⟨0x100, 9, [⟨0, 64, .ro, 0⟩]⟩]

/-- The BARK registers (12_bark_security.md). -/
def regs12 : List RegRow := [
  ⟨0xc0000, 1, [⟨1, 1, .wo, 0⟩, ⟨0, 1, .wo, 0⟩]⟩,
  ⟨0xc0008, 1, [⟨32, 32, .ro, 0⟩, ⟨16, 16, .ro, 0⟩, ⟨11, 1, .w1c, 0⟩, ⟨10, 1, .ro, 0⟩, ⟨9, 1, .ro, 0⟩, ⟨8, 1, .ro, 0⟩, ⟨7, 1, .ro, 0⟩, ⟨6, 1, .ro, 0⟩, ⟨5, 1, .ro, 0⟩, ⟨4, 1, .ro, 0⟩, ⟨3, 1, .ro, 0⟩, ⟨0, 2, .ro, 0⟩]⟩,
  ⟨0xc0010, 1, [⟨63, 1, .wo, 0⟩, ⟨48, 8, .rw, 0⟩, ⟨0, 15, .rw, 0⟩]⟩,
  ⟨0xc0018, 1, [⟨32, 15, .ro, 0⟩, ⟨8, 8, .ro, 0⟩, ⟨1, 4, .ro, 0⟩, ⟨0, 1, .ro, 0⟩]⟩,
  ⟨0xc0020, 4, [⟨0, 64, .ro, 0⟩]⟩,
  ⟨0xc0040, 1, [⟨1, 1, .rws, 0⟩, ⟨0, 1, .rws, 1⟩]⟩,
  ⟨0xc0048, 1, [⟨28, 1, .ro, 0⟩, ⟨24, 4, .ro, 0⟩, ⟨11, 10, .ro, 0⟩, ⟨0, 11, .ro, 1024⟩]⟩,
  ⟨0xc0050, 1, [⟨31, 1, .ro, 0⟩, ⟨27, 4, .ro, 0⟩, ⟨20, 3, .rw, 0⟩, ⟨0, 10, .rw, 0⟩]⟩,
  ⟨0xc0058, 1, [⟨49, 1, .ro, 0⟩, ⟨48, 1, .ro, 0⟩, ⟨0, 48, .ro, 0⟩]⟩,
  ⟨0xc0060, 6, [⟨0, 64, .ro, 0⟩]⟩,
  ⟨0xc0090, 1, [⟨0, 64, .ro, 0⟩]⟩,
  ⟨0xc0100, 8, [⟨0, 64, .ro, 0⟩]⟩,
  ⟨0xc0200, 54, [⟨0, 64, .ro, 0⟩]⟩,
  ⟨0xc0400, 12, [⟨0, 64, .ro, 0⟩]⟩,
  ⟨0xc8000, 2048, [⟨0, 64, .rw, 0⟩]⟩]

/-- The HW registers (13_heartwood.md). -/
def regs13 : List RegRow := [
  ⟨0xd0000, 1, [⟨0, 1, .wo, 0⟩]⟩,
  ⟨0xd0008, 1, [⟨16, 10, .ro, 0⟩, ⟨7, 1, .ro, 0⟩, ⟨3, 4, .ro, 0⟩, ⟨2, 1, .w1c, 0⟩, ⟨1, 1, .w1c, 0⟩, ⟨0, 1, .w1c, 0⟩]⟩,
  ⟨0xd0010, 1, [⟨32, 10, .ro, 0⟩, ⟨0, 19, .ro, 0⟩]⟩,
  ⟨0xd2000, 1024, [⟨0, 64, .ro, 0⟩]⟩,
  ⟨0xd4000, 1024, [⟨40, 24, .ro, 0⟩, ⟨28, 1, .ro, 0⟩, ⟨27, 1, .ro, 0⟩, ⟨25, 2, .ro, 0⟩, ⟨19, 4, .ro, 0⟩, ⟨0, 19, .ro, 0⟩]⟩,
  ⟨0xd6000, 256, [⟨0, 64, .rwh, 0⟩]⟩,
  ⟨0xd7000, 6, [⟨0, 64, .ro, 0⟩]⟩]

/-- The PWR, THM and TEL registers (14_power_thermal.md). -/
def regs14 : List RegRow := [
  ⟨0x30000, 1, [⟨63, 1, .wo, 0⟩, ⟨5, 1, .wo, 0⟩, ⟨4, 1, .rw, 1⟩, ⟨0, 3, .rw, 0⟩]⟩,
  ⟨0x30008, 1, [⟨32, 32, .ro, 0⟩, ⟨16, 3, .ro, 0⟩, ⟨9, 1, .w1c, 0⟩, ⟨8, 1, .w1c, 0⟩, ⟨7, 1, .ro, 0⟩, ⟨6, 1, .ro, 0⟩, ⟨5, 1, .ro, 0⟩, ⟨4, 1, .ro, 0⟩, ⟨3, 1, .ro, 0⟩, ⟨0, 3, .ro, 0⟩]⟩,
  ⟨0x30010, 1, [⟨48, 16, .ro, 920⟩, ⟨32, 16, .ro, 920⟩, ⟨16, 16, .ro, 920⟩, ⟨0, 10, .rw, 920⟩]⟩,
  ⟨0x30018, 1, [⟨28, 10, .rw, 60⟩, ⟨18, 10, .rw, 12⟩, ⟨8, 10, .rw, 96⟩, ⟨0, 6, .rw, 24⟩]⟩,
  ⟨0x30020, 1, [⟨32, 32, .ro, 2000000⟩, ⟨16, 16, .rw, 500⟩, ⟨0, 16, .rw, 2000⟩]⟩,
  ⟨0x30028, 1, [⟨48, 16, .ro, 0⟩, ⟨32, 16, .ro, 0⟩, ⟨16, 16, .ro, 0⟩, ⟨0, 16, .ro, 0⟩]⟩,
  ⟨0x30030, 1, [⟨16, 16, .ro, 0⟩, ⟨0, 16, .ro, 0⟩]⟩,
  ⟨0x30038, 1, [⟨0, 64, .ro, 0⟩]⟩,
  ⟨0x30040, 1, [⟨48, 16, .ro, 0⟩, ⟨32, 7, .ro, 0⟩, ⟨16, 16, .ro, 0⟩, ⟨0, 16, .ro, 0⟩]⟩,
  ⟨0x30048, 1, [⟨32, 32, .ro, 0⟩, ⟨16, 16, .rw, 1000⟩, ⟨0, 7, .rw, 50⟩]⟩,
  ⟨0x30100, 60, [⟨48, 16, .ro, 0⟩, ⟨32, 16, .ro, 0⟩, ⟨16, 16, .ro, 0⟩, ⟨2, 1, .ro, 0⟩, ⟨0, 2, .ro, 0⟩]⟩,
  ⟨0x30800, 8, [⟨0, 64, .ro, 0⟩]⟩,
  ⟨0x40000, 1, [⟨16, 8, .ro, 110⟩, ⟨12, 4, .rw, 2⟩, ⟨8, 4, .rw, 3⟩, ⟨0, 8, .rw, 95⟩]⟩,
  ⟨0x40008, 1, [⟨48, 16, .ro, 0⟩, ⟨34, 6, .ro, 0⟩, ⟨27, 7, .ro, 120⟩, ⟨4, 1, .w1c, 0⟩, ⟨3, 1, .w1c, 0⟩, ⟨2, 1, .w1c, 0⟩, ⟨1, 1, .ro, 0⟩, ⟨0, 1, .ro, 0⟩]⟩,
  ⟨0x40010, 1, [⟨48, 16, .ro, 0⟩, ⟨32, 16, .ro, 0⟩, ⟨16, 16, .ro, 0⟩, ⟨0, 16, .ro, 0⟩]⟩,
  ⟨0x40018, 1, [⟨1, 1, .wo, 0⟩, ⟨0, 1, .wo, 0⟩]⟩,
  ⟨0x40100, 61, [⟨50, 5, .ro, 0⟩, ⟨49, 1, .ro, 0⟩, ⟨48, 1, .ro, 0⟩, ⟨32, 16, .ro, 0⟩, ⟨0, 16, .ro, 0⟩]⟩,
  ⟨0x41000, 818, [⟨16, 1, .ro, 0⟩, ⟨0, 16, .ro, 0⟩]⟩,
  ⟨0x40800, 5, [⟨0, 64, .ro, 0⟩]⟩,
  ⟨0x100000, 1, [⟨8, 24, .rw, 1000⟩, ⟨1, 1, .wo, 0⟩, ⟨0, 1, .rw, 0⟩]⟩,
  ⟨0x100008, 1, [⟨12, 52, .rw, 0⟩]⟩,
  ⟨0x100010, 1, [⟨0, 16, .rw, 0⟩]⟩,
  ⟨0x100018, 1, [⟨0, 64, .ro, 0⟩]⟩,
  ⟨0x100100, 2, [⟨0, 64, .ro, 0⟩]⟩]

/-- The RAS, INJ, JOURNAL and BURL registers (15_faults_recovery_replay.md). -/
def regs15 : List RegRow := [
  ⟨0xe0000, 1, [⟨1, 1, .rw, 1⟩, ⟨0, 1, .wo, 0⟩]⟩,
  ⟨0xe0008, 1, [⟨32, 32, .ro, 0⟩, ⟨8, 3, .ro, 0⟩, ⟨0, 3, .ro, 0⟩]⟩,
  ⟨0xe0010, 1, [⟨0, 64, .ro, 0⟩]⟩,
  ⟨0xe0018, 1, [⟨4, 1, .rw, 0⟩, ⟨0, 4, .rw, 0⟩]⟩,
  ⟨0xe0020, 1, [⟨48, 16, .ro, 0⟩, ⟨32, 9, .ro, 0⟩, ⟨0, 32, .ro, 0⟩]⟩,
  ⟨0xe0100, 48, [⟨32, 32, .ro, 0⟩, ⟨16, 16, .ro, 0⟩, ⟨0, 16, .ro, 0⟩]⟩,
  ⟨0xe0400, 10, [⟨0, 64, .ro, 0⟩]⟩,
  ⟨0xe8000, 2048, [⟨0, 64, .ro, 0⟩]⟩,
  ⟨0xf0000, 1, [⟨0, 48, .rw, 0⟩]⟩,
  ⟨0xf0008, 1, [⟨63, 1, .wo, 0⟩, ⟨56, 7, .rw, 0⟩, ⟨32, 16, .rw, 0⟩, ⟨10, 11, .rw, 0⟩, ⟨0, 10, .rw, 0⟩]⟩,
  ⟨0xf0010, 1, [⟨63, 1, .wo, 0⟩, ⟨56, 7, .rw, 0⟩, ⟨37, 2, .rw, 0⟩, ⟨34, 3, .rw, 0⟩, ⟨32, 2, .rw, 0⟩, ⟨10, 11, .rw, 0⟩, ⟨0, 10, .rw, 0⟩]⟩,
  ⟨0xf0018, 1, [⟨63, 1, .wo, 0⟩, ⟨56, 7, .rw, 0⟩, ⟨32, 16, .rw, 0⟩, ⟨16, 10, .rw, 0⟩, ⟨7, 1, .rw, 0⟩, ⟨0, 7, .rw, 0⟩]⟩,
  ⟨0xf0020, 1, [⟨63, 1, .wo, 0⟩, ⟨56, 7, .rw, 0⟩, ⟨32, 16, .rw, 0⟩, ⟨0, 6, .rw, 0⟩]⟩,
  ⟨0xf0028, 1, [⟨4, 1, .ro, 0⟩, ⟨0, 4, .ro, 0⟩]⟩,
  ⟨0xf0030, 1, [⟨32, 32, .ro, 0⟩, ⟨0, 32, .ro, 0⟩]⟩,
  ⟨0x110000, 1, [⟨12, 4, .rw, 0⟩, ⟨8, 4, .rw, 0⟩, ⟨1, 2, .rw, 0⟩, ⟨0, 1, .wo, 0⟩]⟩,
  ⟨0x110008, 1, [⟨12, 52, .rw, 0⟩]⟩,
  ⟨0x110010, 1, [⟨0, 32, .rw, 0⟩]⟩,
  ⟨0x110018, 1, [⟨12, 40, .rw, 0⟩]⟩,
  ⟨0x110020, 1, [⟨0, 32, .rw, 0⟩]⟩,
  ⟨0x110028, 1, [⟨32, 32, .ro, 0⟩, ⟨7, 1, .w1c, 0⟩, ⟨6, 1, .w1c, 0⟩, ⟨5, 1, .w1c, 0⟩, ⟨0, 2, .ro, 0⟩]⟩,
  ⟨0x110030, 1, [⟨0, 64, .ro, 0⟩]⟩,
  ⟨0x110038, 1, [⟨32, 32, .ro, 0⟩, ⟨0, 32, .ro, 0⟩]⟩,
  ⟨0x110100, 4, [⟨0, 64, .ro, 0⟩]⟩,
  ⟨0x120000, 1, [⟨0, 48, .ro, 0⟩]⟩,
  ⟨0x120008, 1, [⟨0, 64, .ro, 0⟩]⟩,
  ⟨0x120010, 1, [⟨0, 8, .ro, 0⟩]⟩,
  ⟨0x120018, 1, [⟨48, 9, .ro, 0⟩, ⟨32, 9, .ro, 0⟩, ⟨0, 32, .ro, 0⟩]⟩,
  ⟨0x121000, 432, [⟨35, 4, .ro, 0⟩, ⟨32, 3, .ro, 0⟩, ⟨31, 1, .ro, 0⟩, ⟨28, 3, .ro, 0⟩, ⟨21, 7, .ro, 0⟩, ⟨14, 7, .ro, 0⟩, ⟨7, 7, .ro, 0⟩, ⟨0, 7, .ro, 0⟩]⟩]

/-- Every register of BAR0 the spec describes. -/
def allRegs : List RegRow :=
  regs02 ++ regs05 ++ regs06 ++ regs07 ++ regs08 ++ regs09 ++ regs10 ++ regs11 ++ regs12 ++ regs13 ++ regs14 ++ regs15

end Sys2Proof.Machine
end

