-- ==== Sys2Proof/Machine/TimeTypes.lean ====
section
/-!
DEFINITION. Ring time and clocks (chapter 2): the ring counter and its receiver, PLLs, frequency and gating.
-/
namespace Sys2Proof.Machine

/-- Ring lock states (Table 2.5). -/
inductive LockState where
  | unlocked | acquiring | locked | holdover
  deriving DecidableEq, Repr, Inhabited

/-- What the receiver kept of a ring's SHORT chunk (R460): its byte, a frame whose CRC-8 failed, or nothing. -/
inductive ChunkSeen where
  | ok (b : Nat)
  | crcBad
  | missing
  deriving DecidableEq, Repr, Inhabited

/-- The ring unit. `number` is RING_NUMBER; `acq` the acquisition count; `prevNum` and `prevPeriod` of the last frame;
`contexts` the valid SHORT contexts of the run and `ctx` the last one's RING[47:12]; `seen` the last eight rings' chunks with their RING_LO,
newest first; `edgeDue` says that an edge has been taken or predicted and is still to come; `guard` and `edgeDelay` are the
values in force (they follow RING_CONFIG at the next edge); `changeNext` is a change announced by the frame of ring c itself. -/
structure Ring where
  lock : LockState
  number : Nat
  acq : Nat
  prevNum : Option Nat
  prevPeriod : Nat
  contexts : Nat
  ctx : Option Nat
  seen : List (Nat × ChunkSeen)
  invalidRun : Nat
  holdCount : Nat
  slewing : Bool
  slewNs : Int
  xtalPpb : Int
  changeAt : Nat
  changePending : Bool
  changeNext : Option Nat
  period : Nat
  emerg : Bool
  emergClear : Nat
  emergHold : Bool
  edgeDue : Bool
  ptpGood : Nat
  guard : Nat
  edgeDelay : Nat
  budget : Nat
  deriving DecidableEq, Repr, Inhabited

/-- The state of a PLL (R66, R74): locked, relocking, or failed until the next ENGINE reset. -/
inductive PllState where
  | off | locked | relocking | failed
  deriving DecidableEq, Repr, Inhabited

/-- A node of the gating tree (R70). -/
structure GateNode where
  level : Nat
  die : Nat
  band : Nat
  cluster : Nat
  cell : Nat
  unit : Nat
  deriving DecidableEq, Repr, Inhabited

/-- The clock unit: source, detector, trim, frequency code in force, pending changes in order (code, ring), spread in
force, PLLs that are not locked, gating request in progress, nodes the host gated, and nodes it ungated against the engine's own gating.
PLL index 60 is RPLL, 61 the oscillator. -/
structure Clk where
  xtal : Bool
  xtalGood : Bool
  trimValid : Bool
  lossActive : Bool
  seedVerified : Bool
  code : Nat
  pending : List (Nat × Nat)
  sscDepth : Nat
  sscOn : Bool
  plls : SMap PllState
  gateReq : Option (GateNode × Bool)
  gateResult : Nat
  gated : List GateNode
  ungated : List GateNode
  deriving DecidableEq, Repr, Inhabited

end Sys2Proof.Machine
end

