-- ==== Sys2Proof/Machine/State.lean ====
section
/-!
DEFINITION. The machine's state: everything the spec gives the block, the queue of waiting commands, what the engine has
sent outside, and the state right after reset.
-/
namespace Sys2Proof.Machine

/-- The faults of the model: places a command names that the wafer does not have.
`absentCell` is raised by every command that names a cell outside the variant's logical grid (R3, R7): no such cell exists,
so nothing can happen to it. It is safe. -/
inductive Fault where
  | absentCell (x y : Nat)
  deriving DecidableEq, Repr

/-- The refusals of the model. `notModelled` marks a command with no meaning in the dispatch; it is safe. -/
inductive Refusal where
  | notModelled (mnemonic : String)
  deriving DecidableEq, Repr

/-- The state of the engine. `regs` holds the register fields that have no home of their own, each as its value plus 1, an unlisted
field standing at the Reset column of its table; `pendRing` and `pendStep` hold counts that reach their registers at the next ring
edge and at the end of the step; `free` counts the free values drawn (log 1); `shakes` are handshake messages that arrived and wait
(R355); `sent` is what the engine has sent outside, oldest first; `pending` the commands waiting, first in, first out. -/
structure State where
  cert : Cert
  vendorId : Nat
  regs : SMap Nat
  modl : Module
  boot : Boot
  flash : Flash
  ring : Ring
  clk : Clk
  power : Power
  thermal : Thermal
  tel : Tel
  hw : Heartwood
  bark : Bark
  tree : Tree
  graft : GraftUnit
  job : JobUnit
  cells : SMap Cell
  taps : SMap Tap
  ports : SMap EdgePort
  sess : SMap Session
  shakes : List ShakeIn
  limbs : SMap Limb
  stream : Stream
  sessCmd : SessCmd
  host : HostPort
  mgmt : Mgmt
  ras : Ras
  journal : Journal
  pendRing : SMap Nat
  pendStep : SMap Nat
  free : Nat
  sent : List Emit
  pending : List Instr
  deriving DecidableEq, Repr

/-! ## The values after reset -/

/-- The ring unit after reset: UNLOCKED, PERIOD 1 µs (R76). -/
def Ring.reset : Ring :=
  { lock := .unlocked, number := 0, acq := 0, prevNum := none, prevPeriod := 1, contexts := 0, ctx := none, seen := [],
    invalidRun := 0, holdCount := 0, slewing := false, slewNs := 0, xtalPpb := 0, changeAt := 0, changePending := false, changeNext := none,
    period := 1, emerg := false, emergClear := 16, emergHold := false, edgeDue := false, ptpGood := 0, guard := 48,
    edgeDelay := 64, budget := 0 }

/-- The clock unit after reset: the internal oscillator, code 48, spread 0.50 % (R66, R77). -/
def Clk.reset : Clk :=
  { xtal := false, xtalGood := false, trimValid := false, lossActive := false, seedVerified := false, code := 48,
    pending := [], sscDepth := 10, sscOn := true, plls := [], gateReq := none, gateResult := 0, gated := [],
    ungated := [] }

/-- The power controller after ENGINE reset (R399, R402, R415). -/
def Power.reset : Power :=
  { state := .run, transit := .none, pending := none, wake := false, fetchStop := false, domains := [], capCeil := 120,
    memShed := 0, linkShed := 0, linksFloor := false, capUnmet := false, allow := 2000000000000, overOn := false,
    overStep := none, codeHeld := false, energy := 0, droops := [], droopSince := 0, mgmtCap := 920, cap := 920,
    capInForce := 920, classInForce := 0x18 + 96 * 2 ^ 8 + 12 * 2 ^ 18 + 60 * 2 ^ 28, boostW := 0, boostLeft := 0, measW := 0, lostDies := [] }

/-- Thermal control after ENGINE reset (R407). -/
def Thermal.reset : Thermal := ⟨120, false, false⟩

/-- The stream unit after ENGINE reset. -/
def Stream.reset : Stream := ⟨[], [], false, (0, 0, 0), []⟩

/-- The RAS unit after ENGINE reset (R418, R445). -/
def Ras.reset : Ras :=
  ⟨[], 0, 0, [], ⟨none, none, none, none⟩, ⟨.idle, [], [], 0, false, none, none, [], 0⟩, ⟨[], [], []⟩⟩

/-- The journal unit after ENGINE reset. -/
def Journal.reset : Journal := ⟨[], 0, 0, 0, 0, false, false, false, 0, [], []⟩

/-- The host port before its domain powers up (R316). -/
def HostPort.reset : HostPort := ⟨false, 0, 0, false, 0, false, false, false, [], 0, 0, 0, false⟩

/-- Bark after ENGINE reset: unsealed, no grant, no host session, measurements zero, a reservation due (R346, R348, R354). The
nonce is drawn from the DRBG at boot; until then it shows zeros (DESIGN CHOICE, log 13). -/
def Bark.reset : Bark :=
  { ds := none, entropyOk := true, nonce := List.replicate 32 0, sealed := false, grant := none, host := none,
    meas := List.replicate 9 (List.replicate 48 0), lmsGen := 0, lmsTree := 0, lmsLeaf := 1024, lmsDone := false,
    keyRecOk := false, smk := none, labels := [], mbox := [], attest := none, draws := 0, injected := 0,
    scrubbing := false, stalled := none, tags := [] }

/-- The boot unit at stage 0 (R447). -/
def Boot.reset : Boot :=
  { stage := 0, recovery := .none, stopped := false, latched := false, trunk := false, faults := [], seed := none,
    trunkImg := none, limbs := [], bootedB := [], buffer := [], rebootDue := false, handover := false,
    limbBoots := [], activateAt := none }

/-- Module pins and inputs when standby has just risen: inputs within their ranges, no load (DESIGN CHOICE, log 14). -/
def Module.reset : Module :=
  { faultN := false, thermTripN := false, pwrGood := false, slotId := 0, standby := true, mains := false,
    inputOk := true, inputFailed := false, hardTripped := false, hold := false, holdDropped := false, tilt := false,
    flow := 7200, inlet := 2500, outlet := 2500, dew := 1000, ambient := 2500 }

/-- A heartwood register as vendor test leaves it: one slot written once (R375, R381; DESIGN CHOICE, log 15). -/
def HwReg.ofValue (v : Nat) : HwReg :=
  ⟨[⟨v, 1, 0, 0, true, 1⟩, ⟨0, 0, 0, 0, false, 0⟩, ⟨0, 0, 0, 0, false, 0⟩, ⟨0, 0, 0, 0, false, 0⟩], 0, false, false⟩

/-- What an unlisted heartwood register is: written once with 0. -/
def HwReg.zero : HwReg := HwReg.ofValue 0

/-- One point of the voltage/frequency tables the module ships with: codes rise strictly from 0 to 120 in steps of 8, and the
rail rises with them (R381; DESIGN CHOICE, log 15). -/
def vfPoint (q : Nat) : Nat := 8 * q + 2 ^ 7 * (20 * q)

/-- One register of a shipped VF table: four points. -/
def vfWord (k : Nat) : Nat :=
  vfPoint (4 * k) + 2 ^ 16 * vfPoint (4 * k + 1) + 2 ^ 32 * vfPoint (4 * k + 2) + 2 ^ 48 * vfPoint (4 * k + 3)

/-- The variant certificate of the modelled module: variant A, standard line, every die and port enabled, SVN 0, serial 1 (R3, R344;
DESIGN CHOICE, log 16). -/
def shippedCert : List Byte := variantCert 1 0 0 0xFF 0xFF (2 ^ 48 - 1) (2 ^ 72 - 1) 0

/-- Heartwood of a shipped module: map version 1, serial 1, the certificate's hash, valid VF tables, UNOWNED, ENGINE epoch 0 (log 15). -/
def Heartwood.shipped : Heartwood :=
  { regs := [(0x000, HwReg.ofValue 1), (0x001, HwReg.ofValue 1)] ++
      (List.range 6).map (fun k => (0x002 + k, HwReg.ofValue (rd (sha384 shippedCert) (8 * k) 8))) ++
      (List.range 192).map (fun k => (0x010 + k, HwReg.ofValue (vfWord (k % 4)))),
    busy := [], hostQ := [], engineQ := [], hours := 0, kwh := 0, closed := false }

/-- What the shipped certificate says (log 16). -/
def Cert.shipped : Cert := ⟨0, 0, none, none, 0, sha384 shippedCert⟩

/-- What a certificate's bytes say (Table 12.4). -/
def certOf (b : List Byte) : Cert :=
  let row := rd b 0x42 1
  let col := rd b 0x43 1
  ⟨rd b 0x40 1, rd b 0x41 1, if row = 0xFF then none else some row, if col = 0xFF then none else some col, rd b 0x38 8, sha384 b⟩

/-- The firmware image of a kind that the module ships with: SVN 0, version 1, every variant, line 0xFF for Seed and 0 else (R449;
DESIGN CHOICE, log 17). -/
def shippedImage (kind : Nat) : List Byte :=
  vendorSigned (leBytes 4 0x4D524946 ++ leBytes 2 kind ++ leBytes 2 1 ++ leBytes 8 0 ++ leBytes 4 1 ++ leBytes 1 (if kind = 1 then 0xFF else 0)
    ++ leBytes 1 7 ++ [0, 0] ++ leBytes 4 4096 ++ leBytes 4 0 ++ List.replicate 32 0
    ++ cut (Config.firmwareBody kind ++ List.replicate 4096 0) 0 4096)

/-- A bank that holds an image, with its record (R450). -/
def Bank.holding (seq : Nat) (img : List Byte) : Bank := ⟨seq, img.length, crc32c img, img⟩

/-- A bank with no image: its record's CRC does not match (log 17). -/
def Bank.blank : Bank := ⟨0, 0, 2 ^ 32, []⟩

/-- Flash of a shipped module: bank A of every kind holds an image for every variant; the key record is erased (DESIGN CHOICE, log 17). -/
def Flash.shipped : Flash :=
  { seedA := Bank.holding 1 (shippedImage 1), seedB := Bank.blank, trunkA := Bank.holding 1 (shippedImage 2), trunkB := Bank.blank
    limbA := Bank.holding 1 (shippedImage 3), limbB := Bank.blank
    cert := shippedCert, helperOk := true, keyRecord := none }

/-- The machine right after the power-on reset (R445): every field of every register at its Reset column, everything volatile
cleared, heartwood and flash as shipped, boot at stage 0, no command waiting. -/
def State.reset : State :=
  { cert := Cert.shipped, vendorId := 0, regs := [], modl := Module.reset, boot := Boot.reset, flash := Flash.shipped,
    ring := Ring.reset, clk := Clk.reset, power := Power.reset, thermal := Thermal.reset, tel := Tel.reset,
    hw := Heartwood.shipped, bark := Bark.reset, tree := Tree.reset, graft := GraftUnit.reset, job := JobUnit.reset,
    cells := [], taps := [], ports := [], sess := [], shakes := [], limbs := [], stream := Stream.reset, sessCmd := ⟨none, 0⟩,
    host := HostPort.reset, mgmt := ⟨none, 0, [], none, none⟩, ras := Ras.reset, journal := Journal.reset, pendRing := [],
    pendStep := [], free := 0, sent := [], pending := [] }

end Sys2Proof.Machine
end

