-- ==== Sys2Proof/Machine/Regs.lean ====
section
/-!
DEFINITION. Register fields: reading and writing them, counters, and where cells, dies, taps and ports lie (R3 to R18, R190).
-/
namespace Sys2Proof.Machine

/-- 1 for true. -/
def bit (b : Bool) : Nat := if b then 1 else 0

/-- Key of a field in the register store. -/
def Fld.key (F : Fld) : Nat := F.addr * 64 + F.lo

/-- The value of a field. -/
def State.f (s : State) (F : Fld) : Nat :=
  match sget 0 s.regs F.key with
  | 0 => F.reset
  | n + 1 => n

/-- What the store holds for a value of a field: 0 at the Reset column, else the value plus 1. -/
def Fld.code (F : Fld) (v : Nat) : Nat := if v % 2 ^ F.width = F.reset then 0 else v % 2 ^ F.width + 1

/-- Writes a field, truncated to its width. -/
def State.setF (s : State) (F : Fld) (v : Nat) : State := { s with regs := sset 0 s.regs F.key (F.code v) }

/-- Sets a one-bit field. -/
def State.flag (s : State) (F : Fld) : State := s.setF F 1

/-- Adds to a counter that wraps. -/
def State.inc (s : State) (F : Fld) (n : Nat) : State := s.setF F (s.f F + n)

/-- Adds to a counter that saturates. -/
def State.incSat (s : State) (F : Fld) (n : Nat) : State := s.setF F (min (2 ^ F.width - 1) (s.f F + n))

/-- Adds to the upper half of a counter that holds two counts (Tables 8.13, 11.8, 13.8). -/
def State.incHi (s : State) (F : Fld) (n : Nat) : State :=
  s.setF F (s.f F % 2 ^ 32 + 2 ^ 32 * ((s.f F / 2 ^ 32 + n) % 2 ^ 32))

/-- Adds to the lower half of a counter that holds two counts. -/
def State.incLo (s : State) (F : Fld) (n : Nat) : State :=
  s.setF F (2 ^ 32 * (s.f F / 2 ^ 32) + (s.f F + n) % 2 ^ 32)

/-- Returns a field to its Reset column. -/
def State.clearF (s : State) (F : Fld) : State := s.setF F F.reset

/-- Returns the fields of a list to their Reset columns. -/
def State.clearFs (s : State) (l : List Fld) : State := l.foldl State.clearF s

/-- Returns elements 0 to n - 1 of an array of counters to zero. -/
def State.clearArr (s : State) (F : Nat → Fld) (n : Nat) : State := (List.range n).foldl (fun s i => s.clearF (F i)) s

/-- Bits of a written word that belong to a field. -/
def Fld.of (F : Fld) (w : Word64) : Nat := w.toNat / 2 ^ F.lo % 2 ^ F.width

/-- Writes a field from a written word. -/
def State.put (s : State) (F : Fld) (w : Word64) : State := s.setF F (F.of w)

/-- Clears a W1C bit where the word holds 1 (R10). -/
def State.w1c (s : State) (F : Fld) (w : Word64) : State := if F.of w = 1 then s.setF F 0 else s

/-- A free number, and the state with the draw counted (log 1). -/
def State.draw (s : State) : Nat × State := (Config.freeNat s.free, { s with free := s.free + 1 })

/-- The engine sends something outside. -/
def State.send (s : State) (e : Emit) : State := { s with sent := s.sent ++ [e] }

/-! ## Time -/

/-- The ring number in force (R43). -/
def State.now (s : State) : Nat := s.ring.number

/-- Ring period in nanoseconds of a code (Table 2.3). -/
def periodNs (code : Nat) : Nat := 500 * 2 ^ code

/-- The most units that one slot of a port may reserve in a direction under a period (R275). -/
def reserveMax (period : Nat) (half : Bool) : Nat := (if half then 1420 else 2840) * periodNs period / 1000

/-- Rings in a time given in nanoseconds, rounded up. -/
def ringsIn (ns period : Nat) : Nat := (ns + periodNs period - 1) / periodNs period

/-- Rings of 24 µs at the period in force (R62, R225). -/
def State.lead (s : State) : Nat := ringsIn 24000 s.ring.period

/-! ## Where things lie -/

/-- Width of the logical grid (Table 0.1). -/
def Cert.width (c : Cert) : Nat := if c.disCol.isSome then 1008 else 1152

/-- Height of the logical grid. -/
def Cert.height (c : Cert) : Nat := if c.disRow.isSome then 640 else 768

/-- Whether a logical cell exists (R3, R7). -/
def State.inGrid (s : State) (x y : Nat) : Bool := decide (x < s.cert.width) && decide (y < s.cert.height)

/-- Disabled die columns west of the enabled rectangle (R8). -/
def Cert.west (c : Cert) : Nat := if c.disCol = some 0 then 1 else 0

/-- Disabled die rows north of the enabled rectangle (R8). -/
def Cert.north (c : Cert) : Nat := if c.disRow = some 0 then 1 else 0

/-- The compute die of a logical cell (R8). -/
def State.dieOf (s : State) (x y : Nat) : Nat := 8 * (y / 128 + s.cert.north) + x / 144 + s.cert.west

/-- Whether a compute die is enabled (R5). -/
def State.dieEnabled (s : State) (d : Nat) : Bool :=
  decide (d < 48) && ! (s.cert.disRow == some (d / 8)) && ! (s.cert.disCol == some (d % 8))

/-- Logical cell at the die-local position of an enabled die (R8). -/
def State.cellAt (s : State) (d col row : Nat) : Nat × Nat :=
  (144 * (d % 8 - s.cert.west) + col, 128 * (d / 8 - s.cert.north) + row)

/-- Logical cell of a tap (R17, Table 1.2). -/
def State.tapCell (s : State) (t : Nat) : Nat × Nat :=
  s.cellAt (t / 8) (18 + 36 * (t % 8 % 4)) (if t % 8 < 4 then 32 else 96)

/-- Whether a tap exists on an enabled die (R9). -/
def State.tapEnabled (s : State) (t : Nat) : Bool := s.dieEnabled (t / 8)

/-- The tap at a logical cell, if it is a tap cell. -/
def State.tapAt (s : State) (x y : Nat) : Option Nat :=
  (List.range 8).findSome? (fun j =>
    let t := 8 * s.dieOf x y + j
    if s.tapCell t = (x, y) then some t else none)

/-- The limb die that serves a tap (Table 6.7). -/
def limbOfTap (t : Nat) : Nat :=
  let d := t / 8
  let r := d / 8
  let c := d % 8
  if r < 2 then c / 2
  else if r = 2 then (if c < 4 then 11 else 4)
  else if r = 3 then (if c < 4 then 10 else 5)
  else 9 - c / 2

/-- The limb die of a port (R261). -/
def limbOfPort (p : Nat) : Nat := p / 6

/-- Whether the variant enables a port (R19). -/
def State.portEnabled (s : State) (p : Nat) : Bool :=
  decide (p < 72) &&
    (match s.cert.variant with
     | 0 => true
     | 1 => decide (p % 6 ≠ 5)
     | _ => decide (p % 6 ≠ 5) && ! (decide (p % 6 = 4) && decide (p / 6 % 2 = 0)))

/-- Key of a cell in the cell store: unique over every grid. -/
def cellKey (x y : Nat) : Nat := 1152 * y + x

/-- The column and row of a cell key. -/
def keyXY (k : Nat) : Nat × Nat := (k % 1152, k / 1152)

/-- A cell that the store does not list: as after a reset, or with lost contents on a die that woke and was not zeroed since (R393). -/
def State.blankCell (s : State) (d : Nat) : Cell :=
  match sget 0 s.power.lostDies d with
  | 0 => Cell.init
  | n + 1 => { Cell.init with mem := { MemUnit.empty with lost := some n } }

/-- A cell. -/
def State.cell (s : State) (x y : Nat) : Cell :=
  let c := sget Cell.init s.cells (cellKey x y)
  if c = Cell.init then s.blankCell (s.dieOf x y) else c

/-- Replaces a cell. -/
def State.setCell (s : State) (x y : Nat) (c : Cell) : State :=
  { s with cells := sset Cell.init s.cells (cellKey x y) c }

/-- The band of a logical column within its die (Table 0.4). -/
def bandOf (x : Nat) : Nat := x % 144 / 16

/-- The engine-wide number of a cell's band, 9d + b (R420). -/
def State.bandNo (s : State) (x y : Nat) : Nat := 9 * s.dieOf x y + bandOf x

/-! ## Heartwood values -/

/-- The register of heartwood. -/
def State.hwReg (s : State) (r : Nat) : HwReg := sget HwReg.zero s.hw.regs r

/-- The valid slot with the highest WCOUNT (R375). -/
def HwReg.newest (h : HwReg) : Option HwSlot :=
  h.slots.foldl (fun best c =>
    if ! c.valid then best
    else match best with
      | none => some c
      | some b => if b.wcount < c.wcount then some c else some b) none

/-- Indices the register map assigns (Table 13.3). -/
def hwAssigned (r : Nat) : Bool :=
  decide (r ≤ 0x00A) || (decide (0x010 ≤ r) && decide (r ≤ 0x0CF)) || (decide (0x0D0 ≤ r) && decide (r ≤ 0x1AA)) ||
  (decide (0x1B0 ≤ r) && decide (r ≤ 0x1C3)) || (decide (0x1C8 ≤ r) && decide (r ≤ 0x1CD)) ||
  (decide (0x1D0 ≤ r) && decide (r ≤ 0x1EA)) || (decide (0x200 ≤ r) && decide (r ≤ 0x2FF))

/-- The persistent value of a heartwood register; 0 with no valid slot, and at reserved indices (R375, R380). -/
def State.hwVal (s : State) (r : Nat) : Nat :=
  if hwAssigned r then
    match (s.hwReg r).newest with
    | some c => c.value
    | none => 0
  else 0

/-- A burl band entry (Table 15.6). -/
def State.bandEntry (s : State) (n : Nat) : Nat := s.hwVal (0x0D0 + n / 2) / 2 ^ (32 * (n % 2)) % 2 ^ 32

/-- Failed spare rows recorded for a band (R464). -/
def State.spareMask (s : State) (n : Nat) : Nat := s.hwVal (0x1D0 + n / 16) / 2 ^ (4 * (n % 16)) % 16

/-- COUNT of an entry. -/
def entryCount (e : Nat) : Nat := e / 2 ^ 28 % 8

/-- SKIP_k of an entry. -/
def entrySkip (e k : Nat) : Nat := e / 2 ^ (7 * k) % 128

/-- Bits set in a 4-bit mask. -/
def popcount4 (m : Nat) : Nat := m % 2 + m / 2 % 2 + m / 4 % 2 + m / 8 % 2

/-- Physical rows the SKIP fields of an entry decode to (R424). -/
def entryRows (e : Nat) : List Nat := (List.range (entryCount e)).map (fun k => entrySkip e k + k)

/-- Recorded spare rows that the SKIP fields do not also decode (R464). -/
def spareRows (e m : Nat) : List Nat :=
  ((List.range 4).filter (fun j => m.testBit j)).map (128 + ·) |>.filter (fun r => ! (entryRows e).contains r)

/-- Whether an entry obeys the rules of R424: COUNT at most 4, used SKIP fields non-decreasing, unused ones 0. -/
def entryValid (e : Nat) : Bool :=
  decide (entryCount e ≤ 4) &&
  (List.range 3).all (fun k => decide (entryCount e ≤ k + 1) || decide (entrySkip e k ≤ entrySkip e (k + 1))) &&
  (List.range 4).all (fun k => decide (k < entryCount e) || decide (entrySkip e k = 0))

/-- Whether a band is UNUSABLE, or treated as such (R424). -/
def State.bandUnusable (s : State) (n : Nat) : Bool :=
  let e := s.bandEntry n
  e.testBit 31 || ! entryValid e || decide (4 < entryCount e + (spareRows e (s.spareMask n)).length)

/-- Spare rows left in a band: FREE of R464. -/
def State.bandFree (s : State) (n : Nat) : Nat :=
  if s.bandUnusable n then 0 else 4 - entryCount (s.bandEntry n) - (spareRows (s.bandEntry n) (s.spareMask n)).length

/-- Physical row of a logical row of a band (R16, R424): the identity when the entry is treated as UNUSABLE. -/
def State.physRow (s : State) (n r : Nat) : Nat :=
  let e := s.bandEntry n
  if entryValid e && decide (entryCount e + (spareRows e (s.spareMask n)).length ≤ 4) then
    r + ((List.range (entryCount e)).filter (fun k => decide (entrySkip e k ≤ r))).length
  else r

/-- Physical coordinates of a logical cell (R15). -/
def State.phys (s : State) (x y : Nat) : Nat × Nat :=
  let d := s.dieOf x y
  (144 * (d % 8) + x % 144, 132 * (d / 8) + s.physRow (9 * d + bandOf x) (y % 128))

/-! ## Units of the state -/

/-- A tap's channel. -/
def State.tap (s : State) (t : Nat) : Tap := sget Tap.reset s.taps t

/-- Replaces a tap's channel. -/
def State.setTap (s : State) (t : Nat) (v : Tap) : State := { s with taps := sset Tap.reset s.taps t v }

/-- An edge port. -/
def State.port (s : State) (p : Nat) : EdgePort := sget EdgePort.reset s.ports p

/-- Replaces an edge port. -/
def State.setPort (s : State) (p : Nat) (v : EdgePort) : State := { s with ports := sset EdgePort.reset s.ports p v }

/-- A session record. -/
def State.ses (s : State) (i : Nat) : Session := sget Session.reset s.sess i

/-- Replaces a session record. -/
def State.setSes (s : State) (i : Nat) (v : Session) : State := { s with sess := sset Session.reset s.sess i v }

/-- A limb die. -/
def State.limb (s : State) (k : Nat) : Limb := sget Limb.reset s.limbs k

/-- Replaces a limb die. -/
def State.setLimb (s : State) (k : Nat) (v : Limb) : State := { s with limbs := sset Limb.reset s.limbs k v }

/-- A compute die's domain state; a disabled die is always OFF (R392). An enabled die starts OFF and is powered at boot. -/
def State.domain (s : State) (d : Nat) : Domain :=
  if s.dieEnabled d then sget .off s.power.domains d else .off

/-- Replaces a domain state. -/
def State.setDomain (s : State) (d : Nat) (v : Domain) : State :=
  { s with power := { s.power with domains := sset .off s.power.domains d v } }

/-- Whether a job is preparing, running or recovering. -/
def State.jobOn (s : State) : Bool := s.job.cur.isSome

/-- Whether a job is admitted, preparing, running or recovering. -/
def State.jobPresent (s : State) : Bool := s.job.cur.isSome || ! s.job.queue.isEmpty

/-- The state of a PLL, by its CLK_MEAS index; all are off while the root die runs on its oscillator (R65, R73). -/
def State.pll (s : State) (n : Nat) : PllState := if s.clk.xtal then sget .locked s.clk.plls n else .off

/-- Whether the engine is in RUN with main rails up and no transition under way. -/
def State.inRun (s : State) : Bool := decide (s.power.state = .run) && decide (s.power.transit = .none) && s.modl.mains

/-- Whether a compute die's clocks run (R73, R74, Table 14.1). -/
def State.clocked (s : State) (d : Nat) : Bool := decide (s.pll d = .locked) && s.inRun

/-- Whether a limb die's clocks run: its LPLL is locked (R73, R74). While they stand still nothing leaves or enters through the die; the
deadlines of its sessions are watched by the root die all the same (DESIGN CHOICE, log 76). -/
def State.limbOn (s : State) (k : Nat) : Bool := decide (s.pll (48 + k) = .locked)

/-- Whether recovery re-executes committed steps (Table 15.7, R438). -/
def State.reenacts (s : State) : Bool := decide (s.ras.recov.stage = .replay)

/-- The job that executes steps, if there is one: in stage RUNNING, or in the REPLAY of a recovery (R426). -/
def State.running (s : State) : Option Job :=
  match s.job.cur with
  | some j => if j.stage = .running ∨ (j.stage = .recovering ∧ s.reenacts = true) then some j else none
  | none => none

/-- "While a job is running" in the register rules: a job is RUNNING or RECOVERING (DEDUCED, log 18). -/
def State.busyJob (s : State) : Bool :=
  match s.job.cur with
  | some j => decide (j.stage ≠ .preparing)
  | none => false

/-- Ownership state shown by heartwood (R350). -/
def State.owner (s : State) : Nat := s.hwVal 0x1BE % 4

/-- Owner key hash in heartwood (Table 13.3). -/
def State.ownerHash (s : State) : List Byte := (List.range 6).flatMap (fun k => leBytes 8 (s.hwVal (0x1B8 + k)))

/-- ENGINE epoch in heartwood (R283). -/
def State.engineEpoch (s : State) : Nat := s.hwVal 0x1C1 % 65536

/-- Anti-rollback counter (Table 13.3). -/
def State.rollback (s : State) (i : Nat) : Nat := s.hwVal (0x1B0 + i)

/-- The grant in force: from its start to the end of its LAST_RING (R352). -/
def State.grantNow (s : State) : Option Grant := s.bark.grant.filter (fun g => g.on && ! ringBefore g.last s.now)

/-- Whether a grant with INJECT is active (R353). -/
def State.injectOn (s : State) : Bool := s.grantNow.any (·.inject)

/-- The MAC address of a port or half (R264). -/
def State.macOf (s : State) (p : Nat) (half : Bool) : Nat := s.hwVal 0x009 % 2 ^ 48 + 2 * p + bit half

end Sys2Proof.Machine
end

