-- ==== Sys2Proof/Machine/TreeOps.lean ====
section
/-!
DEFINITION. The integrity tree (R365 to R369): levels, nodes and their tree chunks, versions, write-back, ROOT.
-/
namespace Sys2Proof.Machine

/-- Tracked chunks E (R365). -/
def State.extent (s : State) : Nat := s.f STREAM_EXTENT_CHUNKS

/-- The least level count from d on whose tree covers E chunks. -/
def depthFrom (e : Nat) : Nat → Nat → Nat
  | 0, d => d
  | n + 1, d => if e ≤ 8 ^ d then d else depthFrom e n (d + 1)

/-- D of R365. -/
def State.treeDepth (s : State) : Nat := depthFrom s.extent 12 1

/-- Nodes of a level (R365). -/
def levelNodes (e l : Nat) : Nat := (e + 8 ^ (l + 1) - 1) / 8 ^ (l + 1)

/-- O of R366: tree chunks of the levels below. -/
def levelBase (e l : Nat) : Nat := (List.range l).foldl (fun n k => n + (levelNodes e k + 31) / 32) 0

/-- The number of the tree chunk of a node (R366). -/
def treeChunk (e l i : Nat) : Nat := levelBase e l + i / 32

/-- The stream address of a tree chunk (R366). -/
def treeAddr (t : Nat) : Nat := 2 ^ 51 + 4096 * t

/-- Key of a node in the tree unit's cache. -/
def nodeKey (l i : Nat) : Nat := 2 ^ 36 * l + i

/-- Eight counters of zero (R365). -/
def zeroNode : List Nat := List.replicate 8 0

/-- The counters of a node, or the missing node nearest the top on its path (R365, R368). `d` is D; the first argument bounds the
climb. -/
def Tree.node (t : Tree) (d : Nat) : Nat → Nat → Nat → Except (Nat × Nat) (List Nat)
  | 0, _, _ => .ok zeroNode
  | n + 1, l, i =>
    if d ≤ l + 1 then .ok (if t.top.isEmpty then zeroNode else t.top)
    else
      match t.node d n (l + 1) (i / 8) with
      | .error m => .error m
      | .ok cs =>
        if cs.getD (i % 8) 0 = 0 then .ok zeroNode
        else
          match sget [] t.cached (nodeKey l i) with
          | [] => .error (l, i)
          | v => .ok v

/-- The counters of a node, zeros where one on its path is missing. -/
def Tree.counters (t : Tree) (d l i : Nat) : List Nat :=
  match t.node d d l i with
  | .ok v => v
  | .error _ => zeroNode

/-- Replaces a node. -/
def Tree.setNode (t : Tree) (d l i : Nat) (v : List Nat) : Tree :=
  if d ≤ l + 1 then { t with top := v } else { t with cached := sset [] t.cached (nodeKey l i) v }

/-- The version the tree holds of a chunk, or the node that must be fetched first (R365, R368). -/
def State.version (s : State) (c : Nat) : Except (Nat × Nat) Nat :=
  match s.tree.node s.treeDepth s.treeDepth 0 (c / 8) with
  | .ok v => .ok (v.getD (c % 8) 0)
  | .error m => .error m

/-- The tree after the write-back of chunks: each chunk's counter takes its pending version, and each changed node's counter in its
parent advances by 1, all from the counters before (R365, R369). -/
def Tree.install (t : Tree) (d : Nat) (cs : List Nat) : Tree :=
  let old := t
  let nodes := (cs.map (· / 8)).eraseDups
  let leaf (i : Nat) : List Nat :=
    cs.foldl (fun v c => if c / 8 = i then v.set (c % 8) (sget 0 old.pendingVer c) else v) (old.counters d 0 i)
  let up (l : Nat) : List Nat := (nodes.map (fun i => i / 8 ^ l)).eraseDups
  let mid (l i : Nat) : List Nat :=
    (up (l - 1)).foldl (fun v c => if c / 8 = i then v.set (c % 8) (v.getD (c % 8) 0 + 1) else v) (old.counters d l i)
  (List.range d).foldl (fun t l => (up l).foldl (fun t i => t.setNode d l i (if l = 0 then leaf i else mid l i)) t) t

/-- Nodes that the write-back of chunks changes: level and index (R369). -/
def dirtyNodes (d : Nat) (cs : List Nat) : List (Nat × Nat) :=
  (List.range d).flatMap (fun l => ((cs.map (fun c => c / 8 / 8 ^ l)).eraseDups).map (fun i => (l, i)))

/-- The 64 bytes of a node's counters (R366). -/
def nodeBytes (v : List Nat) : List Byte := v.flatMap (leBytes 8)

/-- ROOT of a top node (R367). -/
def State.rootOf (s : State) (top : List Nat) : List Byte :=
  sha384 (leBytes 8 (s.hwVal 0x1BF) ++ leBytes 8 s.extent ++ leBytes 1 s.treeDepth ++ List.replicate 7 0
    ++ nodeBytes (if top.isEmpty then zeroNode else top))

/-- ROOT in force (R367). -/
def State.root (s : State) : List Byte := s.rootOf s.tree.top

/-- A store key of the tree instance in force, by its info string (R364, R366). -/
def State.treeKey (s : State) (info : String) : List Byte :=
  hkdfExpand (hkdfExtract (leBytes 8 (s.hwVal 0x1BF)) (s.bark.smk.getD [])) (ascii info) 32

/-- TAG of a node under its parent's counter for it (R366). -/
def State.nodeTag (s : State) (l i parent : Nat) (counters : List Byte) : List Byte :=
  gmac (s.treeKey "zw tree node") (leBytes 5 (nodeKey l i) ++ leBytes 7 parent) counters

/-- The counter that a node's parent holds for it (R365). -/
def State.parentCounter (s : State) (t : Tree) (l i : Nat) : Nat := (t.counters s.treeDepth (l + 1) (i / 8)).getD (i % 8) 0

/-- One slot of a tree chunk: a node's counters, its tag and zeros; the top node's tag is zero, and a slot whose node was never written is
zeros (R365 to R367). -/
def State.nodeSlot (s : State) (t : Tree) (l i : Nat) (v : List Nat) : List Byte :=
  let parent := s.parentCounter t l i
  if s.treeDepth ≤ l + 1 then padTo 128 (nodeBytes v)
  else if parent = 0 then List.replicate 128 0
  else padTo 128 (nodeBytes v ++ s.nodeTag l i parent (nodeBytes v))

/-- The 4,096 bytes of a tree chunk as the tree unit writes it; a slot whose node it does not follow keeps what it held (DESIGN CHOICE,
log 47). -/
def State.treeChunkData (s : State) (t : Tree) (n : Nat) : List Byte :=
  let e := s.extent
  let d := s.treeDepth
  match (List.range d).find? (fun l => decide (levelBase e l ≤ n) && decide (n < levelBase e (l + 1))) with
  | none => []
  | some l =>
    (List.range 32).flatMap (fun k =>
      let i := 32 * (n - levelBase e l) + k
      match t.node d d l i with
      | .ok v => s.nodeSlot t l i v
      | .error _ => padTo 128 ((Config.unknownSlot n k).take 128))

end Sys2Proof.Machine
end

