-- ==== Sys2Proof/Machine/Flags.lean ====
section
/-!
DEFINITION. Interrupt causes and messages (R324, R325), counts that reach their registers at a ring edge or a step end
(R173, R202, R433), heartwood write requests (R376 to R379), frames queued on a session (R276), journal records (R436).
-/
namespace Sys2Proof.Machine

/-! ## Interrupts -/

/-- Whether the vector mask of MSI-X holds vector v: the vector control word of its entry, masked after a reset of the table
(PRESUMED, log 19). -/
def State.vecMasked (s : State) (v : Nat) : Bool := ! ((sget 0 s.host.msix (4 * v + 3)).getLsbD 0)

/-- Whether a message can leave: bus mastering allowed, link up, vector unmasked (R325). -/
def State.vecReady (s : State) (v : Nat) : Bool := s.host.up && s.host.bme && ! s.vecMasked v

/-- Sends the message of a vector, or holds it pending (R325). -/
def State.signal (s : State) (v : Nat) : State :=
  if s.vecReady v then (s.send (.msix v)).inc (ID_HOST_CNT_COUNT 7) 1
  else { s with host := { s.host with pba := s.host.pba ||| 2 ^ v } }

/-- An event of cause v: its bit sets, and a message goes when the bit rises while enabled (R325). -/
def State.event (s : State) (v : Nat) : State :=
  let cause := s.f ID_INT_CAUSE_CAUSE
  if cause.testBit v then s
  else
    let s1 := s.setF ID_INT_CAUSE_CAUSE (cause ||| 2 ^ v)
    if (s.f ID_INT_ENABLE_ENABLE).testBit v then s1.signal v else s1

/-- Messages held pending leave when nothing holds them any more (R325). -/
def State.flushPending (s : State) : State :=
  (List.range 32).foldl (fun s v =>
    if s.host.pba.testBit v && s.vecReady v then
      ({ s with host := { s.host with pba := s.host.pba - 2 ^ v } } : State).signal v
    else s) s

/-- The in-band interrupt of a management port with a dynamic address (R330). -/
def State.inBand (s : State) : State := if s.mgmt.dyn.isSome then s.send .inBand else s

/-- FAULT_N asserts (R73, R330). -/
def State.faultN (s : State) : State :=
  if s.modl.faultN then s else ({ s with modl := { s.modl with faultN := true } } : State).inBand

/-- FAULT_N deasserts when nothing holds it: the crystal is good with CLK_SRC.LOSS clear, no recovery mode stands, and no trip or
input failure has dropped main rails (R23, R73, R409, R454). -/
def State.settleFaultN (s : State) : State :=
  if s.f CLK_SRC_LOSS = 1 ∨ (s.clk.lossActive = true ∧ s.clk.xtalGood = false) ∨ s.boot.recovery ≠ .none ∨ s.modl.inputFailed = true ∨
      s.modl.hardTripped = true then s
  else { s with modl := { s.modl with faultN := false } }

/-! ## Counts that wait -/

/-- Adds to a count that its register shows from the next ring edge (R202, R433). -/
def State.later (s : State) (F : Fld) (n : Nat) : State := { s with pendRing := smod 0 s.pendRing F.key (· + n) }

/-- Adds to a count that its register shows from the end of the step (R173). -/
def State.atStep (s : State) (F : Fld) (n : Nat) : State := { s with pendStep := smod 0 s.pendStep F.key (· + n) }

/-- Moves a waiting count into its register. -/
def State.settleF (s : State) (m : SMap Nat) (sat : Bool) (F : Fld) : State :=
  if sat then s.incSat F (sget 0 m F.key) else s.inc F (sget 0 m F.key)

/-- The counts that wait for a ring edge reach their registers (R202, R433). -/
def State.settleRing (s : State) : State :=
  let m := s.pendRing
  let s1 := (List.range 10).foldl (fun s i => s.settleF m false (FAB_CNT_COUNT i)) { s with pendRing := [] }
  (List.range 48).foldl (fun s i =>
    ((s.settleF m true (RAS_DIE_ERR_CORRECTED i)).settleF m true (RAS_DIE_ERR_UNCORRECTABLE i)).settleF m true
      (RAS_DIE_ERR_DEAD i)) s1

/-- The counts that wait for a step end reach their registers (R173). -/
def State.settleStep (s : State) : State :=
  let m := s.pendStep
  let s1 := (List.range 10).foldl (fun s i => s.settleF m false (SPARSE_CNT_COUNT i)) { s with pendStep := [] }
  [SPARSE_META_COUNT_HEADER, SPARSE_META_COUNT_RANGE, SPARSE_META_COUNT_ORDER, SPARSE_META_COUNT_COUNT].foldl
    (fun s F => s.settleF m true F) s1

/-! ## Heartwood writes -/

/-- Live slots of a register (R376). -/
def HwReg.live (h : HwReg) : List Nat := (List.range 4).filter (fun k => ! h.retired.testBit k)

/-- The write counter (Table 13.1). -/
def HwReg.count (h : HwReg) : Nat :=
  match h.newest with
  | some c => c.wcount
  | none => 0

/-- Writes the only live slot has taken; 0 with more than one. -/
def HwReg.lastSlotTaken (h : HwReg) : Nat :=
  match h.live with
  | [k] => (h.slots.getD k default).taken
  | _ => 0

/-- Whether a register has reached its limit (R378). -/
def HwReg.atLimit (h : HwReg) : Bool :=
  decide (400000 ≤ h.count) || decide (100000 ≤ h.lastSlotTaken) || h.live.isEmpty

/-- Whether a register has reached its warning level (R378). -/
def HwReg.atWarn (h : HwReg) : Bool := decide (360000 ≤ h.count) || decide (90000 ≤ h.lastSlotTaken)

/-- Whether a write can start on its lane now (R377). -/
def Heartwood.canStart (h : Heartwood) (w : HwWrite) : Bool :=
  let general := (h.busy.filter (fun b => b.lane == .general)).length
  ! (h.busy.any (fun b => b.reg == w.reg)) &&
  (match w.lane with
   | .host => ! h.closed && ! (h.busy.any (fun b => b.lane == .host))
   | .general => ! h.closed && decide (general < 6) && ! (w.last && ! h.busy.isEmpty)
   | .gasp => ! (h.busy.any (fun b => b.lane == .gasp)))

/-- Engine writes that can start do, in arrival order; an earlier write of the same register, or a write that must come
last, holds back the later ones (R350, R377). -/
def startEngine : List HwWrite → Heartwood → List HwWrite → Heartwood
  | [], h, left => { h with engineQ := left }
  | w :: ws, h, left =>
    if left.any (fun q => q.reg == w.reg || q.last) || (w.last && ! left.isEmpty) || ! h.canStart w then
      startEngine ws h (left ++ [w])
    else startEngine ws { h with busy := h.busy ++ [w] } left

/-- Host writes that can start do, in arrival order, on the host lane or a free general lane (R377). -/
def startHost : List HwWrite → Heartwood → Heartwood
  | [], h => { h with hostQ := [] }
  | w :: ws, h =>
    if h.canStart { w with lane := .host } then startHost ws { h with busy := h.busy ++ [{ w with lane := .host }] }
    else if h.canStart { w with lane := .general } then
      startHost ws { h with busy := h.busy ++ [{ w with lane := .general }] }
    else { h with hostQ := w :: ws }

/-- Waiting writes start where lanes are free. -/
def Heartwood.start (h : Heartwood) : Heartwood :=
  let h1 := startHost h.hostQ h
  startEngine h1.engineQ h1 []

/-- The engine asks for a heartwood write; at the limit it is refused and counted (R378). -/
def State.hwWrite (s : State) (reg value : Nat) (last : Bool) : State :=
  if (s.hwReg reg).atLimit then s.inc (HW_CNT_COUNT 4) 1
  else { s with hw := ({ s.hw with engineQ := s.hw.engineQ ++ [⟨reg, value % 2 ^ 64, .general, false, last⟩] } : Heartwood).start }

/-- The value a register will have once every write asked for has persisted. -/
def State.hwNext (s : State) (reg : Nat) : Nat :=
  match ((s.hw.busy ++ s.hw.engineQ ++ s.hw.hostQ).filter (fun w => w.reg == reg)).getLast? with
  | some w => w.value
  | none => s.hwVal reg

/-- The LAST_GASP record is written on its own lane, and no other write starts any more (R23, R377, R409). -/
def State.lastGasp (s : State) (cls code : Nat) : State :=
  let v := s.now % 2 ^ 48 + 2 ^ 48 * (code % 256) + 2 ^ 56 * cls
  if (s.hwReg 0x1C3).atLimit then { (s.inc (HW_CNT_COUNT 4) 1) with hw := { s.hw with closed := true } }
  else { s with hw := { s.hw with closed := true, busy := s.hw.busy ++ [⟨0x1C3, v, .gasp, false, false⟩] } }

/-! ## Frames waiting on a session -/

/-- A frame of a type with nothing in it. -/
def Frame.blank (typ : Nat) : Frame :=
  { typ := typ, resp := false, ackValid := false, nak := false, late := false, more := false, cls := 0, attempt := 0,
    session := 0, epoch := 0, stamp := 0, seq := 0, ack := 0, credit := 0, deadline := 0, fields := [], data := [] }

/-- Queues a data frame on a session, with its deadline ring and the request it carries (R276). -/
def State.queueReq (s : State) (i : Nat) (f : Frame) (due : Option Nat) (req : Option (Nat × Nat)) : State :=
  let q := s.ses i
  s.setSes i { q with queue := q.queue ++ [⟨0, f, due, req, false⟩] }

/-- Queues a data frame on a session. -/
def State.queueFrame (s : State) (i : Nat) (f : Frame) : State := s.queueReq i f none none

/-- A SYNC frame (R301, Table 9.5). -/
def syncFrame (kind ring jobId step : Nat) : Frame :=
  { Frame.blank 8 with fields := leBytes 6 ring ++ leBytes 1 kind ++ [0] ++ leBytes 4 jobId ++ leBytes 4 step }

/-- Whether the recording under replay is a FULL one (R439): its START record says so. -/
def State.replayFull (s : State) : Bool :=
  match s.job.cur with
  | some j => j.records.any (fun r => r.kind == 1 && decide (rd r.body 0x25 1 = 2))
  | none => false

/-- Whether peer inputs come from a recording alone: recovery replay, and the replay of a FULL recording (R438, R439; logs 96, 97). -/
def State.alone (s : State) : Bool := s.reenacts || (s.journal.replaying && s.replayFull)

/-- Indices of OPEN sessions of a kind. -/
def State.openSessions (s : State) (store : Bool) : List Nat :=
  (s.sess.filter (fun p => p.2.st == .opened && p.2.store == store)).map (·.1)

/-- SYNC to every OPEN peer-engine session (R310); a replay from a recording alone sends no peer traffic (R438; log 97). -/
def State.syncPeers (s : State) (kind ring jobId step : Nat) : State :=
  if s.alone then s else (s.openSessions false).foldl (fun s i => s.queueFrame i (syncFrame kind ring jobId step)) s

/-- Changes the stream unit; the STREAM cause is raised when PROMOTE_PENDING changes (Table 11.3). -/
def State.setWrites (s : State) (f : List StoreWrite → List StoreWrite) : State :=
  let s1 : State := { s with stream := { s.stream with writes := f s.stream.writes } }
  if s.stream.writes.isEmpty = s1.stream.writes.isEmpty then s1 else s1.event 12

/-- Tracked chunks that the outstanding writes of a group carry. -/
def State.groupChunks (s : State) (group : Nat) : List Nat :=
  (s.stream.writes.filter (fun w => w.group == group && decide (w.addr < 2 ^ 51))).map (fun w => w.addr / 4096)

/-- RING, JOB_ID and STEP of a SYNC to stores: those of the step whose UPDATE phase or checkpoint the group's writes belong to
(R301). A journal chunk belongs to none (DESIGN CHOICE, log 103). -/
def State.syncMark (s : State) (group : Nat) : Nat × Nat × Nat :=
  if group = 0 then s.stream.mark
  else if group = 1 then
    match s.job.ckpt with
    | some c => (c.ring, c.jobId, c.step)
    | none => (s.now, 0, 0)
  else (s.now, 0, 0)

/-- SYNC PROMOTE or DISCARD on the sessions that carry store writes of a group, but for those listed; the group then waits no more.
A promoted group's versions enter the tree; a discarded one's are dropped, and the writes of an UPDATE phase that are still to be
sent or answered are forgotten (R255, R300, R369). -/
def State.syncBut (s : State) (skip : List Nat) (promote : Bool) (group : Nat) : State :=
  let ss := (((s.stream.writes.filter (fun w => w.group == group)).map (·.session)).eraseDups).filter (fun i => ! skip.contains i)
  let cs := s.groupChunks group
  let m := s.syncMark group
  let s1 := ss.foldl (fun s i =>
    (s.queueFrame i (syncFrame (if promote then 3 else 4) m.1 m.2.1 m.2.2)).inc (STREAM_CNT_COUNT (if promote then 9 else 10)) 1) s
  let t := if promote then s.tree.install s.treeDepth cs else s.tree
  let gone (r : PendReq) : Bool := ! promote && decide (group = 0) && (decide (r.kind = .gather) ||
    (decide (r.kind = .streamWrite) && s.stream.writes.any (fun w => w.group == 0 && w.session == r.session && w.addr == r.addr)))
  let s2 : State := { s1 with
    tree := { t with pendingVer := skeep (fun c => ! cs.contains c) t.pendingVer }
    limbs := smap Limb.reset (fun _ l => { l with pending := l.pending.filter (fun r => ! gone r) }) s1.limbs }
  s2.setWrites (·.filter (fun w => w.group != group))

/-- SYNC PROMOTE or DISCARD on every session that carries store writes of a group. -/
def State.syncStores (s : State) (promote : Bool) (group : Nat) : State := s.syncBut [] promote group

/-! ## Journal -/

/-- Bytes a record takes in the stream: header and padded body (R436). -/
def journalSize (body : List Byte) : Nat := 16 + (body.length + 15) / 16 * 16

/-- The journal stops: STOPPED is set and the JOURNAL cause raised (R435). -/
def State.journalStop (s : State) : State :=
  (({ s with journal := { s.journal with stopped := true, stopRing := s.now } } : State).flag JOURNAL_STATUS_STOPPED).event 9

/-- Appends a record to the journal buffer; with the buffer full the journal stops, and a stopped journal loses records
(R434, R435). Replayed steps write none (R438). -/
def State.record (s : State) (kind : Nat) (inj : Bool) (body : List Byte) : State :=
  if ! s.journal.recording || s.reenacts then s
  else if s.journal.stopped then s.inc (JOURNAL_CNT_COUNT 2) 1
  else
    let n := journalSize body
    if 16 * 2 ^ 20 < s.journal.fill + n then s.journalStop.inc (JOURNAL_CNT_COUNT 2) 1
    else
      let (cyc, s0) := s.draw
      let r : JournalRec := ⟨kind, inj, s.now, cyc % 65536, s.journal.nextSeq, body⟩
      let j := s0.journal
      let j1 : Journal :=
        { j with buffer := j.buffer ++ [r], fill := j.fill + n, nextSeq := j.nextSeq + 1, pos := j.pos + n }
      let s1 := (({ s0 with journal := j1 } : State).inc (JOURNAL_CNT_COUNT 0) 1).inc (JOURNAL_CNT_COUNT 1) n
      if j.fill < 15 * 2 ^ 20 ∧ 15 * 2 ^ 20 ≤ j.fill + n then (s1.flag JOURNAL_STATUS_HWM).event 9 else s1

end Sys2Proof.Machine
end

