-- ==== Sys2Proof/Machine/Float.lean ====
section
/-!
DEFINITION. Floating-point values of the compute unit (chapter 3): exact values as signed multiples of powers of two,
the formats of Table 3.3, and the one rounding the spec has, to nearest with ties to even (R94).
-/
namespace Sys2Proof.Machine

/-- A value: NaN, an infinity, or the exact number ±m·2^e. -/
inductive Val where
  | nan
  | inf (neg : Bool)
  | fin (neg : Bool) (m : Nat) (e : Int)
  deriving DecidableEq, Repr, Inhabited

/-- `2 ^ e` for a non-negative whole number, 1 below zero. -/
def pow2 (e : Int) : Nat := 2 ^ e.toNat

/-- Rounds `m·2^e` to a multiple of `2^q`, to nearest, ties to even: the number of quanta. -/
def roundQuanta (m : Nat) (e q : Int) : Nat :=
  if q ≤ e then m * pow2 (e - q)
  else
    let d := pow2 (q - e)
    let hi := m / d
    let r := m % d
    if 2 * r < d then hi
    else if 2 * r > d then hi + 1
    else if hi % 2 = 0 then hi else hi + 1

/-- Rounds to `p` significant bits with least exponent `emin`, upward unbounded: quanta and quantum exponent. -/
def roundPrec (p : Nat) (emin : Int) (m : Nat) (e : Int) : Nat × Int :=
  if m = 0 then (0, emin - (p - 1 : Int))
  else
    let ex : Int := e + (Nat.log2 m : Int)
    let q := max (ex - (p - 1 : Int)) (emin - (p - 1 : Int))
    (roundQuanta m e q, q)

/-- The shape of a binary format: exponent bits, mantissa bits, bias, largest finite value `maxM·2^maxE`, and what its
special encodings are. -/
structure Shape where
  ebits : Nat
  mbits : Nat
  bias : Int
  maxM : Nat
  maxE : Int
  ieee : Bool
  nanTop : Bool
  deriving DecidableEq, Repr

/-- The shape of each value format of Table 3.3 (element formats for MX). -/
def Fmt.shape : Fmt → Option Shape
  | .fp32 => some ⟨8, 23, 127, 0xFFFFFF, 104, true, false⟩
  | .bf16 => some ⟨8, 7, 127, 0xFF, 120, true, false⟩
  | .fp16 => some ⟨5, 10, 15, 0x7FF, 5, true, false⟩
  | .e4m3 | .mxE4m3 => some ⟨4, 3, 7, 14, 5, false, true⟩
  | .e5m2 | .mxE5m2 => some ⟨5, 2, 15, 7, 13, true, false⟩
  | .mxE3m2 => some ⟨3, 2, 3, 7, 2, false, false⟩
  | .mxE2m3 => some ⟨2, 3, 1, 15, -1, false, false⟩
  | .mxE2m1 => some ⟨2, 1, 1, 3, 1, false, false⟩
  | .int8 | .int4 | .int32 => none

/-- Width in bits of a stored value (Table 5.2, Table 3.3). -/
def Fmt.width : Fmt → Nat
  | .fp32 | .int32 => 32
  | .bf16 | .fp16 => 16
  | .e4m3 | .e5m2 | .mxE4m3 | .mxE5m2 | .int8 => 8
  | .mxE3m2 | .mxE2m3 => 6
  | .mxE2m1 | .int4 => 4

/-- Whether the format carries E8M0 block scales (R84). -/
def Fmt.isMx : Fmt → Bool
  | .mxE4m3 | .mxE5m2 | .mxE3m2 | .mxE2m3 | .mxE2m1 => true
  | _ => false

/-- Whether the format is an integer format. -/
def Fmt.isInt : Fmt → Bool
  | .int8 | .int4 | .int32 => true
  | _ => false

/-- The code of Table 3.3. -/
def Fmt.code : Fmt → Nat
  | .fp32 => 0 | .bf16 => 1 | .fp16 => 2 | .e4m3 => 3 | .e5m2 => 4 | .mxE4m3 => 5 | .mxE5m2 => 6
  | .mxE3m2 => 7 | .mxE2m3 => 8 | .mxE2m1 => 9 | .int8 => 10 | .int4 => 11 | .int32 => 12

/-- The signed value of the low `w` bits. -/
def signedBits (w bits : Nat) : Int :=
  let b := bits % 2 ^ w
  if b.testBit (w - 1) then (b : Int) - 2 ^ w else b

/-- Decodes a floating-point bit pattern of a shape. -/
def Shape.decode (s : Shape) (bits : Nat) : Val :=
  let man := bits % 2 ^ s.mbits
  let ex := bits / 2 ^ s.mbits % 2 ^ s.ebits
  let neg := bits.testBit (s.mbits + s.ebits)
  let top := 2 ^ s.ebits - 1
  if s.ieee && ex == top then (if man = 0 then .inf neg else .nan)
  else if s.nanTop && ex == top && man == 2 ^ s.mbits - 1 then .nan
  else if ex = 0 then .fin neg man (1 - s.bias - s.mbits)
  else .fin neg (2 ^ s.mbits + man) ((ex : Int) - s.bias - s.mbits)

/-- A whole number as a value. -/
def Val.ofInt (i : Int) : Val := .fin (decide (i < 0)) i.natAbs 0

/-- Decodes a stored value of any format of Table 3.3 (the MX scale apart). -/
def Fmt.decode (f : Fmt) (bits : Nat) : Val :=
  match f.shape with
  | some s => s.decode bits
  | none => Val.ofInt (signedBits f.width bits)

/-- The bit pattern of `r` quanta `2^q` (from `roundPrec`) in a shape; the exponent field is not bounded here. -/
def Shape.pack (s : Shape) (neg : Bool) (r : Nat) (q : Int) : Nat :=
  let sg := if neg then 2 ^ (s.mbits + s.ebits) else 0
  if r < 2 ^ s.mbits then sg + r
  else
    let (r', q') := if r = 2 ^ (s.mbits + 1) then (2 ^ s.mbits, q + 1) else (r, q)
    sg + (q' + s.mbits + s.bias).toNat * 2 ^ s.mbits + (r' - 2 ^ s.mbits)

/-- Whether `r·2^q` lies above the largest finite value of the shape. -/
def Shape.overflows (s : Shape) (r : Nat) (q : Int) : Bool :=
  if s.maxE ≤ q then decide (s.maxM < r * pow2 (q - s.maxE)) else decide (s.maxM * pow2 (s.maxE - q) < r)

/-- The largest finite pattern of a shape. -/
def Shape.maxBits (s : Shape) (neg : Bool) : Nat := s.pack neg s.maxM s.maxE

/-- The canonical NaN of the compute unit (R94). -/
def canonNan : Word32 := 0x7FC00000#32

/-- The shape of FP32. -/
def shape32 : Shape := ⟨8, 23, 127, 0xFFFFFF, 104, true, false⟩

/-- Decodes an FP32 word. -/
def val32 (w : Word32) : Val := shape32.decode w.toNat

/-- Rounds a value to FP32 (R94): every NaN is canonical, overflow gives an infinity. -/
def round32 : Val → Word32
  | .nan => canonNan
  | .inf neg => if neg then 0xFF800000#32 else 0x7F800000#32
  | .fin neg m e =>
    let (r, q) := roundPrec 24 (-126) m e
    if shape32.overflows r q then (if neg then 0xFF800000#32 else 0x7F800000#32)
    else BitVec.ofNat 32 (shape32.pack neg r q)

/-- Exact signed number at exponent `e`. -/
def Val.scaled (e : Int) : Val → Int
  | .fin neg m e' => (if neg then -1 else 1) * (m * pow2 (e' - e) : Int)
  | _ => 0

/-- Exact product. Zero times an infinity is NaN. -/
def Val.mul : Val → Val → Val
  | .nan, _ => .nan
  | _, .nan => .nan
  | .inf a, .inf b => .inf (xor a b)
  | .inf a, .fin b m _ => if m = 0 then .nan else .inf (xor a b)
  | .fin a m _, .inf b => if m = 0 then .nan else .inf (xor a b)
  | .fin a m e, .fin b n f => .fin (xor a b) (m * n) (e + f)

/-- Exact sum; a zero sum of zeros of one sign keeps it, any other zero sum is +0 (IEEE 754, to nearest). -/
def Val.add : Val → Val → Val
  | .nan, _ => .nan
  | _, .nan => .nan
  | .inf a, .inf b => if a = b then .inf a else .nan
  | .inf a, .fin _ _ _ => .inf a
  | .fin _ _ _, .inf b => .inf b
  | .fin a m e, .fin b n f =>
    let g := min e f
    let s := Val.scaled g (.fin a m e) + Val.scaled g (.fin b n f)
    if s = 0 then .fin (a && b && m == 0 && n == 0) 0 g else .fin (decide (s < 0)) s.natAbs g

/-- Negation. -/
def Val.neg : Val → Val
  | .nan => .nan
  | .inf a => .inf (!a)
  | .fin a m e => .fin (!a) m e

/-- Multiplication by a power of two, exact. -/
def Val.scale (k : Int) : Val → Val
  | .fin a m e => .fin a m (e + k)
  | v => v

/-- FP32 fused multiply-add, rounded once. -/
def fma32 (a b c : Word32) : Word32 := round32 (((val32 a).mul (val32 b)).add (val32 c))

/-- FP32 addition, rounded once. -/
def add32 (a b : Word32) : Word32 := round32 ((val32 a).add (val32 b))

/-- FP32 multiplication, rounded once. -/
def mul32 (a b : Word32) : Word32 := round32 ((val32 a).mul (val32 b))

/-- Whether a value is zero of either sign. -/
def Val.isZero : Val → Bool
  | .fin _ m _ => m == 0
  | _ => false

/-- The order of two values, `none` when either is NaN. -/
def Val.cmp : Val → Val → Option Ordering
  | .nan, _ => none
  | _, .nan => none
  | .inf a, .inf b => some (if a = b then .eq else if a then .lt else .gt)
  | .inf a, .fin _ _ _ => some (if a then .lt else .gt)
  | .fin _ _ _, .inf b => some (if b then .gt else .lt)
  | .fin a m e, .fin b n f =>
    let g := min e f
    some (compare (Val.scaled g (.fin a m e)) (Val.scaled g (.fin b n f)))

/-- `x < y`, false with a NaN. -/
def Val.lt (x y : Val) : Bool := Val.cmp x y == some .lt

/-- Rounds a value to a whole number, to nearest, ties to even; `none` for a NaN or an infinity. -/
def Val.toIntRne : Val → Option Int
  | .fin neg m e => some ((if neg then -1 else 1) * (roundQuanta m e 0 : Int))
  | _ => none

/-- Clamps a whole number to the signed range of `w` bits. -/
def clampInt (w : Nat) (i : Int) : Int := max (-(2 ^ (w - 1) : Int)) (min (2 ^ (w - 1) - 1 : Int) i)

/-- The low `w` bits of a whole number, two's complement. -/
def intBits (w : Nat) (i : Int) : Nat := (i % (2 ^ w : Int)).toNat

/-- `round (n / 2^sh)` to nearest, ties to even. -/
def roundShift (n : Int) (sh : Nat) : Int :=
  (if n < 0 then -1 else 1) * (roundQuanta n.natAbs (-(sh : Int)) 0 : Int)

end Sys2Proof.Machine
end

