-- ==== Sys2Proof/Machine/Approx.lean ====
section
/-!
DEFINITION. Reference values of the activation functions 4 to 10 of Table 3.8, close enough to the exact ones to judge an
accuracy in ulp: fixed-point numbers with 320 fraction bits, one series for e^x, rational arithmetic for the rest.
-/
namespace Sys2Proof.Machine

/-- Fraction bits of the fixed-point numbers here. -/
def fixBits : Nat := 320

/-- The fixed-point number 1. -/
def fixOne : Int := 2 ^ fixBits

/-- A rational as a fixed-point number, rounded down. -/
def fixRat (n : Int) (d : Nat) : Int := n * fixOne / d

/-- Product of fixed-point numbers, rounded down. -/
def fixMul (a b : Int) : Int := a * b / fixOne

/-- `term + term·r/k + term·r²/(k(k+1)) + …`, n summands. -/
def expSeries (r : Int) : Nat → Nat → Int → Int
  | 0, _, _ => 0
  | n + 1, k, term => term + expSeries r n (k + 1) (fixMul term r / k)

/-- ln 2 = Σ 1/(k·2^k). -/
def fixLn2 : Int := (List.range 330).foldl (fun (s : Int) k => s + fixOne / (((k + 1) * 2 ^ (k + 1) : Nat) : Int)) 0

/-- e^x as s·2^n with s a fixed-point number in [1, 2). -/
def fixExp (x : Int) : Int × Int :=
  let n := x.fdiv fixLn2
  (expSeries (x - n * fixLn2) 80 1 fixOne, n)

/-- e^(-|x|) as a fixed-point number. -/
def fixExpNeg (x : Int) : Int :=
  let (s, n) := fixExp (-(x.natAbs : Int))
  s / ((2 ^ n.natAbs : Nat) : Int)

/-- 1/(1 + e^(-x)). -/
def fixSigmoid (x : Int) : Int :=
  let e := fixExpNeg x
  if 0 ≤ x then fixOne * fixOne / (fixOne + e) else e * fixOne / (fixOne + e)

/-- tanh x. -/
def fixTanh (x : Int) : Int :=
  let e := fixExpNeg (2 * x)
  let t := (fixOne - e) * fixOne / (fixOne + e)
  if 0 ≤ x then t else -t

/-- A finite value as a fixed-point number. -/
def Val.fix : Val → Int
  | .fin neg m e => (if neg then -1 else 1) * ((m * pow2 (e + fixBits) : Nat) : Int) / ((pow2 (-(e + fixBits)) : Nat) : Int)
  | _ => 0

/-- A fixed-point number as a value. -/
def fixVal (i : Int) : Val := .fin (decide (i < 0)) i.natAbs (-(fixBits : Int))

/-- The whole square root, bit by bit from `2 ^ k` down. -/
def isqrt (n : Nat) : Nat → Nat → Nat
  | 0, r => if (r + 1) * (r + 1) ≤ n then r + 1 else r
  | k + 1, r => isqrt n k (if (r + 2 ^ (k + 1)) * (r + 2 ^ (k + 1)) ≤ n then r + 2 ^ (k + 1) else r)

/-- 1/√(m·2^e): the square root of 2^(2f)/(m·2^e), with f chosen so that the quotient keeps its bits. -/
def recipSqrt (m : Nat) (e : Int) : Val :=
  let e2 := if e % 2 = 0 then e else e - 1
  let m2 := if e % 2 = 0 then m else 2 * m
  .fin false (isqrt (2 ^ 640 / m2) 320 0) (-320 - e2 / 2)

/-- The reference value of function `fn` of Table 3.8 at a finite t. -/
def actReference (fn : Nat) (t : Val) : Val :=
  let x := t.fix
  match fn, t with
  | 4, _ =>
    let cube := fixMul (fixMul x x) x
    t.mul (fixVal (fixSigmoid (2 * fixMul (fixRat 79788456 100000000) (x + fixMul (fixRat 44715 1000000) cube))))
  | 5, _ => t.mul (fixVal (fixSigmoid x))
  | 6, _ => fixVal (fixSigmoid x)
  | 7, _ => fixVal (fixTanh x)
  | 8, _ => let (s, n) := fixExp x; .fin false s.natAbs (n - fixBits)
  | 9, .fin neg m e => .fin neg (2 ^ 64 / m) (-64 - e)
  | 10, .fin _ m e => recipSqrt m e
  | _, v => v

/-- The unit in the last place of FP32 at a value, as a power of two. -/
def ulpExp : Val → Int
  | .fin _ m e => if m = 0 then -149 else max (e + (Nat.log2 m : Int) - 23) (-149)
  | _ => 0

/-- Whether an FP32 word lies within `n` ulp of a reference value. -/
def withinUlp (n : Nat) (ref : Val) (w : Word32) : Bool :=
  match val32 w, ref with
  | .fin a m e, .fin b k f =>
    let q := ulpExp ref
    let g := min q (min e f)
    decide ((Val.scaled g (.fin a m e) - Val.scaled g (.fin b k f)).natAbs ≤ n * pow2 (q - g))
  | _, _ => false

/-- The accuracy Table 3.8 states for a function at a finite t, in ulp; `none` where it states none. -/
def actUlp (fn : Nat) (t : Val) : Option Nat :=
  let upto (m : Nat) : Bool := ! (Val.lt (.fin false m 0) t || Val.lt t (.fin true m 0))
  match fn with
  | 4 => if upto 16 then some 4 else none
  | 5 | 6 => if upto 32 then some 4 else none
  | 7 => some 4
  | 8 => some 2
  | 9 | 10 => some 1
  | _ => none

end Sys2Proof.Machine
end

