-- ==== Sys2Proof/Machine/Arith.lean ====
section
/-!
DEFINITION. The arithmetic of the compute unit: the term of a group (R87 to R89), accumulation (R90, R93), the activation
functions (R97, R98), pack conversion (R99 to R101), predicates and tokens (R102, R103).
-/
namespace Sys2Proof.Machine

/-- The operand pair classes of Table 3.5 (R85). -/
inductive PairClass where
  | fp32 | w16 | float8 | int8 | float4 | int4
  deriving DecidableEq, Repr

/-- Whether a format is an FP8 or MXFP8 format. -/
def Fmt.isFp8 : Fmt → Bool
  | .e4m3 | .e5m2 | .mxE4m3 | .mxE5m2 => true
  | _ => false

/-- The class of an operand pair, weight first; `none` is a pair graft verification rejects (R85). -/
def pairClass (w a : Fmt) : Option PairClass :=
  match w, a with
  | .fp32, .fp32 => some .fp32
  | .bf16, .bf16 => some .w16
  | .fp16, .fp16 => some .w16
  | .int8, .int8 => some .int8
  | .int4, .int8 => some .int4
  | .int4, a => if a.isFp8 then some .float4 else none
  | .mxE2m1, a => if a.isFp8 then some .float4 else none
  | .mxE3m2, a => if a.isFp8 then some .float8 else none
  | .mxE2m3, a => if a.isFp8 then some .float8 else none
  | w, a => if w.isFp8 && a.isFp8 then some .float8 else none

/-- Issue interval in cycles (R79, Table 3.5). -/
def PairClass.interval : PairClass → Nat
  | .fp32 => 4
  | .w16 => 2
  | _ => 1

/-- Whether the class accumulates in INT32 (Table 3.5). -/
def PairClass.isInt : PairClass → Bool
  | .int8 | .int4 => true
  | _ => false

/-- One product's operands: the stored weight, the activation's bits and its block scale (127 without one). -/
structure Prod where
  w : Stored
  act : Nat
  ascale : Nat
  deriving DecidableEq, Repr

/-- The exact product of the float classes with its combined scale 2^(s_w + s_a - 254); a scale of 0xFF is NaN (R84, R87). -/
def Prod.exact (wf af : Fmt) (p : Prod) : Val :=
  if p.w.scale = 255 ∨ p.ascale = 255 then .nan
  else Val.scale ((p.w.scale : Int) + p.ascale - 254) ((wf.decode p.w.bits).mul (af.decode p.act))

/-- The scale blocks of a product list in order of appearance, which is ascending, since scale blocks count stored
values (R145). -/
def scaleBlocks (ps : List Prod) : List Nat := (ps.map (fun p => p.w.blk)).eraseDups

/-- The exact sum of the products under one weight scale block. -/
def blockSum (wf af : Fmt) (ps : List Prod) (b : Nat) : Val :=
  (ps.filter (fun p => p.w.blk == b)).foldl (fun s p => s.add (p.exact wf af)) (.fin false 0 0)

/-- One exact sub-sum per weight scale, each rounded to FP32, added in ascending order (R87, R88). -/
def floatTerm (wf af : Fmt) (ps : List Prod) : Word32 :=
  match (scaleBlocks ps).map (fun b => round32 (blockSum wf af ps b)) with
  | [] => 0#32
  | t :: ts => ts.foldl add32 t

/-- Each product rounded to FP32 and added in ascending position order from the first (R87, 16-bit class). -/
def chain16 (wf af : Fmt) (ps : List Prod) : Word32 :=
  match ps.map (fun p => round32 ((wf.decode p.w.bits).mul (af.decode p.act))) with
  | [] => 0#32
  | t :: ts => ts.foldl add32 t

/-- A chain of fused multiply-adds from +0.0 in ascending position order (R87, FP32 class). -/
def chain32 (ps : List Prod) : Word32 :=
  ps.foldl (fun s p => fma32 (BitVec.ofNat 32 p.w.bits) (BitVec.ofNat 32 p.act) s) 0#32

/-- The exact integer sum (R87, integer classes). -/
def intTerm (wf af : Fmt) (ps : List Prod) : Word32 :=
  BitVec.ofInt 32 (ps.foldl (fun s p => s + signedBits wf.width p.w.bits * signedBits af.width p.act) (0 : Int))

/-- The term of a group, `none` when it is empty (R87 to R89). -/
def groupTerm (wf af : Fmt) (ps : List Prod) : Option Word32 :=
  if ps.isEmpty then none
  else
    match pairClass wf af with
    | none => none
    | some .int8 | some .int4 => let t := intTerm wf af ps; if t = 0#32 then none else some t
    | some c =>
      let t := match c with
        | .fp32 => chain32 ps
        | .w16 => chain16 wf af ps
        | _ => floatTerm wf af ps
      if (val32 t).isZero then none else some t

/-- Adds a term to an accumulator (R90, R93): FP32 rounded once; INT32 wraps, and the flag says whether the exact
sum lay outside the INT32 range. -/
def accumulate (int : Bool) (acc t : Word32) : Word32 × Bool :=
  if int then
    let s := acc.toInt + t.toInt
    (BitVec.ofInt 32 s, decide (s < -2 ^ 31 ∨ 2 ^ 31 - 1 < s))
  else (add32 acc t, false)

/-! ## Activate -/

/-- FP32 constant for a whole number of 2^e. -/
def const32 (neg : Bool) (m : Nat) (e : Int) : Word32 := round32 (.fin neg m e)

/-- The saturation points of Table 3.8 that are stated as values; `none` where only an accuracy is stated. -/
def actStated (fn : Nat) (t : Word32) : Option Word32 :=
  let v := val32 t
  let above (m : Nat) (e : Int) : Bool := Val.lt (.fin false m e) v
  let below (m : Nat) (e : Int) : Bool := Val.lt v (.fin true m e)
  if v = .nan then some canonNan
  else if fn = 4 then (if above 16 0 then some t else if below 16 0 then some 0#32 else none)
  else if fn = 5 then (if above 32 0 then some t else if below 32 0 then some 0#32 else none)
  else if fn = 6 then (if above 32 0 then some 0x3F800000#32 else if below 104 0 then some 0#32 else none)
  else if fn = 7 then
    (if ¬ Val.lt v (.fin false 10 0) then some 0x3F800000#32
     else if ¬ Val.lt (.fin true 10 0) v then some 0xBF800000#32 else none)
  else if fn = 8 then
    -- 88.72 and 103.97 as FP32 comparisons against the decimal bounds: t × 100 against 8872 and 10397
    (if Val.lt (.fin false 8872 0) (v.mul (.fin false 100 0)) then some 0x7F800000#32
     else if Val.lt (v.mul (.fin false 100 0)) (.fin true 10397 0) then some 0#32 else none)
  else if fn = 9 then
    (match v with
     | .fin neg 0 _ => some (if neg then 0xFF800000#32 else 0x7F800000#32)
     | .inf neg => some (if neg then 0x80000000#32 else 0#32)
     | _ => none)
  else if fn = 10 then
    (match v with
     | .fin _ 0 _ => some 0x7F800000#32
     | .fin true _ _ => some canonNan
     | .inf true => some canonNan
     | .inf false => some 0#32
     | _ => none)
  else none

/-- The segment index and offset of TABLE (R98), formed exactly, the offset rounded once. For an infinite t the rule's exact forms have
no value: the index is clamped on that side and the offset is that infinity; bounds that are not finite give NaN (DESIGN CHOICE,
log 78). -/
def tableSeg (t lo hi : Word32) : Nat × Word32 :=
  match val32 t, val32 lo, val32 hi with
  | .fin a m e, .fin b n f, .fin c k g =>
    let d := min e (min f g)
    let tv := Val.scaled d (.fin a m e)
    let lv := Val.scaled d (.fin b n f)
    let hv := Val.scaled d (.fin c k g)
    let i := ((tv - lv) * 64).fdiv (hv - lv)
    let i := (max 0 (min 63 i)).toNat
    let u64 := (tv - lv) * 64 - i * (hv - lv)
    (i, round32 (.fin (decide (u64 < 0)) u64.natAbs (d - 6)))
  | .inf neg, _, _ => (if neg then 0 else 63, if neg then 0xFF800000#32 else 0x7F800000#32)
  | _, _, _ => (0, canonNan)

/-- The piecewise cubic of R98, `coef i j` the j-th coefficient of segment i. -/
def tableFn (coef : Nat → Nat → Word32) (t lo hi : Word32) : Word32 :=
  if val32 t = .nan then canonNan
  else
    let (i, u) := tableSeg t lo hi
    fma32 u (fma32 u (fma32 u (coef i 3) (coef i 2)) (coef i 1)) (coef i 0)

/-- Functions 4 to 10 where Table 3.8 states no value: the fixed table by the method of TABLE, held to the accuracy the table states
(R97; log 5). -/
def actFixed (fn : Nat) (t : Word32) : Word32 :=
  let y := tableFn (Config.actTable fn) t (Config.actBounds fn).1 (Config.actBounds fn).2
  match actUlp fn (val32 t) with
  | none => y
  | some n => let ref := actReference fn (val32 t); if withinUlp n ref y then y else round32 ref

/-- y = f(t) of Table 3.8 (R97). -/
def actFunction (cfg : PipeCfg) (coef : Nat → Nat → Word32) (t : Word32) : Word32 :=
  let v := val32 t
  if cfg.fn = 0 then (if v = .nan then canonNan else t)
  else if cfg.fn = 1 then
    (if v = .nan then canonNan else if Val.lt (.fin false 0 0) v then t else 0#32)
  else if cfg.fn = 2 then
    (if v = .nan then canonNan else if Val.lt v (.fin false 0 0) then mul32 cfg.cConst t else t)
  else if cfg.fn = 3 then
    (if v = .nan then canonNan
     else
       let a := if Val.lt v (val32 cfg.lo) then cfg.lo else t
       if Val.lt (val32 cfg.hi) (val32 a) then cfg.hi else a)
  else if cfg.fn = 11 then mul32 t t
  else if cfg.fn = 12 then tableFn coef t cfg.lo cfg.hi
  else (actStated cfg.fn t).getD (actFixed cfg.fn t)

/-- REQUANT with IDENTITY, RELU or CLAMP (R97). -/
def requant (cfg : PipeCfg) (m : Int) (sh : Nat) (zp : Int) (acc : Word32) : Word32 :=
  let q := clampInt 32 (roundShift (acc.toInt * m) sh + zp)
  let y := if cfg.fn = 1 then max 0 q
    else if cfg.fn = 3 then min (max q cfg.lo.toInt) cfg.hi.toInt
    else q
  BitVec.ofInt 32 y

/-- t of R97 for an output of the float path. -/
def activateT (int : Bool) (a b acc : Word32) : Word32 := fma32 a (if int then round32 (Val.ofInt acc.toInt) else acc) b

/-- The activate stage (R97): the value y and whether it is INT32. `a` and `b` are the scale and bias of this output. -/
def activate (cfg : PipeCfg) (coef : Nat → Nat → Word32) (int : Bool) (a b acc : Word32) : Word32 × Bool :=
  if int then
    match cfg.intPath with
    | .requant m sh zp => (requant cfg m sh zp acc, true)
    | .convert => (actFunction cfg coef (activateT true a b acc), false)
  else (actFunction cfg coef (activateT false a b acc), false)

/-! ## Pack -/

/-- Rounds a value to a float format and applies Table 3.9 (R99): the bit pattern. -/
def packFloat (f : Fmt) (sat : Bool) (v : Val) : Nat :=
  match f.shape with
  | none => 0
  | some s =>
    let infBits (neg : Bool) : Nat :=
      (if neg then 2 ^ (s.mbits + s.ebits) else 0) + (2 ^ s.ebits - 1) * 2 ^ s.mbits
    let nanBits : Nat := if f = .fp16 then 0x7E00 else if f = .bf16 then 0x7FC0 else if f = .fp32 then 0x7FC00000 else 0x7F
    match v with
    | .nan => nanBits
    | .inf neg => if sat then s.maxBits neg else if s.ieee then infBits neg else nanBits
    | .fin neg m e =>
      let (r, q) := roundPrec (s.mbits + 1) (1 - s.bias) m e
      if s.overflows r q then (if sat then s.maxBits neg else if s.ieee then infBits neg else nanBits)
      else s.pack neg r q

/-- Pack to an integer format (R99): wrap or clamp from INT32, clamp from float, NaN to 0. -/
def packInt (f : Fmt) (sat : Bool) (int : Bool) (y : Word32) : Nat :=
  let w := f.width
  if int then (if sat then intBits w (clampInt w y.toInt) else intBits w y.toInt)
  else
    match val32 y with
    | .nan => 0
    | .inf neg => intBits w (if neg then -(2 ^ (w - 1) : Int) else 2 ^ (w - 1) - 1)
    | .fin neg m e => intBits w (clampInt w ((Val.toIntRne (.fin neg m e)).getD 0))

/-- Pack of one output to a format without block scales (R99). -/
def packScalar (f : Fmt) (sat : Bool) (int : Bool) (y : Word32) : Nat :=
  if f.isInt then packInt f sat int y
  else packFloat f sat (if int then Val.ofInt y.toInt else val32 y)

/-- `emax` of R100. -/
def mxEmax : Fmt → Int
  | .mxE4m3 => 8
  | .mxE5m2 => 15
  | .mxE3m2 => 4
  | _ => 2

/-- floor(log2 |v|) of a non-zero finite value. -/
def Val.floorLog2 : Val → Int
  | .fin _ m e => e + (Nat.log2 m : Int)
  | _ => 0

/-- The largest absolute value of finite values. -/
def absMax : List Val → Val
  | [] => .fin false 0 0
  | v :: vs =>
    let r := absMax vs
    let a := match v with
      | .fin _ m e => Val.fin false m e
      | x => x
    if Val.lt r a then a else r

/-- One MX block of 32 outputs (R100): the scale byte and the 32 element patterns. -/
def packMx (f : Fmt) (vs : List Val) : Nat × List Nat :=
  if vs.any (fun v => match v with | .fin _ _ _ => false | _ => true) then (255, vs.map (fun _ => 0))
  else
    let am := absMax vs
    if am.isZero then (0, vs.map (fun v => packFloat f true v))
    else
      let x := max (-127) (min 127 (am.floorLog2 - mxEmax f))
      ((x + 127).toNat, vs.map (fun v => packFloat f true (v.scale (-x))))

/-- The low `w` bits of a pattern, least significant first. -/
def natBits : Nat → Nat → List Bool
  | 0, _ => []
  | w + 1, n => (n % 2 == 1) :: natBits w (n / 2)

/-- The number spelled by bits, least significant first. -/
def bitsNat : List Bool → Nat
  | [] => 0
  | b :: bs => (if b then 1 else 0) + 2 * bitsNat bs

/-! ## Predicates -/

/-- A compare of floats as IEEE 754 states (R102). -/
def cmpFloat (op : PredOp) (y o : Val) : Bool :=
  match op with
  | .gt => Val.cmp y o == some .gt
  | .ge => Val.cmp y o == some .gt || Val.cmp y o == some .eq
  | .lt => Val.cmp y o == some .lt
  | .le => Val.cmp y o == some .lt || Val.cmp y o == some .eq
  | .eq => Val.cmp y o == some .eq
  | .ne => Val.cmp y o != some .eq
  | .isNan => y == .nan
  | .isZero => y.isZero
  | .always => true
  | .never => false

/-- A compare of INT32 outputs as signed integers (R102). -/
def cmpInt (op : PredOp) (y o : Int) : Bool :=
  match op with
  | .gt => decide (o < y)
  | .ge => decide (o ≤ y)
  | .lt => decide (y < o)
  | .le => decide (y ≤ o)
  | .eq => decide (y = o)
  | .ne => decide (y ≠ o)
  | .isNan => false
  | .isZero => decide (y = 0)
  | .always => true
  | .never => false

/-- One row's predicate (R102). -/
def predicate (op : PredOp) (int : Bool) (y o : Word32) : Bool :=
  if int then cmpInt op y.toInt o.toInt else cmpFloat op (val32 y) (val32 o)

/-- The 4-bit token of an output set's row predicates (Table 3.10, R103). `ps` holds one entry per row that holds an
output, rows 0 upward. -/
def reduceToken (m : RedMode) (ps : List Bool) : Nat :=
  match m with
  | .any => if ps.any id then 1 else 0
  | .all => if ps.all id then 1 else 0
  | .count => ps.countP id
  | .maskLo => bitsNat (ps.take 4)
  | .maskHi => bitsNat ((ps.drop 4).take 4)
  | .argFirst => if ps.any id then ps.findIdx id else 15

end Sys2Proof.Machine
end

