-- ==== Sys2Proof/Machine/Needle.lean ====
section
/-!
DEFINITION. Needle format (chapter 5): block headers, metadata checks, stored values and the groups they make
(R139 to R145, R154, R156).
-/
namespace Sys2Proof.Machine

/-- The fields of a block header word (Table 5.1, R140). -/
structure NeedleHdr where
  kind : Nat
  kdecl : Nat
  fmt : Nat
  groups : Nat
  last : Bool
  baseCol : Nat
  nnz : Nat
  rsvd : Nat
  hcrc : Nat
  deriving DecidableEq, Repr

/-- Splits a 64-bit header word (R140). -/
def needleHdr (w : Nat) : NeedleHdr :=
  ⟨w % 4, w / 2 ^ 2 % 4, w / 2 ^ 4 % 16, w / 2 ^ 8 % 128, w.testBit 15, w / 2 ^ 16 % 2 ^ 24, w / 2 ^ 40 % 2 ^ 11,
   w / 2 ^ 51 % 32, w / 2 ^ 56 % 256⟩

/-- Declared capacity (R140). -/
def NeedleHdr.cap (h : NeedleHdr) : Nat := 2 ^ h.kdecl

/-- A DENSE block. -/
def NeedleHdr.dense (h : NeedleHdr) : Bool := h.kind == 1

/-- The bits of a byte, most significant first. -/
def msbBits (b : Byte) : List Bool := (natBits 8 b.toNat).reverse

/-- HCRC over header bytes 0 to 6 (R141). -/
def headerCrc (w : Nat) : Nat := crcBits 8 0x07 0 ((leBytes 7 w).flatMap msbBits)

/-- Whether the header check of Table 5.4 fails for a weight format (R140, R142). -/
def headerBad (wf : Fmt) (w : Nat) : Bool :=
  let h := needleHdr w
  decide (headerCrc w ≠ h.hcrc) || decide (2 ≤ h.kind) || (h.dense && decide (h.kdecl ≠ 0)) || decide (h.fmt ≠ wf.code)
    || decide (h.groups = 0 ∨ 64 < h.groups) || decide (h.rsvd ≠ 0) || decide (h.baseCol % 16 ≠ 0)
    || (h.dense && wf.isMx && decide (h.baseCol % 32 ≠ 0))
    || (if h.dense then decide (h.nnz ≠ 16 * h.groups) else decide (h.cap * h.groups < h.nnz))
    || decide (h.baseCol / 16 / 64 ≠ (h.baseCol / 16 + h.groups - 1) / 64)

/-- SPARSE_META codes of Table 5.4. -/
inductive MetaErr where
  | header | count | order | range
  deriving DecidableEq, Repr

/-- The code of Table 5.4. -/
def MetaErr.code : MetaErr → Nat
  | .count => 1 | .order => 2 | .range => 3 | .header => 4

/-- Scale bytes a block carries (R145). -/
def scaleCount (wf : Fmt) (h : NeedleHdr) : Nat := if wf.isMx then (h.nnz + 31) / 32 else 0

/-- The nibbles of bytes, low nibble first (R143). -/
def nibbles : List Byte → List Nat
  | [] => []
  | b :: bs => b.toNat % 16 :: b.toNat / 16 :: nibbles bs

/-- `n` packed values of `w` bits from bytes, least significant bits first (R101, R143). -/
def unpackVals (w n : Nat) (bs : List Byte) : List Nat :=
  let v := leNat bs
  (List.range n).map (fun i => v / 2 ^ (w * i) % 2 ^ w)

/-- A group as parsed: metadata nibbles, stored values, and the bytes it occupies. -/
structure RawGroup where
  count : Nat
  codes : List Nat
  vals : List Nat
  size : Nat
  deriving DecidableEq, Repr

/-- Bytes `n` values of width `w` occupy (R143). -/
def valBytes (w n : Nat) : Nat := (n * w + 7) / 8

/-- Reads the next group of a block from bytes; `none` when the bytes do not suffice. -/
def rawGroup (wf : Fmt) (dense : Bool) (bs : List Byte) : Option RawGroup :=
  if dense then
    let sz := valBytes wf.width 16
    if bs.length < sz then none else some ⟨16, List.range 16, unpackVals wf.width 16 (bs.take sz), sz⟩
  else
    match bs with
    | [] => none
    | b :: _ =>
      let n := b.toNat % 16
      let m := (1 + n + 1) / 2
      let sz := m + valBytes wf.width n
      if bs.length < sz then none
      else some ⟨n, ((nibbles (bs.take m)).drop 1).take n, unpackVals wf.width n ((bs.drop m).take (valBytes wf.width n)), sz⟩

/-- Strictly increasing. -/
def strictlyUp : List Nat → Bool
  | a :: b :: r => decide (a < b) && strictlyUp (b :: r)
  | _ => true

/-- The check of one group (Table 5.4): COUNT before ORDER before RANGE (R154). `sum` is the sum of counts before it. -/
def groupBad (h : NeedleHdr) (extent g sum : Nat) (r : RawGroup) : Option MetaErr :=
  let isLast := decide (g + 1 = h.groups)
  let p0 := h.baseCol + 16 * g
  if h.dense then (if extent ≤ p0 then some .range else none)
  else if decide (h.cap < r.count) || (isLast && decide (sum + r.count ≠ h.nnz)) then some .count
  else if ! strictlyUp r.codes then some .order
  else if r.codes.any (fun p => decide (extent ≤ p0 + p)) then some .range
  else none

/-- A COUNT fault that a group's first nibble shows, with the count and the position codes read so far (R154): the count bounds the
bytes that follow, so it is checked before they are awaited. -/
def countBad (h : NeedleHdr) (g sum : Nat) (bs : List Byte) : Option (Nat × List Nat) :=
  match bs with
  | [] => none
  | b :: _ =>
    let n := b.toNat % 16
    if h.dense then none
    else if h.cap < n ∨ (g + 1 = h.groups ∧ sum + n ≠ h.nnz) then some (n, ((nibbles (bs.take 8)).drop 1).take n) else none

/-- The scale byte of stored value number `k` of a block (R145). -/
def scaleOf (wf : Fmt) (scales : List Nat) (k : Nat) : Nat := if wf.isMx then scales.getD (k / 32) 127 else 127

/-- The stored values of a group with their scales; positions of a DENSE group at or beyond the extent are masked
(R149). `used` is the number of stored values of the block before this group. -/
def groupStored (wf : Fmt) (h : NeedleHdr) (scales : List Nat) (extent g used : Nat) (r : RawGroup) : List Stored :=
  ((List.range r.vals.length).map (fun k =>
    ({ pos := r.codes.getD k 0, bits := r.vals.getD k 0, scale := scaleOf wf scales (used + k),
       blk := if wf.isMx then (used + k) / 32 else 0 } : Stored))).filter
    (fun st => decide (h.baseCol + 16 * g + st.pos < extent))

/-- Position codes as one nibble each, the first lowest (Table 5.5). -/
def packCodes : List Nat → Nat
  | [] => 0
  | c :: cs => c % 16 + 16 * packCodes cs

/-- The 32-byte DETAIL of a SPARSE_META record (Table 5.5, R156). -/
def metaDetail (header tile row block : Nat) (g : Option Nat) (n : Option Nat) (codes : List Nat)
    (extent ag win : Nat) : Nat :=
  header % 2 ^ 64 + tile % 2 ^ 32 * 2 ^ 64 + row % 2 ^ 16 * 2 ^ 96 + block % 2 ^ 16 * 2 ^ 112
    + (g.getD 0xFF) % 256 * 2 ^ 128 + (n.getD 0xFF) % 256 * 2 ^ 136
    + (match n with
       | some _ => packCodes codes % 2 ^ 64 * 2 ^ 144
       | none => 0)
    + extent % 2 ^ 32 * 2 ^ 208 + ag % 256 * 2 ^ 240 + win % 256 * 2 ^ 248

/-! ## Whole rows -/

/-- A group of a row read whole: its absolute index, its stored values, each with the bit address of the value in what was read. -/
structure RowGroup where
  idx : Nat
  vals : List (Stored × Nat)
  deriving DecidableEq, Repr

/-- Why the reading of a row stops: a check of Table 5.4 with what its record names, or no more bytes. -/
inductive RowStop where
  | bad (e : MetaErr) (header block : Nat) (group count : Option Nat) (codes : List Nat)
  | short
  deriving DecidableEq, Repr

/-- The bit address of stored value `k` of a group that begins at byte `off` (R143, R144). -/
def valueAt (wf : Fmt) (dense : Bool) (n off k : Nat) : Nat := 8 * (off + (if dense then 0 else (2 + n) / 2)) + wf.width * k

/-- Reads the groups of a block from byte `off` on, `bs` the bytes there (R143 to R145, R154). -/
def readGroups (wf : Fmt) (w block extent : Nat) (scales : List Nat) :
    Nat → Nat → Nat → Nat → Nat → List Byte → Except RowStop (List RowGroup × Nat × List Byte)
  | 0, _, _, _, off, bs => .ok ([], off, bs)
  | n + 1, g, sum, used, off, bs =>
    let h := needleHdr w
    match countBad h g sum bs with
    | some (c, codes) => .error (.bad .count w block (some g) (some c) codes)
    | none =>
    match rawGroup wf h.dense bs with
    | none => .error .short
    | some r =>
      match groupBad h extent g sum r with
      | some e => .error (.bad e w block (some g) (if h.dense then none else some r.count) r.codes)
      | none =>
        let vals := ((List.range r.vals.length).map (fun k =>
          (({ pos := r.codes.getD k 0, bits := r.vals.getD k 0, scale := scaleOf wf scales (used + k),
              blk := if wf.isMx then (used + k) / 32 else 0 } : Stored), valueAt wf h.dense r.count off k))).filter
          (fun p => decide (h.baseCol + 16 * g + p.1.pos < extent))
        match readGroups wf w block extent scales n (g + 1) (sum + r.count) (used + r.count) (off + r.size) (bs.drop r.size) with
        | .error e => .error e
        | .ok (l, off', rest) => .ok (⟨h.baseCol / 16 + g, vals⟩ :: l, off', rest)

/-- Reads one row from byte `off` on, at most `fuel` blocks (R139 to R145, R154): its groups, and where the next row begins. -/
def readRow (wf : Fmt) (extent : Nat) : Nat → Nat → Nat → Nat → List Byte → Except RowStop (List RowGroup × Nat × List Byte)
  | 0, _, _, _, _ => .error .short
  | fuel + 1, block, pEnd, off, bs =>
    let w := leNat (bs.take 8)
    let h := needleHdr w
    if bs.length < 8 then .error .short
    else if headerBad wf w then .error (.bad .header w block none none [])
    else if h.baseCol < pEnd then .error (.bad .order w block none none [])
    else
      let n := scaleCount wf h
      match readGroups wf w block extent (((bs.drop 8).take n).map (·.toNat)) h.groups 0 0 0 (off + 8 + n) (bs.drop (8 + n)) with
      | .error e => .error e
      | .ok (l, off1, rest) =>
        let pad := (16 - off1 % 16) % 16
        if h.last then .ok (l, off1 + pad, rest.drop pad)
        else
          match readRow wf extent fuel (block + 1) (h.baseCol + 16 * h.groups) (off1 + pad) (rest.drop pad) with
          | .error e => .error e
          | .ok (l2, off2, rest2) => .ok (l ++ l2, off2, rest2)

/-- Reads `n` rows one after the other; a stop names the row it is in. -/
def readRows (wf : Fmt) (extent : Nat) : Nat → Nat → Nat → List Byte → Except (Nat × RowStop) (List (List RowGroup))
  | 0, _, _, _ => .ok []
  | n + 1, r, off, bs =>
    match readRow wf extent 4096 0 0 off bs with
    | .error e => .error (r, e)
    | .ok (l, off', rest) =>
      match readRows wf extent n (r + 1) off' rest with
      | .error e => .error e
      | .ok ls => .ok (l :: ls)

/-! ## Writing blocks (R139 to R145, R160) -/

/-- The header word of a block, HCRC included (R140, R141). -/
def headerWord (kind kdecl fmt groups : Nat) (last : Bool) (baseCol nnz : Nat) : Nat :=
  let w := kind + kdecl * 2 ^ 2 + fmt * 2 ^ 4 + groups * 2 ^ 8 + (if last then 2 ^ 15 else 0) + baseCol * 2 ^ 16 + nnz * 2 ^ 40
  w + headerCrc w * 2 ^ 56

/-- Bytes of nibbles, low nibble first (R143). -/
def nibbleBytes : List Nat → List Byte
  | a :: b :: r => BitVec.ofNat 8 (a % 16 + 16 * (b % 16)) :: nibbleBytes r
  | [a] => [BitVec.ofNat 8 (a % 16)]
  | [] => []

/-- Values of width `w` packed from the lowest bit on, in whole bytes (R101, R143). -/
def packVals (w : Nat) (vs : List Nat) : List Byte :=
  leBytes (valBytes w vs.length) ((vs.zipIdx).foldl (fun n p => n + p.1 % 2 ^ w * 2 ^ (w * p.2)) 0)

/-- The smallest Kdecl code that covers a count; `none` above 8 (R140, R160). -/
def kdeclOf (n : Nat) : Option Nat := if n ≤ 1 then some 0 else if n ≤ 2 then some 1 else if n ≤ 4 then some 2 else if n ≤ 8 then some 3 else none

/-- A block over consecutive groups, each a list of (position, value): NEEDLE with the smallest Kdecl, DENSE when a group holds more than
8 values (R160). -/
def blockBytes (wf : Fmt) (baseGroup : Nat) (gs : List (List (Nat × Nat))) (last : Bool) : List Byte :=
  let most := gs.foldl (fun n g => max n g.length) 0
  let (w, body) := match kdeclOf most with
    | some k => (headerWord 0 k wf.code gs.length last (16 * baseGroup) (gs.foldl (fun n g => n + g.length) 0),
        gs.flatMap (fun g => nibbleBytes (g.length :: g.map (·.1)) ++ packVals wf.width (g.map (·.2))))
    | none => (headerWord 1 0 wf.code gs.length last (16 * baseGroup) (16 * gs.length),
        gs.flatMap (fun g => packVals wf.width ((List.range 16).map (fun p => match g.find? (fun q => q.1 == p) with
          | some q => q.2
          | none => 0))))
  let all := leBytes 8 w ++ body
  all ++ List.replicate ((16 - all.length % 16) % 16) 0

end Sys2Proof.Machine
end

