-- ==== Sys2Proof/Machine/Scratch.lean ====
section
/-!
DEFINITION. The memory unit of one cell as functions of its state and its active plane (chapter 4): bytes, inner and
outer codes, windows, credits. Each function answers the new memory unit and the events it reports.
-/
namespace Sys2Proof.Machine

/-- What a cell reports to the engine. `fault` carries class, code, DETAIL and whether it stops the commit; `dead` is a CELL_DEAD
declaration (R426); `corrected` and `uncorrectable` feed RAS_DIE_ERR (R433); `sparse` and `fab` count in SPARSE_CNT and FAB_CNT,
`metaTile` in SPARSE_META_COUNT; `mutDiscard` is a mutation discarded outside UPDATE (R254), `miss` an audit miss with its layer's
POLICY and its tile's claim group (R170), `tileDone` carries a finished tile and its hash (R251). -/
inductive CellEv where
  | fault (f : FaultCode) (detail : Nat) (blocks : Bool)
  | dead (code : Nat)
  | corrected
  | uncorrectable
  | scrubPass
  | sparse (i n : Nat)
  | metaTile (code : Nat)
  | fab (i n : Nat)
  | mutDiscard
  | miss (policy layer group detail : Nat)
  | tileDone (w : TileWork) (hash : Nat)
  deriving DecidableEq, Repr

/-- Bytes of a scratchpad (R105). -/
def scratchBytes : Nat := 49152

/-! ## Plane regions (Table 7.4) -/

/-- A little-endian field of a plane. -/
def Plane.nat (p : Plane) (a n : Nat) : Nat := Memory.readNat p.bytes a n

/-- The bytes of a plane region. -/
def Plane.region (p : Plane) (a n : Nat) : List Byte := Memory.readBytes p.bytes a n

/-- A window descriptor (R212). -/
structure WinDesc where
  base : Nat
  len : Nat
  lr : Bool
  lw : Bool
  rr : Bool
  rw : Bool
  sf : Bool
  resident : Bool
  pool : Nat
  deriving DecidableEq, Repr

/-- The window descriptor of a slot; `none` when the plane declares no such window (R121, R212). -/
def Plane.window (p : Plane) (id : Nat) : Option WinDesc :=
  let w := p.nat (0x250 + 8 * id) 8
  if p.configured && decide (id < 16) && decide (w / 2 ^ 12 % 256 ≠ 0) then
    some ⟨256 * (w / 2 ^ 4 % 256), 256 * (w / 2 ^ 12 % 256), w.testBit 20, w.testBit 21, w.testBit 22, w.testBit 23,
      w.testBit 24, w.testBit 25, 64 * (w / 2 ^ 26 % 1024)⟩
  else none

/-- A standing credit entry of a plane (R213): writer, window, bytes per stride. -/
def Plane.standing (p : Plane) (k : Nat) : Option (Writer × Nat × Nat) :=
  let w := p.nat (0x2D0 + 8 * k) 8
  let units := w / 2 ^ 26 % 1024
  if p.configured && decide (units ≠ 0) then
    some (if w.testBit 4 then .session (w / 2 ^ 5 % 1024) 0 else .cell (w / 2 ^ 5 % 2048) (w / 2 ^ 16 % 1024),
      w % 16, 64 * units)
  else none

/-- The standing credits a plane declares (R130). -/
def Plane.standings (p : Plane) : List (Writer × Nat × Nat) := (List.range 32).filterMap p.standing

/-! ## Bytes and codes -/

/-- One byte as stored. Contents that were lost and not written since are a free value (log 3). -/
def MemUnit.byte (m : MemUnit) (id a : Nat) : Byte :=
  match m.lost with
  | some k => if sget false m.kept a then m.bytes.read a else Config.lostByte k id a
  | none => m.bytes.read a

/-- Marks addresses as written since a loss. -/
def markKept : SMap Bool → Nat → Nat → SMap Bool
  | k, _, 0 => k
  | k, a, n + 1 => markKept (sset false k a true) (a + 1) n

/-- The inner-code state of a word after fresh data is written to it (R113, R114). -/
def WordCode.fresh (c : WordCode) : WordCode := ⟨0, false, c.failed, c.failed⟩

/-- Writes one beat of 16 bytes: fresh check bits, SEALED of its line cleared (R112, R113, R115). -/
def MemUnit.writeBeat (m : MemUnit) (a : Nat) (bs : List Byte) (poison : Bool) : MemUnit :=
  let upd (ws : SMap WordCode) (w : Nat) : SMap WordCode :=
    smod .good ws w (fun c => { c.fresh with poison := poison })
  { m with
    bytes := m.bytes.writeBytes a bs
    words := upd (upd m.words (a / 8)) (a / 8 + 1)
    lines := smod ⟨0, false⟩ m.lines (a / 256) (fun l => { l with isSealed := false })
    writeBack := m.writeBack.filter (fun w => w ≠ a / 8 ∧ w ≠ a / 8 + 1)
    kept := match m.lost with
      | some _ => markKept m.kept a 16
      | none => m.kept }

/-- DETAIL of a word's uncorrectable error: the physical byte address, and the window and offset it was read by, one more than the
window, 0 where an agent of the engine's own names none (R113, R121; the places are the model's, log 7). -/
def eccDetail (w : Nat) (by_ : Option (Nat × Nat)) : Nat :=
  8 * w + (match by_ with
    | some (win, off) => 2 ^ 16 * (win + 1) + 2 ^ 32 * off
    | none => 0)

/-- Reads one word: corrects a single-bit error, poisons an uncorrectable one (R112 to R114). -/
def MemUnit.readWord (m : MemUnit) (w : Nat) (by_ : Option (Nat × Nat)) : MemUnit × Bool × List CellEv :=
  let c := sget .good m.words w
  if c.poison then (m, true, [])
  else if c.flips = 0 then (m, false, [])
  else if c.flips = 1 then ({ m with writeBack := m.writeBack ++ [w] }, false, [.corrected])
  else
    ({ m with words := sset .good m.words w ⟨0, true, true, false⟩ }, true,
      [.uncorrectable, .fault ⟨.eccInnerUe, 1⟩ (eccDetail w by_) true] ++ (if c.failed && c.rewritten then [.dead 2] else []))

/-- Reads one beat: its bytes with their poison (R105, R113). A beat with a poisoned word is poisoned whole. -/
def MemUnit.readBeat (m : MemUnit) (id a : Nat) (by_ : Option (Nat × Nat)) : MemUnit × List PByte × List CellEv :=
  let (m1, p1, e1) := m.readWord (a / 8) by_
  let (m2, p2, e2) := m1.readWord (a / 8 + 1) (by_.map (fun q => (q.1, q.2 + 8)))
  (m2, (List.range 16).map (fun i => ⟨m.byte id (a + i), p1 || p2⟩), e1 ++ e2)

/-- Bits flipped in the array since the last access (an observation that comes with the access). -/
def MemUnit.upset (m : MemUnit) : List (Nat × Nat) → MemUnit
  | [] => m
  | (w, n) :: r =>
    MemUnit.upset { m with words := smod .good m.words w (fun c => { c with flips := c.flips + n }) } r

/-- The CRC-32C of a line's stored bytes (R115). -/
def MemUnit.lineCrc (m : MemUnit) (id line : Nat) : Nat :=
  crc32c ((List.range 256).map (fun i => m.byte id (256 * line + i)))

/-- The outer-code check at the 16th beat of a line (R117): the fault code, if any. -/
def MemUnit.lineCheck (m : MemUnit) (id line : Nat) : Option Nat :=
  let l := sget ⟨0, false⟩ m.lines line
  if ! l.isSealed then some 2
  else if m.lineCrc id line ≠ l.crc then some 1
  else none

/-- A stream fill that wrote all of a line stores the CRC of the bytes as they came and sets SEALED (R115). -/
def MemUnit.seal (m : MemUnit) (line : Nat) (came : List Byte) : MemUnit :=
  { m with lines := sset ⟨0, false⟩ m.lines line ⟨crc32c came, true⟩ }

/-! ## Windows -/

/-- Generation counters advance modulo 2^16 (R124). -/
def genNext (g : Nat) : Nat := (g + 1) % 65536

/-- Whether a window has an accepted message still incomplete (R136). -/
def MemUnit.busy (m : MemUnit) (id : Nat) : Bool := m.msgs.any (fun q => q.window == id)

/-- A window's state. -/
def MemUnit.win (m : MemUnit) (id : Nat) : Window := sget .reset m.wins id

/-- Changes a window's state. -/
def MemUnit.setWin (m : MemUnit) (id : Nat) (w : Window) : MemUnit := { m with wins := sset .reset m.wins id w }

/-- Standing credits of a window bound to its GEN (R132): requested credits stay. A session's standing credit takes the
epoch in force, given by `epoch`. -/
def MemUnit.bindStanding (m : MemUnit) (p : Plane) (epoch : Nat → Nat) (id : Nat) : MemUnit :=
  let keep := m.credits.filter (fun c => ! (c.window == id && c.standing.isSome))
  let add := (p.standings.filter (fun t => t.2.1 == id)).map (fun t =>
    ({ writer := match t.1 with
         | .session i _ => .session i (epoch i)
         | w => w
       window := id, gen := (m.win id).gen, bytes := t.2.2, standing := some t.2.2 } : Credit))
  { m with credits := keep ++ add }

/-- Credits of a window under older generations evaporate; a standing entry stays in the table with nothing left. -/
def MemUnit.evaporate (m : MemUnit) (id : Nat) : MemUnit :=
  { m with credits := (m.credits.filter (fun c => ! (c.window == id && c.standing.isNone))).map (fun c =>
      if c.window = id then { c with bytes := 0 } else c) }

/-- CLOSED: Open (R136). -/
def MemUnit.openWin (m : MemUnit) (p : Plane) (epoch : Nat → Nat) (id : Nat) : MemUnit :=
  match p.window id with
  | none => m
  | some d =>
    if (m.win id).st = .closed then
      (m.setWin id { m.win id with st := .opened, pool := d.pool, reopening := false }).bindStanding p epoch id
    else m

/-- OPEN: Close (R136). -/
def MemUnit.closeWin (m : MemUnit) (id : Nat) : MemUnit :=
  let w := m.win id
  if w.st = .opened then
    (m.evaporate id).setWin id ⟨genNext w.gen, if m.busy id then .closing else .closed, 0, false⟩
  else m

/-- OPEN: Reopen (R136). -/
def MemUnit.reopenWin (m : MemUnit) (p : Plane) (id : Nat) : MemUnit :=
  match p.window id with
  | none => m
  | some d =>
    let w := m.win id
    if w.st = .opened then (m.evaporate id).setWin id ⟨genNext w.gen, .opened, d.pool, m.busy id⟩ else m

/-- The last accepted message of a window completed (R136). -/
def MemUnit.settle (m : MemUnit) (id : Nat) : MemUnit :=
  let w := m.win id
  if m.busy id then m
  else if w.st = .closing then m.setWin id { w with st := .closed }
  else m.setWin id { w with reopening := false }

/-- Standing credits of every declared window refreshed at a stride boundary (R132). -/
def MemUnit.refresh (m : MemUnit) (p : Plane) (epoch : Nat → Nat) (ring : Nat) : MemUnit :=
  { (List.range 16).foldl (fun m id => m.bindStanding p epoch id) m with refreshed := some ring }

/-- Whether the credit table has a free entry: the plane's standing credits hold theirs for its life (R130). -/
def MemUnit.creditFree (m : MemUnit) (p : Plane) : Bool :=
  decide ((m.credits.filter (fun c => c.standing.isNone)).length + p.standings.length < 32)

/-- An access in a window: its address, `none` when it falls outside, lacks its right, or names no declared window (R111, R121,
R123). -/
def windowAddr (p : Plane) (id : Nat) (off : Int) (right : WinDesc → Bool) : Option Nat :=
  match p.window id with
  | none => none
  | some d => if 0 ≤ off ∧ off + 16 ≤ (d.len : Int) ∧ right d = true then some (d.base + off.toNat) else none

/-- The right a read needs: LR, or RR where a checker reads its owner's memory (R123, R252). -/
def readRight (foreign : Bool) (d : WinDesc) : Bool := if foreign then d.rr else d.lr

/-- The fault of a read that does not happen: outside its window, or at an owner's memory without the right (R111, R123). -/
def readFault (p : Plane) (id : Nat) (off : Int) (foreign : Bool) : FaultCode :=
  if foreign && (windowAddr p id off (fun _ => true)).isSome then ⟨.credit, 3⟩ else ⟨.overflow, 1⟩

/-- Whether local accesses to a window stall (R136). -/
def MemUnit.localStall (m : MemUnit) (id : Nat) : Bool :=
  (m.win id).st == .closing || ((m.win id).reopening && m.busy id)

/-! ## Address generators -/

/-- The digits of a count in mixed radix, innermost first (R109). -/
def loopDigits : List Nat → Nat → List Nat
  | [], _ => []
  | c :: cs, k => k % (max c 1) :: loopDigits cs (k / (max c 1))

/-- Addresses a pattern produces (R109). -/
def AgPattern.total (a : AgPattern) : Nat := a.counts.foldl (· * ·) 1

/-- The offset within the window of the k-th address, before bounds (R109). -/
def AgPattern.offset (a : AgPattern) (k idx : Nat) : Int :=
  (a.base : Int) + ((loopDigits a.counts k).zip a.strides).foldl (fun (s : Int) t => s + (t.1 : Int) * t.2) 0
    + (if a.indirect then ((idx * a.iscale : Nat) : Int) else 0)

/-- The loop indices of the k-th address as a record names them: 16 bits each, i0 lowest (R111). -/
def AgPattern.indices (a : AgPattern) (k : Nat) : Nat :=
  ((loopDigits a.counts k).zipIdx).foldl (fun n p => n + p.1 % 2 ^ 16 * 2 ^ (16 * p.2)) 0

end Sys2Proof.Machine
end

