-- ==== Sys2Proof/Machine/Compute.lean ====
section
/-!
DEFINITION. The compute unit of one cell up to accumulate, as functions of the cell and its decoded configuration (chapters 3 and 5):
parser, lanes, span buffer, accumulators.
-/
namespace Sys2Proof.Machine

/-- Replaces element `i` of a list by `f` of it. -/
def lmod {α : Type} (l : List α) (i : Nat) (f : α → α) : List α :=
  match l[i]? with
  | some a => l.set i (f a)
  | none => l

/-- Changes a cell's compute unit. -/
def Cell.setComp (c : Cell) (f : Compute → Compute) : Cell := { c with comp := f c.comp }

/-- Changes the tile in the pipeline. -/
def Cell.setTile (c : Cell) (f : TileRun → TileRun) : Cell := c.setComp (fun u => { u with tile := f u.tile })

/-- The decoded pipeline configuration of a plane (R207). -/
def Plane.cfg (p : Plane) : PipeCfg := Config.pipeOf (p.region 0 192)

/-- The decoded pattern of address generator `n` of a plane (R207). -/
def Plane.ag (p : Plane) (n : Nat) : AgPattern := Config.agOf (p.region (0xC0 + 32 * n) 32)

/-- The decoded configuration of a steering unit of a plane (R207). -/
def Plane.steerCfg (p : Plane) (n : Nat) : SteerCfg := Config.steerOf (p.region (0x140 + 32 * n) 32)

/-- The pipeline configuration a cell runs. -/
def Cell.cfg (c : Cell) : PipeCfg := c.active.cfg

/-- The pattern of address generator `n` that a cell runs. -/
def Cell.ag (c : Cell) (n : Nat) : AgPattern := c.active.ag n

/-- The configuration of a steering unit that a cell runs. -/
def Cell.steerCfg (c : Cell) (n : Nat) : SteerCfg := c.active.steerCfg n

/-- Address generator `n` at work. -/
def Compute.agRun (u : Compute) (n : Nat) : AgRun := u.ags.getD n ⟨0, []⟩

/-- Bytes delivered by an address generator and not yet consumed. -/
def Compute.fifo (u : Compute) (n : Nat) : List PByte := (u.agRun n).fifo

/-- Drops the first `k` bytes an address generator delivered. -/
def Compute.consume (u : Compute) (n k : Nat) : Compute :=
  { u with ags := lmod u.ags n (fun a => { a with fifo := a.fifo.drop k }) }

/-- The predictor binding of a cell (Table 7.7 and Table 7.14, R217, R463). -/
structure Predictor where
  layer : Nat
  rank : Nat
  indirect : Bool
  uWin : Nat
  vWin : Nat
  theta : Word32
  mu : Word32
  fill : Word32
  nmax : Nat
  auditMin : Nat
  auditExp : Nat
  policy : Nat
  makeup : Nat
  deriving DecidableEq, Repr

/-- The predictor binding in plane bytes 0x3E8 to 0x3FF; `none` when RANK is 0 (not a predicted layer). -/
def Plane.predictor (p : Plane) : Option Predictor :=
  let b := p.nat 0x3EA 1
  if p.configured && decide (b % 128 ≠ 0) then
    some ⟨p.nat 0x3E8 2, b % 128, b.testBit 7, p.nat 0x3EB 1 % 16, p.nat 0x3EB 1 / 16,
      BitVec.ofNat 32 (p.nat 0x3EC 4), BitVec.ofNat 32 (p.nat 0x3F0 4), BitVec.ofNat 32 (p.nat 0x3F4 4),
      p.nat 0x3F8 2, p.nat 0x3FA 1, p.nat 0x3FB 1 % 16, p.nat 0x3FB 1 / 16 % 4, p.nat 0x3FC 1 % 128⟩
  else none

/-! ## Outputs (R462) -/

/-- Row groups of a tile (R462). -/
def PipeCfg.rowGroups (cfg : PipeCfg) : Nat := (cfg.rows + 7) / 8

/-- Number of output sets of a tile. -/
def PipeCfg.setCount (cfg : PipeCfg) : Nat := cfg.rowGroups * cfg.cols.length

/-- The rows of output set `k` and its column position (R462). -/
def PipeCfg.setRows (cfg : PipeCfg) (k : Nat) : List Nat × Nat :=
  let g := if cfg.rowGroups = 0 then 0 else k % cfg.rowGroups
  let cp := if cfg.rowGroups = 0 then k else k / cfg.rowGroups
  ((List.range 8).map (8 * g + ·) |>.filter (· < cfg.rows), cp)

/-- The ordinal of an output among the outputs of its accumulator row: its output set's (R462). -/
def PipeCfg.ordOf (cfg : PipeCfg) (row colPos : Nat) : Nat := colPos * cfg.rowGroups + row / 8

/-- The ordinal of an output among the outputs of its tile, in output order (R462). -/
def PipeCfg.seqOf (cfg : PipeCfg) (row colPos : Nat) : Nat := colPos * cfg.rows + row

/-- An output as the parser opens it. -/
def openOutput (cfg : PipeCfg) (row col ord seq : Nat) : Output :=
  { row := row, col := col, ord := ord, seq := seq, acc := 0#32, poison := false, started := false, locals := [], frontier := 0
    closed := false, remotes := List.range (cfg.remoteOf row col).length, ready := false }

/-- A new output of a tile. -/
def newOutput (cfg : PipeCfg) (row colPos : Nat) : Output :=
  openOutput cfg row (cfg.cols.getD colPos 0) (cfg.ordOf row colPos) (cfg.seqOf row colPos)

/-- Whether an output is that of a row and column. -/
def Output.at_ (o : Output) (row col : Nat) : Bool := o.row == row && o.col == col

/-- The output of a row and column, where the parser has opened it. -/
def Compute.output (u : Compute) (row col : Nat) : Option Output := (u.rows.getD (row % 8) []).find? (·.at_ row col)

/-- Changes the output of (row, col), opening it as `new` if the parser has not. -/
def Compute.onOutput (u : Compute) (new : Output) (f : Output → Output) : Compute :=
  let l := u.rows.getD (new.row % 8) []
  let l' := if l.any (·.at_ new.row new.col) then l.map (fun o => if o.at_ new.row new.col then f o else o) else l ++ [f new]
  { u with rows := u.rows.set (new.row % 8) l' }

/-- Whether the predictor skips an output (R166) and it is not audited (R169). -/
def TileRun.skipped (t : TileRun) (row col : Nat) : Bool :=
  t.skips.contains (row, col) && ! t.audits.any (fun p => p.1 == row && p.2.1 == col)

/-! ## Parser (R146, R154, R155) -/

/-- A SPARSE_META fault: the tile is poisoned, its issue stops, and its terms under way are dropped (R155). Raised once a tile. -/
def Cell.metaFault (c : Cell) (e : MetaErr) (detail : Nat) : Cell × List CellEv :=
  ((c.setComp (fun u => { u with lanes := u.lanes.map (fun _ => []), flight := [], reorder := u.reorder.map (fun _ => []) })).setTile
      (fun t => { t with faulted := true, poison := true, ctx := none }),
   [.fault ⟨.sparseMeta, e.code⟩ detail true, .metaTile e.code])

/-- The tile number a record names: 0xFFFF_FFFF for work outside every claim group (Table 5.5). -/
def TileRun.tileNo (t : TileRun) : Nat :=
  match t.work with
  | some w => w.tile
  | none => 0xFFFFFFFF

/-- The claim group of the tile; 0xFFFF for work outside every claim group. -/
def TileRun.tileGroup (t : TileRun) : Nat :=
  match t.work with
  | some w => w.group
  | none => 0xFFFF

/-- Columns the parser passes through: those of the tile, or W's rows once in the weight-gradient mode (R162). -/
def PipeCfg.passes (cfg : PipeCfg) : Nat := if cfg.grad.isSome then 1 else cfg.cols.length

/-- Batch groups of the weight-gradient mode (R162). -/
def GradCfg.groups (g : GradCfg) : Nat := (g.extent + 15) / 16

/-- Bytes of a row of dY: its values, then its scale bytes, padded to whole beats (DESIGN CHOICE, log 79). -/
def GradCfg.rowBytes (g : GradCfg) : Nat :=
  let f := (Fmt.ofCode g.code).getD .fp32
  ((g.extent * f.width + 7) / 8 + (if f.isMx then (g.extent + 31) / 32 else 0) + 15) / 16 * 16

/-- A row of dY as its generator delivered it (R162). -/
def gradRow (g : GradCfg) (bs : List PByte) : List GradVal :=
  let f := (Fmt.ofCode g.code).getD .fp32
  let dat := (g.extent * f.width + 7) / 8
  let vs := unpackVals f.width g.extent ((bs.take dat).map (·.b))
  (List.range g.extent).map (fun b =>
    let sc := dat + b / 32
    { bits := vs.getD b 0, scale := if f.isMx then (bs.getD sc ⟨127, false⟩).b.toNat else 127
      poison := (bs.getD (b * f.width / 8) ⟨0, false⟩).poison || (f.isMx && (bs.getD sc ⟨0, false⟩).poison) })

/-- The parser closes the row of the block it finished and moves to the next row, then column. -/
def Cell.rowDone (c : Cell) (cfg : PipeCfg) : Cell :=
  let t := c.comp.tile
  let c1 := if cfg.grad.isSome then
      c.setComp (fun u => { u with rows := lmod u.rows (t.pRow % 8) (·.map (fun o =>
        if o.row = t.pRow then { o with closed := true } else o)) })
    else if t.skipped t.pRow (cfg.cols.getD t.pCol 0) then c
    else c.setComp (fun u => u.onOutput (newOutput cfg t.pRow t.pCol) (fun o => { o with closed := true }))
  c1.setTile (fun t =>
    if t.pRow + 1 < cfg.rows then { t with pRow := t.pRow + 1, pBlock := 0, pEnd := 0, ctx := none, grad := [] }
    else { t with pRow := 0, pCol := t.pCol + 1, pBlock := 0, pEnd := 0, ctx := none, grad := [] })

/-- The group just parsed is behind the parser: next group, next block or next row. -/
def Cell.groupDone (c : Cell) (cfg : PipeCfg) (x : BlockCtx) (count : Nat) : Cell :=
  let h := needleHdr x.header
  if x.nextGroup + 1 = h.groups then
    -- the generator delivers whole beats and blocks start on beats: what is left of the last beat is padding (R139)
    let pad := (c.comp.fifo cfg.weightAg).length % 16
    let c1 := (c.setComp (fun u => u.consume cfg.weightAg pad)).setTile (fun t =>
      { t with pEnd := h.baseCol + 16 * h.groups, pBlock := t.pBlock + 1, ctx := none })
    if h.last then c1.rowDone cfg else c1
  else
    c.setTile (fun t => { t with
      ctx := some { x with nextGroup := x.nextGroup + 1, sum := x.sum + count, used := x.used + count, part := 0 } })

/-- DETAIL of a fault at the parser (Table 5.5). -/
def Cell.parseDetail (c : Cell) (cfg : PipeCfg) (header : Nat) (g count : Option Nat) (codes : List Nat) : Nat :=
  let t := c.comp.tile
  metaDetail header t.tileNo t.pRow t.pBlock g count codes cfg.extent cfg.weightAg (c.ag cfg.weightAg).window

/-- A group of W in the weight-gradient mode: its outputs open in stored order, and the batch groups that the lane's queue takes are
placed (R162). `none` when the queue is full. -/
def Cell.placeGrad (c : Cell) (cfg : PipeCfg) (gc : GradCfg) (x : BlockCtx) (r : RawGroup) (poison : Bool) : Option (Cell × Bool) :=
  let t := c.comp.tile
  let h := needleHdr x.header
  let idx := h.baseCol / 16 + x.nextGroup
  let lane := t.pRow % 8
  let vals := groupStored cfg.wFmt h x.scales cfg.extent x.nextGroup x.used r
  let room := 8 - (c.comp.lanes.getD lane []).length
  let parts := if vals.isEmpty then 0 else gc.groups
  if x.part < parts ∧ room = 0 then none
  else
    let n := min room (parts - x.part)
    let c1 := if x.part ≠ 0 then c
      else vals.foldl (fun c st =>
        let t := c.comp.tile
        let o := openOutput cfg t.pRow (16 * idx + st.pos) (t.opened.getD lane 0) (t.setsOut + t.order.length)
        (c.setComp (fun u => u.onOutput { o with locals := List.range gc.groups, frontier := gc.groups, poison := poison } id)).setTile
          (fun t => { t with opened := lmod t.opened lane (· + 1), order := t.order ++ [(t.pRow, 16 * idx + st.pos)] })) c
    let gs : List Group := (List.range n).map (fun k =>
      { idx := x.part + k, row := t.pRow, col := idx, vals := vals, dy := (t.grad.drop (16 * (x.part + k))).take 16
        poison := poison, stolen := false })
    let c2 := c1.setComp (fun u => { u with lanes := lmod u.lanes lane (· ++ gs) })
    some (c2.setTile (fun t => { t with ctx := some { x with part := x.part + n } }), decide (x.part + n = parts))

/-- One group through the parser; `none` when the bytes have not all arrived or the lane's queue is full. -/
def Cell.parseGroup (c : Cell) (cfg : PipeCfg) (x : BlockCtx) : Option (Cell × List CellEv) :=
  let t := c.comp.tile
  let h := needleHdr x.header
  let ff := c.comp.fifo cfg.weightAg
  match countBad h x.nextGroup x.sum (ff.map (·.b)) with
  | some (n, codes) => some (c.metaFault .count (c.parseDetail cfg x.header (some x.nextGroup) (some n) codes))
  | none =>
  match rawGroup cfg.wFmt h.dense (ff.map (·.b)) with
  | none => none
  | some r =>
    let poison := (ff.take r.size).any (·.poison)
    match groupBad h cfg.extent x.nextGroup x.sum r with
    | some e =>
      some (c.metaFault e (c.parseDetail cfg x.header (some x.nextGroup) (if h.dense then none else some r.count) r.codes))
    | none =>
      let ev := if r.count = 0 then [CellEv.sparse 2 1] else []
      match cfg.grad with
      | some gc =>
        (match c.placeGrad cfg gc x r poison with
         | none => none
         | some (c1, false) => some (c1, [])
         | some (c1, true) => some ((c1.setComp (fun u => u.consume cfg.weightAg r.size)).groupDone cfg x r.count, ev))
      | none =>
        let skip := t.skipped t.pRow (cfg.cols.getD t.pCol 0)
        let lane := t.pRow % 8
        let idx := h.baseCol / 16 + x.nextGroup
        let place := decide (r.count ≠ 0) && ! skip
        if place && decide (8 ≤ (c.comp.lanes.getD lane []).length) then none
        else
          let g : Group := { idx := idx, row := t.pRow, col := cfg.cols.getD t.pCol 0
                             vals := groupStored cfg.wFmt h x.scales cfg.extent x.nextGroup x.used r, dy := [], poison := poison
                             stolen := false }
          let u := c.comp.consume cfg.weightAg r.size
          let u := if skip then u else u.onOutput (newOutput cfg t.pRow t.pCol) (fun o =>
            { o with frontier := idx + 1, locals := if place then o.locals ++ [idx] else o.locals, poison := o.poison || poison })
          let u := if place then { u with lanes := lmod u.lanes lane (· ++ [g]) } else u
          some (({ c with comp := u } : Cell).groupDone cfg x r.count, ev)

/-- Reads a block header and its scale bytes (R139, R145, R154), in the weight-gradient mode the row's dY before its first block (R162);
`none` when they have not arrived. -/
def Cell.parseHeader (c : Cell) (cfg : PipeCfg) : Option (Cell × List CellEv) :=
  let t := c.comp.tile
  let ff := c.comp.fifo cfg.weightAg
  match (match cfg.grad with
    | some gc => if t.pBlock = 0 && t.grad.isEmpty && decide (gc.extent ≠ 0) then some gc else none
    | none => none) with
  | some gc =>
    let dy := c.comp.fifo gc.ag
    if dy.length < gc.rowBytes then none
    else some ((c.setComp (fun u => u.consume gc.ag gc.rowBytes)).setTile (fun t => { t with grad := gradRow gc dy }), [])
  | none =>
  if ff.length < 8 then none
  else
    let w := leNat ((ff.take 8).map (·.b))
    let h := needleHdr w
    let detail := c.parseDetail cfg w none none []
    if headerBad cfg.wFmt w then some (c.metaFault .header detail)
    else if h.baseCol < t.pEnd then some (c.metaFault .order detail)
    else
      let n := scaleCount cfg.wFmt h
      if ff.length < 8 + n then none
      else
        let sc := ((ff.drop 8).take n).map (fun p => p.b.toNat)
        let u0 := c.comp.consume cfg.weightAg (8 + n)
        let poison := (ff.take (8 + n)).any (·.poison)
        let u := if cfg.grad.isSome || t.skipped t.pRow (cfg.cols.getD t.pCol 0) then u0
          else u0.onOutput (newOutput cfg t.pRow t.pCol) (fun o => { o with poison := o.poison || poison })
        let c1 := ({ c with comp := u } : Cell).setTile (fun t => { t with ctx := some ⟨w, 0, 0, sc, 0, 0⟩ })
        -- in the weight-gradient mode W's metadata opens the tile's outputs, so its poison reaches them all
        some (if cfg.grad.isSome && poison then c1.setTile (fun t => { t with poison := true }) else c1, [])

/-- With SKIP_MODE INDIRECT a skipped row is not fetched at all (R166). -/
def Cell.rowFetchSkipped (c : Cell) (cfg : PipeCfg) : Bool :=
  c.comp.tile.ctx.isNone && c.comp.tile.skipped c.comp.tile.pRow (cfg.cols.getD c.comp.tile.pCol 0) &&
    (match c.active.predictor with
     | some q => q.indirect
     | none => false)

/-- Up to `n` parser actions: headers and groups while bytes and queue room last (R146: at most 32 groups a cycle). A
faulted tile's beats are discarded as they arrive (R155). -/
def parseRun (cfg : PipeCfg) : Nat → Cell → Cell × List CellEv
  | 0, c => (c, [])
  | n + 1, c =>
    if c.comp.tile.faulted then
      (c.setComp (fun u => u.consume cfg.weightAg (u.fifo cfg.weightAg).length), [])
    else if cfg.passes ≤ c.comp.tile.pCol ∨ cfg.rows = 0 then (c, [])
    else if c.rowFetchSkipped cfg then parseRun cfg n (c.rowDone cfg)
    else
      match (match c.comp.tile.ctx with
        | none => c.parseHeader cfg
        | some x => c.parseGroup cfg x) with
      | none => (c, [])
      | some (c1, e1) =>
        let (c2, e2) := parseRun cfg n c1
        (c2, e1 ++ e2)

/-! ## Accumulate: the order of terms (R90) -/

/-- The remote term that comes first among those still expected: index, then the order the graft lists (R90). -/
def nextRemote (l : List RemoteTerm) (rs : List Nat) : Option Nat :=
  rs.foldl (fun best p =>
    match best with
    | none => some p
    | some q => if (l.getD p default).idx < (l.getD q default).idx then some p else best) none

/-- Whether a term is the next of its output in the order of R90. -/
def Output.isNext (o : Output) (cfg : PipeCfg) (t : Term) : Bool :=
  let l := cfg.remoteOf o.row o.col
  match t.remote with
  | none =>
    match o.locals with
    | i :: _ => decide (i = t.idx) &&
      (match nextRemote l o.remotes with
       | some p => decide (t.idx ≤ (l.getD p default).idx)
       | none => true)
    | [] => false
  | some q =>
    nextRemote l o.remotes == some q &&
      (match o.locals with
       | i :: _ => decide (t.idx < i)
       | [] => o.closed || decide (t.idx < o.frontier))

/-- Whether the pair of formats accumulates integers (R86). -/
def PipeCfg.isInt (cfg : PipeCfg) : Bool :=
  match pairClass cfg.opFmt cfg.aFmt with
  | some q => q.isInt
  | none => false

/-- Accepts the next term (R90): starts the output at its initial value, adds, records poison and overflow. -/
def Output.accept (o : Output) (cfg : PipeCfg) (init : Word32 × Bool) (t : Term) : Output × Bool :=
  let acc0 := if o.started then o.acc else init.1
  let (acc, ovf) := match t.value with
    | none => (acc0, false)
    | some v => accumulate cfg.isInt acc0 v
  let ovf := ovf && cfg.isInt && cfg.accumCheck
  ({ o with started := true, acc := acc, poison := o.poison || t.poison || ovf || (! o.started && init.2)
            locals := if t.remote.isNone then o.locals.drop 1 else o.locals
            remotes := match t.remote with
              | some q => o.remotes.erase q
              | none => o.remotes }, ovf)

/-- Whether a term belongs to an output. -/
def Term.isOf (t : Term) (o : Output) : Bool := o.at_ t.row t.col

/-- Whole 4-byte values of what a generator delivered, with their poison. -/
def words4 : Nat → List PByte → List (Word32 × Bool)
  | 0, _ => []
  | n + 1, bs => (BitVec.ofNat 32 (leNat ((bs.take 4).map (·.b))), (bs.take 4).any (·.poison)) :: words4 n (bs.drop 4)

/-- The initial value of an output: +0 or integer 0, or its own value of those an address generator loads, one an output in output
order (R90; DESIGN CHOICE for that order, log 80); `none` while it has not arrived. -/
def Compute.initVal (u : Compute) (cfg : PipeCfg) (o : Output) : Option (Compute × Word32 × Bool) :=
  match cfg.initLoad with
  | none => some (u, 0#32, false)
  | some n =>
    if o.started then some (u, 0#32, false)
    else
      let k := (u.fifo n).length / 4
      let all := u.tile.inits ++ words4 k (u.fifo n)
      match all[o.seq]? with
      | none => none
      | some v => some ({ u.consume n (4 * k) with tile := { u.tile with inits := all } }, v)

/-- The OVERFLOW/ACCUM event of an accumulator row (R93). -/
def accumOverflow (row : Nat) : CellEv := .fault ⟨.overflow, 4⟩ row true

/-- Whether an output may hold an accumulator entry: it does, or it is among the 16 oldest of its row that have not left (R80). -/
def Compute.entryFree (u : Compute) (o : Output) : Bool :=
  o.started || decide (o.ord < u.tile.left.getD (o.row % 8) 0 + 16)

/-- Accepts a term that is next in its output; `none` while its entry or its initial value is missing. The first overflow of a tile
poisons it and is raised (R93). -/
def Compute.acceptTerm (u : Compute) (cfg : PipeCfg) (o : Output) (t : Term) : Option (Compute × List CellEv) :=
  if ! u.entryFree o then none
  else
    match u.initVal cfg o with
    | none => none
    | some (u1, init) =>
      let (o1, ovf) := o.accept cfg init t
      let r := o.row % 8
      let u2 := { u1 with rows := lmod u1.rows r (·.map (fun q => if t.isOf q then o1 else q)) }
      if ovf && ! u2.tile.overflowed then
        some ({ u2 with tile := { u2.tile with overflowed := true, poison := true } }, [accumOverflow r])
      else some (u2, [])

/-- Accepts into an accumulator row every term of its reorder buffer that has become next (R91). -/
def drainReorder (cfg : PipeCfg) (r : Nat) : Nat → Compute → Compute × List CellEv
  | 0, u => (u, [])
  | n + 1, u =>
    let outs := u.rows.getD r []
    match (u.reorder.getD r []).findSome? (fun t =>
        (outs.find? (fun o => t.isOf o && o.isNext cfg t)).bind (fun o => (u.acceptTerm cfg o t).map (fun q => (t, q)))) with
    | none => (u, [])
    | some (t, u1, e1) =>
      let (u2, e2) := drainReorder cfg r n { u1 with reorder := lmod u1.reorder r (·.erase t) }
      (u2, e1 ++ e2)

/-- The reorder buffers of every row after the parser has moved on (R91). -/
def drainAll (cfg : PipeCfg) (u : Compute) : Compute × List CellEv :=
  (List.range 8).foldl (fun q r => let (u1, e) := drainReorder cfg r 16 q.1; (u1, q.2 ++ e)) (u, [])

/-- A term reaches an accumulator row: accepted when it is next, else held in the 16-entry reorder buffer, else the
deliverer stalls (R91). The flag says whether the term was taken. -/
def Compute.deliver (u : Compute) (cfg : PipeCfg) (t : Term) : Compute × List CellEv × Bool :=
  let r := t.row % 8
  match u.output t.row t.col with
  | none => (u, [], false)
  | some o =>
    if o.isNext cfg t then
      match u.acceptTerm cfg o t with
      | none => (u, [], false)
      | some (u1, e1) =>
        let (u2, e2) := drainReorder cfg r 16 u1
        (u2, e1 ++ e2, true)
    else if (u.reorder.getD r []).length < 16 then
      ({ u with reorder := lmod u.reorder r (· ++ [t]) }, [], true)
    else (u, [], false)

/-- An output whose list is fully accepted (R92). -/
def Output.isComplete (o : Output) : Bool := o.closed && o.locals.isEmpty && o.remotes.isEmpty

/-- The oldest complete output of a row leaves accumulate for its set, in which it keeps its entry until the set leaves (R92, R462). One
whose load of the initial value has not arrived waits. -/
def Cell.complete (c : Cell) (cfg : PipeCfg) (r : Nat) : Cell :=
  let u := c.comp
  match (u.rows.getD r []).find? (fun o => o.isComplete && ! o.ready) with
  | none => c
  | some o =>
    match u.initVal cfg o with
    | none => c
    | some (u1, init) =>
      let o1 := if o.started then { o with ready := true } else { o with ready := true, acc := init.1, poison := o.poison || init.2 }
      { c with comp := { u1 with rows := lmod u1.rows r (·.map (fun q => if q = o then o1 else q)) } }

/-- The remote term of a TERM message's row, entry, index and sender as a term of the output in that entry (R90); `int` is its INT bit.
`none` when no output expects it: it waits (DESIGN CHOICE where the INT bit is not the output's kind, log 81). -/
def Compute.remoteTerm (u : Compute) (cfg : PipeCfg) (row entry idx sx sy : Nat) (int : Bool) (value : Word32) (poison : Bool) :
    Option Term :=
  if int ≠ cfg.isInt then none
  else
    (u.rows.getD row []).findSome? (fun o =>
      if o.entry ≠ entry then none
      else
        (o.remotes.find? (fun p =>
          let r := (cfg.remoteOf o.row o.col).getD p default
          r.idx == idx && r.sx == sx && r.sy == sy)).map (fun p => ⟨o.row, o.col, idx, some p, some value, poison, 8⟩))

/-! ## Lanes (R147 to R152) -/

/-- The span buffer bank that holds a group's window (R148). -/
def Compute.bankOf (u : Compute) (g : Group) : Option SpanBank :=
  u.spans.find? (fun b => b.span == (if g.dy.isEmpty then g.idx / 64 else g.idx / 4) && b.col == g.col)

/-- An activation of a bank with its scale and poison; the poison of a beat is that of every value it holds. -/
def SpanBank.value (b : SpanBank) (af : Fmt) (i scale : Nat) : Nat × Nat × Bool :=
  (b.vals.getD i 0, b.scales.getD scale 127,
   b.poison.getD (i * af.width / 128) false || (af.isMx && b.scalePoison.getD (scale / 16) false))

/-- The products of a group against its activation window, and whether one of them is poisoned (R149, R95). -/
def groupProds (af : Fmt) (g : Group) (b : SpanBank) : List Prod × Bool :=
  let l := g.vals.map (fun st =>
    let i := g.idx % 64 * 16 + st.pos
    let (v, sc, p) := b.value af i (i / 32)
    ((⟨st, v, sc⟩ : Prod), p))
  (l.map (·.1), l.any (·.2))

/-- The products of one output of the weight-gradient mode under a batch group (R162): the samples of dY against row `pos` of the group
of W in the windows of the samples. -/
def gradProds (af : Fmt) (g : Group) (pos : Nat) (b : SpanBank) : List Prod × Bool :=
  let l := (g.dy.zipIdx).map (fun p =>
    let i := (g.idx % 4 * 16 + p.2) * 16 + pos
    let (v, sc, bad) := b.value af i ((g.idx % 4 * 16 + p.2) / 32 * 16 + pos)
    ((⟨⟨p.2, p.1.bits, p.1.scale, g.idx / 2⟩, v, sc⟩ : Prod), bad || p.1.poison))
  (l.map (·.1), l.any (·.2))

/-- Whether a lane is held by a term it could not deliver: the row's reorder buffer is full and the term is not the next (R91). -/
def Compute.laneHeld (u : Compute) (cfg : PipeCfg) (lane : Nat) : Bool :=
  u.flight.any (fun t => t.lane == lane && decide (16 ≤ (u.reorder.getD (t.row % 8) []).length) &&
    ! (match u.output t.row t.col with
       | some o => o.isNext cfg t
       | none => false))

/-- Beats of the remote write messages of pack (R133). -/
def PipeCfg.msgBeats (cfg : PipeCfg) : Nat :=
  match cfg.dest with
  | .remote _ _ _ _ beats _ _ => max 1 (min 16 beats)
  | .ag _ | .vnet _ | .term _ _ => 17

/-- Whether pack's destination is full: a word waits for port W, a unit for a local queue, or a whole message for credit (R81, R133). -/
def Compute.packFull (u : Compute) (cfg : PipeCfg) : Bool :=
  ! u.packOut.isEmpty || ! u.netOut.isEmpty || decide (cfg.msgBeats ≤ u.message.length)

/-- Whether the pack stage is held by a full destination (R81). -/
def Compute.packHeld (u : Compute) (cfg : PipeCfg) : Bool := ! u.packQ.isEmpty && u.packFull cfg

/-- A lane issues its head group: its term joins the terms in flight (R147, R87). Stalls leave the cell unchanged (R80, R81, R91). -/
def Cell.issue (c : Cell) (cfg : PipeCfg) (lane : Nat) : Cell × List CellEv :=
  let u := c.comp
  match u.lanes.getD lane [] with
  | [] => (c, [])
  | g :: rest =>
    match u.bankOf g with
    | none => (c, [])
    | some b =>
      let cols := if cfg.grad.isSome then g.vals.map (fun st => 16 * g.col + st.pos) else [g.col]
      let free := cols.all (fun col => match u.output g.row col with
        | some o => u.entryFree o
        | none => false)
      if ! free || u.laneHeld cfg lane || u.packHeld cfg then (c, [])
      else
        let term (col : Nat) (p : List Prod × Bool) : Term :=
          ⟨g.row, col, g.idx, none, groupTerm cfg.opFmt cfg.aFmt p.1, g.poison || p.2, lane⟩
        let ts := if cfg.grad.isSome then g.vals.map (fun st => term (16 * g.col + st.pos) (gradProds cfg.aFmt g st.pos b))
          else [term g.col (groupProds cfg.aFmt g b)]
        let n := if cfg.grad.isSome then g.vals.length * g.dy.length else g.vals.length
        (c.setComp (fun u => { u with lanes := u.lanes.set lane rest, flight := u.flight ++ ts }), [.sparse 0 n, .sparse 1 1])

/-- Groups in a lane's queue that it did not steal (R150, R152). -/
def Compute.ownGroups (u : Compute) (i : Nat) : Nat := ((u.lanes.getD i []).filter (fun g => ! g.stolen)).length

/-- The victim an idle lane chooses (R150): the neighbour with more stealable entries, lane i - 1 on a tie. -/
def Compute.victim (u : Compute) (lane : Nat) : Option Nat :=
  let lo := if lane = 0 then 0 else u.ownGroups (lane - 1)
  let hi := if 7 ≤ lane then 0 else u.ownGroups (lane + 1)
  if lo = 0 ∧ hi = 0 then none
  else if lo < hi then some (lane + 1) else some (lane - 1)

/-- An idle lane steals the youngest entry of its victim (R150 to R152). -/
def Cell.steal (c : Cell) (cfg : PipeCfg) (lane : Nat) : Cell × List CellEv :=
  if cfg.steal && (c.comp.lanes.getD lane []).isEmpty && decide (lane < 8) then
    match c.comp.victim lane with
    | none => (c, [])
    | some v =>
      match (c.comp.lanes.getD v []).getLast? with
      | none => (c, [])
      | some g =>
        if g.stolen then (c, [])
        else
          (c.setComp (fun u => { u with lanes :=
            (u.lanes.set v (u.lanes.getD v []).dropLast).set lane [{ g with stolen := true }] }),
            [.sparse 3 1])
  else (c, [])

/-! ## Span buffer (R148) -/

/-- Bytes of one span of activations with its scale bytes (R148). -/
def spanBytes (af : Fmt) : Nat := 1024 * af.width / 8 + (if af.isMx then 32 else 0)

/-- The poison of each beat of bytes. -/
def beatPoison : Nat → List PByte → List Bool
  | 0, _ => []
  | n + 1, bs => (bs.take 16).any (·.poison) :: beatPoison n (bs.drop 16)

/-- The next span of the configured sequence enters the idle bank (R148). -/
def Cell.loadSpan (c : Cell) (cfg : PipeCfg) : Cell :=
  let u := c.comp
  let n := spanBytes cfg.aFmt
  let ff := u.fifo cfg.actAg
  match cfg.spans[u.tile.spansLoaded]? with
  | none => c
  | some (sp, col) =>
    let room := match u.spans with
      | b :: _ :: _ => ! u.lanes.any (fun l => l.any (fun g => u.bankOf g == some b))
      | _ => true
    if ff.length < n ∨ room = false then c
    else
      let dat := 1024 * cfg.aFmt.width / 8
      let bank : SpanBank := ⟨sp, col, unpackVals cfg.aFmt.width 1024 ((ff.take dat).map (·.b)),
        ((ff.take n).drop dat).map (·.b.toNat), beatPoison (dat / 16) ff, beatPoison ((n - dat) / 16) (ff.drop dat)⟩
      let keep := match u.spans with
        | _ :: b :: _ => [b]
        | l => l
      ({ c with comp := { (u.consume cfg.actAg n) with spans := keep ++ [bank] } } : Cell).setTile
        (fun t => { t with spansLoaded := t.spansLoaded + 1 })

end Sys2Proof.Machine
end

