-- ==== Sys2Proof/Machine/Queues.lean ====
section
/-!
DEFINITION. The queues of a cell's switch box: input queues, spill queues, and what waits to enter them (R174 to R176, R197 to R200).
-/
namespace Sys2Proof.Machine

/-! ## Queues of the switch box -/

/-- Number of a network (Table 6.10). -/
def Net.idx : Net → Nat
  | .v => 0 | .s => 1 | .c => 2

/-- Number of an input in the order of R180. -/
def InPort.idx : InPort → Nat
  | .n => 0 | .e => 1 | .s => 2 | .w => 3 | .t => 4 | .lPack => 5 | .lSteer0 => 6 | .lSteer1 => 7 | .lMemory => 8

/-- The inputs in the order of R180. -/
def allIn : List InPort := [.n, .e, .s, .w, .t, .lPack, .lSteer0, .lSteer1, .lMemory]

/-- Number of an output (Table 7.5). -/
def OutPort.idx : OutPort → Nat
  | .n => 0 | .e => 1 | .s => 2 | .w => 3 | .t => 4 | .loc => 5

/-- The outputs. -/
def allOut : List OutPort := [.n, .e, .s, .w, .t, .loc]

/-- PORT field of a queue identifier (Table 6.10). -/
def InPort.qid : InPort → Nat
  | .n => 0 | .e => 1 | .s => 2 | .w => 3 | .t => 4 | _ => 5

/-- Key of an input queue. -/
def qkey (net : Net) (p : InPort) : Nat := 16 * net.idx + p.idx

/-- Key of an output. -/
def okey (net : Net) (p : OutPort) : Nat := 16 * net.idx + p.idx

/-- Key of a local target's inbox: network and target, 4 for the writer side (Table 6.4). -/
def ikey (net : Net) (t : Nat) : Nat := 16 * net.idx + t

/-- Depth of an input queue (Table 6.1; the T input holds the channel's receive buffer, R191). -/
def queueDepth (net : Net) (p : InPort) : Nat :=
  match net, p with
  | .c, _ => 16
  | _, .t => 192
  | _, _ => 8

/-- An input queue. -/
def Box.queue (b : Box) (net : Net) (p : InPort) : List NetUnit := sget [] b.queues (qkey net p)

/-- Units in flight to an input. -/
def Box.inFlight (b : Box) (net : Net) (p : InPort) : List NetUnit := sget [] b.flight (qkey net p)

/-- Replaces an input queue. -/
def Box.setQueue (b : Box) (net : Net) (p : InPort) (q : List NetUnit) : Box :=
  { b with queues := sset [] b.queues (qkey net p) q }

/-- A route entry of a plane (Table 6.2, R211). -/
structure RouteEntry where
  route : Nat
  inMask : Nat
  outMask : Nat
  target : Nat
  steerIn : Nat
  spill : Nat
  deriving DecidableEq, Repr

/-- The valid entry of a network that matches a route id (R178). -/
def Plane.route (p : Plane) (net : Net) (route : Nat) : Option RouteEntry :=
  if ! p.configured then none
  else
    ((List.range 16).filterMap (fun k =>
      let w := p.nat (0x180 + 64 * net.idx + 4 * k) 4
      if w.testBit 0 then some (⟨w / 2 % 32, w / 2 ^ 6 % 512, w / 2 ^ 15 % 64, w / 2 ^ 21 % 4, w / 2 ^ 23 % 4,
        w / 2 ^ 25 % 8⟩ : RouteEntry) else none)).find? (fun e => e.route == route)

/-- Size of a spill queue in beats (R211). -/
def Plane.spillBeats (p : Plane) (k : Nat) : Nat := p.nat (0x240 + 4 * (k - 1)) 4 / 2 ^ 12 % 256

/-- Units a spill queue holds (R197). -/
def Plane.spillCap (p : Plane) (net : Net) (k : Nat) : Nat :=
  match net with
  | .s => 4 * p.spillBeats k
  | _ => p.spillBeats k

/-- The DETAIL of a fabric record: network, port, route and the sideband as received (R201). -/
def fabDetail (net : Net) (p : InPort) (u : NetUnit) : Nat :=
  net.idx + 2 ^ 8 * p.idx + 2 ^ 16 * u.route + 2 ^ 24 * u.tag + 2 ^ 32 * (if u.head then 1 else 0)
    + 2 ^ 33 * (if u.tail then 1 else 0) + 2 ^ 34 * (if u.poison then 1 else 0)

/-! ## Spill queues (R197, R198) -/

/-- Units stored in one beat of a spill queue: a flit, or four words (R197). -/
def perBeat : Net → Nat
  | .s => 4
  | _ => 1

/-- Base address of a spill queue in the scratchpad (R211). -/
def Plane.spillBase (p : Plane) (k : Nat) : Nat := 16 * (p.nat (0x240 + 4 * (k - 1)) 4 % 2 ^ 12)

/-- The spill queue that extends a unit's route here, 0 for none. -/
def Cell.spillOf (c : Cell) (net : Net) (u : NetUnit) : Nat :=
  match c.active.route net u.route with
  | some e => e.spill
  | none => 0

/-- A spill queue's units, oldest first. -/
def Box.spill (b : Box) (k : Nat) : List Spilled := sget [] b.spills k

/-- Entries of an input queue that no unit takes or is on its way to take: units bound for a spill queue hold none (R175, R197). -/
def Cell.queueFree (c : Cell) (net : Net) (p : InPort) : Nat :=
  queueDepth net p - (c.box.queue net p).length - ((c.box.inFlight net p).filter (fun u => c.spillOf net u == 0)).length

/-- Units on their way to a spill queue. -/
def Cell.spillComing (c : Cell) (net : Net) (k : Nat) : Nat :=
  (allIn.flatMap (fun p => (c.box.inFlight net p).filter (fun u => c.spillOf net u == k))).length

/-- Room at an input for a unit of a route: a free entry of its queue, or one of the spill queue that extends it (R175, R197). A unit
granted room always finds it. -/
def Cell.roomAt (c : Cell) (net : Net) (p : InPort) (route : Nat) : Bool :=
  match c.active.route net route with
  | none => decide (0 < c.queueFree net p)
  | some e =>
    if e.spill = 0 then decide (0 < c.queueFree net p)
    else decide (c.spillComing net e.spill + (c.box.spill e.spill).length < c.active.spillCap net e.spill)

/-- The place of the next unit of a spill queue after its youngest: beat and slot, round the area (R197). -/
def nextPlace (size per : Nat) (q : List Spilled) : Nat × Nat :=
  match q.getLast? with
  | none => (0, 0)
  | some l => if l.slot + 1 < per then (l.beat, l.slot + 1) else ((l.beat + 1) % max 1 size, 0)

/-- Adds a client to those that wait for a port. -/
def MemUnit.wait (m : MemUnit) (cl : Client) : MemUnit := { m with waiting := m.waiting ++ [cl] }

/-- Places a unit in an input queue, or in the route's spill queue when the input queue is full or the spill queue already holds units
(R197). A beat is written once it is full; the words of one that is not yet full are held beside the array (DESIGN CHOICE, log 84).
`none`: no room. -/
def Cell.enqueue (c : Cell) (net : Net) (p : InPort) (u : NetUnit) (e : RouteEntry) : Option (Cell × List CellEv) :=
  let b := c.box
  let k := e.spill
  let sp := b.spill k
  if k ≠ 0 ∧ (sp ≠ [] ∨ c.queueFree net p = 0) then
    if sp.length < c.active.spillCap net k then
      let (beat, slot) := nextPlace (c.active.spillBeats k) (perBeat net) sp
      let c1 : Cell := { c with box := { b with spills := sset [] b.spills k (sp ++ [⟨net, p, u, beat, slot, 0⟩]) } }
      some (if slot + 1 = perBeat net then { c1 with mem := c1.mem.wait (.spillWrite k) } else c1, [.fab 3 1])
    else none
  else if (b.queue net p).length < queueDepth net p then
    some ({ c with box := b.setQueue net p (b.queue net p ++ [u]) }, [])
  else none

/-- The oldest full beat of a spill queue that is not written yet. -/
def unwritten (q : List Spilled) : Option Nat :=
  (q.find? (fun s => s.stage == 0 && decide (s.slot + 1 = perBeat s.net))).map (·.beat)

/-- Moves the oldest unit of a spill queue on: into its input queue when it is read back or its beat was never full, else to a read of its
beat (R197, R198). -/
def Cell.refill (c : Cell) (k : Nat) : Cell :=
  match c.box.spill k with
  | [] => c
  | h :: rest =>
    if c.queueFree h.net h.port = 0 then c
    else
      let partBeat := decide (h.stage = 0) && ! (c.box.spill k).any (fun s => s.beat == h.beat && decide (s.slot + 1 = perBeat s.net))
      if h.stage = 2 ∨ partBeat = true then
        let b : Box := { c.box with spills := sset [] c.box.spills k rest }
        { c with box := b.setQueue h.net h.port (b.queue h.net h.port ++ [h.u]) }
      else if h.stage = 1 ∧ ! c.mem.waiting.contains (.spillRead k) then { c with mem := c.mem.wait (.spillRead k) }
      else c

/-- A step of every spill queue of the cell. -/
def Cell.refillAll (c : Cell) : Cell := [1, 2, 3, 4].foldl Cell.refill c

/-- Removes the head of an input queue. -/
def Cell.dequeue (c : Cell) (net : Net) (p : InPort) : Cell := { c with box := c.box.setQueue net p ((c.box.queue net p).drop 1) }

/-- Forgets what a box holds to spill, read back or send on: the clients of units that are gone leave with them. -/
def MemUnit.dropSpills (m : MemUnit) : MemUnit :=
  { m with waiting := m.waiting.filter (fun cl => match cl with
      | .spillWrite _ | .spillRead _ => false
      | .ag _ | .agWrite _ _ | .packOut | .beat => true) }

/-! ## Units that wait for a local input (R175) -/

/-- Puts a unit of the cell's own into a local input queue; `none` when it has no room. -/
def Cell.push (c : Cell) (net : Net) (p : InPort) (u : NetUnit) : Option (Cell × List CellEv) :=
  match c.active.route net u.route with
  | some e => c.enqueue net p u e
  | none =>
    if 0 < c.queueFree net p then some ({ c with box := c.box.setQueue net p (c.box.queue net p ++ [u]) }, []) else none

/-- Moves waiting units into a local input while it has room, those of one network in order; answers what still waits and the networks of
the units moved. -/
def Cell.pump (p : InPort) : List (Net × NetUnit) → List Net → Cell → Cell × List (Net × NetUnit) × List Net × List CellEv
  | [], _, c => (c, [], [], [])
  | (n, u) :: r, stop, c =>
    match (if stop.contains n then none else c.push n p u) with
    | none =>
      let (c1, l, m, e) := Cell.pump p r (n :: stop) c
      (c1, (n, u) :: l, m, e)
    | some (c1, e1) =>
      let (c2, l, m, e) := Cell.pump p r stop c1
      (c2, l, n :: m, e1 ++ e)

/-- What pack and the memory unit have to send enters their local inputs (R175). -/
def Cell.pumpLocal (c : Cell) : Cell × List (Net × InPort) × List CellEv :=
  let (c1, l1, m1, e1) := Cell.pump .lPack c.comp.netOut [] c
  let c2 := c1.setComp (fun u => { u with netOut := l1 })
  let (c3, l2, m2, e2) := Cell.pump .lMemory c2.mem.out [] c2
  ({ c3 with mem := { c3.mem with out := l2 } }, m1.map (·, .lPack) ++ m2.map (·, .lMemory), e1 ++ e2)

end Sys2Proof.Machine
end

