-- ==== Sys2Proof/Machine/CellOps.lean ====
section
/-!
DEFINITION. The messages of the memory unit (R131 to R137, R182, R184): their layouts, write headers and beats, credit requests.
-/
namespace Sys2Proof.Machine

/-! ## Message heads (R182, R184) -/

/-- Bits `hi..lo` of a number. -/
def fld (n lo w : Nat) : Nat := n / 2 ^ lo % 2 ^ w

/-- A V-net HEAD flit of KIND WRITE, FILL or READ_DATA (Table 6.3). -/
structure VHead where
  kind : Nat
  len : Nat
  window : Nat
  gen : Nat
  offset : Nat
  sx : Nat
  sy : Nat
  peer : Bool
  nack : Bool
  session : Nat
  epoch : Nat
  deriving DecidableEq, Repr

/-- Splits a V-net HEAD flit (Table 6.3). -/
def vHead (n : Nat) : VHead :=
  ⟨fld n 0 4, fld n 4 4, fld n 8 4, fld n 12 16, fld n 28 12, fld n 40 11, fld n 51 10, n.testBit 61, n.testBit 62,
   fld n 64 10, fld n 74 16⟩

/-- Joins a V-net HEAD flit (Table 6.3). -/
def VHead.bits (h : VHead) : Nat :=
  h.kind + h.len * 2 ^ 4 + h.window * 2 ^ 8 + h.gen * 2 ^ 12 + h.offset * 2 ^ 28 + h.sx * 2 ^ 40 + h.sy * 2 ^ 51
    + (if h.peer then 2 ^ 61 else 0) + (if h.nack then 2 ^ 62 else 0) + h.session * 2 ^ 64 + h.epoch * 2 ^ 74

/-- The writer a head names (R130, R182). -/
def VHead.writer (h : VHead) : Writer := if h.peer then .session h.session h.epoch else .cell h.sx h.sy

/-- A remote term in a TERM flit: row, entry, index, INT, value, sender (Table 6.3). -/
structure TermFlit where
  row : Nat
  entry : Nat
  idx : Nat
  int : Bool
  value : Word32
  sx : Nat
  sy : Nat
  deriving DecidableEq, Repr

/-- Splits a TERM flit (Table 6.3). -/
def termFlit (n : Nat) : TermFlit :=
  ⟨fld n 8 3, fld n 28 4, fld n 12 16 + 2 ^ 16 * fld n 32 4, n.testBit 11, BitVec.ofNat 32 (fld n 96 32), fld n 40 11,
   fld n 51 10⟩

/-- Words of an S-net message by kind (Table 6.5, Table 8.9); `none` for an invalid kind. -/
def sWords (kind : Nat) (len : Nat) : Option Nat :=
  match kind with
  | 0 => some 4 | 1 => some 3 | 2 => some 4 | 3 => some 4
  | 4 => if 1 ≤ len ∧ len ≤ 4 then some len else some 1
  | 5 => some 2 | 6 => some 2
  | _ => none

/-! ## Remote writes and credits (R131 to R137) -/

/-- What a memory unit answers (R131, R134, R136): messages for the network. -/
inductive MemReply where
  | nack (window gen cur dropped offset : Nat) (w : Writer) (sx sy : Nat)
  | grant (window disp reason units gen rings : Nat) (w : Writer) (sx sy tag : Nat)
  deriving DecidableEq, Repr

/-- DETAIL that names a writer and a window: the cell, or the session and its epoch (R134; the places are the model's, log 7). -/
def Writer.detail (w : Writer) (window : Nat) : Nat :=
  (match w with
   | .cell x y => x + 2 ^ 16 * y
   | .session i e => i + 2 ^ 16 * e + 2 ^ 40) + 2 ^ 32 * window

/-- A message is dropped for generation or state (R134): it is counted, its writer is told, and in strict mode CREDIT/CLOSED is raised. -/
def Cell.dropClosed (c : Cell) (strict : Bool) (h : VHead) : Cell × List CellEv × List MemReply :=
  ({ c with mem := { c.mem with dropped := c.mem.dropped + 1 } },
    if strict then [.fault ⟨.credit, 1⟩ (h.writer.detail h.window) true] else [],
    [.nack h.window h.gen (c.mem.win h.window).gen (16 * (h.len + 1)) h.offset h.writer h.sx h.sy])

/-- A remote write or fill header arrives in a ring and cycle (R133, R134, R137, R183, R293); `n` is the head flit. A credit with nothing
left is given back (DESIGN CHOICE, log 85). `strict` is the graft's strict mode. -/
def Cell.writeHeader (c : Cell) (strict : Bool) (n ring cycle : Nat) : Cell × List CellEv × List MemReply :=
  let h := vHead n
  let w := c.mem.win h.window
  let bytes := 16 * (h.len + 1)
  let fill := decide (h.kind = 1)
  match c.active.window h.window with
  | none => (c, [.fault ⟨.overflow, 1⟩ h.window true], [])
  | some d =>
    if w.gen ≠ h.gen ∨ w.st ≠ .opened ∨ w.reopening = true then c.dropClosed strict h
    else if (if fill then d.sf else d.rw) = false then (c, [.fault ⟨.credit, 3⟩ h.window true], [])
    else if d.len < 16 * h.offset + bytes then (c, [.fault ⟨.overflow, 1⟩ h.window true], [])
    else
      match c.mem.credits.find? (fun q =>
          q.writer == h.writer && q.window == h.window && q.gen == h.gen && decide (bytes ≤ q.bytes)) with
      | none => (c, [.fault ⟨.credit, 2⟩ (h.writer.detail h.window) true], [])
      | some q =>
        let start := d.base + 16 * h.offset
        let msg : InMsg := ⟨h.window, start, h.len + 1, fill, start, [], n, ring, cycle⟩
        let rest := q.bytes - bytes
        let credits := if q.standing.isNone ∧ rest = 0 then c.mem.credits.erase q
          else c.mem.credits.map (fun r => if r = q then { r with bytes := rest } else r)
        ({ c with mem := { c.mem with msgs := c.mem.msgs ++ [msg], credits := credits } }, [], [])

/-- Key, in `dropping`, that says the beats of the message at the memory unit are discarded. -/
def beatKey : Nat := 128

/-- A close or reopen of a window in a cycle wins over a header that came in that cycle: a message accepted by it is taken back, to
be dropped after all (R137). Answers its header. -/
def Cell.recall (c : Cell) (window ring cycle : Nat) : Option (Cell × VHead) :=
  (c.mem.msgs.find? (fun q => q.window == window && q.ring == ring && q.cycle == cycle && q.addr == q.start)).map (fun q =>
    ({ c with
      mem := { c.mem with msgs := c.mem.msgs.erase q }
      box := { c.box with dropping := sset 0 c.box.dropping beatKey 1 } }, vHead q.head))

/-- A data beat of the oldest accepted message is written; the last one completes it, seals the line a fill wrote whole, and may close the
window (R115, R133, R136). -/
def Cell.writeMsgBeat (c : Cell) (bs : List Byte) (poison : Bool) : Cell :=
  match c.mem.msgs with
  | [] => c
  | q :: rest =>
    let m := c.mem.writeBeat q.addr bs poison
    let came := q.came ++ bs
    if q.beats ≤ 1 then
      let m := { m with msgs := rest }
      let m := if q.fill && decide (q.start % 256 = 0) && decide (q.addr % 256 = 240) then m.seal (q.addr / 256) came else m
      { c with mem := m.settle q.window }
    else { c with mem := { m with msgs := { q with addr := q.addr + 16, beats := q.beats - 1, came := came } :: rest } }

/-- A credit request is answered with a disposition (Table 4.4, R131; epoch and table before the window conditions, R307;
reasons of Table 9.5). `stale` says the peer session's epoch is stale. -/
def Cell.creditReq (c : Cell) (window units : Nat) (w : Writer) (sx sy tag : Nat) (stale : Bool) :
    Cell × List CellEv × List MemReply :=
  let win := c.mem.win window
  let bytes := 64 * units
  let answer (disp reason u rings : Nat) : List MemReply := [.grant window disp reason u win.gen rings w sx sy tag]
  if stale then (c, [], answer 2 4 0 0)
  else if ! c.mem.creditFree c.active then (c, [], answer 2 3 0 0)
  else
  match c.active.window window with
  | none => (c, [.fault ⟨.credit, 3⟩ window true], answer 3 0 0 0)
  | some d =>
    if ! d.rw then (c, [.fault ⟨.credit, 3⟩ window true], answer 3 0 0 0)
    else if win.st ≠ .opened ∨ win.reopening = true then (c, [], answer 1 0 0 1)
    else if win.pool < bytes then (c, [], answer 1 0 0 1)
    else
      let m := c.mem.setWin window { win with pool := win.pool - bytes }
      ({ c with mem := { m with credits := m.credits ++ [⟨w, window, win.gen, bytes, none⟩] } }, [], answer 0 0 units 0)

/-- Consumed bytes return to the pool, which never exceeds CREDIT_POOL (R131). -/
def Cell.creditRelease (c : Cell) (window units : Nat) : Cell :=
  match c.active.window window with
  | none => c
  | some d =>
    let w := c.mem.win window
    if w.st = .opened then { c with mem := c.mem.setWin window { w with pool := min d.pool (w.pool + 64 * units) } } else c

end Sys2Proof.Machine
end

