-- ==== Sys2Proof/Machine/Activate.lean ====
section
/-!
DEFINITION. Activate of one cell (R97, R98, R102, R462, R169): the next output set leaves, with its functions and predicates.
-/
namespace Sys2Proof.Machine

/-- The outputs of the next set, as rows and columns (R462): the outputs of one row group in one column; in the weight-gradient mode the
next output in stored order (R162). `none` when no set is left, or none is known yet. -/
def Cell.nextSet (c : Cell) (cfg : PipeCfg) : Option (List (Nat × Nat)) :=
  let t := c.comp.tile
  if cfg.grad.isSome then t.order.head?.map (fun p => [p])
  else if cfg.setCount ≤ t.setsOut then none
  else
    let (rows, cp) := cfg.setRows t.setsOut
    some (rows.map (fun r => (r, cfg.cols.getD cp 0)))

/-- Four bytes of each per-output value with their poison; `none` when they have not arrived (R97). One after the other, in the order of the
set's outputs (DESIGN CHOICE, log 80). -/
def Compute.perOutput (u : Compute) (src : ValSrc) (n : Nat) : Option (Compute × List (Word32 × Bool)) :=
  match src with
  | .const w => some (u, List.replicate n (w, false))
  | .ag k => if (u.fifo k).length < 4 * n then none else some (u.consume k (4 * n), words4 n (u.fifo k))

/-- DETAIL of an access outside its window: the generator and the loop indices (R111), 0xFF and the segment for a TABLE read (the places
are the model's, log 7). -/
def windowDetail (n indices : Nat) : Nat := n + 2 ^ 16 * indices

/-- The coefficients of a segment of TABLE, read at use from the named window with every check of a local read (R98, R111 to R113,
R123); `foreign` says the reads go to an owner's memory (R252). -/
def Cell.tableRead (c : Cell) (foreign : Bool) (id : Nat) (cfg : PipeCfg) (seg : Nat) : Cell × List Word32 × Bool × List CellEv :=
  match windowAddr c.active cfg.tableWin (16 * seg : Nat) (readRight foreign) with
  | none => (c, [], true, [.fault (readFault c.active cfg.tableWin (16 * seg : Nat) foreign) (windowDetail 0xFF seg) true])
  | some a =>
    let (m, bs, ev) := c.mem.readBeat id a (some (cfg.tableWin, 16 * seg))
    ({ c with mem := m }, (words4 4 bs).map (·.1), bs.any (·.poison), ev)

/-- An audited output misses when t exceeds θ or is NaN (R169). -/
def auditMiss (theta t : Word32) : Bool := Val.lt (val32 theta) (val32 t) || decide (val32 t = .nan)

/-- DETAIL of class PREDICTOR: layer, row, column, score and exact value (R172). -/
def predictDetail (layer row col : Nat) (score t : Word32) : Nat :=
  layer % 2 ^ 16 + row % 2 ^ 32 * 2 ^ 32 + col % 2 ^ 32 * 2 ^ 64 + score.toNat * 2 ^ 96 + t.toNat * 2 ^ 128

/-- Whether an output's function reads TABLE. -/
def PipeCfg.usesTable (cfg : PipeCfg) : Bool :=
  cfg.fn == 12 && (! cfg.isInt || (match cfg.intPath with
    | .convert => true
    | .requant _ _ _ => false))

/-- One output of a set leaves activate: FILL where the predictor skips it, with the audit of an audited one (R166, R169), else the
function of R97. -/
def Cell.activateOne (c : Cell) (foreign : Bool) (cfg : PipeCfg) (id : Nat) (row col : Nat) (a b : Word32 × Bool) (force : Bool) :
    Cell × Activated × List CellEv :=
  let t := c.comp.tile
  let o := (c.comp.output row col).getD (openOutput cfg row col 0 0)
  let aud := t.audits.find? (fun p => p.1 == row && p.2.1 == col)
  if t.skips.contains (row, col) && ! t.faulted then
    match c.active.predictor with
    | none => (c, ⟨row, col, 0#32, false, true⟩, [])
    | some q =>
      let tv := activateT cfg.isInt a.1 b.1 o.acc
      let ev := match aud with
        | some (_, _, sc) =>
          if auditMiss q.theta tv || force then
            [CellEv.sparse 8 1, .miss q.policy q.layer t.tileGroup (predictDetail q.layer row col sc tv)]
          else []
        | none => []
      (c, ⟨row, col, q.fill, false, t.poison⟩, ev)
  else
    let tv := activateT cfg.isInt a.1 b.1 o.acc
    let (c1, coef, bad, ev) := if cfg.usesTable && ! t.faulted && decide (val32 tv ≠ .nan)
      then c.tableRead foreign id cfg (tableSeg tv cfg.lo cfg.hi).1 else (c, [], false, [])
    let (y, isInt) := activate cfg (fun _ j => coef.getD j 0#32) cfg.isInt a.1 b.1 o.acc
    (c1, ⟨row, col, y, isInt, o.poison || t.poison || a.2 || b.2 || bad⟩, ev)

/-- The outputs of a set leave activate one after the other; the first audited one misses when `force` says so (Table 15.5). -/
def activateAll (foreign : Bool) (cfg : PipeCfg) (id : Nat) : List ((Nat × Nat) × (Word32 × Bool) × (Word32 × Bool)) → Bool → Cell →
    Cell × List Activated × List CellEv
  | [], _, c => (c, [], [])
  | (p, a, b) :: r, force, c =>
    let hit := force && c.comp.tile.audits.any (fun q => q.1 == p.1 && q.2.1 == p.2)
    let (c1, o, e1) := c.activateOne foreign cfg id p.1 p.2 a b hit
    let (c2, os, e2) := activateAll foreign cfg id r (force && ! hit) c1
    (c2, o :: os, e1 ++ e2)

/-- Whether a predicate takes an operand (R102). -/
def PredOp.takesOperand : PredOp → Bool
  | .gt | .ge | .lt | .le | .eq | .ne => true
  | .isNan | .isZero | .always | .never => false

/-- The outputs of a set have left: their entries are free (R80). -/
def Compute.setLeft (u : Compute) (cfg : PipeCfg) (ps : List (Nat × Nat)) : Compute :=
  { u with
    rows := u.rows.map (fun l => l.filter (fun o => ! ps.contains (o.row, o.col)))
    tile := { u.tile with
      setsOut := u.tile.setsOut + 1
      order := if cfg.grad.isSome then u.tile.order.drop 1 else u.tile.order
      left := if cfg.grad.isSome then ps.foldl (fun l p => lmod l (p.1 % 8) (· + 1)) u.tile.left else u.tile.left.map (· + 1) } }

/-- The next output set leaves activate in output order, its predicates evaluated (R97, R102, R462). It waits for its outputs, for what its
values are read from, and for pack to have taken the set before it. -/
def Cell.activateSet (c : Cell) (foreign : Bool) (cfg : PipeCfg) (id : Nat) (force : Bool) : Cell × List CellEv :=
  let u := c.comp
  let t := u.tile
  match c.nextSet cfg with
  | none => (c, [])
  | some ps =>
    let ready := ps.all (fun p => t.faulted || t.skipped p.1 p.2 || (match u.output p.1 p.2 with
      | some o => o.ready
      | none => false))
    if ! ready || ! u.packQ.isEmpty || (cfg.usesTable && c.mem.localStall cfg.tableWin) then (c, [])
    else
      let n := ps.length
      match u.perOutput cfg.aSrc n with
      | none => (c, [])
      | some (u1, as) =>
      match u1.perOutput cfg.bSrc n with
      | none => (c, [])
      | some (u2, bs) =>
      match (match cfg.predicate with
        | some op => if op.takesOperand then u2.perOutput cfg.predSrc n else some (u2, [])
        | none => some (u2, [])) with
      | none => (c, [])
      | some (u3, ops) =>
        let (c1, outs, evs) := activateAll foreign cfg id (ps.zip (as.zip bs)) force { c with comp := u3 }
        let preds := match cfg.predicate with
          | none => []
          | some op => (outs.zipIdx).map (fun p => predicate op p.1.int p.1.y (ops.getD p.2 (0#32, false)).1)
        (c1.setComp (fun u => { u.setLeft cfg ps with packQ := [⟨outs, preds⟩] }), evs)

end Sys2Proof.Machine
end

