-- ==== Sys2Proof/Machine/Predict.lean ====
section
/-!
DEFINITION. The activity predictor of one cell (R164 to R169): z = V x, the scores, the skips and the audits of a tile.
-/
namespace Sys2Proof.Machine

/-- The bytes of a window as its client reads them from offset 0 on, beat by beat, with every check of a local read (R111 to R113, R121,
R123); `none` when the window is not declared or lacks the right. -/
def Cell.readWindow (c : Cell) (foreign : Bool) (id win : Nat) : Option (Cell × List PByte × List CellEv) :=
  match c.active.window win with
  | none => none
  | some d =>
    if ! readRight foreign d then none
    else
      let r := (List.range (d.len / 16)).foldl (fun (q : MemUnit × List (List PByte) × List CellEv) k =>
        let (m, bs, e) := q.1.readBeat id (d.base + 16 * k) (some (win, 16 * k))
        (m, bs :: q.2.1, q.2.2 ++ e)) (c.mem, [], [])
      some ({ c with mem := r.1 }, r.2.1.reverse.flatten, r.2.2)

/-- The term sum of a row of groups against a vector, group terms added in order from +0 (R87, R90, R165). -/
def rowSum (wf af : Fmt) (row : List RowGroup) (vals : List Nat) (scales : List Nat) : Word32 :=
  row.foldl (fun acc g =>
    let ps := g.vals.map (fun p =>
      let i := 16 * g.idx + p.1.pos
      (⟨p.1, vals.getD i 0, if af.isMx then scales.getD (i / 32) 127 else 127⟩ : Prod))
    match groupTerm wf af ps with
    | some t => add32 acc t
    | none => acc) 0#32

/-- z = V x packed to E4M3 with SAT = 1 (R165). -/
def predictorZ (af : Fmt) (v : List (List RowGroup)) (x : List Nat) (scales : List Nat) : List Nat :=
  v.map (fun row => packFloat .e4m3 true (val32 (rowSum .mxE2m1 af row x scales)))

/-- The score s = U_j · z in the 4-bit weight float class (R165). -/
def predictorScore (u : List RowGroup) (z : List Nat) : Word32 := rowSum .mxE2m1 .e4m3 u z []

/-- T = θ − μ in FP32 (R165). -/
def predictorT (q : Predictor) : Word32 := round32 ((val32 q.theta).add (val32 q.mu).neg)

/-- An output is computed when its score exceeds T or is NaN (R165). -/
def scoreComputes (t s : Word32) : Bool := Val.lt (val32 t) (val32 s) || decide (val32 s = .nan)

/-- The audit draw of R168. -/
def auditDrawn (seed layer col step j exp : Nat) : Bool :=
  crc32c (leBytes 4 seed ++ leBytes 2 layer ++ leBytes 2 col ++ leBytes 4 step ++ leBytes 4 j) % 2 ^ exp == 0

/-- Bytes of an activation column in the window the configuration names: its values, then its scale bytes, in whole beats (DESIGN CHOICE,
log 83). -/
def PipeCfg.columnBytes (cfg : PipeCfg) : Nat :=
  ((cfg.extent * cfg.aFmt.width + 7) / 8 + (if cfg.aFmt.isMx then (cfg.extent + 31) / 32 else 0) + 15) / 16 * 16

/-- Activation column number `k` of that window: values and scale bytes (R165). -/
def PipeCfg.columnOf (cfg : PipeCfg) (bs : List PByte) (k : Nat) : List Nat × List Nat :=
  let col := ((bs.drop (k * cfg.columnBytes)).take cfg.columnBytes).map (·.b)
  let dat := (cfg.extent * cfg.aFmt.width + 7) / 8
  (unpackVals cfg.aFmt.width cfg.extent (col.take dat), ((col.drop dat).take ((cfg.extent + 31) / 32)).map (·.toNat))

/-- What a cell reads to score: the rows of U of its tile, the rows of V, the bytes of the activation columns, and whether any of it was
poisoned. -/
structure ScoreData where
  u : List (List RowGroup)
  v : List (List RowGroup)
  x : List PByte
  poison : Bool
  deriving DecidableEq, Repr

/-- A stop of the predictor's reading: a SPARSE_META fault with its row, or an access outside a window. -/
inductive ScoreStop where
  | bad (win row : Nat) (r : RowStop)
  | window (win : Nat)
  deriving DecidableEq, Repr

/-- Reads U, V and the activation columns; the tile's rows of U begin at row `u0` of the window (R154, R164, R165; log 83). -/
def Cell.scoreData (c : Cell) (foreign : Bool) (cfg : PipeCfg) (q : Predictor) (id u0 : Nat) :
    Cell × List CellEv × Except ScoreStop ScoreData :=
  match c.readWindow foreign id q.vWin with
  | none => (c, [], .error (.window q.vWin))
  | some (c1, vb, e1) =>
    match c1.readWindow foreign id q.uWin with
    | none => (c1, e1, .error (.window q.uWin))
    | some (c2, ub, e2) =>
      match c2.readWindow foreign id cfg.predX with
      | none => (c2, e1 ++ e2, .error (.window cfg.predX))
      | some (c3, xb, e3) =>
        let evs := e1 ++ e2 ++ e3
        match readRows .mxE2m1 cfg.extent q.rank 0 0 (vb.map (·.b)) with
        | .error (r, st) => (c3, evs, .error (.bad q.vWin r st))
        | .ok v =>
          match readRows .mxE2m1 q.rank (u0 + cfg.rows) 0 0 (ub.map (·.b)) with
          | .error (r, st) => (c3, evs, .error (.bad q.uWin r st))
          | .ok u => (c3, evs, .ok ⟨u.drop u0, v, xb, vb.any (·.poison) || ub.any (·.poison) || xb.any (·.poison)⟩)

/-- The skips and audits of a tile from its scores (R165 to R169). `j0` and `c0` are the layer-wide row and column index of the tile's
first output. -/
def Cell.decideSkips (c : Cell) (cfg : PipeCfg) (q : Predictor) (score : Nat → Nat → Word32) (seed step j0 c0 : Nat) (force : Bool) :
    Cell × List CellEv :=
  let th := predictorT q
  let sorted := cfg.cols.mergeSort (fun a b => decide (a ≤ b))
  let outs := (List.range cfg.rows).flatMap (fun r => sorted.map (fun k => (r, k)))
  let comp := outs.filter (fun p => scoreComputes th (score p.1 p.2))
  if q.nmax < comp.length ∨ force = true then
    (c.setTile (fun t => { t with faulted := true, poison := true, scored := true }),
      [.fault ⟨.predictor, 2⟩ (predictDetail q.layer j0 c0 0#32 0#32) true])
  else
    let skip := outs.filter (fun p => ! scoreComputes th (score p.1 p.2))
    let drawn := skip.filter (fun p => auditDrawn seed q.layer (c0 + p.2) step (j0 + p.1) q.auditExp)
    let slots := q.auditMin + (q.nmax - comp.length)
    let auds := (drawn.take slots).map (fun p => (p.1, p.2, score p.1 p.2))
    (c.setTile (fun t => { t with skips := skip, audits := auds, scored := true }),
      [.sparse 4 comp.length, .sparse 5 skip.length, .sparse 6 (min slots drawn.length), .sparse 7 (drawn.length - slots)])

/-- A cell scores its tile against T: which outputs it computes, which it skips, which skipped ones it audits (R165 to R169). A block of U
or V that fails a check poisons the tile (R154, R155); poisoned operands poison it too (R95). -/
def Cell.predict (c : Cell) (foreign : Bool) (cfg : PipeCfg) (id seed step block colBlock : Nat) (force : Bool) : Cell × List CellEv :=
  match c.active.predictor with
  | none => (c, [])
  | some q =>
    match c.scoreData foreign cfg q id (block * cfg.rows) with
    | (c1, evs, .error (.window w)) =>
      (c1.setTile (fun t => { t with faulted := true, poison := true, scored := true }),
        evs ++ [.fault (readFault c.active w 0 foreign) (windowDetail 0xFF w) true])
    | (c1, evs, .error (.bad w _ .short)) =>
      (c1.setTile (fun t => { t with faulted := true, poison := true, scored := true }),
        evs ++ [.fault ⟨.overflow, 1⟩ (windowDetail 0xFF w) true])
    | (c1, evs, .error (.bad w r (.bad e hdr blk g n codes))) =>
      let (c2, e2) := c1.metaFault e (metaDetail hdr 0xFFFFFFFF r blk g n codes (if w = q.uWin then q.rank else cfg.extent)
        cfg.weightAg w)
      (c2.setTile (fun t => { t with scored := true }), evs ++ e2)
    | (c1, evs, .ok d) =>
      let score (r k : Nat) : Word32 :=
        let (x, sc) := cfg.columnOf d.x k
        predictorScore (d.u.getD r []) (predictorZ cfg.aFmt d.v x sc)
      let c2 := if d.poison then c1.setTile (fun t => { t with poison := true }) else c1
      let (c3, e3) := c2.decideSkips cfg q score seed step (cfg.rowBase + block * cfg.rows)
        (cfg.colBase + colBlock * cfg.cols.length) force
      (c3, evs ++ e3)

end Sys2Proof.Machine
end

