-- ==== Sys2Proof/Machine/Transpose.lean ====
section
/-!
DEFINITION. The transposed copy of a cell's weights: its build from W with the value map, and the rewrite of its values after an update
(R158 to R161).
-/
namespace Sys2Proof.Machine

/-! ## Building Wᵀ (R160) -/

/-- The stored value of a row at a reduction position, with its bit address in W. -/
def rowAt (row : List RowGroup) (k : Nat) : Option (Nat × Nat) :=
  ((row.filter (fun g => decide (g.idx = k / 16))).flatMap (·.vals)).findSome? (fun p =>
    if p.1.pos = k % 16 then some (p.1.bits, p.2) else none)

/-- Group `g` of row `k` of Wᵀ: the rows of W in it that store a value at position `k`, each with its position code, its bits and its
address in W (R159). -/
def transposedGroup (w : List (List RowGroup)) (k g : Nat) : List (Nat × Nat × Nat) :=
  ((w.drop (16 * g)).take 16).zipIdx.filterMap (fun r => (rowAt r.1 k).map (fun v => (r.2, v.1, v.2)))

/-- Entry of the value map for a position of a DENSE block that W does not store. -/
def noValue : Nat := 2 ^ 32 - 1

/-- What the value map records for a block: the bit address in W of each value it stores, in stored order (R160; the form is the model's,
log 9). -/
def mapEntries (dense : Bool) (gs : List (List (Nat × Nat × Nat))) : List Nat :=
  gs.flatMap (fun g =>
    if dense then (List.range 16).map (fun p => match g.find? (fun q => q.1 == p) with
      | some q => q.2.2
      | none => noValue)
    else g.map (·.2.2))

/-- One block of row `k` of Wᵀ over groups `lo` to `lo + n - 1`: its bytes and its part of the value map (R160). -/
def transposedBlock (wf : Fmt) (w : List (List RowGroup)) (k lo n : Nat) (last : Bool) : List Byte × List Nat :=
  let gs := (List.range n).map (fun g => transposedGroup w k (lo + g))
  let dense := (kdeclOf (gs.foldl (fun m g => max m g.length) 0)).isNone
  (blockBytes wf lo (gs.map (fun g => g.map (fun q => (q.1, q.2.1)))) last, mapEntries dense gs)

/-- Row `k` of Wᵀ: a block for each span of its reduction dimension, the rows of W in groups of 16 (R139, R159, R160; log 9). -/
def transposedRow (wf : Fmt) (w : List (List RowGroup)) (k : Nat) : List (List Byte × List Nat) :=
  let groups := max 1 ((w.length + 15) / 16)
  let spans := (groups + 63) / 64
  (List.range spans).map (fun b => transposedBlock wf w k (64 * b) (min 64 (groups - 64 * b)) (decide (b + 1 = spans)))

/-- Why a build stops: a SPARSE_META fault in W, a window that does not hold what is read or written, or a W in an MX format, whose Wᵀ the
graft must supply (R160). -/
inductive BuildStop where
  | bad (row : Nat) (r : RowStop)
  | window (win : Nat)
  | mx
  deriving DecidableEq, Repr

/-- Writes bytes from a window's start on, beat by beat; a beat with a poisoned byte is poisoned (R95, R112, R115). -/
def MemUnit.writeAll (m : MemUnit) (base : Nat) : Nat → List PByte → MemUnit
  | 0, _ => m
  | n + 1, bs =>
    if bs.isEmpty then m
    else
      let b := bs.take 16
      MemUnit.writeAll (m.writeBeat base ((b.map (·.b)) ++ List.replicate (16 - b.length) 0) (b.any (·.poison))) (base + 16) n (bs.drop 16)

/-- Puts bytes into a window; `none` when it is not declared or too small. -/
def Cell.fillWindow (c : Cell) (win : Nat) (bs : List Byte) (poison : Bool) : Option Cell :=
  match c.active.window win with
  | none => none
  | some d =>
    if d.len < bs.length then none
    else some { c with mem := c.mem.writeAll d.base (bs.length + 1) (bs.map (⟨·, poison⟩)) }

/-- Builds Wᵀ and its value map in a cell from the W of its own windows: the cell, what it reports, and the number of blocks, or why it
stops. The copy is local to the cell (DEDUCED, log 9). -/
def Cell.buildTranspose (c : Cell) (id wWin wtWin mapWin : Nat) : Cell × List CellEv × Except BuildStop Nat :=
  let cfg := c.cfg
  match (if cfg.wFmt.isMx then none else some (c.readWindow false id wWin)) with
  | none => (c, [], .error .mx)
  | some none => (c, [], .error (.window wWin))
  | some (some (c1, bs, ev)) =>
    match readRows cfg.wFmt cfg.extent cfg.rows 0 0 (bs.map (·.b)) with
    | .error (_, .short) => (c1, ev, .error (.window wWin))
    | .error (r, e) => (c1, ev, .error (.bad r e))
    | .ok w =>
      let poison := bs.any (·.poison)
      let blocks := (List.range cfg.extent).flatMap (transposedRow cfg.wFmt w)
      match c1.fillWindow wtWin (blocks.flatMap (·.1)) poison with
      | none => (c1, ev, .error (.window wtWin))
      | some c2 =>
        match c2.fillWindow mapWin (blocks.flatMap (fun b => b.2.flatMap (leBytes 4))) false with
        | none => (c2, ev, .error (.window mapWin))
        | some c3 => (c3, ev, .ok blocks.length)

/-! ## The rewrite after an update (R161) -/

/-- `w` bits from bit address `a` of a window's bytes, and whether any of them is poisoned. -/
def takeBits (w a : Nat) (bs : List PByte) : Nat × Bool :=
  let q := (bs.drop (a / 8)).take ((a % 8 + w + 7) / 8)
  (leNat (q.map (·.b)) / 2 ^ (a % 8) % 2 ^ w, q.any (·.poison))

/-- Replaces `w` bits at bit address `a`. -/
def putBits (w a : Nat) (v : Nat × Bool) (bs : List PByte) : List PByte :=
  bs.zipIdx.map (fun p =>
    let lo := 8 * p.2
    if lo + 8 ≤ a ∨ a + w ≤ lo then p.1
    else
      ⟨BitVec.ofNat 8 (bitsNat ((List.range 8).map (fun i =>
        if a ≤ lo + i ∧ lo + i < a + w then v.1.testBit (lo + i - a) else p.1.b.getLsbD i))), p.1.poison || v.2⟩)

/-- The addresses of the values that a transposed copy stores, in stored order. -/
def valueAddrs (rows : List (List RowGroup)) : List Nat := rows.flatMap (fun r => r.flatMap (fun g => g.vals.map (·.2)))

/-- Every value of Wᵀ takes the bits of the value of W that the map names (R161). -/
def rewritten (width : Nat) (w : List PByte) : List (Nat × Nat) → List PByte → List PByte
  | [], bs => bs
  | (a, m) :: r, bs => rewritten width w r (if m = noValue then bs else putBits width a (takeBits width m w) bs)

/-- Rewrites the values of Wᵀ from W through the value map, bit for bit (R161). The rows of Wᵀ are W's input features, its extent W's rows
(R159). -/
def Cell.refreshTranspose (c : Cell) (id wWin wtWin mapWin : Nat) : Cell × List CellEv :=
  let cfg := c.cfg
  match c.readWindow false id wWin with
  | none => (c, [])
  | some (c1, w, e1) =>
    match c1.readWindow false id mapWin with
    | none => (c1, e1)
    | some (c2, m, e2) =>
      match c2.readWindow false id wtWin, c2.active.window wtWin with
      | some (c3, t, e3), some d =>
        (match readRows cfg.wFmt cfg.rows cfg.extent 0 0 (t.map (·.b)) with
         | .error _ => (c3, e1 ++ e2 ++ e3)
         | .ok rows =>
           let addrs := valueAddrs rows
           let map_ := (List.range addrs.length).map (fun k => leNat (((m.drop (4 * k)).take 4).map (·.b)))
           let t1 := rewritten cfg.wFmt.width w (addrs.zip map_) t
           ({ c3 with mem := c3.mem.writeAll d.base (t1.length + 1) t1 }, e1 ++ e2 ++ e3))
      | _, _ => (c2, e1 ++ e2)

end Sys2Proof.Machine
end

