-- ==== Sys2Proof/Machine/Ports.lean ====
section
/-!
DEFINITION. The scratchpad ports of one cell and its scrubber (R106 to R120, R166, R198, R252).
-/
namespace Sys2Proof.Machine

/-! ## Index streams (R110, R166) -/

/-- Skipped outputs just before the `j`-th that is computed. -/
def skipBefore (skip : Nat × Nat → Bool) : List (Nat × Nat) → Nat → Nat → Nat
  | [], _, _ => 0
  | p :: r, j, run => if skip p then skipBefore skip r j (run + 1) else if j = 0 then run else skipBefore skip r (j - 1) 0

/-- The predictor of a cell that skips by index list, for its weight generator (R166). -/
def Cell.indexSkipper (c : Cell) (n : Nat) : Bool :=
  (match c.active.predictor with
   | some q => q.indirect
   | none => false) && c.cfg.weightAg == n

/-- Index elements to pass over before the next address: with SKIP_MODE INDIRECT those of the skipped rows before the next computed row
(R166). -/
def Cell.indexSkip (c : Cell) (n : Nat) : Nat :=
  let cfg := c.cfg
  let k := (c.comp.agRun n).count
  if c.indexSkipper n && decide (cfg.rowIdx ≠ 0) && decide (k % cfg.rowIdx = 0) then
    cfg.rowIdx * skipBefore (fun p => c.comp.tile.skipped p.1 p.2)
      (cfg.cols.flatMap (fun col => (List.range cfg.rows).map (·, col))) (k / cfg.rowIdx) 0
  else 0

/-- The next index of a generator with its poison (R110): 0 in AFFINE mode; `none` while its source has not delivered it, or the skips of
the tile are not known. -/
def Cell.nextIndex (c : Cell) (n : Nat) : Option (Nat × Bool) :=
  let a := c.ag n
  if ! a.indirect then some (0, false)
  else if c.indexSkipper n && ! c.comp.tile.scored then none
  else
    let ff := (c.comp.fifo a.isrc).drop (2 * c.indexSkip n)
    if ff.length < 2 then none else some (leNat ((ff.take 2).map (·.b)), (ff.take 2).any (·.poison))

/-- A generator moves to its next address with what its access delivered; an INDIRECT one consumes its index. -/
def Cell.advanceAg (c : Cell) (n : Nat) (got : List PByte) : Cell :=
  let a := c.ag n
  let k := c.indexSkip n
  let bad := (c.nextIndex n).any (·.2)
  let c1 := if a.indirect then c.setComp (fun u => u.consume a.isrc (2 * k + 2)) else c
  c1.setComp (fun u => { u with ags := lmod u.ags n (fun r =>
    ⟨r.count + 1, r.fifo ++ got.map (fun b => { b with poison := b.poison || bad })⟩) })

/-! ## Clients (R106, R107, R110, R198) -/

/-- The generator a client works for. -/
def Cell.genOf (c : Cell) : Client → Option Nat
  | .ag n => some n
  | .agWrite n _ => some n
  | .packOut => c.comp.packOut.head?.map (·.ag)
  | .beat => none
  | .spillWrite _ => none
  | .spillRead _ => none

/-- The port of a client (R107, R109, R198). -/
def Cell.clientPort (c : Cell) : Client → Port
  | .ag n => (c.ag n).port
  | .agWrite _ _ | .packOut | .beat | .spillWrite _ => .w
  | .spillRead _ => .b

/-- Order of clients within a port: on W generators and pack, lower-numbered generator first, with spills as local writes, then remote
writes, then fills; on B spill reads after the generators (R107, R110, R198). -/
def Cell.rank (c : Cell) (cl : Client) : Nat :=
  match cl with
  | .beat =>
    (match c.mem.msgs with
     | q :: _ => if q.fill then 6 else 5
     | [] => 5)
  | .spillWrite _ => 4
  | .spillRead _ => 8
  | .ag _ | .agWrite _ _ | .packOut => (c.genOf cl).getD 0

/-- Lines that hold operands of sampled tiles until every checker has read them: a write to one waits (R252). -/
def Cell.lineHeld (c : Cell) (a : Nat) : Bool :=
  c.comp.tile.lines.contains (a / 256) || c.gate.any (fun e => e.lines.contains (a / 256))

/-- The address of a write, which waits while its line is held. -/
def Cell.writeAddr (c : Cell) : Option Nat → Option (Option Nat)
  | none => some none
  | some a => if c.lineHeld a then none else some (some a)

/-- Where a generator's next access goes: `none`, it must wait; `some none`, outside its window or without its right; `some (some addr)`.
`out` is a generator whose next address an injection puts outside its window (Table 15.5). -/
def Cell.genAddr (c : Cell) (out : Option Nat) (n : Nat) (right : WinDesc → Bool) : Option (Option Nat) :=
  let a := c.ag n
  let k := (c.comp.agRun n).count
  if a.total ≤ k ∨ c.mem.localStall a.window = true then none
  else (c.nextIndex n).map (fun i => if out = some n then none else windowAddr c.active a.window (a.offset k i.1) right)

/-- Where a client's access goes. -/
def Cell.clientAddr (c : Cell) (out : Option Nat) (foreign : Bool) : Client → Option (Option Nat)
  | .ag n => c.genAddr out n (readRight foreign)
  | .agWrite n _ => (c.genAddr out n (·.lw)).bind c.writeAddr
  | .packOut =>
    (match c.comp.packOut with
     | [] => none
     | w :: _ => (c.genAddr out w.ag (·.lw)).bind c.writeAddr)
  | .beat =>
    (match c.mem.msgs with
     | [] => none
     | q :: _ => c.writeAddr (some q.addr))
  | .spillWrite k => (unwritten (c.box.spill k)).map (fun b => some (c.active.spillBase k + 16 * b))
  | .spillRead k =>
    (match c.box.spill k with
     | [] => none
     | h :: _ => if h.stage = 1 then some (some (c.active.spillBase k + 16 * h.beat)) else none)

/-- Whether a client asks for an access its configuration allows it: a generator on its own kind of port with addresses left
to produce (R107, R109). The others come from the cell's own queues. -/
def Cell.clientOk (c : Cell) : Client → Bool
  | .ag n => decide (n < 4) && decide ((c.ag n).port ≠ .w) && decide ((c.comp.agRun n).count < (c.ag n).total)
  | .agWrite n d => decide (n < 4) && decide ((c.ag n).port = .w) && decide (d.length = 16) &&
      decide ((c.comp.agRun n).count < (c.ag n).total)
  | .packOut | .beat | .spillWrite _ | .spillRead _ => false

/-! ## Accesses (R108, R111 to R117) -/

/-- Poisoned data, as an access outside its window returns (R111). -/
def poisonBeat : List PByte := List.replicate 16 ⟨0, true⟩

/-- A sampled tile's owner notes the lines it reads (R252). -/
def TileRun.noteLine (t : TileRun) (line : Nat) : TileRun :=
  match t.work with
  | some w => if w.sampled && w.role == .owner && ! t.lines.contains line then { t with lines := t.lines ++ [line] } else t
  | none => t

/-- A generator reads a beat (R108, R112, R113, R117). -/
def Cell.readAg (c : Cell) (id n a : Nat) : Cell × List CellEv :=
  let g := c.ag n
  let k := (c.comp.agRun n).count
  let off := (g.offset k ((c.nextIndex n).getD (0, false)).1).toNat
  let (m, bs, ev) := c.mem.readBeat id a (some (g.window, off))
  let c1 := (({ c with mem := m } : Cell).advanceAg n bs).setTile (·.noteLine (a / 256))
  if g.check && decide ((k + 1) % 16 = 0) then
    match m.lineCheck id (a / 256) with
    | some code => (c1.setTile (fun t => { t with poison := true }), ev ++ [.fault ⟨.outerCode, code⟩ (a / 256 + 2 ^ 8 * n) true])
    | none => (c1, ev)
  else (c1, ev)

/-- A generator writes a beat; one marked MUTATE discards it outside UPDATE (R108, R115, R254). -/
def Cell.writeAg (c : Cell) (mutOk : Bool) (n a : Nat) (d : List Byte) (poison : Bool) : Cell × List CellEv :=
  let bad := (c.nextIndex n).any (·.2)
  if c.cfg.mutateFlag && ! mutOk then (c.advanceAg n [], [.mutDiscard])
  else (({ c with mem := c.mem.writeBeat a (d.take 16) (poison || bad) } : Cell).advanceAg n [], [])

/-- A full beat of a spill queue is written (R197, R198). -/
def Cell.writeSpill (c : Cell) (k a : Nat) : Cell × List CellEv :=
  match unwritten (c.box.spill k) with
  | none => (c, [])
  | some b =>
    let sp := c.box.spill k
    let us := sp.filter (fun s => s.beat == b && s.stage == 0)
    let data := us.foldl (fun n s => n + s.u.data * 2 ^ (128 / perBeat s.net * s.slot)) 0
    let sp' := sp.map (fun s => if s.beat = b ∧ s.stage = 0 then { s with stage := 1 } else s)
    (({ c with mem := c.mem.writeBeat a (leBytes 16 data) false, box := { c.box with spills := sset [] c.box.spills k sp' } } : Cell).refill k,
      [])

/-- The oldest beat of a spill queue is read back (R197, R198). -/
def Cell.readSpill (c : Cell) (id k a : Nat) : Cell × List CellEv :=
  match c.box.spill k with
  | [] => (c, [])
  | h :: _ =>
    let (m, bs, ev) := c.mem.readBeat id a none
    let n := leNat (bs.map (·.b))
    let w := 128 / perBeat h.net
    let bad := bs.any (·.poison)
    let sp' := (c.box.spill k).map (fun s =>
      if s.beat = h.beat ∧ s.stage = 1 then
        { s with stage := 2, u := { s.u with data := n / 2 ^ (w * s.slot) % 2 ^ w, poison := s.u.poison || bad } }
      else s)
    (({ c with mem := m, box := { c.box with spills := sset [] c.box.spills k sp' } } : Cell).refill k, ev)

/-- The next data beat at the memory unit is written (R133). -/
def Cell.takeBeat (c : Cell) : Cell :=
  match sget [] c.box.inbox (ikey .v 0) with
  | [] => c
  | u :: rest =>
    ({ c with box := { c.box with inbox := sset [] c.box.inbox (ikey .v 0) rest } } : Cell).writeMsgBeat (leBytes 16 u.data) u.poison

/-- An access of a generator that does not happen: a read returns poison, a write is discarded (R111, R123). -/
def Cell.missAg (c : Cell) (foreign : Bool) (n : Nat) (got : List PByte) : Cell × List CellEv :=
  let g := c.ag n
  let k := (c.comp.agRun n).count
  let off := g.offset k ((c.nextIndex n).getD (0, false)).1
  (c.advanceAg n got, [.fault (readFault c.active g.window off foreign) (windowDetail n (g.indices k)) true])

/-- Pack's word at the head of its queue has gone. -/
def Cell.packSent (c : Cell) : Cell := c.setComp (fun u => { u with packOut := u.packOut.drop 1 })

/-- Serves one client at its address; `none` is an access that does not happen. -/
def Cell.access (c : Cell) (id : Nat) (mutOk foreign : Bool) (cl : Client) (addr : Option Nat) : Cell × List CellEv :=
  match cl, addr with
  | .ag n, none => c.missAg foreign n poisonBeat
  | .ag n, some a => c.readAg id n a
  | .agWrite n _, none => c.missAg false n []
  | .agWrite n d, some a => c.writeAg mutOk n a d false
  | .packOut, _ =>
    (match c.comp.packOut with
     | [] => (c, [])
     | w :: _ =>
       (match addr with
        | none => c.packSent.missAg false w.ag []
        | some a => c.packSent.writeAg mutOk w.ag a w.bytes w.poison))
  | .beat, _ => (c.takeBeat, [])
  | .spillWrite k, some a => c.writeSpill k a
  | .spillRead k, some a => c.readSpill id k a
  | .spillWrite _, none => (c, [])
  | .spillRead _, none => (c, [])

/-- One cycle of the ports over clients in service order: one access per port and per bank; the rest wait (R106). An access that does not
happen takes neither. -/
def servePorts (id : Nat) (mutOk : Bool) (out : Option Nat) (foreign : Bool) :
    List Client → List Port → List Nat → Cell → Cell × List CellEv × List Client
  | [], _, _, c => (c, [], [])
  | cl :: r, ports, banks, c =>
    match c.clientAddr out foreign cl with
    | none =>
      let (c1, e, w) := servePorts id mutOk out foreign r ports banks c
      (c1, e, cl :: w)
    | some none =>
      let (c1, e1) := c.access id mutOk foreign cl none
      let (c2, e2, w) := servePorts id mutOk out foreign r ports banks c1
      (c2, e1 ++ e2, w)
    | some (some a) =>
      let p := c.clientPort cl
      if ports.contains p || banks.contains (a / 16 % 4) then
        let (c1, e, w) := servePorts id mutOk out foreign r ports banks c
        (c1, e, cl :: w)
      else
        let (c1, e1) := c.access id mutOk foreign cl (some a)
        let (c2, e2, w) := servePorts id mutOk out foreign r (p :: ports) (a / 16 % 4 :: banks) c1
        (c2, e1 ++ e2, w)

/-- Clients of one port in service order. -/
def Cell.clientsOf (c : Cell) (p : Port) (cs : List Client) : List Client :=
  let l := cs.filter (fun cl => c.clientPort cl == p)
  (List.range 9).flatMap (fun k => l.filter (fun cl => c.rank cl == k))

/-- The clients of a cycle: those that wait, the new ones, and pack's next word. -/
def Cell.clients (c : Cell) (new : List Client) : List Client :=
  c.mem.waiting ++ new ++ (if c.comp.packOut.isEmpty then [] else [.packOut])

/-- A cycle of bank accesses: the clients compete in the order A, B, W; what is not served waits (R106). -/
def Cell.bankCycle (c : Cell) (id : Nat) (mutOk : Bool) (out : Option Nat) (foreign : Bool) (new : List Client) :
    Cell × List CellEv :=
  let all := c.clients new
  let order := c.clientsOf .a all ++ c.clientsOf .b all ++ c.clientsOf .w all
  let (c1, e, w) := servePorts id mutOk out foreign order [] [] { c with mem := { c.mem with waiting := [] } }
  let left := w.filter (· ≠ .packOut)
  ({ c1 with mem := { c1.mem with waiting := left ++ c1.mem.waiting.filter (fun cl => ! left.contains cl) } }, e)

/-! ## A checker's reads (R252) -/

/-- Address of the window descriptors in a plane, and their bytes (Table 7.4). -/
def Plane.windowsOf (p q : Plane) : Plane := { p with bytes := p.bytes.writeBytes 0x250 (q.region 0x250 128) }

/-- Whether a client reads operands. -/
def Client.reads : Client → Bool
  | .ag _ => true
  | .agWrite _ _ | .packOut | .beat | .spillWrite _ | .spillRead _ => false

/-- A checker as it reads: its own compute unit and configuration, with the windows and the memory unit of the tile's owner (R252; how the
reads cross the mesh is left out, log 86). -/
def Cell.borrow (c o : Cell) : Cell :=
  { c with active := c.active.windowsOf o.active, mem := { o.mem with waiting := c.mem.waiting.filter (·.reads) }
           comp := { c.comp with packOut := [] } }

/-- The checker after a read: what its compute unit took, and what still waits. -/
def Cell.giveBack (c t : Cell) : Cell :=
  { c with comp := { t.comp with packOut := c.comp.packOut }
           mem := { c.mem with waiting := c.mem.waiting.filter (fun cl => ! cl.reads) ++ t.mem.waiting } }

/-- The owner after a checker's read. -/
def Cell.lent (o t : Cell) : Cell := { o with mem := { t.mem with waiting := o.mem.waiting } }

/-- Whether an event of a checker's read is the owner's memory unit's to report (R112 to R114). -/
def CellEv.ofMemory : CellEv → Bool
  | .corrected | .uncorrectable | .dead _ => true
  | .fault f _ _ => f.cls == .eccInnerUe || f.cls == .credit
  | _ => false

/-! ## The scrubber (R118 to R120) -/

/-- The scrubber reads a word: corrects it, or poisons it (R118). -/
def MemUnit.scrubWord (m : MemUnit) (w : Nat) : MemUnit × List CellEv :=
  let q := sget .good m.words w
  if q.poison ∨ q.flips = 0 then (m, [])
  else if q.flips = 1 then ({ m with words := sset .good m.words w { q with flips := 0 } }, [.corrected])
  else ({ m with words := sset .good m.words w ⟨0, true, true, false⟩ },
    [.uncorrectable, .fault ⟨.eccInnerUe, 2⟩ (eccDetail w none) false] ++ (if q.failed && q.rewritten then [.dead 2] else []))

/-- The scrubber reads a beat. -/
def MemUnit.scrubBeat (m : MemUnit) (a : Nat) : MemUnit × List CellEv :=
  let (m1, e1) := m.scrubWord (a / 8)
  let (m2, e2) := m1.scrubWord (a / 8 + 1)
  (m2, e1 ++ e2)

/-- The scrubber reads its next beat and stores corrected the words queued for write-back by reads; a full pass is counted (R112, R118 to
R120). -/
def Cell.scrub (c : Cell) : Cell × List CellEv :=
  let a := c.mem.scrubAt
  let (m, e) := c.mem.scrubBeat a
  let m1 := { m with
    words := m.writeBack.foldl (fun ws w => smod .good ws w (fun q => if q.flips = 1 then { q with flips := 0 } else q)) m.words
    writeBack := [], scrubAt := (a + 16) % scratchBytes }
  ({ c with mem := m1 }, e ++ (if a + 16 = scratchBytes then [.scrubPass] else []))

/-- Whether a beat lies in a RESIDENT window of a plane. -/
def Plane.residentBeat (p : Plane) (a : Nat) : Bool :=
  (List.range 16).any (fun id => match p.window id with
    | some d => d.resident && decide (d.base ≤ a) && decide (a < d.base + d.len)
    | none => false)

/-- One scrub pass over the RESIDENT windows, on return from DEEP (R129). -/
def Cell.scrubResident (c : Cell) : Cell × List CellEv :=
  ((List.range (scratchBytes / 16)).filter (fun k => c.active.residentBeat (16 * k))).foldl (fun r k =>
    let (m, e) := r.1.mem.scrubBeat (16 * k)
    ({ r.1 with mem := m }, r.2 ++ e)) (c, [])

end Sys2Proof.Machine
end

