-- ==== Sys2Proof/Machine/Pack.lean ====
section
/-!
DEFINITION. Pack of one cell: conversion, the streams it writes, remote write messages under credit, condition tokens, the end of a tile
(R99 to R104, R131, R133, R182, R251).
-/
namespace Sys2Proof.Machine

/-- Where and when a cell packs: its coordinates and key, the tag and ring in force, whether mutations are open (R254), a generator
whose next address an injection puts outside its window. -/
structure PackEnv where
  x : Nat
  y : Nat
  id : Nat
  tag : Nat
  now : Nat
  mutOk : Bool
  out : Option Nat
  deriving DecidableEq, Repr

/-! ## Conversion (R99 to R101) -/

/-- The value of an output of an MX block. -/
def BlockVal.val (v : BlockVal) : Val := if v.int then Val.ofInt v.y.toInt else val32 v.y

/-- The bits of an element, each with its poison. -/
def elemBits (w n : Nat) (poison : Bool) : List (Bool × Bool) := (natBits w n).map (·, poison)

/-- What outputs add to a stream: the bits of the data stream, the scale byte of the block they complete, the outputs of the block still
open (R99, R100). A poisoned output poisons its whole block, whose scale it enters (R95). -/
def packSet (cfg : PipeCfg) (block outs : List BlockVal) : List (Bool × Bool) × List PByte × List BlockVal :=
  let w := cfg.outFmt.width
  if cfg.outFmt.isMx then
    let ys := block ++ outs
    if ys.length < 32 then ([], [], ys)
    else
      let b := ys.take 32
      let bad := b.any (·.poison)
      let (sc, els) := packMx cfg.outFmt (b.map (·.val))
      (els.flatMap (elemBits w · bad), [⟨BitVec.ofNat 8 sc, bad⟩], ys.drop 32)
  else (outs.flatMap (fun o => elemBits w (packScalar cfg.outFmt cfg.sat o.int o.y) o.poison), [], [])

/-- The complete words of a bit stream, and the bits left (R101). -/
def cutWords (poison : Bool) : Nat → List (Bool × Bool) → List (List Byte × Bool) × List (Bool × Bool)
  | 0, bits => ([], bits)
  | n + 1, bits =>
    if bits.length < 128 then ([], bits)
    else
      let w := bits.take 128
      let (ws, left) := cutWords poison n (bits.drop 128)
      ((leBytes 16 (bitsNat (w.map (·.1))), poison || w.any (·.2)) :: ws, left)

/-- Whether the tile's results are placed: a check or a vote is hashed without placing (R252). -/
def TileRun.places (t : TileRun) : Bool :=
  match t.work with
  | some w => w.role == .owner
  | none => true

/-- Whole data words go where the configuration sends them (R101, R133). -/
def Compute.emit (u : Compute) (cfg : PipeCfg) (tag : Nat) (ws : List (List Byte × Bool)) : Compute :=
  match cfg.dest with
  | .ag n => { u with packOut := u.packOut ++ ws.map (fun w => ⟨n, w.1, w.2⟩) }
  | .vnet route => { u with netOut := u.netOut ++ ws.map (fun w => (.v, ⟨route, tag, false, false, w.2, leNat w.1⟩)) }
  | .remote _ _ _ _ _ _ _ => { u with message := u.message ++ ws }
  | .term _ _ => u

/-- Whole scale words go through their own generator pattern (R101). -/
def Compute.emitScales (u : Compute) (cfg : PipeCfg) (place : Bool) : Compute :=
  if u.tile.scaleWord.length < 16 then u
  else
    let w := u.tile.scaleWord.take 16
    let u1 : Compute := { u with tile := { u.tile with scaleWord := u.tile.scaleWord.drop 16 } }
    if place then { u1 with packOut := u1.packOut ++ [⟨cfg.scaleAg, w.map (·.b), u1.tile.poison || w.any (·.poison)⟩] } else u1

/-- Bits and scale bytes join the tile's streams, and the words they complete leave; every byte is kept for the hash (R101, R251). -/
def Compute.stream (u : Compute) (cfg : PipeCfg) (tag : Nat) (bits : List (Bool × Bool)) (scs : List PByte) : Compute :=
  let t := u.tile
  let (ws, left) := cutWords t.poison 64 (t.wordBits ++ bits)
  let u1 : Compute := { u with tile := { t with
    wordBits := left, data := t.data ++ ws.flatMap (·.1), scales := t.scales ++ scs.map (·.b), scaleWord := t.scaleWord ++ scs } }
  let u2 := if t.places then u1.emit cfg tag ws else u1
  u2.emitScales cfg t.places

/-- Joins a TERM flit (Table 6.3). -/
def TermFlit.bits (f : TermFlit) : Nat :=
  3 + f.row * 2 ^ 8 + (if f.int then 2 ^ 11 else 0) + f.idx % 2 ^ 16 * 2 ^ 12 + f.entry * 2 ^ 28 + f.idx / 2 ^ 16 % 16 * 2 ^ 32
    + f.sx * 2 ^ 40 + f.sy * 2 ^ 51 + f.value.toNat * 2 ^ 96

/-- Outputs of the tile that left before set `k`, in pack order. -/
def PipeCfg.outputsBefore (cfg : PipeCfg) (k : Nat) : Nat :=
  if cfg.grad.isSome then k else (List.range k).foldl (fun n j => n + (cfg.setRows j).1.length) 0

/-- The remote terms of a set, where pack sends terms (R90, R182). -/
def termUnits (cfg : PipeCfg) (env : PackEnv) (poison : Bool) (before : Nat) (outs : List Activated) : List (Net × NetUnit) :=
  match cfg.dest with
  | .term route slots =>
    (outs.zipIdx).filterMap (fun p => (slots[before + p.2]?).map (fun q =>
      (.v, ⟨route, env.tag, true, true, p.1.poison || poison,
        (⟨q.1, q.2.1, q.2.2, p.1.int, p.1.y, env.x, env.y⟩ : TermFlit).bits⟩)))
  | .ag _ | .vnet _ | .remote _ _ _ _ _ _ _ => []

/-! ## Condition tokens (R104, R176, R195) -/

/-- A token enters a steering unit's queue; one that takes its tokens from a C-net route gets none from pack (R194; log 87). -/
def Cell.steerToken (c : Cell) (second : Bool) (v : Nat) : Cell × List CellEv :=
  let st := if second then c.steer1 else c.steer0
  let u : NetUnit := ⟨0, 0, true, true, false, v⟩
  if (c.steerCfg (if second then 1 else 0)).tokenRoute.isSome then (c, [])
  else if 16 ≤ st.tokens.length then (c, [.fault ⟨.overflow, 2⟩ (fabDetail .c (if second then .lSteer1 else .lSteer0) u) true, .fab 8 1])
  else
    let st' : Steer := { st with tokens := st.tokens ++ [v] }
    (if second then { c with steer1 := st' } else { c with steer0 := st' }, [])

/-- Delivers a condition token (R104, R176). -/
def Cell.deliverToken (c : Cell) (tag : Nat) (d : TokenDest) (v : Nat) : Cell × List CellEv :=
  match d with
  | .none => (c, [])
  | .steer0 => c.steerToken false v
  | .steer1 => c.steerToken true v
  | .cnet route =>
    let u : NetUnit := ⟨route, tag, true, true, false, v⟩
    if (c.box.queue .c .lPack).length < 16 then ({ c with box := c.box.setQueue .c .lPack (c.box.queue .c .lPack ++ [u]) }, [])
    else (c, [.fault ⟨.overflow, 2⟩ (fabDetail .c .lPack u) true, .fab 8 1])

/-- The oldest activated output set is converted; its words join the streams, its token is delivered (R99 to R104). -/
def Cell.convertSet (c : Cell) (cfg : PipeCfg) (env : PackEnv) : Cell × List CellEv :=
  match c.comp.packQ with
  | [] => (c, [])
  | st :: rest =>
    let t := c.comp.tile
    let (bits, scs, blk) := packSet cfg t.block (st.outs.map (fun o => ⟨o.y, o.int, o.poison⟩))
    let terms := if t.places then termUnits cfg env t.poison (cfg.outputsBefore t.setsPacked) st.outs else []
    let u : Compute := { c.comp with
      packQ := rest, netOut := c.comp.netOut ++ terms, tile := { t with setsPacked := t.setsPacked + 1, block := blk } }
    let c1 : Cell := { c with comp := u.stream cfg env.tag bits scs }
    if cfg.predicate.isSome then c1.deliverToken env.tag cfg.token (reduceToken cfg.redMode st.preds) else (c1, [])

/-! ## The end of the streams (R100, R101, R251) -/

/-- Whether no further set comes: every set has left activate and pack. -/
def Cell.streamOver (c : Cell) (cfg : PipeCfg) : Bool :=
  let t := c.comp.tile
  c.comp.packQ.isEmpty && (c.nextSet cfg).isNone && (cfg.grad.isNone || decide (cfg.passes ≤ t.pCol) || decide (cfg.rows = 0) || t.faulted)

/-- Fills the last block and the last words (R100, R101). -/
def Compute.flush (u : Compute) (cfg : PipeCfg) (tag : Nat) : Compute :=
  let t := u.tile
  let fill := if t.block.isEmpty then [] else List.replicate (32 - t.block.length) (⟨0#32, false, false⟩ : BlockVal)
  let (bits, scs, _) := packSet cfg t.block fill
  let u1 := ({ u with tile := { t with block := [], flushed := true } } : Compute).stream cfg tag bits scs
  let n := u1.tile.wordBits.length
  let u2 := u1.stream cfg tag (List.replicate ((128 - n % 128) % 128) (false, false)) []
  let m := u2.tile.scaleWord.length
  let u3 : Compute := { u2 with tile := { u2.tile with
    scaleWord := u2.tile.scaleWord ++ List.replicate ((16 - m % 16) % 16) ⟨0, false⟩ } }
  u3.emitScales cfg t.places

/-! ## Remote writes of pack (R131, R133, R182, R184) -/

/-- The words of a CREDIT_REQ (Table 6.5). -/
def creditWords (window units reply x y : Nat) : List Nat :=
  [window * 2 ^ 4 + units * 2 ^ 8 + reply * 2 ^ 18, x + y * 2 ^ 11, 0, 0]

/-- The words of an S-net message on a route, stamped with the tag in force (R184, R228). -/
def sMessage (tag route : Nat) (ws : List Nat) : List NetUnit :=
  (ws.zipIdx).map (fun p => ⟨route, tag, decide (p.2 = 0), decide (p.2 + 1 = ws.length), false, p.1 % 2 ^ 32⟩)

/-- Asks the owner for credit, rounded up to 64 bytes; not again while the answer is out, before the ring a DEFERRED answer named, or after
a refusal (R131). -/
def Cell.askCredit (c : Cell) (env : PackEnv) (ox oy win bytes req reply : Nat) : Cell :=
  let mine (a : CreditAsk) : Bool := a.ox == ox && a.oy == oy && a.window == win
  let may := match c.mem.asked.find? mine with
    | none => true
    | some a => ! a.out && (match a.again with
        | some r => ! ringBefore env.now r
        | none => false)
  if ! may then c
  else
    let us := sMessage env.tag req (creditWords win ((bytes + 63) / 64) reply env.x env.y)
    { c with
      mem := { c.mem with asked := c.mem.asked.filter (fun a => ! mine a) ++ [⟨ox, oy, win, true, none⟩] }
      comp := { c.comp with netOut := c.comp.netOut ++ us.map (.s, ·) } }

/-- A gathered message is sent once it is whole, or the stream has ended, and one credit covers it; else it waits, and credit is asked for
where the configuration says so (R131, R133). Its offset is the next address of generator `n`'s pattern (DESIGN CHOICE, log 88). -/
def Cell.sendMessage (c : Cell) (cfg : PipeCfg) (env : PackEnv) : Cell :=
  match cfg.dest with
  | .remote route win ox oy _ n ask =>
    let have_ := c.comp.message.length
    let len := if cfg.msgBeats ≤ have_ then cfg.msgBeats else if c.comp.tile.flushed then have_ else 0
    let g := c.ag n
    let k := (c.comp.agRun n).count
    if len = 0 ∨ g.total ≤ k then c
    else
      match c.nextIndex n with
      | none => c
      | some (i, _) =>
        match c.mem.held.find? (fun h => h.ox == ox && h.oy == oy && h.window == win && decide (16 * len ≤ h.bytes)) with
        | none =>
          (match ask with
           | some (req, reply) => c.askCredit env ox oy win (16 * len) req reply
           | none => c)
        | some h =>
          let head : VHead := ⟨0, len - 1, win, h.gen, (g.offset k i).toNat / 16 % 2 ^ 12, env.x, env.y, false, false, 0, 0⟩
          let data := ((c.comp.message.take len).zipIdx).map (fun p =>
            ((.v, ⟨route, env.tag, false, decide (p.2 + 1 = len), p.1.2, leNat p.1.1⟩) : Net × NetUnit))
          let c1 := (c.advanceAg n []).setComp (fun u => { u with
            message := u.message.drop len, netOut := u.netOut ++ (.v, ⟨route, env.tag, true, false, false, head.bits⟩) :: data })
          { c1 with mem := { c1.mem with
            held := (c1.mem.held.map (fun q => if q = h then { q with bytes := q.bytes - 16 * len } else q)).filter
              (fun q => decide (0 < q.bytes)) } }
  | .ag _ | .vnet _ | .term _ _ => c

/-! ## A cycle of pack -/

/-- A cycle of the cell's own ports; what a checker reads goes to its owner's (R252). -/
def Cell.ownCycle (c : Cell) (env : PackEnv) (new : List Client) : Cell × List CellEv :=
  if c.comp.tile.places then c.bankCycle env.id env.mutOk env.out false new
  else
    let (c1, e) := ({ c with mem := { c.mem with waiting := c.mem.waiting.filter (fun cl => ! cl.reads) } } : Cell).bankCycle env.id
      env.mutOk env.out false (new.filter (fun cl => ! cl.reads))
    ({ c1 with mem := { c1.mem with waiting := c1.mem.waiting ++ c.mem.waiting.filter (·.reads) } }, e)

/-- The tile's streams have left: it is complete, its hash is known, and the owner's gate entry takes the lines it read (R251, R252). -/
def Cell.finishTile (c : Cell) : Cell × List CellEv :=
  let t := c.comp.tile
  let u : Compute := { c.comp with
    tile := TileRun.fresh none, spans := [], flight := [], lanes := c.comp.lanes.map (fun _ => [])
    rows := c.comp.rows.map (fun _ => []), reorder := c.comp.reorder.map (fun _ => []), ags := c.comp.ags.map (fun _ => ⟨0, []⟩) }
  let gate := match t.work with
    | some w => c.gate.map (fun e => if e.group = w.group ∧ e.tile = w.tile ∧ e.role = w.role then { e with lines := t.lines } else e)
    | none => c.gate
  ({ c with comp := u, gate := gate, mem := { c.mem with waiting := c.mem.waiting.filter (fun cl => ! cl.reads) } },
    match t.work with
    | some w => [.tileDone w (crc64 (t.data ++ t.scales))]
    | none => [])

/-- Whether a tile has begun. -/
def TileRun.begun (t : TileRun) : Bool := t.work.isSome || decide (t ≠ TileRun.fresh none)

/-- A cycle of pack: a set is converted when the destination has room, the streams end after the last set, messages and words move on,
and the tile completes when all has left (R81, R99 to R104, R251). -/
def Cell.pack (c : Cell) (cfg : PipeCfg) (env : PackEnv) : Cell × List (Net × InPort) × List CellEv :=
  let c0 := c.sendMessage cfg env
  let (c1, e1) := if c0.comp.packFull cfg then (c0, []) else c0.convertSet cfg env
  let ended := c1.comp.tile.begun && c1.streamOver cfg
  let c2 := if ended && ! c1.comp.tile.flushed then c1.setComp (·.flush cfg env.tag) else c1
  let (c3, m, e3) := (c2.sendMessage cfg env).pumpLocal
  let (c4, e4) := c3.ownCycle env []
  let left := c4.comp.packOut.isEmpty && c4.comp.netOut.isEmpty && c4.comp.message.isEmpty
  let (c5, e5) := if ended && left then c4.finishTile else (c4, [])
  (c5, m, e1 ++ e3 ++ e4 ++ e5)

end Sys2Proof.Machine
end

