-- ==== Sys2Proof/Machine/Ops.lean ====
section
/-!
DEFINITION. Operations that many commands share: acting on a cell, host-memory writes, writing a fault record and what a fault does
to the job (R418, R419, R249), the end of a job (R243, R257, R258), dead cells and band shifts (R424 to R430, R464), what a
cell reports, and injections (R422, R423).
-/
namespace Sys2Proof.Machine

/-- The outcome of a command. -/
abbrev Res := Host.Outcome State Fault Refusal

/-- A command on a cell: a cell outside the grid does not exist and faults (R3, R7). -/
def State.withCell (s : State) (x y : Nat) (f : State → State) : Res :=
  if s.inGrid x y then .next (f s) else .fault (.absentCell x y)

/-! ## Engine-mastered writes (R318, R326, R361) -/

/-- Whether the engine may master host memory (R318, R319). -/
def State.canMaster (s : State) : Bool :=
  s.host.up && s.host.bme && decide (s.host.dstate = 0) && s.bark.host.isSome

/-- Where data block i of a host-bound region lies, and its group's tag block (R361). -/
def blockAddr (base i : Nat) : Nat := base + 4096 * (i + i / 64)
/-- Where the tag block of data block i lies (R361). -/
def tagAddr (base i : Nat) : Nat := base + 4096 * (65 * (i / 64) + 64)

/-- Writes data block i of a host-bound region under K_host, padded with zeros, with the engine counter and a suffix as IV and its host
address as additional data; answers the block's tag entry (R359, R361). -/
def State.sealBlock (s : State) (base i suffix : Nat) (data : List Byte) : Option (List Byte) × State :=
  match s.bark.host with
  | none => (none, s)
  | some h =>
    let addr := blockAddr base i
    let (ct, tag) := gcmSeal h.key (leBytes 8 h.engCtr ++ leBytes 4 suffix) (leBytes 8 addr) (padTo 4096 data)
    (some (leBytes 8 h.engCtr ++ tag ++ leBytes 4 data.length ++ [0, 0, 0, 0]),
      ({ s with bark := { s.bark with host := some { h with engCtr := h.engCtr + 1 } } } : State).send (.hostWrite addr ct))

/-- Writes a data block and rewrites its entry of the tag block, as telemetry does (R412). -/
def State.rewriteBlock (s : State) (base i suffix : Nat) (data : List Byte) : State :=
  match s.sealBlock base i suffix data with
  | (some e, s1) => s1.send (.hostWrite (tagAddr base i + 32 * (i % 64)) e)
  | (none, s1) => s1

/-- Writes a tag block, unused entries zero, where the engine can (R361). -/
def State.writeTags (s : State) (addr : Nat) : State :=
  if s.canMaster then
    s.send (.hostWrite addr (padTo 4096 ((List.range 64).flatMap (fun j => padTo 32 (sget [] (sget [] s.bark.tags addr) j)))))
  else s

/-- Writes a data block and holds its tag entry; the tag block follows once every data block of the group has been written (R361). -/
def State.hostBlock (s : State) (base i suffix : Nat) (data : List Byte) : State :=
  match s.sealBlock base i suffix data with
  | (some e, s1) =>
    let a := tagAddr base i
    let s2 : State := { s1 with bark := { s1.bark with tags := smod [] s1.bark.tags a (fun m => sset [] m (i % 64) e) } }
    if (sget [] s2.bark.tags a).length = 64 then s2.writeTags a else s2
  | (none, s1) => s1

/-- Whether an address lies in the host journal's region (R434). -/
def State.inJournal (s : State) (a : Nat) : Bool :=
  decide (s.f JOURNAL_CTRL_TARGET = 1) && decide (4096 * s.f JOURNAL_BASE_ADDR ≤ a) &&
    decide (a < 4096 * s.f JOURNAL_BASE_ADDR + 4096 * 65 * s.f JOURNAL_LEN_SIZE)

/-- The end of the output of the journal's region, or of the HOST bindings' regions: their tag blocks that are not full are written, and
none is held any more (R361; DESIGN CHOICE, log 55). -/
def State.endTags (s : State) (journal : Bool) : State :=
  let mine (a : Nat) : Bool := s.inJournal a == journal
  let s1 := ((s.bark.tags.filter (fun p => mine p.1 && decide (p.2.length < 64))).map (·.1)).foldl State.writeTags s
  { s1 with bark := { s1.bark with tags := s1.bark.tags.filter (fun p => ! mine p.1) } }

/-- The GMAC tag of a post-area record under the key in force, its IV SEQ and 1 or 2 (R239). -/
def State.gmac (s : State) (seq which : Nat) (data : List Byte) : List Byte :=
  match s.bark.host with
  | none => List.replicate 16 0
  | some h => Sys2Proof.Machine.gmac h.key (leBytes 8 seq ++ leBytes 4 which) data

/-! ## Records -/

/-- Source code and identifier of a record (Table 15.2). -/
def Src.code : Src → Nat × Nat
  | .engine => (0, 0)
  | .cell _ _ => (1, 0)
  | .die d => (2, d)
  | .port p h => (3, p + 128 * bit h)
  | .tap t => (4, t)
  | .session i => (5, i)
  | .heartwood r => (6, r)
  | .hostPort => (7, 0)

/-- The die a source lies on, by the index of Table 15.2; engine-wide sources count as the root die. -/
def State.srcDie (s : State) : Src → Nat
  | .cell x y => s.dieOf x y
  | .die d => d
  | .port p _ => 48 + limbOfPort p
  | .tap t => t / 8
  | .session i => 48 + limbOfPort (s.ses i).port
  | .engine | .heartwood _ | .hostPort => 60

/-- The 64 bytes of a record (Table 15.1). -/
def FaultRec.bytes (r : FaultRec) : List Byte :=
  let xy := match r.src with
    | .cell x y => (x, y)
    | q => (q.code.2, 0)
  leBytes 6 r.ring ++ leBytes 2 r.cycle ++ leBytes 1 r.cls.code ++ leBytes 1 (bit r.injected + 2 * bit r.blocks)
    ++ leBytes 2 r.code ++ leBytes 1 r.src.code.1 ++ [0, 0, 0] ++ leBytes 2 xy.1 ++ leBytes 2 xy.2 ++ leBytes 2 r.px
    ++ leBytes 2 r.py ++ leBytes 4 r.jobId ++ leBytes 2 r.epoch ++ leBytes 2 r.num ++ leBytes 32 r.detail

/-- JOB_ID of the job preparing, running or recovering, or 0 (Table 15.1). -/
def State.jobId (s : State) : Nat :=
  match s.job.cur with
  | some j => j.desc.jobId
  | none => 0

/-- Epoch of the active graft, or 0. -/
def State.epochNow (s : State) : Nat :=
  match s.graft.active with
  | some g => g.epoch
  | none => 0

/-- Ring and cycle of a detection (R418). -/
def State.whenOf (s : State) : When → Nat × Nat × State
  | .ended r => (r, 0xFFFF, s)
  | .start => (s.now, 0, s)
  | .during =>
    let (c, s1) := s.draw
    (s1.now, c % 0xFFFF, s1)

/-- Order of records in R249: ring (by the order of R43), then cycle, then die. -/
def FaultKey.before (a b : FaultKey) : Bool :=
  ringBefore a.ring b.ring || (decide (a.ring = b.ring) && (decide (a.cycle < b.cycle) ||
    (decide (a.cycle = b.cycle) && decide (a.die < b.die))))

/-- A record counts for its job: FAULT_COUNT saturates, and the first fault is the least record (R249, R419). -/
def Job.note (j : Job) (k : FaultKey) : Job :=
  { j with faultCount := min 65535 (j.faultCount + 1)
           first := match j.first with
             | none => some k
             | some q => if k.before q then some k else some q }

/-- Changes the job that has left the queue. -/
def State.setJob (s : State) (f : Job → Job) : State := { s with job := { s.job with cur := s.job.cur.map f } }

/-- Writes a record, or counts the fault without one when 64 records stand in the ring (R418, R419). -/
def State.writeRec (s : State) (fc : FaultCode) (src : Src) (detail : Nat) (blocks : Bool) (w : When) (inj : Bool) : State :=
  if 64 ≤ s.ras.ringCount then s.inc (RAS_CNT_COUNT 1) 1
  else
    let (ring, cycle, s1) := s.whenOf w
    let p := match src with
      | .cell x y => s1.phys x y
      | _ => (0, 0)
    let r : FaultRec :=
      { num := s1.ras.seq, ring := ring, cycle := cycle, cls := fc.cls, code := fc.code, injected := inj
        blocks := blocks, src := src, px := p.1, py := p.2, jobId := s1.jobId, epoch := s1.epochNow
        detail := detail % 2 ^ 256 }
    let ras : Ras := { s1.ras with log := (r :: s1.ras.log).take 256, seq := s1.ras.seq + 1, ringCount := s1.ras.ringCount + 1 }
    let tel : Tel := { s1.tel with faults := s1.tel.faults + 1, injected := s1.tel.injected || inj }
    let s2 := ({ s1 with ras := ras, tel := tel } : State).setJob
      (·.note ⟨ring, cycle, s1.srcDie src, fc.cls.code, fc.code⟩)
    ((s2.inc (RAS_CNT_COUNT 0) 1).event 1).record 8 inj r.bytes

/-- The registers that show the last fault of a class (R173, R202, R288, R312, R373, R387, R77, R415, R416). -/
def State.lastRegs (s : State) (fc : FaultCode) (src : Src) (detail : Nat) : State :=
  let lo := s.now % 2 ^ 32
  let die := s.srcDie src
  let fab (k : Nat) : State :=
    ((s.setF FAB_STATUS_LAST_RING_LO lo).setF FAB_STATUS_LAST_DIE die).setF FAB_STATUS_LAST_KIND k
  let sap : State :=
    let i := match src with
      | .session i => i
      | _ => 0
    (((s.setF SAP_STATUS_LAST_RING_LO lo).setF SAP_STATUS_LAST_SESSION i).setF SAP_STATUS_LAST_CLASS fc.cls.code).setF
      SAP_STATUS_LAST_CODE fc.code
  match fc.cls, fc.code with
  | .sparseMeta, c =>
    ((s.setF SPARSE_STATUS_LAST_RING_LO lo).setF SPARSE_STATUS_LAST_DIE die).setF SPARSE_STATUS_LAST_META c
  | .predictor, c =>
    ((s.setF SPARSE_STATUS_LAST_RING_LO lo).setF SPARSE_STATUS_LAST_DIE die).setF SPARSE_STATUS_LAST_PRED c
  | .link, 0x101 => fab 1
  | .graft, 0x101 => fab 2
  | .overflow, 2 => fab 3
  | .link, _ => sap
  | .deadlineMiss, _ => sap
  | .peer, 6 => (s.setF STREAM_STATUS_LAST_RING_LO lo).setF STREAM_STATUS_LAST_REASON (detail % 256)
  | .peer, c => if c ≤ 5 then sap else s
  | .security, c =>
    (((s.setF BARK_STATUS_LAST_RING_LO lo).setF BARK_STATUS_LAST_CODE c).flag BARK_STATUS_EVENT).event 13
  | .heartwood, c =>
    let s1 := match src with
      | .heartwood r => s.setF HW_STATUS_LAST_REG r
      | _ => s
    if c = 1 then (s1.flag HW_STATUS_WEAR_WARN).event 14
    else if c = 2 then (s1.flag HW_STATUS_WEAR_LIMIT).event 14
    else if c = 6 then s1.flag HW_STATUS_READ_FAIL
    else s1
  | .clock, 1 => ((s.flag CLK_SRC_LOSS).faultN).event 3
  | .clock, 2 => (s.flag CLK_SRC_PLL_UNLOCK).event 3
  | .clock, 3 => (s.flag CLK_SRC_FREQ_ERR).event 3
  | .power, 2 => s.event 5
  | .power, 3 => (s.flag PWR_STATUS_EXCURSION_SPENT).inc (PWR_CNT_COUNT 5) 1
  | .thermal, 4 => s.flag THM_STATUS_SENSOR_FAULT
  | _, _ => s

/-! ## The end of a job -/

/-- The 48 bytes of a completion record before its tag (Table 8.5). -/
def Completion.bytes (c : Completion) : List Byte :=
  leBytes 8 c.seq ++ leBytes 4 c.jobId ++ leBytes 1 c.status ++ leBytes 1 c.reason ++ leBytes 2 c.faultCount
    ++ leBytes 8 c.firstRing ++ leBytes 8 c.lastRing ++ leBytes 8 c.energy ++ leBytes 4 c.committed
    ++ leBytes 1 c.firstClass ++ [0] ++ leBytes 2 c.firstCode

/-- Engine energy since ENGINE reset in millijoules (R410). -/
def State.energyMj (s : State) : Nat := s.power.energy / 10 ^ 6

/-- The completion record of a job that ended in ring `last` (R258); one that is refused never ran. -/
def State.completionOf (s : State) (j : Job) (status reason last : Nat) : Completion :=
  if status = 4 then ⟨j.desc.seq, j.desc.jobId, 4, reason, 0, 0, 0, 0, 0, 0, 0⟩
  else
  let f := j.first.getD ⟨0, 0, 0, 0, 0⟩
  ⟨j.desc.seq, j.desc.jobId, status, reason, j.faultCount, j.p, last, (s.power.energy - j.energyStart) / 10 ^ 6,
   j.committed, f.cls, f.code⟩

/-- A cell at job end: its windows close (R125) and nothing of the job's work is left in it. -/
def Cell.closeAll (c : Cell) : Cell :=
  { c with mem := (List.range 16).foldl (fun m id => m.closeWin id) c.mem, comp := Compute.idle, gate := [] }

/-- Counts a job by how it ended (Table 8.13). -/
def State.countEnd (s : State) (status : Nat) : State :=
  if status ≤ 1 then s.inc (JOB_CNT_COUNT 2) 1
  else if status = 2 then s.inc (JOB_CNT_COUNT 3) 1
  else if status = 3 then s.inc (JOB_CNT_COUNT 4) 1
  else s.inc (JOB_CNT_COUNT 1) 1

/-- The current job ends in ring `last` with a status and reason: its record waits to be written, every window closes, the
journal takes its END record, recovery ends, the HOST regions' last tag blocks go (R125, R243, R258, R361, R426, R436). -/
def State.endJob (s : State) (status reason last : Nat) : State :=
  match s.job.cur with
  | none => s
  | some j =>
    let c := s.completionOf j status reason last
    let s1 := ({ s with ras := { s.ras with recov := { s.ras.recov with stage := .idle } } } : State).record 11 false c.bytes
    let hit := decide (j.stage = .recovering)
    let s2 : State := { s1 with
      job := { s1.job with cur := none, outbox := s1.job.outbox ++ [c], groups := [] }
      cells := smap Cell.init (fun _ c => c.closeAll) s1.cells
      journal := { s1.journal with recording := false, replaying := false, replay := [] }
      stream := { s1.stream with opens := [] }
      ras := { s1.ras with
        overflowDies := []
        selftest := { s1.ras.selftest with withdrawn := [] }
        recov := { s1.ras.recov with stage := .idle, declared := none, cells := [], bands := [], inUpdate := false, cause := none } } }
    let s3 := ((s2.countEnd status).settleStep).endTags false
    if hit then (s3.event 15) else s3

/-- Whether the running step is past its commit: its UPDATE phase runs, or it committed in the ring. -/
def Job.pastCommit (j : Job) : Bool := j.stepCommitted

/-- The ring before the one in force. -/
def State.prevRing (s : State) : Nat := ringAdd s.now (ringMod - 1)

/-- The last ring in which the job occupied the engine when a fault ends it (R258): for one detected at an edge, the ring that ended. -/
def State.faultRing (s : State) : When → Nat
  | .ended r => r
  | .start => s.prevRing
  | .during => s.now

/-- A fault in an UPDATE phase leaves the mutation incomplete: stores discard, and the job ends FAULTED (R243, R255,
R300). -/
def State.updateFault (s : State) (w : When) : State := (s.syncStores false 0).endJob 3 0 (s.faultRing w)

/-- Writes the record of a fault and does what it does to the job: a fault that stops the commit marks the running step; in an
UPDATE phase it ends the job (R249, R253, Table 8.8). `stops` says that the code stops a commit. A CELL_DEAD code 1 to 5
goes through `declareDead`. -/
def State.raise (s : State) (fc : FaultCode) (src : Src) (detail : Nat) (stops : Bool) (w : When) (inj : Bool) : State :=
  match s.job.cur with
  | none => (s.writeRec fc src detail false w inj).lastRegs fc src detail
  | some j =>
    let inStep := s.running.isSome
    let blocks := stops && inStep && ! j.pastCommit
    let s1 := (s.writeRec fc src detail blocks w inj).lastRegs fc src detail
    let s2 := if blocks then s1.setJob (fun j => { j with blocked := true }) else s1
    if stops && inStep && j.pastCommit && decide (fc.cls ≠ .cellDead) then s2.updateFault w else s2

/-- A fault that ends the job at once (a thermal trip, a build fault, a failed recovery). -/
def State.raiseEnd (s : State) (fc : FaultCode) (src : Src) (detail : Nat) (w : When) (inj : Bool) : State :=
  match s.job.cur with
  | none => (s.writeRec fc src detail false w inj).lastRegs fc src detail
  | some j =>
    let s1 := (s.writeRec fc src detail (! j.pastCommit && s.running.isSome) w inj).lastRegs fc src detail
    let s2 := if j.pastCommit then s1.syncStores false 0 else s1
    s2.endJob 3 0 (s.faultRing w)

/-- A fault that aborts the running step: its job ends FAULTED at once; a job that is not running is not touched (R48, R69). -/
def State.raiseAbort (s : State) (fc : FaultCode) (src : Src) (detail : Nat) (w : When) (inj : Bool) : State :=
  match s.running with
  | some _ => s.raiseEnd fc src detail w inj
  | none => s.raise fc src detail false w inj

/-- The response to a broken duty that has none of its own and is not one the engine leaves unchecked: GRAFT/BREACH, and the running
job ends FAULTED (R14). -/
def State.breach (s : State) (src : Src) (detail : Nat) : State := s.raiseAbort ⟨.graft, 0xB⟩ src detail .during false

/-! ## Aborts (R256, R333) -/

/-- Ends an admitted job ABORTED, or counts the abort. -/
def State.abortQueued (s : State) (jobId reason : Nat) : State :=
  match s.job.queue.find? (fun j => j.desc.jobId == jobId) with
  | none => s.incLo (JOB_CNT_COUNT 11) 1
  | some j =>
    let c : Completion := ⟨j.desc.seq, j.desc.jobId, 2, reason, 0, 0, 0, 0, 0, 0, 0⟩
    ({ s with job := { s.job with queue := s.job.queue.erase j, outbox := s.job.outbox ++ [c] } } : State).countEnd 2

/-- Registers an abort of a job, with its reason and ring: the current job keeps the first one; an admitted job ends ABORTED
at once with FIRST_RING 0; an abort that names no job is counted. A host abort stands over a management abort of the same ring
(R333). -/
def State.registerAbort (s : State) (jobId reason ring : Nat) : State :=
  let s0 := s.record 3 false (leBytes 1 reason ++ [0, 0, 0] ++ leBytes 4 jobId)
  match s0.job.cur with
  | some j =>
    if j.desc.jobId = jobId then
      match j.abort with
      | some (r, a) => if r = 3 ∧ reason = 1 ∧ a = ring then s0.setJob (fun j => { j with abort := some (1, ring) }) else s0
      | none => s0.setJob (fun j => { j with abort := some (reason, ring) })
    else s0.abortQueued jobId reason
  | none => s0.abortQueued jobId reason
/-! ## Dead cells (R421, R426 to R430) -/

/-- DETAIL of every CELL_DEAD code (R420): band, spare rows left before any shift, the record that led to it. -/
def State.deadDetail (s : State) (band : Nat) (cause : Option Nat) : Nat :=
  band + 2 ^ 16 * s.bandFree band + 2 ^ 32 * (cause.getD (2 ^ 64 - 1))

/-- Adds a dead cell to those the recovery unit knows. -/
def Recovery.add (r : Recovery) (x y band : Nat) (cause : Option Nat) (now : Nat) : Recovery :=
  { r with cells := if r.cells.contains (x, y) then r.cells else r.cells ++ [(x, y)]
           bands := if r.bands.contains band then r.bands else r.bands ++ [band]
           cause := cause, declared := some now }

/-- Declares a cell CELL_DEAD (R426): its band and row wait to be shifted. Under RECOVER recovery follows at the next edge unless the
journal has stopped (R430); under STOP the job ends FAULTED; a job that is still preparing ends FAULTED. -/
def State.declareDead (s : State) (x y code : Nat) (cause : Option Nat) (w : When) (inj : Bool) : State :=
  let band := s.bandNo x y
  let s1 := (s.raise ⟨.cellDead, code⟩ (.cell x y) (s.deadDetail band cause) true w inj).later
    (RAS_DIE_ERR_DEAD (s.dieOf x y)) 1
  let s2 := s1.setCell x y { s1.cell x y with dead := true }
  let wait : State := { s2 with ras := { s2.ras with recov := { s2.ras.recov with
      pendingShifts := s2.ras.recov.pendingShifts ++ [(band, s.physRow band (y % 128))] } } }
  match s.job.cur with
  | none => wait
  | some j =>
    if j.stage = .preparing then wait.endJob 3 0 (s.faultRing w)
    else if ! j.desc.recover then
      if j.pastCommit then wait.updateFault w else wait
    else if s.journal.stopped || ! (s.journal.recording || s.journal.replaying || decide (j.stage = .recovering)) then
      ((wait.raiseEnd ⟨.cellDead, 0x104⟩ (.cell x y) (s.deadDetail band cause) w inj).setF RAS_STATUS_LAST_RESULT 5).inc
        (RAS_CNT_COUNT 4) 1
    else
      let rc := wait.ras.recov.add x y band cause s.now
      let rc := { rc with inUpdate := rc.inUpdate || (decide (j.stage = .running) && j.pastCommit) }
      ({ wait with ras := { wait.ras with recov := rc } } : State).setJob (fun j => { j with deadDeclared := true })

/-- Recovery fails: the result is shown and counted (Tables 15.8, 15.12). -/
def State.recoveryFails (s : State) (result : Nat) : State := (s.setF RAS_STATUS_LAST_RESULT result).inc (RAS_CNT_COUNT 4) 1

/-- The source and DETAIL of a record of the recovery in progress: its last dead cell. -/
def State.recoverySource (s : State) : Nat × Nat := s.ras.recov.cells.getLast?.getD (0, 0)

/-- A recovery ends the job FAULTED with a CELL_DEAD code (R428, R430, R438). -/
def State.recoveryFault (s : State) (code result : Nat) : State :=
  let (x, y) := s.recoverySource
  (s.raiseEnd ⟨.cellDead, code⟩ (.cell x y) (s.deadDetail (s.bandNo x y) s.ras.recov.cause) .during false).recoveryFails result

/-- Whether the running step's store and host writes are suppressed: it is replayed, and its own UPDATE phase had completed (R438). -/
def State.suppressed (s : State) : Bool :=
  s.reenacts && ! (s.ras.recov.inUpdate && s.job.cur.any (fun j => decide (j.step + 1 = s.ras.recov.resumeAt)))

/-- Rows in ascending order without repeats. -/
def sortRows : List Nat → List Nat
  | [] => []
  | r :: rs =>
    let l := sortRows rs
    if l.contains r then l else (l.filter (· < r)) ++ [r] ++ (l.filter (r < ·))

/-- A band entry and spare mask for its retired rows, in ascending order (R464). -/
def bandFields (rows : List Nat) : Nat × Nat :=
  let sk := (rows.zipIdx).filterMap (fun p => if p.1 - p.2 ≤ 127 then some (p.1 - p.2) else none)
  let mask := (rows.zipIdx).foldl (fun m p => if p.1 - p.2 ≤ 127 then m else m + 2 ^ (p.1 - 128)) 0
  ((sk.zipIdx).foldl (fun e p => e + p.1 * 2 ^ (7 * p.2)) 0 + 2 ^ 28 * sk.length, mask)

/-- Asks heartwood to write the entry of a band, keeping the other band of the register. -/
def State.writeBand (s : State) (n e : Nat) : State :=
  let r := 0x0D0 + n / 2
  let old := s.hwNext r
  let v := if n % 2 = 0 then old / 2 ^ 32 * 2 ^ 32 + e else old % 2 ^ 32 + e * 2 ^ 32
  s.hwWrite r v false

/-- Asks heartwood to write the spare mask of a band, after the entry when both change (R464). -/
def State.writeSpare (s : State) (n m : Nat) (after : Bool) : State :=
  let r := 0x1D0 + n / 16
  let old := s.hwNext r
  let sh := 2 ^ (4 * (n % 16))
  s.hwWrite r (old - old / sh % 16 * sh + m * sh) after

/-- Adds to a lifetime counter: one heartwood write (R384). -/
def State.lifeAdd (s : State) (k n : Nat) : State := s.hwWrite (0x1C8 + k) (s.hwNext (0x1C8 + k) + n) false

/-- Retires physical rows of a band: the new entry is written, or UNUSABLE where more than four rows would be retired. Answers
whether spare rows were left, and whether heartwood took the write (R424, R430, R464, R385). -/
def State.retireRows (s : State) (n : Nat) (rows : List Nat) : State × Bool × Bool :=
  let e := s.bandEntry n
  let m := s.spareMask n
  let all := sortRows (entryRows e ++ spareRows e m ++ rows)
  let full := (s.hwReg (0x0D0 + n / 2)).atLimit
  let cnt (s : State) := ((s.inc (RAS_CNT_COUNT 5) 1).event 15).lifeAdd 5 1
  if s.bandUnusable n || decide (4 < all.length) then
    ((s.writeBand n (e % 2 ^ 31 + 2 ^ 31)).inc (RAS_CNT_COUNT 9) 1, false, ! full)
  else
    let (e', m') := bandFields all
    let s1 := if e' = e then s else cnt (s.writeBand n e')
    (if m' = m then s1 else s1.writeSpare n m' (decide (e' ≠ e)), true, ! full)

/-! ## What cells report -/

/-- Sampled tiles: the hash of a finished tile enters its group's item and its cell's gate entry (R251 to R253). -/
def GateItem.hashed (q : GateItem) (role : TileRole) (rank hash : Nat) : GateItem :=
  match role with
  | .owner => { q with ownerHash := some hash }
  | .check _ _ => { q with checkHash := some hash }
  | .vote _ _ => { q with voteHashes := q.voteHashes ++ [(rank, hash)] }

/-- The position of a cell in a cell set: ascending y, then ascending x (R244). -/
def CellSet.rank (c : CellSet) (x y : Nat) : Option Nat :=
  let nx := (c.x1 - c.x0) / max 1 c.xs + 1
  if c.x0 ≤ x ∧ x ≤ c.x1 ∧ c.y0 ≤ y ∧ y ≤ c.y1 ∧ (x - c.x0) % max 1 c.xs = 0 ∧ (y - c.y0) % max 1 c.ys = 0 then
    some ((y - c.y0) / max 1 c.ys * nx + (x - c.x0) / max 1 c.xs)
  else none

/-- Cells of a set. -/
def CellSet.size (c : CellSet) : Nat :=
  if c.x1 < c.x0 ∨ c.y1 < c.y0 then 0 else ((c.x1 - c.x0) / max 1 c.xs + 1) * ((c.y1 - c.y0) / max 1 c.ys + 1)

/-- The cell of a rank. -/
def CellSet.at (c : CellSet) (k : Nat) : Nat × Nat :=
  let nx := (c.x1 - c.x0) / max 1 c.xs + 1
  (c.x0 + k % nx * c.xs, c.y0 + k / nx * c.ys)

/-- The cells of a set in ascending y and then x. -/
def CellSet.cells (c : CellSet) : List (Nat × Nat) := (List.range c.size).map c.at

/-- Whether a set holds a cell. -/
def CellSet.has (c : CellSet) (x y : Nat) : Bool := (c.rank x y).isSome

/-- A claim group's record in the active graft. -/
def State.claimRec (s : State) (g : Nat) : Option ClaimRec :=
  match s.graft.active with
  | some a => a.claims[g]?
  | none => none

/-- A finished tile of a cell: its hash is kept, and the cell's next work item starts (R251 to R253). -/
def State.tileDone (s : State) (x y : Nat) (w : TileWork) (hash : Nat) (inj : Bool) : State :=
  let rank := match s.claimRec w.group with
    | some c => (c.set.rank x y).getD 0
    | none => 0
  let upd (g : GroupRun) : GroupRun :=
    { g with items := g.items.map (fun q => if q.tile = w.tile then
        { (q.hashed w.role rank hash) with injected := q.injected || inj } else q) }
  let c := s.cell x y
  let skipped : Bool := (sget GroupRun.fresh s.job.groups w.group).items.any (fun q => q.tile == w.tile && decide (q.st = .skipped))
  let gate := c.gate.map (fun e => if e.group = w.group ∧ e.tile = w.tile ∧ e.role = w.role then
    { e with hash := some hash, lines := if skipped then [] else e.lines } else e)
  let next : Compute := match c.comp.queueWork with
    | q :: qs => { c.comp with tile := TileRun.fresh (some q), queueWork := qs }
    | [] => c.comp
  ({ s with job := { s.job with groups := smod GroupRun.fresh s.job.groups w.group upd } } : State).setCell x y
    { c with gate := gate, comp := next }

/-- One event a cell reports. -/
def State.cellEvent (s : State) (x y : Nat) (inj : Bool) : CellEv → State
  | .fault f d stops =>
    let die := s.dieOf x y
    if f.cls = .overflow ∧ s.busyJob = true then
      -- one OVERFLOW record a die and step; later ones are counted (R249)
      if s.ras.overflowDies.contains die then s.inc (RAS_CNT_COUNT 1) 1
      else ({ s with ras := { s.ras with overflowDies := s.ras.overflowDies ++ [die] } } : State).raise f (.cell x y) d stops
        .during inj
    else s.raise f (.cell x y) d stops .during inj
  | .dead code => s.declareDead x y code (if s.ras.seq = 0 then none else some (s.ras.seq - 1)) .during inj
  | .corrected => s.later (RAS_DIE_ERR_CORRECTED (s.dieOf x y)) 1
  | .uncorrectable => s.later (RAS_DIE_ERR_UNCORRECTABLE (s.dieOf x y)) 1
  | .scrubPass => ({ s with tel := { s.tel with scrubs := s.tel.scrubs + 1 } } : State).inc (RAS_CNT_COUNT 8) 1
  | .sparse i n => s.atStep (SPARSE_CNT_COUNT i) n
  | .metaTile code =>
    s.atStep (match code with
      | 1 => SPARSE_META_COUNT_COUNT
      | 2 => SPARSE_META_COUNT_ORDER
      | 3 => SPARSE_META_COUNT_RANGE
      | _ => SPARSE_META_COUNT_HEADER) 1
  | .fab i n => s.later (FAB_CNT_COUNT i) n
  | .mutDiscard => s.inc (JOB_CNT_COUNT 10) 1
  | .miss policy layer group detail => s.setJob (fun j => { j with misses := j.misses ++ [⟨policy, layer, group, x, y, detail⟩] })
  | .tileDone w hash => s.tileDone x y w hash inj

/-- Events a cell reports, in order. -/
def State.cellEvents (s : State) (x y : Nat) (inj : Bool) (evs : List CellEv) : State :=
  evs.foldl (fun s e => s.cellEvent x y inj e) s

/-- Replaces a cell by what a cell operation made of it, and takes its events. -/
def State.cellStep (s : State) (x y : Nat) (inj : Bool) (r : Cell × List CellEv) : State :=
  (s.setCell x y r.1).cellEvents x y inj r.2

/-- State mutations happen only in the UPDATE phase of a committed step (R254). -/
def State.mutOk (s : State) : Bool :=
  match s.running with
  | some j => decide (j.phase = .update) && j.stepCommitted
  | none => false

/-- Epoch in force of a session: the ENGINE epoch's first epoch, advanced by each handshake and each CONTROL EPOCH (R282). -/
def State.sesEpoch (s : State) (i : Nat) : Nat := (s.engineEpoch % 256 * 256 + (s.ses i).epoch) % 65536

/-! ## Injections (R422, R423) -/

/-- Whether an armed injection can fire: the ring it waits for has come (0 stands for the next ring edge, kept when it was armed), and
the grant still stands (R422); a replay needs no grant (R438, R439). -/
def State.armedNow (s : State) (a : Armed) : Bool := ! ringBefore s.now a.atRing && (s.injectOn || s.journal.replaying || s.reenacts)

/-- Counts a fired injection, tags the telemetry interval and the journal with the register written and the word that armed it (R423,
Table 15.11). -/
def State.firedCount (s : State) (off word : Nat) : State :=
  let (c, s0) := s.draw
  let s1 := (s0.incSat INJ_COUNT_FIRED 1).record 7 true
    (leBytes 4 off ++ [0, 0, 0, 0] ++ leBytes 8 word ++ leBytes 8 s.now ++ leBytes 2 c ++ [0, 0, 0, 0, 0, 0])
  { s1 with tel := { s1.tel with injected := true }, bark := { s1.bark with injected := s1.bark.injected + 1 } }

/-- The word that armed an injection: GO, DET, PARAM at its place, the location fields (R442). -/
def Armed.word (a : Armed) (paramAt : Nat) : Nat := 2 ^ 63 + a.det * 2 ^ 56 + a.param * 2 ^ paramAt + a.loc

/-- The PARAM of an injection armed on a cell for detector `det`, if it fires now: the injection disarms and is counted. -/
def State.fireCell (s : State) (x y det : Nat) (ok : Nat → Bool) : Option Nat × State :=
  match s.ras.inj.cell with
  | some a =>
    if a.det = det ∧ a.loc = 2 ^ 10 * x + y ∧ ok a.param = true ∧ s.armedNow a = true then
      (some a.param, ({ s with ras := { s.ras with inj := { s.ras.inj with cell := none } } } : State).firedCount 0xF0008 (a.word 32))
    else (none, s)
  | none => (none, s)

/-- The BITS of a network injection armed on an input for detector `det`, if it fires now. `loc` packs port, network and cell
as the register does. -/
def State.fireNet (s : State) (x y net port det : Nat) : Option Nat × State :=
  match s.ras.inj.net with
  | some a =>
    if a.det = det ∧ a.loc = 2 ^ 34 * port + 2 ^ 32 * net + 2 ^ 10 * x + y ∧ s.armedNow a = true then
      (some a.param, ({ s with ras := { s.ras with inj := { s.ras.inj with net := none } } } : State).firedCount 0xF0010 (a.word 37))
    else (none, s)
  | none => (none, s)

/-- The PARAM of an edge injection, if it fires now: DET 17 to 19 at a port and half, DET 20 to 26 at a session. -/
def State.fireEdge (s : State) (loc det : Nat) : Option Nat × State :=
  match s.ras.inj.edge with
  | some a =>
    let here := if a.det ≤ 19 then a.loc % 256 else a.loc / 2 ^ 16
    if a.det = det ∧ here = loc ∧ s.armedNow a = true then
      (some a.param, ({ s with ras := { s.ras with inj := { s.ras.inj with edge := none } } } : State).firedCount 0xF0018 (a.word 32))
    else (none, s)
  | none => (none, s)

/-- The PARAM of a root-die injection at a die, if it fires now; `die` none for detectors with no die. -/
def State.fireRoot (s : State) (die : Option Nat) (det : Nat) (ok : Nat → Bool) : Option Nat × State :=
  match s.ras.inj.root with
  | some a =>
    if a.det = det ∧ (die = none ∨ die = some a.loc) ∧ ok a.param = true ∧ s.armedNow a = true then
      (some a.param, ({ s with ras := { s.ras with inj := { s.ras.inj with root := none } } } : State).firedCount 0xF0020 (a.word 32))
    else (none, s)
  | none => (none, s)

/-- Whether a captured parameter stands. -/
def fired (p : Option Nat) : Bool := p.isSome

/-! ## Graft use (R392, R394) -/

/-- Whether a graft configures a cell: a TEMPLATE covers it (R207). -/
def Graft.configures (g : Graft) (x y : Nat) : Bool := g.templates.any (fun t => t.sets.any (fun c => c.has x y))

/-- Whether a cell set meets a rectangle. -/
def CellSet.meets (c : CellSet) (x0 x1 y0 y1 : Nat) : Bool :=
  let hit (a b st lo hi : Nat) : Bool :=
    let f := if lo ≤ a then a else a + (lo - a + max 1 st - 1) / max 1 st * max 1 st
    decide (f ≤ min b hi)
  hit c.x0 c.x1 c.xs x0 x1 && hit c.y0 c.y1 c.ys y0 y1

/-- The logical rectangle of an enabled die. -/
def State.dieRect (s : State) (d : Nat) : Nat × Nat × Nat × Nat :=
  let (x, y) := s.cellAt d 0 0
  (x, x + 143, y, y + 127)

/-- Whether a graft configures a cell of a die. -/
def State.dieConfigured (s : State) (g : Graft) (d : Nat) : Bool :=
  let (x0, x1, y0, y1) := s.dieRect d
  s.dieEnabled d && g.templates.any (fun t => t.sets.any (fun c => c.meets x0 x1 y0 y1))

/-- Whether a graft routes through or binds a tap of a die. -/
def State.dieCrossed (s : State) (g : Graft) (d : Nat) : Bool :=
  let (x0, x1, y0, y1) := s.dieRect d
  s.dieEnabled d && (g.routes.any (fun r => r.set.meets x0 x1 y0 y1) || g.taps.any (fun t => t.1 / 8 == d && t.2 != 0))

/-- Whether a graft uses a die: cells, routes or a bound tap (R392). -/
def State.graftUses (s : State) (g : Graft) (d : Nat) : Bool := s.dieConfigured g d || s.dieCrossed g d

/-- Whether either plane uses a die (R392). -/
def State.dieUsed (s : State) (d : Nat) : Bool :=
  let use (o : Option Graft) : Bool := match o with
    | some g => s.graftUses g d
    | none => false
  use s.graft.active || use s.graft.shadow ||
    ((decide (s.graft.load = .broadcast)) && use s.graft.parsed)

/-- A transit die of the active plane (R394). -/
def State.transitDie (s : State) (d : Nat) : Bool :=
  match s.graft.active with
  | some g => s.dieCrossed g d && ! s.dieConfigured g d
  | none => false

/-- Whether a compute die is in use for thermal control (R407). -/
def State.thermalUse (s : State) (d : Nat) : Bool :=
  match s.graft.active with
  | some g => s.transitDie d || (decide (s.domain d = .on) && s.dieConfigured g d)
  | none => false

/-! ## Sessions and links -/

/-- Changes a session. -/
def State.modSes (s : State) (i : Nat) (f : Session → Session) : State := s.setSes i (f (s.ses i))

/-- Moves a session to a state and raises the SESSION cause (Table 11.3). -/
def State.sesTo (s : State) (i : Nat) (st : SessState) : State :=
  if (s.ses i).st = st then s else (s.modSes i (fun q => { q with st := st })).event 11

/-- The link of a port or half. -/
def EdgePort.link (p : EdgePort) (half : Bool) : LinkState := if half then p.link1 else p.link0

/-- Moves a link to a state and raises the LINK cause (Table 11.3). -/
def State.linkTo (s : State) (p : Nat) (half : Bool) (st : LinkState) : State :=
  let q := s.port p
  if q.link half = st then s
  else (s.setPort p (if half then { q with link1 := st } else { q with link0 := st })).event 10

/-- Whether the active graft reserves slots on a port (R216, R268). -/
def State.reserved (s : State) (p : Nat) : Bool :=
  match s.graft.active with
  | some g => g.sched.reserves.any (fun r => r.port == p)
  | none => false

/-- Adds to the saturating 8-bit failure counts of a port. -/
def State.modPort (s : State) (p : Nat) (f : EdgePort → EdgePort) : State := s.setPort p (f (s.port p))

end Sys2Proof.Machine
end

