-- ==== Sys2Proof/Machine/Gating.lean ====
section
/-!
DEFINITION. The gating tree (R70 to R72): the units of a node, which of them are in use, and which clocks are gated.
-/
namespace Sys2Proof.Machine

/-- Physical cells of a node, by die-local row and column, and the units it names. -/
def GateNode.parts (n : GateNode) : List (Nat × Nat) × List Nat :=
  let rows := (List.range 4).map (4 * (n.cluster / 4) + ·)
  let cols := (List.range 4).map (16 * n.band + 4 * (n.cluster % 4) + ·)
  match n.level with
  | 2 => ((List.range 132).flatMap (fun r => (List.range 16).map (fun c => (r, 16 * n.band + c))), [0, 1, 2])
  | 3 => (rows.flatMap (fun r => cols.map (fun c => (r, c))), [0, 1, 2])
  | _ => ([(rows.getD (n.cell / 4) 0, cols.getD (n.cell % 4) 0)], [n.unit])

/-- The logical cell in a physical cell of an enabled die, if it carries one (R16, R424). -/
def State.logicalAt (s : State) (d row col : Nat) : Option (Nat × Nat) :=
  ((List.range 128).find? (fun r => s.physRow (9 * d + col / 16) r == row)).map (fun r => s.cellAt d col r)

/-- Whether a unit of a physical cell is in use: configured by the active plane, a switch box on one of its routes, or a tap cell's
switch box (R71). -/
def State.unitUsed (s : State) (d row col unit : Nat) : Bool :=
  match s.logicalAt d row col with
  | none => false
  | some (x, y) =>
    (decide (unit = 2) && (s.tapAt x y).isSome) ||
    (match s.graft.active with
     | some g => g.configures x y || (decide (unit = 2) && g.routes.any (fun r => r.set.has x y))
     | none => false)

/-- Whether any unit below a node is in use; a die in the middle of a wake counts whole (R71). Every enabled die has tap cells. A die the
variant disables has no unit in use, so a request that names it is accepted (DESIGN CHOICE, log 72). -/
def State.nodeUsed (s : State) (n : GateNode) : Bool :=
  s.dieEnabled n.die && (decide (s.domain n.die = .waking) || decide (n.level = 1) ||
    n.parts.1.any (fun p => n.parts.2.any (fun u => s.unitUsed n.die p.1 p.2 u)))

/-- Whether one node lies on the path from another to the root, or is it (R70, R71). -/
def GateNode.above (a b : GateNode) : Bool :=
  a.die == b.die && decide (a.level ≤ b.level) && (decide (a.level < 2) || a.band == b.band) &&
    (decide (a.level < 3) || a.cluster == b.cluster) && (decide (a.level < 4) || (a.cell == b.cell && a.unit == b.unit))

/-- Whether a node holds a unit of a physical cell. -/
def GateNode.covers (n : GateNode) (d row col unit : Nat) : Bool :=
  n.die == d && (decide (n.level = 1) || (n.parts.1.contains (row, col) && n.parts.2.contains unit))

/-- Whether the engine itself keeps a unit's clock gated: with compute clocks stopped (Table 14.1) and, while a plane is active, every unit
that is not in use (R70, R71). -/
def State.engineGates (s : State) (d row col unit : Nat) : Bool :=
  decide (2 ≤ s.power.state.code) || (s.graft.active.isSome && ! s.unitUsed d row col unit)

/-- Whether a unit's clock is gated: by the host, or by the engine where the host has not ungated a node above it since. The rows that carry
no logical row stay gated whatever is asked (R70, R187). -/
def State.unitGated (s : State) (d row col unit : Nat) : Bool :=
  (s.logicalAt d row col).isNone || s.clk.gated.any (fun n => n.covers d row col unit) ||
    (s.engineGates d row col unit && ! s.clk.ungated.any (fun n => n.covers d row col unit))

/-- A swap gates and ungates nodes as the new plane requires: what it uses is ungated, what the host had ungated is not (R70). -/
def State.regate (s : State) : State :=
  { s with clk := { s.clk with gated := s.clk.gated.filter (fun n => ! s.nodeUsed n), ungated := [] } }

end Sys2Proof.Machine
end

