-- ==== Sys2Proof/Machine/Operands.lean ====
section
/-!
DEFINITION. What arrives with a command, read by the layouts of the spec: the cycle budget and frequency codes (R57, R58, R66,
R381, R399), job descriptors (Table 8.3), grafts with their sections, checks and loader beats (R203 to R219, R222).
-/
namespace Sys2Proof.Machine

/-! ## Budget and frequency -/

/-- Cycles of a ring at a period, code and spread: floor(P × f × (1 − d_ssc)) (R57, R66, R67). -/
def ringCycles (period code depth : Nat) : Nat := periodNs period * (600 + 25 * code) * (2000 - depth) / 2000000

/-- Spread depth in force; 0 with spread off. -/
def State.depth (s : State) : Nat := if s.clk.sscOn then s.clk.sscDepth else 0

/-- Spread depth as CLK_SSC was last written: in force from the next edge (R67). -/
def State.depthSet (s : State) : Nat := if s.f CLK_SSC_ENABLE = 1 then s.f CLK_SSC_DEPTH else 0

/-- B of R57. -/
def State.budgetAt (s : State) (period code : Nat) : Nat := ringCycles period code s.depth - s.ring.guard

/-- The lowest code from 0 to 120 whose budget holds `need` cycles (R399). -/
def State.fitOf (s : State) (period need : Nat) : Option Nat :=
  (List.range 121).find? (fun c => decide (need ≤ s.budgetAt period c))

/-- Voltage/frequency point q of a die (R381). -/
def State.vfAt (s : State) (d q : Nat) : Nat := s.hwVal (0x010 + 4 * d + q / 4) / 2 ^ (16 * (q % 4)) % 65536 % 128

/-- The rail voltage of point q in mV: 500 mV + 2 mV per step (R381). -/
def State.vfRail (s : State) (d q : Nat) : Nat := 500 + 2 * (s.hwVal (0x010 + 4 * d + q / 4) / 2 ^ (16 * (q % 4)) % 65536 / 2 ^ 7)

/-- The voltage a die runs at: that of the lowest point whose code is at or above the code in force (R381); none where no point is. -/
def State.dieVoltage (s : State) (d : Nat) : Option Nat := ((List.range 16).find? (fun q => decide (s.clk.code ≤ s.vfAt d q))).map (s.vfRail d)

/-- Whether a die's table is valid: codes 0 to 120 rising strictly, every register with a valid slot (R381). -/
def State.vfValid (s : State) (d : Nat) : Bool :=
  (List.range 15).all (fun q => decide (s.vfAt d q < s.vfAt d (q + 1))) && decide (s.vfAt d 15 ≤ 120) &&
  (List.range 4).all (fun k => (s.hwReg (0x010 + 4 * d + k)).newest.isSome)

/-- The enabled compute dies. -/
def State.dies (s : State) : List Nat := (List.range 48).filter s.dieEnabled

/-- The highest code the tables allow: the lowest point-15 code among enabled dies; 48 with an invalid table of any die (R381). -/
def State.vfLimit (s : State) : Nat :=
  if (List.range 48).all s.vfValid then s.dies.foldl (fun m d => min m (s.vfAt d 15)) 120 else 48

/-- CLK_FREQ.MAX_CODE limited by R381. -/
def State.maxCode (s : State) : Nat := min (s.f CLK_FREQ_MAX_CODE) s.vfLimit

/-- Whether C_NEED fits at MAX_CODE under a period (R58, check 8 of Table 7.9). -/
def State.fitsMax (s : State) (period need : Nat) : Bool := decide (need ≤ s.budgetAt period s.maxCode)

/-- C_NEED of the active graft; none with no graft active. -/
def State.activeNeed (s : State) : Option Nat := s.graft.active.map (fun g => g.sched.cNeed)

/-! ## Job descriptors (R237, R238) -/

/-- A binding (Table 8.4). -/
def bindingOf (bs : List Byte) : Binding :=
  let b0 := rd bs 0 1
  ⟨b0 % 16, b0 / 16 % 4, b0.testBit 6, rd bs 1 1 % 16, rd bs 8 8⟩

/-- Whether a binding's reserved bits and fields are in range (Table 8.4); with KIND none only its reserved bits are held (DEDUCED,
log 93). -/
def bindingOk (bs : List Byte) : Bool :=
  let b := bindingOf bs
  decide (rd bs 0 1 / 128 = 0) && decide (rd bs 1 1 / 16 = 0) && zeros (cut bs 2 6) &&
    (decide (b.kind = 0) || (decide (b.addr % 4096 = 0) && (decide (b.kind = 1) || b.output) && (decide (b.kind = 2) || decide (b.addr < 2 ^ 52))))

/-- The descriptor of 128 bytes (Table 8.3). -/
def descOf (bs : List Byte) : Desc :=
  let fl := rd bs 0x12 2
  { seq := rd bs 0 8, jobId := rd bs 8 4, graftId := rd bs 0x0C 4, epoch := rd bs 0x10 2, asap := fl.testBit 0
    recover := decide (fl / 2 % 4 = 1), coppice := fl.testBit 3, steps := rd bs 0x14 4, start := rd bs 0x18 8 % 2 ^ 48
    workStrides := rd bs 0x20 2, updateStrides := rd bs 0x22 1, gateRings := rd bs 0x23 1, sampleExp := rd bs 0x24 1
    journal := rd bs 0x25 1, seed := rd bs 0x28 4, ckptSteps := rd bs 0x2C 4
    bindings := ((List.range 4).map (fun k => bindingOf (cut bs (0x30 + 16 * k) 16))).filter (fun b => b.kind != 0)
    raw := bs }

/-- A binding of a kind. -/
def Desc.binding (d : Desc) (kind : Nat) : Option Binding := d.bindings.find? (fun b => b.kind == kind)

/-- Whether a stream label is bound in a direction. -/
def Desc.bound (d : Desc) (label : Nat) (output : Bool) : Bool :=
  d.bindings.any (fun b => b.kind == 1 && b.label == label && b.output == output)

/-- Whether every field of a descriptor is in range and every reserved bit clear (R237, R238, R259). -/
def descOk (bs : List Byte) : Bool :=
  let d := descOf bs
  let fl := rd bs 0x12 2
  decide (bs.length = 128) && decide (fl / 2 % 4 ≤ 1) && decide (fl / 16 = 0) && decide (1 ≤ d.steps) &&
  decide (rd bs 0x1E 2 = 0) && decide (1 ≤ d.workStrides) && decide (1 ≤ d.gateRings) && decide (d.gateRings ≤ 64) &&
  decide (2 ≤ d.sampleExp) && decide (d.sampleExp ≤ 12) && decide (d.journal ≤ 3) && decide (rd bs 0x26 2 = 0) &&
  (List.range 4).all (fun k => bindingOk (cut bs (0x30 + 16 * k) 16)) &&
  (List.range 16).all (fun l => [true, false].all (fun o =>
    decide ((d.bindings.filter (fun b => b.kind == 1 && b.label == l && b.output == o)).length ≤ 1))) &&
  (decide (d.ckptSteps = 0) || (d.binding 3).isSome)

/-! ## Grafts -/

/-- A cell set (R206). -/
def cellSetOf (n : Nat) : CellSet :=
  ⟨n % 2 ^ 11, n / 2 ^ 11 % 2 ^ 11, n / 2 ^ 22 % 2 ^ 10, n / 2 ^ 32 % 2 ^ 10, n / 2 ^ 42 % 2 ^ 11, n / 2 ^ 53 % 2 ^ 10⟩

/-- Whether a cell set is well formed: steps in range, bit 63 clear (R206). -/
def cellSetOk (n : Nat) : Bool :=
  let c := cellSetOf n
  decide (n < 2 ^ 63) && decide (1 ≤ c.xs) && decide (c.xs ≤ 1151) && decide (1 ≤ c.ys) && decide (c.ys ≤ 767)

/-- The set of one cell. -/
def oneCell (x y : Nat) : CellSet := ⟨x, x, y, y, 1, 1⟩

/-- Rounds up to a multiple of 16. -/
def up16 (n : Nat) : Nat := (n + 15) / 16 * 16

/-- The sections from an offset (R204, R205); `none` where headers, payloads or padding do not fit. -/
def sectionsFrom (bs : List Byte) : Nat → Nat → Option (List Section × Nat)
  | 0, o => some ([], o)
  | n + 1, o =>
    if bs.length < o + 64 then none
    else
      let h := cut bs o 64
      let len := rd h 8 8
      if bs.length < o + 64 + up16 len || ! zeros (cut bs (o + 64 + len) (up16 len - len)) then none
      else
        match sectionsFrom bs n (o + 64 + up16 len) with
        | none => none
        | some (l, e) => some (⟨rd h 0 2, rd h 2 2, rd h 4 4, cut h 16 48, h, cut bs (o + 64) len⟩ :: l, e)

/-- Chunks of 1 MiB of a payload (R204). -/
def mibChunks : Nat → List Byte → List (List Byte)
  | 0, _ => []
  | _, [] => []
  | n + 1, bs => bs.take 1048576 :: mibChunks n (bs.drop 1048576)

/-- The two-level digest of a payload (R204). -/
def sectionDigest (bs : List Byte) : List Byte := sha384 ((mibChunks (bs.length / 1048576 + 1) bs).flatMap sha384)

/-- TEMPLATE records (R209). -/
def templatesOf : Nat → List Byte → Option (List Template)
  | 0, bs => if bs.isEmpty then some [] else none
  | n + 1, bs =>
    let k := rd bs 0 2
    let head := up16 (16 + 8 * k)
    if k = 0 ∨ 4096 < k ∨ bs.length < head + 1024 ∨ zeros (cut bs 2 14) = false ∨
        zeros (cut bs (16 + 8 * k) (head - (16 + 8 * k))) = false ∨
        (List.range k).all (fun i => cellSetOk (rd bs (16 + 8 * i) 8)) = false then none
    else
      (templatesOf n (bs.drop (head + 1024))).map (fun l =>
        ⟨(List.range k).map (fun i => cellSetOf (rd bs (16 + 8 * i) 8)), cut bs head 1024⟩ :: l)

/-- PATCH records (R210); `none` where one does not fit, or its cell word's other bits or its padding are not 0. -/
def patchesOf : Nat → List Byte → Option (List Patch)
  | 0, bs => if bs.isEmpty then some [] else none
  | n + 1, bs =>
    let len := rd bs 6 2
    let size := up16 (8 + len)
    if bs.length < size ∨ zeros (cut bs (8 + len) (size - (8 + len))) = false ∨ rd bs 0 4 / 2 ^ 11 % 2 ^ 5 ≠ 0 ∨
        rd bs 0 4 / 2 ^ 26 ≠ 0 then none
    else
      (patchesOf n (bs.drop size)).map (fun l => ⟨rd bs 0 4 % 2 ^ 11, rd bs 0 4 / 2 ^ 16 % 2 ^ 10, rd bs 4 2, cut bs 8 len⟩ :: l)

/-- Records of a fixed size. -/
def fixedOf (size n : Nat) (bs : List Byte) : Option (List (List Byte)) :=
  if bs.length = size * n then some ((List.range n).map (fun i => cut bs (size * i) size)) else none

/-- A section of a kind. -/
def findSec (l : List Section) (k : Nat) : Option Section := l.find? (fun q => q.kind == k)

/-- Records of a section of fixed-size records; none when the section is absent. -/
def secRecords (l : List Section) (k size : Nat) : Option (List (List Byte)) :=
  match findSec l k with
  | none => some []
  | some q => fixedOf size q.count q.payload

/-- A record of a cell set and bytes 8 to 15. -/
def setRecOf (r : List Byte) : SetRec := ⟨cellSetOf (rd r 0 8), rd r 8 8⟩

/-- The SCHEDULE section (R216, Table 7.6). -/
def schedOf (q : Section) : Option Sched :=
  let b := q.payload
  match if 32 ≤ b.length then fixedOf 16 q.count (b.drop 32) else none with
  | none => none
  | some rs =>
    some { cNeed := rd b 0 2, stride := rd b 2 1, period := rd b 3 1, freePeriod := rd b 4 2
           freeOffsets := (List.range 4).map (fun k => rd b (6 + 2 * k) 2), crossLatency := rd b 14 2
           xposeRings := rd b 16 2
           reserves := (rs.filter (fun r => rd r 0 1 == 1)).map (fun r =>
             ⟨rd r 1 1 % 128, (rd r 1 1).testBit 7, decide (rd r 2 1 = 1), rd r 3 1, rd r 4 4⟩)
           xposes := (rs.filter (fun r => rd r 0 1 == 2)).map (fun r =>
             ⟨rd r 1 1 % 16, rd r 1 1 / 16, rd r 2 1 % 16, rd r 3 1, cellSetOf (rd r 8 8)⟩) }

/-- The order and number of sections: ascending kinds 1 to 11, TEMPLATE, SCHEDULE and SIGNATURE among them, SIGNATURE last
(R205). -/
def sectionsOrdered (l : List Section) : Bool :=
  let ks := l.map (·.kind)
  strictlyUp ks && ks.all (fun k => decide (1 ≤ k) && decide (k ≤ 11)) && [1, 9, 11].all ks.contains &&
  l.all (fun q => decide (q.version = 1)) && decide (3 ≤ l.length) && decide (l.length ≤ 11)

/-- The signed message of a graft: its header and the headers of all sections but SIGNATURE (R218). -/
def graftMessage (bs : List Byte) (secs : List Section) : List Byte :=
  bs.take 64 ++ (secs.filter (fun q => q.kind != 11)).flatMap (·.header)

/-- Reads a staged graft: header and sections by Tables 7.1 to 7.7; `none` where check 1 of Table 7.9 fails. -/
def graftOf (bs : List Byte) (len : Nat) : Option (Graft × List Section) :=
  if bs.length < 64 ∨ rd bs 0 4 ≠ 0x54465247 ∨ rd bs 4 2 ≠ 1 ∨ 2 ≤ rd bs 6 2 ∨ rd bs 0x1E 2 ≠ 0 ∨ rd bs 0x20 8 ≠ bs.length ∨
      1008 * 2 ^ 20 < bs.length ∨ len ≠ bs.length ∨ zeros (cut bs 0x2A 6) = false then none
  else
    match sectionsFrom bs (rd bs 0x28 2) 64 with
    | none => none
    | some (secs, e) =>
      if e ≠ bs.length ∨ sectionsOrdered secs = false then none
      else
        match findSec secs 1, findSec secs 9, findSec secs 11 with
        | some t, some sc, some sg =>
          match templatesOf t.count t.payload,
              (match findSec secs 2 with
               | some q => patchesOf q.count q.payload
               | none => some []), schedOf sc, secRecords secs 3 16, secRecords secs 4 16, secRecords secs 5 16,
              secRecords secs 6 24, secRecords secs 7 4, secRecords secs 8 4, secRecords secs 10 32 with
          | some ts, some ps, some sd, some rt, some wn, some cr, some cl, some tp, some po, some pr =>
            if sg.payload.length ≠ 5329 ∨ sg.count ≠ 1 then none
            else
              some ({
                strict := (rd bs 6 2).testBit 0, id := rd bs 8 4, epoch := rd bs 0x0C 2, variant := rd bs 0x0E 1
                rollbackIdx := rd bs 0x0F 1, svn := rd bs 0x10 8, swapRing := rd bs 0x18 8 % 2 ^ 48
                templates := ts, patches := ps, routes := rt.map setRecOf, windows := wn.map setRecOf
                credits := cr.map setRecOf
                claims := cl.map (fun r => ⟨cellSetOf (rd r 0 8), rd r 8 4 % 2 ^ 11, rd r 8 4 / 2 ^ 16 % 2 ^ 10, rd r 12 1,
                  rd r 13 1, rd r 16 4⟩)
                taps := tp.map (fun r => (rd r 0 4 % 2 ^ 9, rd r 0 4 / 2 ^ 9 % 4))
                ports := po.map (fun r => (rd r 0 4 % 2 ^ 7, rd r 0 4 / 2 ^ 7 % 4, (rd r 0 4).testBit 9))
                sched := sd, predicts := pr.map (fun r => ⟨cellSetOf (rd r 0 8), cut r 8 24⟩)
                message := sha384 (graftMessage bs secs), owner := blockKeyHash sg.payload, unusable := false }, secs)
          | _, _, _, _, _, _, _, _, _, _ => none
        | _, _, _ => none

/-- The binding of a tap: that of the last TAP record that names it (R208, R215). -/
def Graft.tapFunc (g : Graft) (t : Nat) : Nat := ((g.taps.reverse.find? (fun p => p.1 == t)).map (·.2)).getD 0

/-- The role of a port and whether it is split: those of the last PORT record that names it (R208, R215). -/
def Graft.portFunc (g : Graft) (p : Nat) : Nat × Bool := ((g.ports.reverse.find? (fun r => r.1 == p)).map (·.2)).getD (0, false)

/-- The cell sets a graft names, each with its section and record index. -/
def Graft.sets (g : Graft) : List (Nat × CellSet × Nat) :=
  g.templates.zipIdx.flatMap (fun t => t.1.sets.map (fun c => (1, c, t.2)))
    ++ g.patches.zipIdx.map (fun p => (2, oneCell p.1.x p.1.y, p.2))
    ++ g.routes.zipIdx.map (fun r => (3, r.1.set, r.2)) ++ g.windows.zipIdx.map (fun r => (4, r.1.set, r.2))
    ++ g.credits.zipIdx.map (fun r => (5, r.1.set, r.2))
    ++ g.claims.zipIdx.flatMap (fun c => [(6, c.1.set, c.2), (6, oneCell c.1.cx c.1.cy, c.2)])
    ++ g.sched.xposes.zipIdx.map (fun x => (9, x.1.set, x.2)) ++ g.predicts.zipIdx.map (fun p => (10, p.1.set, p.2))

/-- Whether a band holds a cell of a graft: a configured cell, a routed box, or a bound tap (R425). -/
def State.bandInGraft (s : State) (g : Graft) (n : Nat) : Bool :=
  let d := n / 9
  let (x0, _, y0, y1) := s.dieRect d
  let a := x0 + 16 * (n % 9)
  s.dieEnabled d && (g.sets.any (fun p => (p.1 == 1 || p.1 == 3) && p.2.1.meets a (a + 15) y0 y1) ||
    g.taps.any (fun t => t.1 / 8 == d && t.2 != 0 && decide (bandOf (s.tapCell t.1).1 = n % 9)))

/-- Whether two cell sets share a cell. -/
def CellSet.overlaps (a b : CellSet) : Bool := (List.range a.size).any (fun k => b.has (a.at k).1 (a.at k).2)

/-! ## Loader beats (R221, R222) -/

/-- What one loader beat writes: bytes at plane offsets, or a standing credit in each owner's lowest free entry. -/
inductive LoadWrite where
  | bytes (l : List (Nat × Byte)) (covers : Bool)
  | credit (v : Nat)
  deriving DecidableEq, Repr

/-- One loader beat: the sets it is written to and what it writes. -/
structure LoadBeat where
  sets : List CellSet
  what : LoadWrite
  deriving DecidableEq, Repr

/-- Bytes from an offset cut into 16-byte-aligned beats. -/
def beatsOf (off : Nat) (bs : List Byte) : List (List (Nat × Byte)) :=
  let l := (bs.zipIdx).map (fun p => (off + p.2, p.1))
  ((List.range 64).map (fun b => l.filter (fun p => p.1 / 16 == b))).filter (fun q => ! q.isEmpty)

/-- Every beat of a graft, in section and record order (R208, R222). -/
def Graft.beats (g : Graft) : List LoadBeat :=
  g.templates.flatMap (fun t => (beatsOf 0 t.image).map (fun b => ⟨t.sets, .bytes b true⟩))
    ++ g.patches.flatMap (fun p => (beatsOf p.off p.data).map (fun b => ⟨[oneCell p.x p.y], .bytes b false⟩))
    ++ g.routes.map (fun r =>
      let off := if r.val % 256 = 1 then 0x240 + 4 * (r.val / 2 ^ 12 % 16 - 1)
        else 0x180 + 64 * (r.val / 2 ^ 8 % 4) + 4 * (r.val / 2 ^ 12 % 16)
      ⟨[r.set], .bytes (((leBytes 4 (r.val / 2 ^ 32)).zipIdx).map (fun p => (off + p.2, p.1))) false⟩)
    ++ g.windows.map (fun r =>
      ⟨[r.set], .bytes (((leBytes 8 r.val).zipIdx).map (fun p => (0x250 + 8 * (r.val % 16) + p.2, p.1))) false⟩)
    ++ g.credits.map (fun r => ⟨[r.set], .credit r.val⟩)
    ++ (g.claims.zipIdx).flatMap (fun p =>
      let c := p.1
      let set := c.set.x0 + 2 ^ 11 * c.set.x1 + 2 ^ 22 * c.set.y0 + 2 ^ 32 * c.set.y1 + 2 ^ 42 * c.set.xs + 2 ^ 53 * c.set.ys
      let low := ((leBytes 1 (1 + 2 * c.order) ++ leBytes 1 c.counter).zipIdx).map (fun q => (0x3D2 + q.2, q.1))
        ++ ((leBytes 4 c.tiles ++ leBytes 2 p.2).zipIdx).map (fun q => (0x3D8 + q.2, q.1))
      let high := ((leBytes 8 set).zipIdx).map (fun q => (0x3E0 + q.2, q.1))
      [(⟨[oneCell c.cx c.cy], .bytes low false⟩ : LoadBeat), ⟨[oneCell c.cx c.cy], .bytes high false⟩])
    ++ g.predicts.flatMap (fun p => (beatsOf 0x3E8 p.body).map (fun b => ⟨[p.set], .bytes b false⟩))

/-- The logical rectangle of a tap region (R221). -/
def State.tapRect (s : State) (t : Nat) : Nat × Nat × Nat × Nat :=
  let (x, y) := s.cellAt (t / 8) (36 * (t % 8 % 4)) (64 * (t % 8 / 4))
  (x, x + 35, y, y + 63)

/-- The beats that a tap's region takes. -/
def State.tapBeats (s : State) (g : Graft) (t : Nat) : List LoadBeat :=
  let (x0, x1, y0, y1) := s.tapRect t
  g.beats.filter (fun b => b.sets.any (fun c => c.meets x0 x1 y0 y1))

/-- The lowest free standing credit entry of a plane (R213). -/
def Plane.freeCredit (p : Plane) : Option Nat := (List.range 32).find? (fun k => p.nat (0x2D0 + 8 * k) 8 / 2 ^ 26 % 1024 == 0)

/-- Writes a beat into a plane. -/
def Plane.load (p : Plane) : LoadWrite → Plane
  | .bytes l covers => { configured := p.configured || covers, bytes := l.foldl (fun m q => m.write q.1 q.2) p.bytes }
  | .credit v =>
    match p.freeCredit with
    | some k => { p with bytes := p.bytes.writeBytes (0x2D0 + 8 * k) (leBytes 8 v) }
    | none => p

end Sys2Proof.Machine
end

