-- ==== Sys2Proof/Machine/JobCore.lean ====
section
/-!
DEFINITION. The schedule of a job (R240 to R242): step rings, phases, commit ring, stride boundaries and reservation slots; and
the tiles of claim groups (R244, R245, R250).
-/
namespace Sys2Proof.Machine

/-- First ring of the running step. -/
def Job.stepRing (j : Job) : Nat := ringAdd j.s (j.step * j.l)

/-- Rings of the WORK phase. -/
def Job.workRings (j : Job) : Nat := j.desc.workStrides * j.k

/-- Rings of the UPDATE phase. -/
def Job.updateRings (j : Job) : Nat := j.desc.updateStrides * j.k

/-- Offset of a phase's first ring within the step (Table 8.7). -/
def Job.phaseOff (j : Job) : Phase → Nat
  | .work => 0
  | .makeup => j.workRings
  | .gate => j.workRings + j.m
  | .update => j.workRings + j.m + j.desc.gateRings

/-- First ring of a phase of the running step. -/
def Job.phaseRing (j : Job) (p : Phase) : Nat := ringAdd j.stepRing (j.phaseOff p)

/-- The commit ring of the running step: the last ring of GATE (R242). -/
def Job.commitRing (j : Job) : Nat := ringAdd j.stepRing (j.phaseOff .update - 1)

/-- The last ring of the running step. -/
def Job.lastRing (j : Job) : Nat := ringAdd j.stepRing (j.l - 1)

/-- The planned last ring of the job (R242). -/
def Job.plannedLast (j : Job) : Nat := ringAdd j.s (j.desc.steps * j.l - 1)

/-- Whether the running step is the final one. -/
def Job.finalStep (j : Job) : Bool := decide (j.step + 1 = j.desc.steps)

/-- The phase a ring of the running step lies in. -/
def Job.phaseAt (j : Job) (r : Nat) : Phase :=
  let o := ringsTo j.stepRing r
  if o < j.workRings then .work
  else if o < j.workRings + j.m then .makeup
  else if o < j.phaseOff .update then .gate
  else .update

/-- Whether a ring is a stride boundary (R242). -/
def Job.boundary (j : Job) (r : Nat) : Bool :=
  let d := ringsTo (j.phaseRing (j.phaseAt r)) r
  match j.phaseAt r with
  | .work | .update => decide (d % max 1 j.k = 0)
  | .makeup | .gate => decide (d = 0)

/-- The reservation slot of a ring: rings since the latest stride boundary, modulo k (R306). -/
def Job.slot (j : Job) (r : Nat) : Nat := ringsTo (j.phaseRing (j.phaseAt r)) r % max 1 j.k

/-- M of R242: the largest MAKEUP_RINGS of the graft's MAKEUP layers. -/
def Graft.makeup (g : Graft) : Nat :=
  g.predicts.foldl (fun m p => if rd p.body 19 1 / 16 % 4 = 1 then max m (rd p.body 20 1 % 128) else m) 0

/-- Z of R240: zeroing rings, at a code. -/
def State.zeroRings (s : State) (code : Nat) : Nat :=
  let c := ringCycles s.ring.period code s.depth
  (768 + c - 1) / max 1 c

/-- Rings of a phase that are there at all: MAKEUP may have none, and UPDATE none. -/
def Job.hasPhase (j : Job) : Phase → Bool
  | .work => true
  | .makeup => decide (0 < j.m)
  | .gate => true
  | .update => decide (0 < j.updateRings)

/-! ## Claim groups -/

/-- TR and TC of a claim group, in the counter cell's plane (R244). -/
def State.tileGrid (s : State) (c : ClaimRec) : Nat × Nat :=
  let p := (s.cell c.cx c.cy).active
  (p.nat 0x3D4 2, p.nat 0x3D6 2)

/-- One point of the Hilbert walk (R245). -/
def hilbertPoint : Nat → Nat → Nat → Nat → Nat → Nat × Nat
  | 0, _, _, x, y => (x, y)
  | n + 1, t, k, x, y =>
    let rx := t / 2 % 2
    let ry := (t ^^^ rx) % 2
    let (x, y) := if ry = 0 then (if rx = 1 then (k - 1 - y, k - 1 - x) else (y, x)) else (x, y)
    hilbertPoint n (t / 4) (2 * k) (x + k * rx) (y + k * ry)

/-- Least m with n at most 2^m. -/
def log2Up : Nat → Nat → Nat
  | 0, _ => 0
  | f + 1, n => if n ≤ 1 then 0 else 1 + log2Up f ((n + 1) / 2)

/-- The walk from d on: the v-th point kept. -/
def hilbertKeep (m tr tc : Nat) : Nat → Nat → Nat → Option (Nat × Nat)
  | 0, _, _ => none
  | f + 1, d, v =>
    let (x, y) := hilbertPoint m d 1 0 0
    if x < tc ∧ y < tr then
      if v = 0 then some (x, y) else hilbertKeep m tr tc f (d + 1) (v - 1)
    else hilbertKeep m tr tc f (d + 1) v

/-- The tile of claim v: ORDER 1 is OUTPUT_INNER, 0 HILBERT (R245, Table 7.14). -/
def tileOf (order tr tc v : Nat) : Nat :=
  if order = 1 then v
  else
    let m := log2Up 32 (max tr tc)
    match hilbertKeep m tr tc (4 ^ m) 0 v with
    | some (c, r) => r * tc + c
    | none => v

/-- Whether a tile is sampled in a step (R250). -/
def tileSampled (d : Desc) (g step tile : Nat) : Bool :=
  crc32c (leBytes 4 d.seed ++ leBytes 2 g ++ [0xFF, 0xFF] ++ leBytes 4 step ++ leBytes 4 tile) % 2 ^ d.sampleExp == 0

/-- Whether the job runs its tiles statically (R248). -/
def Job.coppice (j : Job) (replay : Bool) : Bool := j.desc.coppice || replay

/-- The counter a claim group uses: its group index by its counter cell. -/
def State.groupAt (s : State) (cx cy : Nat) : Option Nat :=
  match s.graft.active with
  | some a => a.claims.findIdx? (fun c => c.cx == cx && c.cy == cy)
  | none => none

end Sys2Proof.Machine
end

