-- ==== Sys2Proof/Machine/CellExec.lean ====
section
/-!
DEFINITION. Commands of the compute and memory units of one cell (R90 to R120, R146 to R169, R462) and the SPARSE counters.
A cell works when its active plane configures it, it has not been declared dead, and its die is ON; otherwise its commands
change nothing.
-/
namespace Sys2Proof.Machine

/-- Whether a cell has a clock and takes part in the grid: its die is ON and it has not been declared dead (R392, R426). -/
def State.lit (s : State) (x y : Nat) : Bool := ! (s.cell x y).dead && decide (s.domain (s.dieOf x y) = .on) && s.clocked (s.dieOf x y)

/-- Whether a cell works: it is lit, and a TEMPLATE of the active plane covers it (R208). -/
def State.live (s : State) (x y : Nat) : Bool := s.lit x y && (s.cell x y).active.configured

/-- A command on a working cell; on any other cell nothing happens. -/
def State.onLive (s : State) (x y : Nat) (f : State → State) : Res :=
  s.withCell x y (fun s => if s.live x y then f s else s)

/-- FAB_PROBE_CNT counts a unit accepted into the observed input, or a stall there (R202). -/
def State.probe (s : State) (x y : Nat) (net : Net) (p : InPort) (stall : Bool) : State :=
  if s.f FAB_CTRL_PROBE_EN = 1 ∧ s.f FAB_PROBE_SEL_X = x ∧ s.f FAB_PROBE_SEL_Y = y ∧ s.f FAB_PROBE_SEL_NET = net.idx ∧
      s.f FAB_PROBE_SEL_PORT = p.qid then
    s.incSat (if stall then FAB_PROBE_CNT_STALLS else FAB_PROBE_CNT_UNITS) 1
  else s

/-- Units that entered local inputs count at the observed one (R202). -/
def State.probeAll (s : State) (x y : Nat) (l : List (Net × InPort)) : State := l.foldl (fun s p => s.probe x y p.1 p.2 false) s

/-- The owner whose operands a cell's tile reads, where it is a check or a vote (R252). -/
def TileRun.ownerOf (t : TileRun) : Option (Nat × Nat) :=
  match t.work with
  | some w =>
    (match w.role with
     | .owner => none
     | .check ox oy => some (ox, oy)
     | .vote ox oy => some (ox, oy))
  | none => none

/-- Runs an operation that reads operands: from the cell's own memory unit, or for a check or a vote from the owner's under RR (R252). -/
def State.reading (s : State) (x y : Nat) (inj : Bool) (f : Bool → Cell → Cell × List CellEv) : State :=
  let c := s.cell x y
  match c.comp.tile.ownerOf with
  | none => s.cellStep x y inj (f false c)
  | some (ox, oy) =>
    let o := s.cell ox oy
    let (t, ev) := f true (c.borrow o)
    let s1 := (s.setCell ox oy (o.lent t)).setCell x y (c.giveBack t)
    (s1.cellEvents ox oy inj (ev.filter (·.ofMemory))).cellEvents x y inj (ev.filter (fun e => ! e.ofMemory))

/-- A tile with no predictor, or in makeup with the predictor off, has no scores to wait for (R164, R170). -/
def State.settleScore (s : State) (x y : Nat) : State :=
  let c := s.cell x y
  let off := match s.running with
    | some j => decide (j.phase = .makeup)
    | none => false
  if c.active.predictor.isNone || off then s.setCell x y (c.setTile (fun t => { t with scored := true })) else s

/-- Up to 32 headers and groups of a parser cycle, the next of which fails a check by injection when `err` says so (R146, R155,
Table 15.5). -/
def Cell.parseCycle (c : Cell) (err : Option MetaErr) : Cell × List CellEv :=
  match err with
  | none => parseRun c.cfg 32 c
  | some e =>
    let t := c.comp.tile
    let hdr := match t.ctx with
      | some q => q.header
      | none => leNat (((c.comp.fifo c.cfg.weightAg).take 8).map (·.b))
    c.metaFault e (metaDetail hdr t.tileNo t.pRow t.pBlock (t.ctx.map (·.nextGroup)) none [] c.cfg.extent c.cfg.weightAg
      (c.ag c.cfg.weightAg).window)

/-- The check PARAM of DET 1 names. -/
def metaOf : Nat → Option MetaErr
  | 1 => some .count
  | 2 => some .order
  | 3 => some .range
  | 4 => some .header
  | _ => none

/-- Whether the parser has a header or group to read now. -/
def Cell.parses (c : Cell) : Bool := ! c.comp.tile.faulted && decide (parseRun c.cfg 1 c ≠ (c, []))

/-- A parser cycle, after which the terms that have become next are accepted (R91). -/
def Cell.parseAndDrain (c : Cell) (err : Option MetaErr) : Cell × List CellEv :=
  let (c1, e1) := c.parseCycle err
  let (u, e2) := drainAll c1.cfg c1.comp
  ({ c1 with comp := u }, e1 ++ e2)

/-- BLOCK_PARSE: the parser reads what has arrived (R146, R154, R155), once a predicted tile has its scores (R165). -/
def execBlockParse (x y : Nat) (s : State) : Res :=
  s.onLive x y (fun s =>
    let s := s.settleScore x y
    let c := s.cell x y
    if ! c.comp.tile.scored then s
    else
      let (p, s1) := s.fireCell x y 1 (fun p => (metaOf p).isSome && c.parses)
      s1.cellStep x y p.isSome (c.parseAndDrain (p.bind metaOf)))

/-- GROUP_ISSUE: a lane issues its oldest group (R147, R149). -/
def execGroupIssue (x y lane : Nat) (s : State) : Res :=
  s.onLive x y (fun s => s.cellStep x y false ((s.cell x y).issue (s.cell x y).cfg lane))

/-- GROUP_STEAL: an idle lane takes the youngest group of a neighbour (R150 to R152). -/
def execGroupSteal (x y lane : Nat) (s : State) : Res :=
  s.onLive x y (fun s => s.cellStep x y false ((s.cell x y).steal (s.cell x y).cfg lane))

/-- SPAN_LOAD: the next span of activations enters the idle bank (R148). -/
def execSpanLoad (x y : Nat) (s : State) : Res :=
  s.onLive x y (fun s => s.setCell x y ((s.cell x y).loadSpan (s.cell x y).cfg))

/-- Row and column block of a cell's tile: tile r × TC + c of its claim group, with TC from the counter cell's plane (R244). -/
def State.tileBlocks (s : State) (t : TileRun) : Nat × Nat :=
  match t.work with
  | none => (0, 0)
  | some w =>
    (match s.claimRec w.group with
     | some c =>
       let tc := max 1 (s.tileGrid c).2
       (w.tile / tc, w.tile % tc)
     | none => (0, 0))

/-- PREDICT_SCORE: a cell scores its tile: z = V x for its activation columns, then U_j · z (R165 to R169). Nothing is skipped in makeup
(Table 5.8). -/
def execPredictScore (x y : Nat) (s : State) : Res :=
  s.onLive x y (fun s =>
    let c := s.cell x y
    match s.running with
    | none => s
    | some j =>
      if j.phase = .makeup ∨ c.comp.tile.scored = true ∨ c.comp.tile.faulted = true ∨ c.active.predictor = none then s
      else
        let (p, s1) := s.fireCell x y 12 (fun p => p == 2)
        let (rb, cb) := s.tileBlocks c.comp.tile
        s1.reading x y p.isSome (fun f c => c.predict f c.cfg (cellKey x y) j.desc.seed j.step rb cb p.isSome))

/-- The term a row takes next: from its cell's own lanes, or from the network (R91). -/
def Cell.nextTerm (c : Cell) (row : Nat) (net : Bool) : Option Term :=
  if net then
    match sget [] c.box.inbox (ikey .v 1) with
    | u :: _ =>
      let f := termFlit u.data
      if f.row = row then c.comp.remoteTerm c.cfg f.row f.entry f.idx f.sx f.sy f.int f.value u.poison else none
    | [] => none
  else c.comp.flight.find? (fun t => t.row % 8 == row)

/-- A term that was taken leaves where it stood. -/
def Cell.dropTerm (c : Cell) (net : Bool) (t : Term) : Cell :=
  if net then { c with box := { c.box with inbox := smod [] c.box.inbox (ikey .v 1) (·.drop 1) } }
  else { c with comp := { c.comp with flight := c.comp.flight.erase t } }

/-- A term delivered to its row, with an overflow of its addition when `force` says so (R91, R93, Table 15.5): it poisons the tile, and is
raised once a tile. -/
def Cell.takeTerm (c : Cell) (t : Term) (net force : Bool) : Cell × List CellEv :=
  match c.comp.deliver c.cfg t with
  | (u, ev, true) =>
    let c1 := ({ c with comp := u } : Cell).dropTerm net t
    if force && ! u.tile.overflowed then
      (c1.setTile (fun q => { q with overflowed := true, poison := true }), ev ++ [accumOverflow (t.row % 8)])
    else (c1, ev)
  | (_, _, false) => (c, [])

/-- TERM_ACCEPT: a term reaches an accumulator row (R90, R91, R93). -/
def execTermAccept (x y row : Nat) (net : Bool) (s : State) : Res :=
  s.onLive x y (fun s =>
    let c := s.cell x y
    match c.nextTerm row net with
    | none => s
    | some t =>
      let (p, s1) := s.fireCell x y 4 (fun p => decide (p % 8 = row) && c.cfg.isInt && (c.comp.deliver c.cfg t).2.2)
      s1.cellStep x y p.isSome (c.takeTerm t net p.isSome))

/-- OUTPUT_COMPLETE: an output whose list is accepted leaves accumulate (R92). -/
def execOutputComplete (x y row : Nat) (s : State) : Res :=
  s.onLive x y (fun s => s.setCell x y ((s.cell x y).complete (s.cell x y).cfg row))

/-- Whether an event is an audit miss. -/
def isMiss : CellEv → Bool
  | .miss _ _ _ _ => true
  | _ => false

/-- OUTPUT_SET_ACTIVATE: the next output set leaves activate (R97, R102, R462). -/
def execOutputSetActivate (x y : Nat) (s : State) : Res :=
  s.onLive x y (fun s =>
    let c := s.cell x y
    let key := cellKey x y
    let (p, s1) := s.fireCell x y 12 (fun p => p == 1 && (c.activateSet false c.cfg key true).2.any isMiss)
    s1.reading x y p.isSome (fun f c => c.activateSet f c.cfg key p.isSome))

/-- Whether an event is an access outside a window. -/
def isWindow : CellEv → Bool
  | .fault f _ _ => f == ⟨.overflow, 1⟩
  | _ => false

/-- Whether an event is a finished sampled tile that DET 9 names: 0 a check, 1 an owned tile. -/
def isHashOf (p : Nat) : CellEv → Bool
  | .tileDone w _ => w.sampled && (match w.role with
      | .owner => decide (p = 1)
      | .check _ _ => decide (p = 0)
      | .vote _ _ => false)
  | _ => false

/-- The hash of a finished tile with bit 0 inverted (Table 15.5). -/
def flipHash : CellEv → CellEv
  | .tileDone w h => .tileDone w (h ^^^ 1)
  | e => e

/-- Where and when a cell packs. -/
def State.packEnv (s : State) (x y : Nat) (out : Option Nat) : PackEnv := ⟨x, y, cellKey x y, s.graft.tag, s.now, s.mutOk, out⟩

/-- PACK: a cycle of pack, in which the oldest activated output set is converted and its words move on (R99 to R104, R251). -/
def execPack (x y : Nat) (s : State) : Res :=
  s.onLive x y (fun s =>
    let c := s.cell x y
    let go (out : Option Nat) := c.pack c.cfg (s.packEnv x y out)
    let (p, s1) := s.fireCell x y 2 (fun p => (go (some (p % 4))).2.2.any isWindow)
    let r := go (p.map (· % 4))
    let (q, s2) := s1.fireCell x y 9 (fun q => r.2.2.any (isHashOf q))
    (s2.cellStep x y (p.isSome || q.isSome) (r.1, if q.isSome then r.2.2.map flipHash else r.2.2)).probeAll x y r.2.1)

/-- The beat a client reads now, if it reads one. -/
def Cell.readsBeat (c : Cell) (cl : Client) : Option Nat :=
  match cl, c.clientAddr none false cl with
  | .ag _, some (some a) => some (a / 16)
  | _, _ => none

/-- Whether a client reads the last beat of a checked line. -/
def Cell.checksLine (c : Cell) (line : Nat) (cl : Client) : Bool :=
  match cl, c.clientAddr none false cl with
  | .ag n, some (some a) => (c.ag n).check && decide (a / 256 = line) && decide (a % 256 = 240)
  | _, _ => false

/-- Alters the code a detector guards: DET 7 flips bits of a word, DET 8 inverts a CRC bit or clears SEALED (Table 15.5). -/
def MemUnit.spoil (m : MemUnit) (det param : Nat) : MemUnit :=
  if det = 7 then m.upset [(2 * (param % 4096), param / 2 ^ 12 % 4)]
  else
    { m with lines := smod ⟨0, false⟩ m.lines (param % 256) (fun l =>
        if param / 256 % 4 = 1 then { l with crc := l.crc ^^^ 1 } else { l with isSealed := false }) }

/-- The memory unit as an injection leaves it before an access. -/
def Cell.spoilAt (c : Cell) (det : Nat) : Option Nat → Cell
  | some v => { c with mem := c.mem.spoil det v }
  | none => c

/-- BANK_ACCESS: a cycle of port accesses (R106 to R117). `upsets` are the bits found flipped, by word. -/
def execBankAccess (x y : Nat) (clients : List Client) (upsets : List (Nat × Nat)) (s : State) : Res :=
  s.onLive x y (fun s =>
    let s := s.settleScore x y
    let c0 := s.cell x y
    let c : Cell := { c0 with mem := c0.mem.upset upsets }
    let cls := clients.filter c.clientOk
    let all := c.clients cls
    let (p2, s1) := s.fireCell x y 2 (fun p => all.any (fun cl => c.genOf cl == some (p % 4) && (c.clientAddr none false cl).isSome))
    let (p7, s2) := s1.fireCell x y 7 (fun p => all.any (fun cl => c.readsBeat cl == some (p % 4096)))
    let (p8, s3) := s2.fireCell x y 8 (fun p => all.any (c.checksLine (p % 256)))
    let inj := p2.isSome || p7.isSome || p8.isSome
    let env := s.packEnv x y (p2.map (· % 4))
    let s4 := s3.setCell x y ((c.spoilAt 7 p7).spoilAt 8 p8)
    let s5 := if c.comp.tile.places then s4
      else s4.reading x y inj (fun f c => c.bankCycle env.id env.mutOk env.out f (cls.filter (·.reads)))
    s5.cellStep x y inj ((s5.cell x y).ownCycle env cls))

/-- Whether bank `b` of a cell is declared free in a cycle of the ring: by the graft's SCHEDULE, after the cell's ring-end marker (`ended`),
or while no plane configures the cell (R119). -/
def State.bankFree (s : State) (x y b cycle : Nat) (ended : Bool) : Bool :=
  ended || ! (s.cell x y).active.configured ||
    (match s.graft.active with
     | some g =>
       let off := g.sched.freeOffsets.getD b 0
       decide (g.sched.freePeriod ≠ 0) && decide (off ≤ cycle) && decide ((cycle - off) % max 1 g.sched.freePeriod = 0)
     | none => true)

/-- Whether a foreground access to a bank waits (R119). -/
def Cell.bankWanted (c : Cell) (b : Nat) : Bool :=
  (c.clients []).any (fun cl => match c.clientAddr none false cl with
    | some (some a) => decide (a / 16 % 4 = b)
    | _ => false)

/-- SCRUB_ACCESS: the scrubber reads its next beat in a cycle of the ring, where its bank is free (R118 to R120); shedding suspends it
(Table 14.3). `ended` says the cell is past its ring-end marker, `upsets` are the bits found flipped, by word. -/
def execScrubAccess (x y cycle : Nat) (ended : Bool) (upsets : List (Nat × Nat)) (s : State) : Res :=
  s.withCell x y (fun s =>
    let c0 := s.cell x y
    let b := c0.mem.scrubAt / 16 % 4
    if ! s.lit x y ∨ 1 ≤ s.power.memShed ∨ ! s.bankFree x y b cycle ended ∨ c0.bankWanted b = true then s
    else
      let c : Cell := { c0 with mem := c0.mem.upset upsets }
      let (p, s1) := s.fireCell x y 7 (fun p => decide (c.mem.scrubAt / 16 = p % 4096))
      s1.cellStep x y p.isSome (c.spoilAt 7 p).scrub)

/-- SPARSE_CLR_COUNTERS: clears the SPARSE counters and the LAST fields, and what waited for the step's end (R173). -/
def execSparseClrCounters (s : State) : Res :=
  .next ((({ s with pendStep := [] } : State).clearArr SPARSE_CNT_COUNT 12).clearFs
    [SPARSE_META_COUNT_HEADER, SPARSE_META_COUNT_RANGE, SPARSE_META_COUNT_ORDER, SPARSE_META_COUNT_COUNT,
     SPARSE_STATUS_LAST_RING_LO, SPARSE_STATUS_LAST_DIE, SPARSE_STATUS_LAST_META, SPARSE_STATUS_LAST_PRED])

end Sys2Proof.Machine
end

