-- ==== Sys2Proof/Machine/Fabric.lean ====
section
/-!
DEFINITION. Commands of the on-wafer fabric (R174 to R202): arrival at a box input, grants, local delivery, steering units, tap
channels, the watchdog and the FAB registers.
-/
namespace Sys2Proof.Machine

/-! ## Local delivery (R183, R184) -/

/-- Where a local target keeps a message: 0 MEMORY, 1 ACCUM, 4 writer side, 5 claims, 6 answers to claims, 15 discards the rest of it. -/
abbrev InboxClass := Nat

/-- The class of a message by its head, at target MEMORY or ACCUM (Table 6.4); `none`: not accepted. -/
def headClass (net : Net) (target : Nat) (data : Nat) : Option InboxClass :=
  let k := data % 16
  match net with
  | .v =>
    if target = 1 then (if k = 3 then some 1 else none)
    else if k ≤ 1 then some 0
    else if k = 2 then some 4
    else none
  | .s =>
    if target = 1 then none
    else if k = 0 ∨ k = 3 then some 0
    else if k = 1 ∨ k = 2 then some 4
    else if k = 5 ∨ k = 6 then some k
    else none
  | .c => none

/-- Key, in `dropping`, of the message that a local target is receiving: its class plus 1. -/
def localKey (net : Net) (target : Nat) : Nat := 64 + 16 * net.idx + target

/-- Counter of Table 6.13 for a unit delivered to a local target. -/
def deliveredCnt : Net → Nat
  | .v => 0 | .s => 1 | .c => 2

/-- Number of units at the end of an inbox that belong to its last message. -/
def lastMessage (q : List NetUnit) : Nat := (q.reverse.takeWhile (fun u => ! u.head)).length + 1

/-- The ROUTE_MISS fault (R179). -/
def routeMiss (net : Net) (p : InPort) (u : NetUnit) : CellEv := .fault ⟨.graft, 0x101⟩ (fabDetail net p u) true

/-- Delivers a V-net or S-net unit to target MEMORY or ACCUM (R183, R184): the units of a message stay together; a message that
the target does not accept, or whose word count is not its kind's, is discarded and faulted as a route miss. -/
def Cell.deliverLocal (c : Cell) (net : Net) (target : Nat) (p : InPort) (u : NetUnit) : Cell × List CellEv :=
  let b := c.box
  let key := localKey net target
  let cur : Option InboxClass :=
    if u.head then headClass net target u.data
    else match sget 0 b.dropping key with
      | 0 => none
      | k + 1 => some k
  let nextKey (k : Nat) : SMap Nat := sset 0 b.dropping key (if u.tail then 0 else k)
  let miss (evs : List CellEv) : Cell × List CellEv := ({ c with box := { b with dropping := nextKey 16 } }, evs)
  match cur with
  | none => miss [routeMiss net p u, .fab 7 1]
  | some 15 => miss []
  | some k =>
    let inbox := smod [] b.inbox (ikey net k) (· ++ [u])
    let q := sget [] inbox (ikey net k)
    let n := lastMessage q
    let want := match net, q[q.length - n]? with
      | .s, some h => sWords (h.data % 16) n
      | _, _ => some n
    if u.tail ∧ want ≠ some n then
      ({ c with box := { b with dropping := nextKey 0, inbox := sset [] b.inbox (ikey net k) (q.take (q.length - n)) } },
        [routeMiss net p u, .fab 7 1])
    else ({ c with box := { b with dropping := nextKey (k + 1), inbox := inbox } }, [.fab (deliveredCnt net) 1])

/-- A condition token delivered locally enters the token queue of the steering unit whose TOKEN_SRC names its route (R176, R183,
R195). -/
def Cell.deliverTokenNet (c : Cell) (target : Nat) (p : InPort) (u : NetUnit) : Cell × List CellEv :=
  let unit := if target = 2 then c.steer0 else c.steer1
  let cfg := c.steerCfg (target - 2)
  if target < 2 ∨ cfg.tokenRoute ≠ some u.route then (c, [routeMiss .c p u, .fab 7 1])
  else if 16 ≤ unit.tokens.length then (c, [.fault ⟨.overflow, 2⟩ (fabDetail .c p u) true, .fab 8 1])
  else
    let unit' : Steer := { unit with tokens := unit.tokens ++ [u.data % 16] }
    (if target = 2 then { c with steer0 := unit' } else { c with steer1 := unit' }, [.fab 2 1])

/-! ## Neighbours and room (R175) -/

/-- The neighbour that an output faces and the input it enters by; `none` at the edge of the grid and for T and L. -/
def State.neighbour (s : State) (x y : Nat) : OutPort → Option (Nat × Nat × InPort)
  | .n => if y = 0 then none else some (x, y - 1, .s)
  | .s => if s.inGrid x (y + 1) then some (x, y + 1, .n) else none
  | .e => if s.inGrid (x + 1) y then some (x + 1, y, .w) else none
  | .w => if x = 0 then none else some (x - 1, y, .e)
  | .t => none
  | .loc => none

/-- Units crossing a channel toward the limb die, per network. -/
def Tap.toLimb (t : Tap) : Net → List NetUnit
  | .v => t.toLimbV
  | .s => t.toLimbS
  | .c => []

/-- Units in a limb die's receive buffer, per network. -/
def Tap.buf (t : Tap) : Net → List NetUnit
  | .v => t.bufV
  | .s => t.bufS
  | .c => []

/-- Units crossing a channel toward the cell, per network. -/
def Tap.toCell (t : Tap) : Net → List NetUnit
  | .v => t.toCellV
  | .s => t.toCellS
  | .c => []

/-- Sends a unit into a channel toward the limb die. -/
def Tap.sendLimb (t : Tap) (net : Net) (u : NetUnit) : Tap :=
  match net with
  | .v => { t with toLimbV := t.toLimbV ++ [u] }
  | .s => { t with toLimbS := t.toLimbS ++ [u] }
  | .c => t

/-- Sends units into a channel toward the cell. -/
def Tap.sendCell (t : Tap) (net : Net) (us : List NetUnit) : Tap :=
  match net with
  | .v => { t with toCellV := t.toCellV ++ us }
  | .s => { t with toCellS := t.toCellS ++ us }
  | .c => t

/-- Whether an output can take a unit now (R175, R183, R191). Steering targets take units by STEER_ACT alone. -/
def State.outReady (s : State) (x y : Nat) (net : Net) (e : RouteEntry) (route : Nat) (o : OutPort) : Bool :=
  match o with
  | .loc =>
    (match net with
     | .c => true
     | _ => decide (e.target = 0) || (decide (e.target = 1) && (sget [] (s.cell x y).box.inbox (ikey .v 1)).isEmpty))
  | .t =>
    (match s.tapAt x y with
     | some t => decide (((s.tap t).toLimb net).length + ((s.tap t).buf net).length < 192)
     | none => false)
  | _ =>
    (match s.neighbour x y o with
     | some (nx, ny, p) => decide (net = .c) || (s.cell nx ny).roomAt net p route
     | none => false)

/-- Passes a unit to one output. -/
def State.passTo (s : State) (x y : Nat) (net : Net) (e : RouteEntry) (p : InPort) (u : NetUnit) (inj : Bool) (o : OutPort) :
    State :=
  match o with
  | .loc =>
    (match net with
     | .c => s.cellStep x y inj ((s.cell x y).deliverTokenNet e.target p u)
     | _ => s.cellStep x y inj ((s.cell x y).deliverLocal net e.target p u))
  | .t =>
    (match s.tapAt x y with
     | some t => s.setTap t ((s.tap t).sendLimb net u)
     | none => s)
  | _ =>
    (match s.neighbour x y o with
     | some (nx, ny, q) =>
       let c := s.cell nx ny
       s.setCell nx ny { c with box := { c.box with flight := smod [] c.box.flight (qkey net q) (· ++ [u]) } }
     | none => s)

/-- The outputs of an OUT_MASK. -/
def RouteEntry.outs (e : RouteEntry) : List OutPort := allOut.filter (fun o => e.outMask.testBit o.idx)

/-! ## Arrival (R177, R179, R181) -/

/-- Queue identifier of a switch box input (Table 6.10). -/
def inputId (net : Net) (p : InPort) (route : Nat) : Nat :=
  let unit := match p with
    | .lSteer0 => 1 | .lSteer1 => 2 | .lMemory => 3 | _ => 0
  2 ^ 12 + 2 ^ 10 * net.idx + 2 ^ 7 * p.qid + 2 ^ 5 * unit + route

/-- A unit dropped for its tag (R181); under STRICT the die raises ARRIVED at its first such drop (R229). -/
def State.staleDrop (s : State) (x y : Nat) (net : Net) (p : InPort) (u : NetUnit) (inj : Bool) : State :=
  let s1 := s.later (FAB_CNT_COUNT 6) 1
  match s.graft.active with
  | none => s1
  | some g =>
    if ! g.strict then s1
    else
      let d := s.dieOf x y
      let n := sget 0 s1.graft.arrivedCount d + 1
      let s2 : State := { s1 with graft := { s1.graft with arrivedCount := sset 0 s1.graft.arrivedCount d n } }
      if s.graft.arrived.contains d then s2
      else
        let s3 : State := { s2 with graft := { s2.graft with arrived := s2.graft.arrived ++ [d], staleBlock := true } }
        s3.raise ⟨.staleToken, 2⟩ (.cell x y) (n + 2 ^ 32 * inputId net p u.route) true .during inj

/-- How an input stands after a unit: 1 while the rest of a discarded message is dropped, 2 inside an accepted message, else 0. A data
flit of no message has neither HEAD nor TAIL, and discards alone (R179). -/
def nextDrop (st : Nat) (u : NetUnit) (bad : Bool) : Nat :=
  if u.tail then 0 else if u.head then (if bad then 1 else 2) else if bad ∧ st = 2 then 1 else st

/-- A V-net or S-net unit at a box input after its code check: tag, rest of a discarded message, kind, route (R179, R181,
R182). -/
def State.intake (s : State) (x y : Nat) (net : Net) (p : InPort) (u : NetUnit) (miss inj : Bool) : State :=
  let c := s.cell x y
  let k := qkey net p
  if u.tag ≠ s.graft.tag then s.staleDrop x y net p u inj
  else
  let next (bad : Bool) : Cell := { c with box := { c.box with dropping := smod 0 c.box.dropping k (nextDrop · u bad) } }
  if sget 0 c.box.dropping k = 1 ∧ u.head = false then s.setCell x y (next true)
  else
    let discard : State := s.cellStep x y inj (next true, [routeMiss net p u, .fab 7 1])
    let badKind := u.head && decide (net = .v) && decide (4 ≤ u.data % 16)
    match c.active.route net u.route with
    | none => discard
    | some e =>
      if miss ∨ badKind = true ∨ e.inMask.testBit p.idx = false then discard
      else
        match (next false).enqueue net p u e with
        | none => s.setCell x y { c with box := { c.box with flight := smod [] c.box.flight k (u :: ·) } }
        | some r => (s.cellStep x y inj r).probe x y net p false

/-- A unit with POISON set, and the payload and sideband that a link with errors gave: free values (R177; log 1). -/
def NetUnit.garbled (v : Nat) : NetUnit :=
  { route := v % 32, tag := v / 2 ^ 5 % 4, head := v.testBit 7, tail := v.testBit 8, poison := true, data := v / 2 ^ 9 % 2 ^ 128 }

/-- An uncorrectable error on a link: counted in the job, raised, and the second one of the link declares the cell dead (R177). -/
def State.linkError (s : State) (x y : Nat) (net : Net) (p : InPort) (u : NetUnit) (inj : Bool) : State :=
  let c := s.cell x y
  let n := sget 0 c.box.linkUE (qkey net p) + 1
  let c1 : Cell := { c with box := { c.box with linkUE := sset 0 c.box.linkUE (qkey net p) n } }
  s.cellStep x y inj (c1, [.fault ⟨.link, 0x101⟩ (fabDetail net p u) true, .fab 5 1] ++ (if n = 2 then [.dead 4] else []))

/-- A unit's code check (R177): one flipped bit is corrected; more poison the unit, whose payload and sideband are taken as received. -/
def State.linkCheck (s : State) (x y : Nat) (net : Net) (p : InPort) (u : NetUnit) (errs : Nat) (inj : Bool) :
    NetUnit × State :=
  if errs = 0 then (u, s)
  else if errs = 1 then (u, s.later (FAB_CNT_COUNT 4) 1)
  else
    let (v, s1) := s.draw
    (NetUnit.garbled v, s1.linkError x y net p (NetUnit.garbled v) inj)

/-- The code of an input in INJ_NET (R442): the local inputs share L. -/
def InPort.injCode (p : InPort) : Nat := p.qid

/-- Injections at an input: flipped bits, route miss, previous tag (Table 15.5). Answers bits flipped, route missed, previous tag,
and the state. -/
def State.netInject (s : State) (x y : Nat) (net : Net) (p : InPort) : Option Nat × Bool × Bool × State :=
  let (b, s1) := s.fireNet x y net.idx p.injCode 13
  let (m, s2) := s1.fireNet x y net.idx p.injCode 14
  let (g, s3) := s2.fireNet x y net.idx p.injCode 16
  (b, m.isSome, g.isSome, s3)

/-- A V-net or S-net unit reaches an input: injections, code, tag, route. -/
def State.arrive (s : State) (x y : Nat) (net : Net) (p : InPort) (u : NetUnit) (errs : Nat) : State :=
  let (b, m, g, s1) := s.netInject x y net p
  let inj := b.isSome || m || g
  let u1 := if g then { u with tag := (s.graft.tag + 3) % 4 } else u
  let (u2, s2) := s1.linkCheck x y net p u1 (b.getD errs) inj
  s2.intake x y net p u2 m inj

/-- UNIT_ARRIVE: the oldest V-net or S-net unit in flight to an input arrives, with `errs` bits flipped on the link (R177, R179,
R181). -/
def execUnitArrive (x y : Nat) (net : Net) (port : InPort) (errs : Nat) (s : State) : Res :=
  s.withCell x y (fun s =>
    let c := s.cell x y
    match net, c.box.inFlight net port with
    | .c, _ => s
    | _, [] => s
    | _, u :: rest =>
      if ! s.lit x y then s
      else
        let s1 := s.setCell x y { c with box := { c.box with flight := sset [] c.box.flight (qkey net port) rest } }
        s1.arrive x y net port u errs)

/-- TOKEN_ARRIVE: the oldest token in flight to an input enters its queue, or is dropped at a full one (R176); with a parity error
(`err`) it is dropped (R177), with a stale tag dropped (R181), without a route discarded (R178). -/
def execTokenArrive (x y : Nat) (port : InPort) (err : Bool) (s : State) : Res :=
  s.withCell x y (fun s =>
    let c := s.cell x y
    match c.box.inFlight .c port with
    | [] => s
    | u :: rest =>
      if ! s.lit x y then s
      else
        let s1 := s.setCell x y { c with box := { c.box with flight := sset [] c.box.flight (qkey .c port) rest } }
        let (p13, m, g, s2) := s1.netInject x y .c port
        let (p15, s3) := s2.fireNet x y 2 port.injCode 15
        let inj := p13.isSome || m || g || p15.isSome
        let c2 := s3.cell x y
        if err ∨ p13.isSome = true then s3.linkError x y .c port u inj
        else if g ∨ u.tag ≠ s.graft.tag then s3.staleDrop x y .c port u inj
        else
          match c2.active.route .c u.route with
          | none => s3.cellStep x y inj (c2, [routeMiss .c port u, .fab 7 1])
          | some e =>
            if m ∨ e.inMask.testBit port.idx = false then s3.cellStep x y inj (c2, [routeMiss .c port u, .fab 7 1])
            else if p15.isSome ∨ 16 ≤ (c2.box.queue .c port).length then
              s3.cellStep x y inj (c2, [.fault ⟨.overflow, 2⟩ (fabDetail .c port u) true, .fab 8 1])
            else
              (s3.setCell x y { c2 with box := c2.box.setQueue .c port (c2.box.queue .c port ++ [u]) }).probe x y .c port
                false)

/-! ## Grants (R178, R180) -/

/-- Inputs in the round-robin order that starts after the last winner (R180). -/
def roundFrom (w : Nat) : List InPort := allIn.drop (w % 10) ++ allIn.take (w % 10)

/-- Drops head units of local inputs that no entry routes (R179). -/
def State.purgeLocal (s : State) (x y : Nat) (net : Net) : State :=
  [InPort.lPack, .lSteer0, .lSteer1, .lMemory].foldl (fun s p =>
    let c := s.cell x y
    match c.box.queue net p with
    | [] => s
    | u :: rest =>
      let k := qkey net p
      let bad := decide (net = .v) && u.head && decide (4 ≤ u.data % 16) || (match c.active.route net u.route with
        | some e => ! e.inMask.testBit p.idx
        | none => true)
      let drop := sget 0 c.box.dropping k = 1 ∧ u.head = false ∧ net ≠ .c
      if ! bad ∧ ¬ drop then s
      else
        let b := c.box.setQueue net p rest
        let c1 : Cell := { c with box := { b with dropping := smod 0 b.dropping k (nextDrop · u true) } }
        s.cellStep x y false (c1, if drop then [] else [routeMiss net p u, .fab 7 1])) s

/-- Whether an output is free for an input: no message of another input holds it (R180). -/
def Box.openFor (b : Box) (net : Net) (p : InPort) (o : OutPort) : Bool :=
  let h := sget 0 b.holder (okey net o)
  decide (net = .c) || decide (h = 0) || decide (h = p.idx + 1)

/-- Whether the head unit of an input could advance: every output of its route is free for it and takes a unit (R175, R180). `steer` says
that a steering unit takes it locally. -/
def State.headReady (s : State) (x y : Nat) (net : Net) (steer : Bool) (p : InPort) : Option (NetUnit × RouteEntry) :=
  let c := s.cell x y
  match c.box.queue net p with
  | [] => none
  | u :: _ =>
    match c.active.route net u.route with
    | none => none
    | some e =>
      if e.outs.all (fun o => c.box.openFor net p o && ((steer && decide (o = .loc)) || s.outReady x y net e u.route o)) then some (u, e)
      else none

/-- The input an output picks in round-robin order among those whose head needs it (R180); `q` is the input a steering unit takes from. -/
def State.pick (s : State) (x y : Nat) (net : Net) (q : Option InPort) (out : OutPort) : Option InPort :=
  (roundFrom (sget 0 (s.cell x y).box.winner (okey net out))).find? (fun p =>
    match s.headReady x y net (decide (q = some p)) p with
    | some (_, e) => e.outs.contains out
    | none => false)

/-- Whether the head unit of an input advances now: every output of its route grants it (R180). -/
def State.granted (s : State) (x y : Nat) (net : Net) (q : Option InPort) (p : InPort) : Option (NetUnit × RouteEntry) :=
  match s.headReady x y net (decide (q = some p)) p with
  | none => none
  | some (u, e) => if e.outs.all (fun o => s.pick x y net q o == some p) then some (u, e) else none

/-- Moves the head unit of an input to outputs of its route: a HEAD holds them for its message until TAIL (R180). -/
def State.forward (s : State) (x y : Nat) (net : Net) (p : InPort) (u : NetUnit) (e : RouteEntry) (outs : List OutPort) :
    State :=
  let c := (s.cell x y).dequeue net p
  let hold := if net = .c then c.box.holder
    else e.outs.foldl (fun h o => if u.tail then sset 0 h (okey net o) 0 else if u.head then sset 0 h (okey net o) (p.idx + 1) else h)
      c.box.holder
  let win := e.outs.foldl (fun w o => sset 0 w (okey net o) (p.idx + 1)) c.box.winner
  let s1 := s.setCell x y { c with box := { c.box with holder := hold, winner := win } }
  outs.foldl (fun s o => s.passTo x y net e p u false o) s1

/-- What a cell has to send enters its local inputs, and its spill queues move on (R175, R197). -/
def State.pumpCell (s : State) (x y : Nat) : State :=
  let (c, l, ev) := (s.cell x y).refillAll.pumpLocal
  (s.cellStep x y false (c, ev)).probeAll x y l

/-- PORT_GRANT: an output grants one head unit in round-robin order, or goes on with the message that holds it (R178, R180). -/
def execPortGrant (x y : Nat) (net : Net) (out : OutPort) (s : State) : Res :=
  s.onLive x y (fun s =>
    let s0 := (s.pumpCell x y).purgeLocal x y net
    let b := (s0.cell x y).box
    match (s0.pick x y net none out).bind (fun p => (s0.granted x y net none p).map (fun r => (p, r))) with
    | some (p, u, e) => s0.forward x y net p u e e.outs
    | none =>
      -- the observed input stalls when its head needs this output and could not advance
      allIn.foldl (fun s p =>
        match b.queue net p with
        | u :: _ =>
          (match (s0.cell x y).active.route net u.route with
           | some e => if e.outs.contains out then s.probe x y net p true else s
           | none => s)
        | [] => s) s0)

/-! ## Steering (R194 to R196) -/

/-- The input queue of a network whose head is routed to data input `k` of steering unit `n`. -/
def Cell.steerOn (c : Cell) (n k : Nat) (net : Net) : Option (Net × InPort × NetUnit × RouteEntry) :=
  allIn.findSome? (fun p =>
    match c.box.queue net p with
    | [] => none
    | u :: _ =>
      match c.active.route net u.route with
      | some e => if e.outMask.testBit 5 ∧ e.target = 2 + n ∧ e.steerIn = k ∧ e.inMask.testBit p.idx then some (net, p, u, e) else none
      | none => none)

/-- The unit at data input `k` of steering unit `n`: a V-net flit or an S-net word (R183). -/
def Cell.steerSource (c : Cell) (n k : Nat) : Option (Net × InPort × NetUnit × RouteEntry) :=
  match c.steerOn n k .v with
  | some r => some r
  | none => c.steerOn n k .s

/-- A steering unit of a cell. -/
def Cell.steer (c : Cell) (second : Bool) : Steer := if second then c.steer1 else c.steer0

/-- Replaces a steering unit. -/
def Cell.setSteer (c : Cell) (second : Bool) (v : Steer) : Cell :=
  if second then { c with steer1 := v } else { c with steer0 := v }

/-- The units a steering action moves: a count, or until TAIL (Table 6.8). -/
def SteerCfg.action (cfg : SteerCfg) (net : Net) (inp : Nat) (out : Option Nat) (rep : Option Nat) : SteerAct :=
  ⟨net, inp, out, cfg.unitSize, rep, []⟩

/-- The action a unit begins, and its token queue after it, when the token it needs and the head of the data input that token
selects are there (Table 6.9, R195); `at_` gives the network of the unit at a data input. A MERGE token that maps to DISCARD is consumed
alone. -/
def SteerCfg.begin (cfg : SteerCfg) (tokens : List Nat) (at_ : Nat → Option Net) : Option (Option SteerAct × List Nat) :=
  let out0 := cfg.outs[0]?
  match cfg.mode, tokens with
  | .off, _ => none
  | .pass, _ => (at_ 0).map (fun net => (some (cfg.action net 0 out0 none), tokens))
  | .branch, v :: ts =>
    (at_ 0).map (fun net => (some (cfg.action net 0 ((cfg.map.getD v none).bind (fun k => cfg.outs[k]?)) none), ts))
  | .merge, v :: ts =>
    (match cfg.map.getD v none with
     | none => some (none, ts)
     | some k => (at_ k).map (fun net => (some (cfg.action net k out0 none), ts)))
  | .repeatN, n :: ts => (at_ 0).map (fun net => (some (cfg.action net 0 out0 (some n)), ts))
  | _, [] => none

/-- The local input a steering unit injects by. -/
def steerPort (second : Bool) : InPort := if second then .lSteer1 else .lSteer0

/-- One unit taken by an action: forwarded, discarded, or kept for REPEAT; and the action that is left. -/
def SteerAct.take (a : SteerAct) (tag : Nat) (u : NetUnit) : Option SteerAct × List NetUnit × Bool :=
  let done := match a.left with
    | none => u.tail
    | some n => decide (n ≤ 1)
  let left := a.left.map (· - 1)
  let v (o : Nat) : NetUnit := { u with route := o, tag := tag }
  match a.rep, a.out with
  | some n, some o =>
    let buf := a.buf ++ [v o]
    if done then (none, (List.replicate n buf).flatten, decide (n = 0))
    else (some { a with left := left, buf := buf }, [], decide (n = 0))
  | none, some o => (if done then none else some { a with left := left }, [v o], false)
  | _, none => (if done then none else some { a with left := left }, [], true)

/-- STEER_ACT: a steering unit injects a unit it holds, or takes the next unit of the data input its action names, or begins its
next action (R194 to R196). -/
def execSteerAct (x y : Nat) (unit : Bool) (s : State) : Res :=
  s.onLive x y (fun s0 =>
    let s := s0.pumpCell x y
    let c := s.cell x y
    let n := if unit then 1 else 0
    let cfg := c.steerCfg n
    let st := c.steer unit
    let port := steerPort unit
    match st.outgoing with
    | (net, u) :: rest =>
      (match (c.setSteer unit { st with outgoing := rest }).push net port u with
       | none => s
       | some r => (s.cellStep x y false r).probe x y net port false)
    | [] =>
      let act : Option (Option SteerAct × List Nat) := match st.act with
        | some a => some (some a, st.tokens)
        | none => cfg.begin st.tokens (fun k => (c.steerSource n k).map (·.1))
      match act with
      | none => s
      | some (none, ts) => s.setCell x y (c.setSteer unit { st with tokens := ts })
      | some (some a, ts) =>
        let held := s.setCell x y (c.setSteer unit { st with act := some a, tokens := ts })
        match c.steerOn n a.inp a.net with
        | none => held
        | some (net, p, u, e) =>
          if (s.granted x y net (some p) p).isNone then held
          else
            let (left, out, dropped) := a.take s.graft.tag u
            let s1 := s.forward x y net p u e (e.outs.filter (· ≠ .loc))
            let c1 := (s1.cell x y).setSteer unit { st with act := left, tokens := ts, outgoing := out.map (net, ·) }
            s1.cellStep x y false (c1, (if dropped then [.fab 9 1] else []) ++ [.fab (deliveredCnt net) 1]))

/-! ## Taps (R190 to R193) -/

/-- TAP_CHANNEL_DELIVER: the oldest unit crossing a long-reach channel reaches the receiving end: the tap's T input, or the limb
die's buffer (R191, R193). -/
def execTapChannelDeliver (tap : Nat) (net : Net) (toCell : Bool) (errs : Nat) (s : State) : Res :=
  .next <|
    if ! s.tapEnabled tap ∨ s.limbOn (limbOfTap tap) = false then s
    else
      let t := s.tap tap
      let (x, y) := s.tapCell tap
      if toCell then
        match t.toCell net with
        | [] => s
        | u :: rest =>
          if ! s.lit x y ∨ ! (s.cell x y).roomAt net .t u.route then s
          else
            let t1 : Tap := match net with
              | .v => { t with toCellV := rest }
              | .s => { t with toCellS := rest }
              | .c => t
            let s1 := (s.setTap tap t1).arrive x y net .t u errs
            let n := ((s1.cell x y).box.queue net .t).length
            if net = .v then s1.setTap tap { (s1.tap tap) with inHwm := max t.inHwm n } else s1
      else
        match t.toLimb net with
        | [] => s
        | u :: rest =>
          if 192 ≤ (t.buf net).length then s
          else
          let t1 : Tap := match net with
            | .v => { t with toLimbV := rest, bufV := t.bufV ++ [u], outHwm := max t.outHwm (t.bufV.length + 1) }
            | .s => { t with toLimbS := rest, bufS := t.bufS ++ [u] }
            | .c => t
          s.setTap tap t1

/-! ## Watchdog (R421) and registers (R202) -/

/-- WATCHDOG: a configured cell that echoed no token in two consecutive rings is dead (R421). -/
def execWatchdog (x y : Nat) (s : State) : Res :=
  s.onLive x y (fun s => s.declareDead x y 1 none (.ended s.now) false)

/-- FAB_CLR_COUNTERS: clears the FAB counters, what waits for the edge among them, the LAST fields and the high-water fields
(R202). -/
def execFabClrCounters (s : State) : Res :=
  .next <|
    let s1 : State := { s with
      pendRing := skeep (fun k => ! (List.range 12).any (fun i => (FAB_CNT_COUNT i).key == k)) s.pendRing
      taps := smap Tap.reset (fun _ t => { t with inHwm := 0, outHwm := 0 }) s.taps }
    (s1.clearArr FAB_CNT_COUNT 10).clearFs
      [FAB_PROBE_CNT_STALLS, FAB_PROBE_CNT_UNITS, FAB_STATUS_LAST_RING_LO, FAB_STATUS_LAST_DIE, FAB_STATUS_LAST_KIND]

/-- FAB_PROBE_SEL_WRITE: the selection takes effect at the next ring edge, or the write is rejected (R202). Until then it waits
among the counts that reach their registers at an edge. -/
def execFabProbeSelWrite (w : Word64) (s : State) : Res :=
  .next <|
    let p := FAB_PROBE_SEL_PORT.of w
    let x := FAB_PROBE_SEL_X.of w
    let y := FAB_PROBE_SEL_Y.of w
    if 5 < p ∨ FAB_PROBE_SEL_NET.of w = 3 ∨ s.inGrid x y = false ∨ (p = 4 ∧ s.tapAt x y = none) then
      s.flag FAB_STATUS_CFG_REJECT
    else { s with pendRing := sset 0 s.pendRing FAB_PROBE_SEL_Y.key (w.toNat % 2 ^ 26 + 1) }

/-- A selection that waits takes effect (R202). -/
def State.probeSelect (s : State) : State :=
  match sget 0 s.pendRing FAB_PROBE_SEL_Y.key with
  | 0 => s
  | n + 1 =>
    let w := BitVec.ofNat 64 n
    ([FAB_PROBE_SEL_PORT, FAB_PROBE_SEL_NET, FAB_PROBE_SEL_X, FAB_PROBE_SEL_Y].foldl (fun s F => s.put F w) s).clearFs
      [FAB_PROBE_CNT_STALLS, FAB_PROBE_CNT_UNITS]

end Sys2Proof.Machine
end

