-- ==== Sys2Proof/Machine/Remote.lean ====
section
/-!
DEFINITION. Commands of windows, credits and remote access (R121 to R137, R183, R184): write headers and beats, credit requests and
grants, NACKs, remote reads, and the schedule's window operations.
-/
namespace Sys2Proof.Machine

/-- Units the memory unit of a cell has to send wait for its local input (R175). -/
def State.sendUnits (s : State) (x y : Nat) (net : Net) (us : List NetUnit) : State :=
  let c := s.cell x y
  (s.setCell x y { c with mem := { c.mem with out := c.mem.out ++ us.map (net, ·) } }).pumpCell x y

/-- The words of a CREDIT_GRANT (Table 6.5): SESSION and TAG only to a peer. -/
def grantWords (window disp reason units gen rings : Nat) (w : Writer) (tag : Nat) : List Nat :=
  let p : Nat × Nat := match w with
    | .session i _ => (1, i + tag * 2 ^ 10)
    | .cell _ _ => (0, 0)
  [1 + window * 2 ^ 4 + disp * 2 ^ 8 + reason * 2 ^ 10 + units * 2 ^ 13 + p.1 * 2 ^ 23, gen + rings * 2 ^ 16, p.2]

/-- The words of a NACK_CLOSED (Table 6.5). -/
def nackWords (window gen cur dropped offset ox oy : Nat) (w : Writer) : List Nat :=
  let p : Nat × Nat × Nat := match w with
    | .session i e => (1, i, e)
    | .cell _ _ => (0, 0, 0)
  [2 + window * 2 ^ 4 + dropped * 2 ^ 8 + p.1 * 2 ^ 17, gen + cur * 2 ^ 16, ox + oy * 2 ^ 11 + p.2.1 * 2 ^ 21,
   offset + p.2.2 * 2 ^ 12]

/-- The words of a message in units. -/
def wordsOf (us : List NetUnit) : List Nat := us.map (·.data)

/-- A NACK_CLOSED leaves over the S-net for its writer, the tap cell for a peer's message. The spec names no route for it: a free value
(R134, R184; log 21). -/
def State.sendNack (s : State) (x y : Nat) : MemReply → State
  | .nack window gen cur dropped offset w sx sy =>
    s.sendUnits x y .s (sMessage s.graft.tag (Config.nackRoute (cellKey x y) (cellKey sx sy) % 32)
      (nackWords window gen cur dropped offset x y w))
  | .grant _ _ _ _ _ _ _ _ _ _ => s

/-- Removes the first units of an inbox. -/
def Cell.dropInbox (c : Cell) (net : Net) (k n : Nat) : Cell :=
  { c with box := { c.box with inbox := smod [] c.box.inbox (ikey net k) (·.drop n) } }

/-- The units of an inbox. -/
def Cell.inbox (c : Cell) (net : Net) (k : Nat) : List NetUnit := sget [] c.box.inbox (ikey net k)

/-- The first whole message of an inbox: up to and with its TAIL. -/
def firstMessage (q : List NetUnit) : Option (List NetUnit) :=
  let n := (q.takeWhile (fun u => ! u.tail)).length
  if n < q.length then some (q.take (n + 1)) else none

/-- The first whole S-net message of an inbox when its kind is one wanted. -/
def Cell.sHead (c : Cell) (k : Nat) (kinds : List Nat) : Option (List Nat) :=
  match firstMessage (c.inbox .s k) with
  | some us => if kinds.contains ((wordsOf us).headD 15 % 16) then some (wordsOf us) else none
  | none => none

/-- Whether the active graft runs in strict mode (R134, R229). -/
def State.strict (s : State) : Bool :=
  match s.graft.active with
  | some g => g.strict
  | none => false

/-- What a header meets when an injected check fails it (Table 15.5): 1 state, 2 credit, 3 right. -/
def Cell.headerFails (c : Cell) (strict : Bool) (h : VHead) (check : Nat) : Cell × List CellEv × List MemReply :=
  if check = 1 then c.dropClosed strict h
  else if check = 2 then (c, [.fault ⟨.credit, 2⟩ (h.writer.detail h.window) true], [])
  else (c, [.fault ⟨.credit, 3⟩ h.window true], [])

/-- REMOTE_WRITE_HEADER: the header of a WRITE or FILL at the memory unit is accepted or dropped, in a cycle of the ring (R133, R134,
R137, R183). -/
def execRemoteWriteHeader (x y cycle : Nat) (s : State) : Res :=
  s.onLive x y (fun s =>
    match (s.cell x y).inbox .v 0 with
    | [] => s
    | u :: _ =>
      if ! u.head then s
      else
        let c := (s.cell x y).dropInbox .v 0 1
        let (p, s1) := s.fireCell x y 6 (fun p => decide (1 ≤ p) && decide (p ≤ 3))
        let r := match p with
          | some k => c.headerFails s.strict (vHead u.data) k
          | none => c.writeHeader s.strict u.data s.now cycle
        let taken := decide (r.1.mem.msgs ≠ c.mem.msgs)
        let drop := sset 0 r.1.box.dropping beatKey (if taken || u.tail then 0 else 1)
        let c1 : Cell := { r.1 with box := { r.1.box with dropping := drop } }
        r.2.2.foldl (fun s m => s.sendNack x y m) (s1.cellStep x y p.isSome (c1, r.2.1)))

/-- REMOTE_WRITE_BEAT: a data beat at the memory unit is written through port W, where it waits behind the clients before it, or is
discarded with its message (R107, R133). -/
def execRemoteWriteBeat (x y : Nat) (s : State) : Res :=
  s.onLive x y (fun s =>
    match (s.cell x y).inbox .v 0 with
    | [] => s
    | u :: _ =>
      if u.head then s
      else
        let c := s.cell x y
        if sget 0 c.box.dropping beatKey = 1 ∨ c.mem.msgs = [] then
          let c1 := c.dropInbox .v 0 1
          let left := if u.tail then 0 else sget 0 c1.box.dropping beatKey
          s.setCell x y { c1 with box := { c1.box with dropping := sset 0 c1.box.dropping beatKey left } }
        else s.cellStep x y false (c.ownCycle (s.packEnv x y none) (if c.mem.waiting.contains .beat then [] else [.beat])))

/-- Whether a peer's credit request carries an epoch that is not in force (R131, R282). -/
def State.epochStale (s : State) (i epoch : Nat) : Bool :=
  decide (s.sesEpoch i ≠ epoch) || ! (decide ((s.ses i).st = .opened) || decide ((s.ses i).st = .closing))

/-- CREDIT_REQ: a credit request at the owning memory unit is answered with a disposition (R131, Table 4.4). -/
def execCreditReq (x y : Nat) (s : State) : Res :=
  s.onLive x y (fun s =>
    let c := s.cell x y
    match c.sHead 0 [0] with
    | some [w0, w1, w2, w3] =>
      let c1 := c.dropInbox .s 0 4
      let peer := w0.testBit 23
      let ses := fld w2 0 10
      let w : Writer := if peer then .session ses (fld w3 0 16) else .cell (fld w1 0 11) (fld w1 11 10)
      let window := fld w0 4 4
      let (p, s1) := s.fireCell x y 6 (fun p => p == 1 || p == 3)
      let gen := (c.mem.win window).gen
      let none' (disp rings : Nat) : List MemReply :=
        [.grant window disp 0 0 gen rings w (fld w1 0 11) (fld w1 11 10) (fld w2 10 12)]
      let r : Cell × List CellEv × List MemReply := match p with
        | some 1 => (c1, [], none' 1 1)
        | some _ => (c1, [.fault ⟨.credit, 3⟩ window true], none' 3 0)
        | none => c1.creditReq window (fld w0 8 10) w (fld w1 0 11) (fld w1 11 10) (fld w2 10 12)
            (peer && s.epochStale ses (fld w3 0 16))
      let s2 := s1.cellStep x y p.isSome (r.1, r.2.1)
      r.2.2.foldl (fun s m => match m with
        | .grant window disp reason units gen rings w _ _ tag =>
          s.sendUnits x y .s (sMessage s.graft.tag (fld w0 18 5) (grantWords window disp reason units gen rings w tag))
        | .nack _ _ _ _ _ _ _ _ => s) s2
    | _ => s)

/-- Whether a tap's channel takes a message of `n` units toward the limb die (R191). -/
def State.limbRoom (s : State) (x y : Nat) (net : Net) (n : Nat) : Bool :=
  match s.tapAt x y with
  | some t => decide (((s.tap t).toLimb net).length + ((s.tap t).buf net).length + n ≤ 192)
  | none => true

/-- Passes a whole message at a tap cell on to the limb die; it waits while the channel has no room for it (R184, R191). -/
def State.toLimbDie (s : State) (x y : Nat) (net : Net) (us : List NetUnit) : State :=
  if ! s.limbRoom x y net us.length then s
  else
    let s1 := s.setCell x y ((s.cell x y).dropInbox net 4 us.length)
    match s.tapAt x y with
    | some t => us.foldl (fun s u => s.setTap t ((s.tap t).sendLimb net u)) s1
    | none => s1

/-- A disposition at the writer's network interface answers its oldest request for that window (log 23): credit is held under its GEN; after
DEFERRED the writer may ask again so many rings on (R131). -/
def MemUnit.answered (m : MemUnit) (window disp units gen rings now : Nat) : MemUnit :=
  match m.asked.find? (fun a => a.out && a.window == window) with
  | none => m
  | some a =>
    let rest := m.asked.erase a
    if disp = 0 then { m with asked := rest, held := m.held ++ [⟨a.ox, a.oy, window, gen, 64 * units⟩] }
    else { m with asked := rest ++ [{ a with out := false, again := if disp = 1 then some (ringAdd now rings) else none }] }

/-- CREDIT_GRANT: a disposition reaches the writer's network interface (R131); one for a peer goes on to the limb die (R184). -/
def execCreditGrant (x y : Nat) (s : State) : Res :=
  s.onLive x y (fun s =>
    let c := s.cell x y
    match c.sHead 4 [1] with
    | some [w0, w1, _] =>
      if w0.testBit 23 then s.toLimbDie x y .s ((c.inbox .s 4).take 3)
      else
        let c1 := c.dropInbox .s 4 3
        s.setCell x y { c1 with
          mem := c1.mem.answered (fld w0 4 4) (fld w0 8 2) (fld w0 13 10) (fld w1 0 16) (fld w1 16 16) s.now }
    | _ => s)

/-- NACK_RECEIVE: the writer's credit in that window under older generations evaporates (R134); a NACK of a peer's message goes on
to the limb die (R184). -/
def execNackReceive (x y : Nat) (s : State) : Res :=
  s.onLive x y (fun s =>
    let c := s.cell x y
    match c.sHead 4 [2] with
    | some [w0, w1, w2, _] =>
      if w0.testBit 17 then s.toLimbDie x y .s ((c.inbox .s 4).take 4)
      else
        let c1 := c.dropInbox .s 4 4
        let keep (h : HeldCredit) : Bool :=
          ! (h.ox == fld w2 0 11 && h.oy == fld w2 11 10 && h.window == fld w0 4 4 && h.gen != fld w1 16 16)
        s.setCell x y { c1 with mem := { c1.mem with held := c1.mem.held.filter keep } }
    | _ => s)

/-- CREDIT_RELEASE: the owner's schedule returns consumed units to the pool (R131). -/
def execCreditRelease (x y window units : Nat) (s : State) : Res :=
  s.onLive x y (fun s => s.setCell x y ((s.cell x y).creditRelease window units))

/-- What a writer of a standing credit holds after the refresh (R132). -/
def State.bindWriter (s : State) (x y : Nat) (q : Credit) : State :=
  match q.writer, q.standing with
  | .cell wx wy, some n =>
    if s.inGrid wx wy then
      let c := s.cell wx wy
      let held := c.mem.held.filter (fun h => ! (h.ox == x && h.oy == y && h.window == q.window))
      s.setCell wx wy { c with mem := { c.mem with held := held ++ [⟨x, y, q.window, q.gen, n⟩] } }
    else s
  | _, _ => s

/-- Standing credits of a cell are set and bound again, at the owner and at its writers (R132). -/
def State.refreshCell (s : State) (x y : Nat) : State :=
  let c := s.cell x y
  let m := c.mem.refresh c.active s.sesEpoch s.now
  m.credits.foldl (fun s q => s.bindWriter x y q) (s.setCell x y { c with mem := m })

/-- CREDIT_REFRESH: at a stride boundary standing credits are set to their declared count (R132). -/
def execCreditRefresh (x y : Nat) (s : State) : Res :=
  s.onLive x y (fun s =>
    match s.running with
    | some j => if j.boundary s.now then s.refreshCell x y else s
    | none => s)

/-- A close or reopen in a cycle of the ring: a header of that cycle is dropped under the generation it leaves (R137). -/
def State.recallThen (s : State) (x y window cycle : Nat) (f : Cell → MemUnit) : State :=
  let c := s.cell x y
  match c.recall window s.now cycle with
  | none => s.setCell x y { c with mem := f c }
  | some (c1, h) =>
    let r := ({ c1 with mem := f c1 } : Cell).dropClosed s.strict h
    r.2.2.foldl (fun s m => s.sendNack x y m) (s.cellStep x y false (r.1, r.2.1))

/-- WINDOW_CLOSE: the owner's schedule closes a window in a cycle of the ring; it wins over a header of that cycle (R125, R136, R137). -/
def execWindowClose (x y window cycle : Nat) (s : State) : Res :=
  s.onLive x y (fun s =>
    if ((s.cell x y).mem.win window).st ≠ .opened then s else s.recallThen x y window cycle (fun c => c.mem.closeWin window))

/-- WINDOW_OPEN: a CLOSED window opens (R125, R136). -/
def execWindowOpen (x y window : Nat) (s : State) : Res :=
  s.onLive x y (fun s =>
    s.setCell x y { s.cell x y with mem := (s.cell x y).mem.openWin (s.cell x y).active s.sesEpoch window })

/-- WINDOW_REOPEN: an OPEN window is reopened in a cycle of the ring; it wins over a header of that cycle, and at a ring edge it
comes before the refresh of standing credits (R125, R136, R137). -/
def execWindowReopen (x y window cycle : Nat) (s : State) : Res :=
  s.onLive x y (fun s =>
    let m := (s.cell x y).mem
    if (m.win window).st ≠ .opened then s
    else
      let s1 := s.recallThen x y window cycle (fun c => c.mem.reopenWin c.active window)
      if cycle = 0 ∧ m.refreshed = some s.now then s1.refreshCell x y else s1)

/-- WINDOW_CLOSED: a CLOSING window with no message left is CLOSED (R136). -/
def execWindowClosed (x y window : Nat) (s : State) : Res :=
  s.onLive x y (fun s => s.setCell x y { s.cell x y with mem := (s.cell x y).mem.settle window })

/-- The READ_DATA messages that answer a read of up to 256 beats: 16 beats a message in ascending offset (R184). -/
def readMessages (tag route : Nat) (h : VHead) : Nat → List (List Byte × Bool) → List NetUnit
  | 0, _ => []
  | _, [] => []
  | n + 1, bs =>
    let part := bs.take 16
    let head : NetUnit := ⟨route, tag, true, false, false, ({ h with len := part.length - 1 } : VHead).bits⟩
    let data := (part.zipIdx).map (fun p =>
      (⟨route, tag, false, decide (p.2 + 1 = part.length), p.1.2, leNat p.1.1⟩ : NetUnit))
    (head :: data) ++ readMessages tag route { h with offset := h.offset + 16 } n (bs.drop 16)

/-- Reads consecutive beats of a window of a memory unit with their events. -/
def readBeats (id win base : Nat) : Nat → Nat → MemUnit → MemUnit × List (List Byte × Bool) × List CellEv
  | 0, _, m => (m, [], [])
  | n + 1, off, m =>
    let (m1, bs, e1) := m.readBeat id (base + off) (some (win, off))
    let (m2, l, e2) := readBeats id win base n (off + 16) m1
    (m2, (bs.map (·.b), bs.any (·.poison)) :: l, e1 ++ e2)

/-- READ_REQ: an owner answers a remote read with READ_DATA; a stale generation, a window that is not OPEN, a missing right or a
range outside the window answers poisoned beats with NACK set (R123, R133, R136, R184; log 24). It waits while units of earlier answers
wait for the local queue (R175). -/
def execReadReq (x y : Nat) (s : State) : Res :=
  s.onLive x y (fun s0 =>
    let s := s0.pumpCell x y
    let c := s.cell x y
    match (if c.mem.out = [] then c.sHead 0 [3] else none) with
    | some [w0, w1, w2, w3] =>
      let c1 := c.dropInbox .s 0 4
      let window := fld w0 4 4
      let off := fld w1 0 12
      let n := fld w1 12 8 + 1
      let win := c.mem.win window
      let peer := w0.testBit 29
      let h : VHead := ⟨2, 0, window, win.gen, off, x, y, peer, false, if peer then fld w2 21 10 else 0, if peer then fld w3 0 16 else 0⟩
      let poisoned : List (List Byte × Bool) := List.replicate n (List.replicate 16 0, true)
      let answer (c : Cell) (evs : List CellEv) (nack : Bool) (bs : List (List Byte × Bool)) : State :=
        (s.cellStep x y false (c, evs)).sendUnits x y .v
          (readMessages s.graft.tag (fld w0 24 5) { h with nack := nack } 16 bs)
      match c.active.window window with
      | none => answer c1 [.fault ⟨.overflow, 1⟩ window true] true poisoned
      | some d =>
        if ! d.rr then answer c1 [.fault ⟨.credit, 3⟩ window true] true poisoned
        else if win.gen ≠ fld w0 8 16 ∨ win.st ≠ .opened ∨ win.reopening = true then answer c1 [] true poisoned
        else if d.len < 16 * (off + n) then answer c1 [.fault ⟨.overflow, 1⟩ window true] true poisoned
        else
          let (m, bs, evs) := readBeats (cellKey x y) window d.base n (16 * off) c1.mem
          answer { c1 with mem := m } evs false bs
    | _ => s)

/-- READ_DATA: read data reaches the requester's network interface, and from it the generator that reads that window (log 25); data
for a peer goes on to the limb die (R183, R184). -/
def execReadData (x y : Nat) (s : State) : Res :=
  s.onLive x y (fun s =>
    let c := s.cell x y
    match firstMessage (c.inbox .v 4) with
    | none => s
    | some us =>
      match us with
      | [] => s
      | u :: beats =>
        let h := vHead u.data
        if h.peer then s.toLimbDie x y .v us
        else
          let c1 := c.dropInbox .v 4 us.length
          let got := beats.flatMap (fun b => (leBytes 16 b.data).map (fun v => (⟨v, b.poison || h.nack⟩ : PByte)))
          match (List.range 4).find? (fun n => (c.ag n).window == h.window && decide ((c.ag n).port ≠ .w)) with
          | none => s.setCell x y c1
          | some n =>
            s.setCell x y (c1.setComp (fun q => { q with ags := lmod q.ags n (fun r =>
              ⟨r.count + beats.length, r.fifo ++ got⟩) })))

end Sys2Proof.Machine
end

