-- ==== Sys2Proof/Machine/Kem.lean ====
section
/-!
DEFINITION. ML-KEM-1024 (FIPS 203) over SHA-3 and SHAKE (FIPS 202): key pair, encapsulation and decapsulation (R355, R357, R358).
-/
namespace Sys2Proof.Machine

/-! ## Keccak (FIPS 202) -/

/-- The round constants of Keccak-f[1600]. -/
def keccakRC : List Nat :=
  [0x0000000000000001, 0x0000000000008082, 0x800000000000808A, 0x8000000080008000, 0x000000000000808B, 0x0000000080000001,
   0x8000000080008081, 0x8000000000008009, 0x000000000000008A, 0x0000000000000088, 0x0000000080008009, 0x000000008000000A,
   0x000000008000808B, 0x800000000000008B, 0x8000000000008089, 0x8000000000008003, 0x8000000000008002, 0x8000000000000080,
   0x000000000000800A, 0x800000008000000A, 0x8000000080008081, 0x8000000000008080, 0x0000000080000001, 0x8000000080008008]

/-- The rotation of lane x + 5y. -/
def keccakRot : List Nat :=
  [0, 1, 62, 28, 27, 36, 44, 6, 55, 20, 3, 10, 43, 25, 39, 41, 45, 15, 21, 8, 18, 2, 61, 56, 14]

/-- Rotate left on 64 bits. -/
def rotl64 (n x : Nat) : Nat := ((x <<< n) ||| (x >>> (64 - n))) % 2 ^ 64

/-- One round: theta, rho and pi, chi, iota. -/
def keccakRound (a : List Nat) (rc : Nat) : List Nat :=
  let lane (l : List Nat) (x y : Nat) : Nat := l.getD (x % 5 + 5 * (y % 5)) 0
  let col (x : Nat) : Nat := (List.range 5).foldl (fun v y => v ^^^ lane a x y) 0
  let cs := (List.range 5).map col
  let t := (List.range 25).map (fun k => a.getD k 0 ^^^ cs.getD ((k + 4) % 5) 0 ^^^ rotl64 1 (cs.getD ((k + 1) % 5) 0))
  let t := (List.range 25).map (fun k => t.getD k 0)
  let b := (List.range 25).map (fun k =>
    let x := k % 5
    let y := k / 5
    let src := (x + 3 * y) % 5 + 5 * x
    rotl64 (keccakRot.getD src 0) (t.getD src 0))
  let c := (List.range 25).map (fun k =>
    lane b k (k / 5) ^^^ ((2 ^ 64 - 1 - lane b (k % 5 + 1) (k / 5)) &&& lane b (k % 5 + 2) (k / 5)))
  c.set 0 (c.getD 0 0 ^^^ rc)

/-- The permutation. -/
def keccakF (a : List Nat) : List Nat := keccakRC.foldl keccakRound a

/-- The lanes of bytes, eight each, filled with zero lanes. -/
def lanesOf (bs : List Byte) : List Nat := (List.range 25).map (fun k => leNat ((bs.drop (8 * k)).take 8))

/-- Absorbs `n` blocks of `rate` bytes. -/
def absorb (rate : Nat) : Nat → List Nat → List Byte → List Nat
  | 0, a, _ => a
  | n + 1, a, bs => absorb rate n (keccakF (List.zipWith (· ^^^ ·) a (lanesOf (bs.take rate)))) (bs.drop rate)

/-- The first `rate` bytes of a state. -/
def rateBytes (rate : Nat) (a : List Nat) : List Byte :=
  (List.range rate).map (fun k => BitVec.ofNat 8 (a.getD (k / 8) 0 >>> (8 * (k % 8))))

/-- Squeezes `n` blocks. -/
def squeeze (rate : Nat) : Nat → List Nat → List Byte
  | 0, _ => []
  | n + 1, a => rateBytes rate a ++ squeeze rate n (keccakF a)

/-- The sponge with a domain suffix: `len` bytes out. -/
def keccak (rate : Nat) (suffix : Byte) (msg : List Byte) (len : Nat) : List Byte :=
  let fill := rate - msg.length % rate
  let pad : List Byte := if fill = 1 then [suffix ^^^ 0x80] else suffix :: List.replicate (fill - 2) 0 ++ [0x80]
  let m := msg ++ pad
  (squeeze rate ((len + rate - 1) / rate) (absorb rate (m.length / rate) (List.replicate 25 0) m)).take len

/-- SHA3-256. -/
def sha3x256 (msg : List Byte) : List Byte := keccak 136 0x06 msg 32
/-- SHA3-512. -/
def sha3x512 (msg : List Byte) : List Byte := keccak 72 0x06 msg 64
/-- SHAKE128. -/
def shake128 (msg : List Byte) (len : Nat) : List Byte := keccak 168 0x1F msg len
/-- SHAKE256. -/
def shake256 (msg : List Byte) (len : Nat) : List Byte := keccak 136 0x1F msg len

/-! ## Polynomials of ML-KEM: 256 coefficients modulo 3,329 -/

/-- The modulus. -/
def kemQ : Nat := 3329

/-- The seven bits of a number in reverse. -/
def bitRev7 (k : Nat) : Nat := (List.range 7).foldl (fun v b => 2 * v + k / 2 ^ b % 2) 0

/-- The root of pair k of the transform: 17 to the power 2 BitRev7(k) + 1. -/
def kemRoot (k : Nat) : Nat := powQ 12 17 (2 * bitRev7 k + 1)
where
  /-- A power modulo the modulus, over `n` bits of the exponent. -/
  powQ : Nat → Nat → Nat → Nat
    | 0, _, _ => 1
    | n + 1, b, e => (if e % 2 = 1 then b else 1) * powQ n (b * b % kemQ) (e / 2) % kemQ

/-- The value at r of a polynomial given by its coefficients from the lowest. -/
def evalQ (r : Nat) (l : List Nat) : Nat := l.foldr (fun c v => (c + r * v) % kemQ) 0

/-- The even or the odd coefficients. -/
def halfOf (par : Nat) (f : List Nat) : List Nat := (List.range 128).map (fun j => f.getD (2 * j + par) 0)

/-- The number-theoretic transform: pair k holds f modulo X² minus the root of k. -/
def ntt (f : List Nat) : List Nat :=
  let e := halfOf 0 f
  let o := halfOf 1 f
  (List.range 128).flatMap (fun k => let r := kemRoot k; [evalQ r e, evalQ r o])

/-- The inverse transform: 1/128 is 3,303. -/
def invNtt (f : List Nat) : List Nat :=
  let roots := (List.range 128).map kemRoot
  let back (par j : Nat) : Nat :=
    3303 * ((List.zipWith (fun r v => v * kemRoot.powQ 12 (kemRoot.powQ 12 r 3327) j) roots (halfOf par f)).foldl (· + ·) 0) % kemQ
  (List.range 128).flatMap (fun j => [back 0 j, back 1 j])

/-- The product of two transforms, pair by pair. -/
def mulNtt (f g : List Nat) : List Nat :=
  (List.range 128).flatMap (fun k =>
    let a0 := f.getD (2 * k) 0
    let a1 := f.getD (2 * k + 1) 0
    let b0 := g.getD (2 * k) 0
    let b1 := g.getD (2 * k + 1) 0
    [(a0 * b0 + a1 * b1 % kemQ * kemRoot k) % kemQ, (a0 * b1 + a1 * b0) % kemQ])

/-- The sum and the difference of two polynomials. -/
def addQ (f g : List Nat) : List Nat := List.zipWith (fun a b => (a + b) % kemQ) f g
/-- The difference of two polynomials. -/
def subQ (f g : List Nat) : List Nat := List.zipWith (fun a b => (a + kemQ - b) % kemQ) f g

/-- The product of a row of transforms with a vector of them. -/
def dotNtt (row v : List (List Nat)) : List Nat := (List.zipWith mulNtt row v).foldl addQ (List.replicate 256 0)

/-- The bits of bytes, lowest first. -/
def bitsLe (bs : List Byte) : List Nat := bs.flatMap (fun b => (List.range 8).map (fun k => b.toNat / 2 ^ k % 2))

/-- Bytes of a bit list, lowest first, `n` of them. -/
def bytesLe : Nat → List Nat → List Byte
  | 0, _ => []
  | n + 1, l => BitVec.ofNat 8 ((l.take 8).foldr (fun b v => b + 2 * v) 0) :: bytesLe n (l.drop 8)

/-- ByteEncode: 256 coefficients of `d` bits. -/
def encodeQ (d : Nat) (f : List Nat) : List Byte := bytesLe (32 * d) (f.flatMap (fun c => (List.range d).map (fun k => c / 2 ^ k % 2)))

/-- ByteDecode: 256 coefficients of `d` bits, modulo the modulus for 12. -/
def decodeQ (d : Nat) (bs : List Byte) : List Nat :=
  let l := bitsLe bs
  (List.range 256).map (fun k => ((l.drop (d * k)).take d).foldr (fun b v => b + 2 * v) 0 % (if d = 12 then kemQ else 2 ^ d))

/-- Compression of a coefficient to `d` bits. -/
def compressQ (d c : Nat) : Nat := (2 ^ (d + 1) * c + kemQ) / (2 * kemQ) % 2 ^ d
/-- Decompression of a coefficient from `d` bits. -/
def expandQ (d c : Nat) : Nat := (2 * kemQ * c + 2 ^ d) / 2 ^ (d + 1)

/-- The coefficients below the modulus that triples of bytes spell. -/
def acceptQ : List Byte → List Nat
  | a :: b :: c :: rest =>
    let d1 := a.toNat + 256 * (b.toNat % 16)
    let d2 := b.toNat / 16 + 16 * c.toNat
    (if d1 < kemQ then [d1] else []) ++ (if d2 < kemQ then [d2] else []) ++ acceptQ rest
  | _ => []

/-- SampleNTT: a transform from a seed, of 8 blocks of SHAKE128. -/
def sampleNtt (seed : List Byte) : List Nat := (acceptQ (shake128 seed 1344)).take 256

/-- A small polynomial from 128 bytes: differences of two sums of two bits. -/
def sampleCbd (bs : List Byte) : List Nat :=
  let l := bitsLe bs
  (List.range 256).map (fun k => (l.getD (4 * k) 0 + l.getD (4 * k + 1) 0 + kemQ - l.getD (4 * k + 2) 0 - l.getD (4 * k + 3) 0) % kemQ)

/-- Small polynomials from a seed, numbers `first` on, `n` of them. -/
def smallPolys (seed : List Byte) (first n : Nat) : List (List Nat) :=
  (List.range n).map (fun k => sampleCbd (shake256 (seed ++ [BitVec.ofNat 8 (first + k)]) 128))

/-- Row `r` of the matrix of a seed, or of its transpose. -/
def matrixRow (rho : List Byte) (transposed : Bool) (r : Nat) : List (List Nat) :=
  (List.range 4).map (fun c => sampleNtt (rho ++ (if transposed then [BitVec.ofNat 8 r, BitVec.ofNat 8 c] else [BitVec.ofNat 8 c, BitVec.ofNat 8 r])))

/-! ## The scheme, with four polynomials, compression to 11 and 5 bits -/

/-- A key pair from two random strings of 32 bytes: encapsulation key (1,568 bytes), decapsulation key (3,168 bytes). -/
def kemKeys (d z : List Byte) : List Byte × List Byte :=
  let g := sha3x512 (d ++ [4])
  let rho := g.take 32
  let s := (smallPolys (g.drop 32) 0 4).map ntt
  let e := (smallPolys (g.drop 32) 4 4).map ntt
  let t := (List.range 4).map (fun r => addQ (dotNtt (matrixRow rho false r) s) (e.getD r []))
  let ek := t.flatMap (encodeQ 12) ++ rho
  (ek, s.flatMap (encodeQ 12) ++ ek ++ sha3x256 ek ++ z)

/-- The four polynomials of `d` bits a coefficient that bytes spell. -/
def polysOf (d : Nat) (bs : List Byte) : List (List Nat) := (List.range 4).map (fun k => decodeQ d ((bs.drop (32 * d * k)).take (32 * d)))

/-- Encryption of a 32-byte message under an encapsulation key with randomness: 1,568 bytes. -/
def kemEncrypt (ek m r : List Byte) : List Byte :=
  let t := polysOf 12 ek
  let rho := ek.drop 1536
  let y := (smallPolys r 0 4).map ntt
  let e1 := smallPolys r 4 4
  let e2 := (smallPolys r 8 1).getD 0 []
  let u := (List.range 4).map (fun k => addQ (invNtt (dotNtt (matrixRow rho true k) y)) (e1.getD k []))
  let v := addQ (addQ (invNtt (dotNtt t y)) e2) ((decodeQ 1 m).map (expandQ 1))
  u.flatMap (fun f => encodeQ 11 (f.map (compressQ 11))) ++ encodeQ 5 (v.map (compressQ 5))

/-- Decryption of a ciphertext. -/
def kemDecrypt (dk c : List Byte) : List Byte :=
  let u := (polysOf 11 c).map (fun f => f.map (expandQ 11))
  let v := (decodeQ 5 (c.drop 1408)).map (expandQ 5)
  let w := subQ v (invNtt (dotNtt (polysOf 12 dk) (u.map ntt)))
  encodeQ 1 (w.map (compressQ 1))

/-- Whether bytes are an encapsulation key: the length, and every coefficient below the modulus. -/
def kemKeyOk (ek : List Byte) : Bool := ek.length == 1568 && (polysOf 12 ek).flatMap (encodeQ 12) == ek.take 1536

/-- Encapsulation under a key with 32 random bytes: shared secret and ciphertext. -/
def kemEncaps (ek m : List Byte) : List Byte × List Byte :=
  let g := sha3x512 (m ++ sha3x256 ek)
  (g.take 32, kemEncrypt ek m (g.drop 32))

/-- Decapsulation: the shared secret, or the implicit rejection value where the ciphertext is not the message's. -/
def kemDecaps (dk c : List Byte) : List Byte :=
  let ek := (dk.drop 1536).take 1568
  let m := kemDecrypt dk c
  let g := sha3x512 (m ++ (dk.drop 3104).take 32)
  if kemEncrypt ek m (g.drop 32) = c then g.take 32 else shake256 (dk.drop 3136 ++ c) 32

end Sys2Proof.Machine
end

