-- ==== Sys2Proof/Machine/Wire.lean ====
section
/-!
DEFINITION. Frames byte for byte: the Ethernet frame with its FCS (R264), the Sap header and its encryption (R269 to R272), and the two
handshake messages with the keys they lead to (R355 to R357).
-/
namespace Sys2Proof.Machine

/-! ## Ethernet (R264) -/

/-- The frame check sequence of IEEE 802.3, as it is sent. -/
def fcs (bs : List Byte) : List Byte := leBytes 4 (crcBytes 0xEDB88320 0xFFFFFFFF 0xFFFFFFFF bs)

/-- An Ethernet frame as received: addresses, VLAN tag if it has one, EtherType, what follows, and whether its FCS matches. -/
structure RawFrame where
  dst : Nat
  src : Nat
  vlan : Option Nat
  etherType : Nat
  body : List Byte
  fcsOk : Bool
  deriving DecidableEq, Repr

/-- Splits the bytes of an Ethernet frame; its fields keep 802.3 byte order. -/
def rawFrame (bs : List Byte) : RawFrame :=
  let m := bs.take (bs.length - 4)
  let tagged := beNat (cut m 12 2) == 0x8100
  { dst := beNat (cut m 0 6), src := beNat (cut m 6 6), vlan := if tagged then some (beNat (cut m 14 2)) else none
    etherType := beNat (cut m (if tagged then 16 else 12) 2), body := m.drop (if tagged then 18 else 14)
    fcsOk := fcs m == bs.drop (bs.length - 4) }

/-- The bytes of an Ethernet frame. -/
def ethBytes (dst src : Nat) (vlan : Option Nat) (etherType : Nat) (body : List Byte) : List Byte :=
  let tag : List Byte := match vlan with
    | some v => beBytes 2 0x8100 ++ beBytes 2 v
    | none => []
  let m := beBytes 6 dst ++ beBytes 6 src ++ tag ++ beBytes 2 etherType ++ body
  m ++ fcs m

/-! ## The Sap frame (R269 to R271) -/

/-- A flag as a number. -/
def flagOf (b : Bool) (k : Nat) : Nat := if b then 2 ^ k else 0

/-- The 32-byte header of a frame (Table 9.3). -/
def Frame.header (f : Frame) : List Byte :=
  leBytes 1 1 ++ leBytes 1 f.typ
    ++ leBytes 2 (flagOf f.resp 0 + flagOf f.ackValid 1 + flagOf f.nak 2 + flagOf f.late 3 + flagOf f.more 4 + f.cls * 2 ^ 5 + f.attempt * 2 ^ 7)
    ++ leBytes 2 f.session ++ leBytes 2 f.epoch ++ leBytes 6 f.stamp ++ leBytes 2 f.data.length ++ leBytes 4 f.seq ++ leBytes 4 f.ack
    ++ leBytes 2 f.credit ++ leBytes 2 f.deadline ++ [0, 0, 0, 0]

/-- The frame that a header and the decrypted rest spell (Table 9.3). -/
def frameOf (h fields data : List Byte) : Frame :=
  let fl := rd h 2 2
  { typ := rd h 1 1, resp := fl.testBit 0, ackValid := fl.testBit 1, nak := fl.testBit 2, late := fl.testBit 3, more := fl.testBit 4
    cls := fl / 2 ^ 5 % 4, attempt := fl / 2 ^ 7 % 8, session := rd h 4 2, epoch := rd h 6 2, stamp := rd h 8 6, seq := rd h 16 4
    ack := rd h 20 4, credit := rd h 24 2, deadline := rd h 26 2, fields := fields, data := data }

/-- Field bytes of a frame: 32 for STREAM_OPEN, STREAM_DATA and STREAM_WRITE, 16 for every other type and for a response (Tables 9.4, 9.5;
log 50). -/
def fieldLen (typ : Nat) (resp : Bool) : Nat := if resp = false ∧ (typ = 3 ∨ typ = 5 ∨ typ = 6) then 32 else 16

/-- The nonce of a frame: its count, ATTEMPT and SPACE, 1 for acknowledgement frames (R270). -/
def frameNonce (count attempt space : Nat) : List Byte := leBytes 8 count ++ leBytes 1 attempt ++ leBytes 1 space ++ [0, 0]

/-- Header, encrypted fields and data, and tag of a frame under a key (R264, R269, R270). -/
def Frame.seal (f : Frame) (key : List Byte) (count space : Nat) : List Byte :=
  let (ct, tag) := gcmSeal key (frameNonce count f.attempt space) f.header (padTo (fieldLen f.typ f.resp) f.fields ++ f.data)
  f.header ++ ct ++ tag

/-- A handshake frame: in clear, with a zero tag (R270). -/
def Frame.clear (f : Frame) : List Byte := f.header ++ padTo (fieldLen f.typ f.resp) f.fields ++ f.data ++ List.replicate 16 0

/-- The body of a frame after its header: encrypted fields and data, then the tag. -/
def bodyText (body : List Byte) : List Byte := cut body 32 (body.length - 48)
/-- The tag of a frame (R264). -/
def bodyTag (body : List Byte) : List Byte := body.drop (body.length - 16)

/-- Whether a body has the length its header gives it (Table 9.3). -/
def lengthOk (body : List Byte) : Bool :=
  decide (body.length = 48 + fieldLen (rd body 1 1) ((rd body 2 2).testBit 0) + rd body 14 2) && decide (rd body 14 2 ≤ 4096)

/-- The frame whose plaintext follows a header. -/
def plainFrame (body plain : List Byte) : Frame :=
  let n := fieldLen (rd body 1 1) ((rd body 2 2).testBit 0)
  frameOf body (plain.take n) (plain.drop n)

/-- Opens a frame under a key, at a count of a space; none where its tag fails (R270). -/
def openFrame (key body : List Byte) (count space : Nat) : Option Frame :=
  (gcmOpen key (frameNonce count (rd body 2 2 / 2 ^ 7 % 8) space) (body.take 32) (bodyText body) (bodyTag body)).map (plainFrame body)

/-! ## Handshake messages (R355 to R357, Table 12.8) -/

/-- A handshake message up to its certificate. -/
def handshakeHead (flags ring : Nat) (nonce owner point kem : List Byte) : List Byte :=
  leBytes 2 flags ++ List.replicate 8 0 ++ leBytes 6 ring ++ padTo 32 (nonce.take 32) ++ owner ++ point ++ kem

/-- Where the certificate of a message ends: before SIG_ECDSA and SIG_HSS. -/
def certEnd (m : List Byte) : Nat := m.length - (96 + 5076)

/-- The certificate of a message. -/
def certIn (m : List Byte) : List Byte := cut m 1761 (certEnd m - 1761)

/-- A certificate's keys: the ECDSA key and the HSS keys it carries (R345, R358). -/
def certKeys (cert : List Byte) (store : Bool) : List Byte × List (List Byte) :=
  if store then (cut cert 64 97, [cut cert 176 60]) else (cut cert 64 97, (List.range 16).map (fun g => cut cert (176 + 60 * g) 60))

/-- Which signatures of a message fail under keys, bit 0 ECDSA and bit 1 HSS; `before` stands ahead of the message's own bytes, and each
signature covers every earlier byte, SIG_HSS the ECDSA signature too (R355). -/
def messageFails (before m : List Byte) (keys : List Byte × List (List Byte)) : Nat :=
  let n := certEnd m
  (if ecdsaVerify keys.1 (before ++ m.take n) (cut m n 96) then 0 else 1) +
    (if keys.2.any (fun k => hssVerify k (before ++ m.take (n + 96)) (cut m (n + 96) 5076)) then 0 else 2)

/-- HKDF-Extract of both shared secrets under a salt that hashes both messages (R357, R358). -/
def sharedPrk (first second z k : List Byte) : List Byte := hkdfExtract (sha384 (first ++ second)) (z ++ k)

/-- The session secret S (R357). -/
def sessionSecret (opn ack z k : List Byte) : List Byte := hkdfExpand (sharedPrk opn ack z k) (ascii "zw sap secret") 48

/-- The key of an epoch in a direction: 0 from initiator to responder, 1 back (R357). -/
def sapKey (secret : List Byte) (epoch dir : Nat) : List Byte := hkdfExpand secret (ascii "zw sap key" ++ leBytes 2 epoch ++ leBytes 1 dir) 32

/-- K_host (R358). -/
def hostKey (inp reply z k : List Byte) : List Byte := hkdfExpand (sharedPrk inp reply z k) (ascii "zw host key") 32

end Sys2Proof.Machine
end

