-- ==== Sys2Proof/Machine/SapCore.lean ====
section
/-!
DEFINITION. What the Sap commands share (chapter 9): message fields, sending and acknowledging frames, pending requests, local
completion, lost sessions and epochs, and Sap faults.
-/
namespace Sys2Proof.Machine

/-! ## Message fields (Table 9.5) -/

/-- Fields of a WRITE, READ or CREDIT request. -/
def reqFields (tap route window gen offset x y count reply : Nat) : List Byte :=
  leBytes 2 tap ++ leBytes 1 route ++ leBytes 1 window ++ leBytes 2 gen ++ leBytes 2 offset ++ leBytes 2 x ++ leBytes 2 y
    ++ leBytes 2 count ++ leBytes 1 reply ++ [0]

/-- Fields of a response. -/
def respFields (disp reason rings reqSeq gen count nack : Nat) : List Byte :=
  leBytes 1 disp ++ leBytes 1 reason ++ leBytes 2 rings ++ leBytes 4 reqSeq ++ leBytes 2 gen ++ leBytes 2 count
    ++ leBytes 1 nack ++ [0, 0, 0]

/-- Fields of a STREAM_OPEN. -/
def openFields (base len label mode : Nat) : List Byte :=
  padTo 32 (leBytes 8 base ++ leBytes 8 len ++ leBytes 1 label ++ leBytes 1 mode)

/-- Fields of a STREAM_READ. -/
def streamFields (addr chunks : Nat) : List Byte := padTo 16 (leBytes 8 addr ++ leBytes 2 chunks)

/-- Fields of a STREAM_DATA or STREAM_WRITE. -/
def chunkFields (addr version : Nat) (tag : List Byte) : List Byte := leBytes 8 addr ++ leBytes 8 version ++ padTo 16 (tag.take 16)

/-- Fields of a NOTICE of KIND 1. -/
def noticeFields (window gen cur x y dropped seq : Nat) : List Byte :=
  [1] ++ leBytes 1 window ++ leBytes 2 gen ++ leBytes 2 cur ++ leBytes 2 x ++ leBytes 2 y ++ leBytes 2 dropped ++ leBytes 4 seq

/-- Fields of a CONTROL frame. -/
def ctlFields (op cause index remote epoch disp reason rings : Nat) : List Byte :=
  padTo 16 (leBytes 1 op ++ leBytes 1 cause ++ leBytes 2 index ++ leBytes 2 remote ++ leBytes 2 epoch ++ leBytes 1 disp
    ++ leBytes 1 reason ++ leBytes 2 rings)

/-- A data frame of a type and class, with a deadline in rings. -/
def dataFrame (typ cls deadline : Nat) (fields data : List Byte) : Frame :=
  { Frame.blank typ with cls := cls, deadline := deadline, fields := fields, data := data }

/-- A CONTROL frame. -/
def ctlFrame (op cause index remote epoch : Nat) : Frame :=
  { Frame.blank 10 with fields := ctlFields op cause index remote epoch 0 0 0 }

/-- OP of a CONTROL frame. -/
def Frame.op (f : Frame) : Nat := if f.typ = 10 then rd f.fields 0 1 else 0

/-- An acknowledgement frame (R276). -/
def Frame.isAck (f : Frame) : Bool := f.op == 8

/-- The deadline ring of a frame, if it has one (R279). -/
def Frame.due (f : Frame) : Option Nat := if f.deadline = 0 then none else some (ringAdd f.stamp f.deadline)

/-! ## Faults (R279, R285) -/

/-- DETAIL of a Sap record: port or half, session and SEQ stand in it where these apply; the spec does not say where (log 7). -/
def State.sapDetail (s : State) (i seq : Nat) : Nat :=
  Config.sapDetail ((s.ses i).port + 128 * bit (s.ses i).half) i seq

/-- A PEER fault of a session. -/
def State.peerFault (s : State) (code i seq : Nat) (stops inj : Bool) : State :=
  s.raise ⟨.peer, code⟩ (.session i) (s.sapDetail i seq) stops .during inj

/-- PEER/REFUSED; STREAM_STATUS shows its REASON (R308, R312). -/
def State.refusedFault (s : State) (i reason : Nat) (inj : Bool) : State :=
  (s.raise ⟨.peer, 6⟩ (.session i) reason true .during inj)

/-- A DEADLINE_MISS record: one for a session, code and ring, whose DETAIL counts (R279). -/
def State.deadlineFault (s : State) (code i ring : Nat) (w : When) (inj : Bool) : State :=
  let same (r : FaultRec) : Bool := r.cls == .deadlineMiss && r.code == code && r.src == .session i && r.ring == ring
  if s.ras.log.any same then
    { s with ras := { s.ras with log := s.ras.log.map (fun r => if same r then { r with detail := r.detail + 1 } else r) } }
  else s.raise ⟨.deadlineMiss, code⟩ (.session i) 1 true w inj

/-! ## Sending -/

/-- Whether a session carries data now: OPEN. -/
def State.isOpen (s : State) (i : Nat) : Bool := decide ((s.ses i).st = .opened)

/-- Whether frames of a session are still received: OPEN or CLOSING (R281). -/
def State.isLive (s : State) (i : Nat) : Bool := decide ((s.ses i).st = .opened) || decide ((s.ses i).st = .closing)

/-- Whether the home port's role suits a session's kind (R266). -/
def State.roleOk (s : State) (i : Nat) : Bool :=
  decide ((s.port (s.ses i).port).role = if (s.ses i).store then 1 else 2)

/-- Whether the home link of a session is UP. -/
def State.linkUp (s : State) (i : Nat) : Bool := decide ((s.port (s.ses i).port).link (s.ses i).half = .up)

/-- The VLAN tag of frames sent, with VLAN_EN (R264). -/
def State.vlanTag (s : State) : Option Nat :=
  if s.f EDGE_CTRL_VLAN_EN = 1 then some (s.f EDGE_CTRL_PCP * 2 ^ 13 + s.f EDGE_CTRL_VLAN_ID) else none

/-- The Ethernet bytes of a Sap frame from a port or half to an address (R264). -/
def State.ethOf (s : State) (port : Nat) (half : Bool) (mac : Nat) (body : List Byte) : List Byte :=
  ethBytes mac (s.macOf port half) s.vlanTag (s.f EDGE_CTRL_ETHERTYPE) body

/-- A frame leaves on its session's home port under a key, at a count of a space, with ACK and CREDIT current; the report is made (R264,
R270, R277). -/
def State.emitUnder (s : State) (i : Nat) (f : Frame) (key : List Byte) (count space : Nat) : State :=
  let q := s.ses i
  let f' := { f with session := q.remote.getD 0xFFFF, ackValid := true, ack := q.expect % 2 ^ 32, late := q.lateDue,
                     credit := s.f SAP_CONFIG_RX_WINDOW, seq := count % 2 ^ 32 }
  (s.setSes i { q with ackDue := false, lateDue := false }).send (.frame q.port q.half (s.ethOf q.port q.half q.mac (f'.seal key count space)))

/-- A frame of the epoch in force leaves; without keys none can (R270). -/
def State.emit (s : State) (i : Nat) (f : Frame) (count space : Nat) : State :=
  match (s.ses i).keys with
  | some k => s.emitUnder i f k.1 count space
  | none => s

/-- An acknowledgement frame, with NAK for a gap, under the next count of its own space (R276, R277). -/
def State.sendAck (s : State) (i : Nat) (nak : Bool) : State :=
  let q := s.ses i
  let f := { ctlFrame 8 0 i (q.remote.getD 0xFFFF) 0 with nak := nak, epoch := s.sesEpoch i, stamp := s.now }
  let s1 := (s.modSes i (fun q => { q with ackTx := q.ackTx + 1 })).emit i f q.ackTx 1
  if nak then s1.inc (SAP_CNT_COUNT 3) 1 else s1

/-- The rings from now to a deadline ring, at least 1. -/
def State.ringsLeft (s : State) (d : Nat) : Nat := if ringBefore s.now d then ringsTo s.now d else 1

/-- Changes a pending request. -/
def State.modPend (s : State) (k tag : Nat) (f : PendReq → PendReq) : State :=
  let l := s.limb k
  s.setLimb k { l with pending := l.pending.map (fun r => if r.tag = tag then f r else r) }

/-- Removes a pending request. -/
def State.dropPend (s : State) (k tag : Nat) : State :=
  let l := s.limb k
  s.setLimb k { l with pending := l.pending.filter (fun r => r.tag != tag) }

/-- First transmission of a queued frame: it takes the next count and the ring as RING_STAMP (R269, R276). -/
def State.transmit (s : State) (i : Nat) (t : TxFrame) : State :=
  let q := s.ses i
  let tap := t.frame.session
  let f := { t.frame with seq := q.txNext % 2 ^ 32, epoch := s.sesEpoch i, stamp := s.now,
                          deadline := match t.due with
                            | some d => s.ringsLeft d
                            | none => t.frame.deadline }
  let s1 := (s.modSes i (fun q => { q with
    txNext := q.txNext + 1, queue := q.queue.erase t, unacked := q.unacked ++ [{ t with count := q.txNext, frame := f }] })).emit i f q.txNext 0
  let s2 := match t.req with
    | some (k, tag) => s1.modPend k tag (fun r => { r with seq := some f.seq })
    | none => s1
  let s3 := if f.typ = 1 then
      let l := s2.limb (limbOfTap tap)
      s2.setLimb (limbOfTap tap) { l with outWrites := ((i, f.seq, tap) :: l.outWrites).take 4096 }
    else s2
  s3.inc (SAP_CNT_COUNT 0) 1

/-- A control frame that is sent at once as a data frame of the session (R281). -/
def State.sendNow (s : State) (i : Nat) (f : Frame) : State := s.transmit i ⟨0, f, none, none, false⟩

/-- The 64-bit count nearest E with the given low 32 bits (R276). -/
def nearestCount (e lo : Nat) : Nat :=
  let base := e / 2 ^ 32 * 2 ^ 32 + lo
  if base + 2 ^ 31 < e then base + 2 ^ 32
  else if e + 2 ^ 31 < base ∧ 2 ^ 32 ≤ base then base - 2 ^ 32
  else base

/-! ## Pending requests (R273) -/

/-- The lowest free index of a limb die's table; `none` when it is full. -/
def Limb.freeTag (l : Limb) : Option Nat :=
  if 4096 ≤ l.pending.length then none else (List.range 4096).find? (fun t => l.pending.all (fun r => r.tag != t))

/-- An empty pending request. -/
def PendReq.blank (kind : ReqKind) (session : Nat) : PendReq :=
  { tag := 0, kind := kind, inward := false, session := session, seq := none, cls := 0, due := none, tap := 0, x := 0, y := 0
    route := 0, reply := 0, window := 0, gen := 0, offset := 0, count := 0, label := 0, chunk := 0, addr := 0, reissue := none
    parent := 0, done := 0, chunks := [], frame := Frame.blank 0 }

/-- Keeps a request in a limb die's table; `none` when it is full. -/
def State.addPend (s : State) (k : Nat) (r : PendReq) : Option (State × Nat) :=
  let l := s.limb k
  l.freeTag.map (fun t => (s.setLimb k { l with pending := l.pending ++ [{ r with tag := t }] }, t))

/-- Sends a request from a limb die's table on its session. -/
def State.sendPend (s : State) (k tag : Nat) (r : PendReq) : State :=
  s.queueReq r.session r.frame r.due (some (k, tag))

/-- The pending request of this engine that a response on a session answers: its limb die and entry. -/
def State.findReq (s : State) (i seq : Nat) : Option (Nat × PendReq) :=
  (List.range 12).findSome? (fun k =>
    ((s.limb k).pending.find? (fun r => r.session == i && ! r.inward && r.seq == some seq)).map (fun r => (k, r)))

/-! ## Messages toward cells -/

/-- A V-net message of up to 16 data flits from a tap (Table 6.3). -/
def vMessage (tag route : Nat) (h : VHead) (data : List (List Byte × Bool)) : List NetUnit :=
  (⟨route, tag, true, data.isEmpty, false, h.bits⟩ : NetUnit) ::
    (data.zipIdx).map (fun p => ⟨route, tag, false, decide (p.2 + 1 = data.length), p.1.2, leNat p.1.1⟩)

/-- Sends units of a function from a tap towards its cell. A tap that is bound to the function no longer takes none: what the limb die holds
for an old binding is discarded (R192, R227). -/
def State.fromTap (s : State) (func t : Nat) (net : Net) (us : List NetUnit) : State :=
  if (s.tap t).func = func then s.setTap t ((s.tap t).sendCell net us) else s

/-- Bytes as beats of 16. -/
def beats16 : Nat → List Byte → List (List Byte)
  | 0, _ => []
  | _, [] => []
  | n + 1, bs => bs.take 16 :: beats16 n (bs.drop 16)

/-- READ_DATA of a read to its requester through the tap it came by (R273, R284). -/
def State.answerRead (s : State) (r : PendReq) (gen : Nat) (nack : Bool) (data : List Byte) : State :=
  let (x, y) := s.tapCell r.tap
  let bs : List (List Byte × Bool) :=
    if nack then List.replicate r.count (List.replicate 16 0, true) else (beats16 r.count data).map (fun b => (b, false))
  s.fromTap 2 r.tap .v (readMessages s.graft.tag r.reply ⟨2, 0, r.window, gen, r.offset, x, y, false, nack, 0, 0⟩ 16 bs)

/-- CREDIT_GRANT to the requester through the tap it came by (R273, R308). -/
def State.answerCredit (s : State) (r : PendReq) (disp reason units gen rings : Nat) : State :=
  s.fromTap 2 r.tap .s (sMessage s.graft.tag r.reply (grantWords r.window disp reason units gen rings (.cell r.x r.y) 0))

/-- The 16 FILL messages of one chunk (R293): tap cell as writer, poison in place of data that failed. -/
def State.fillChunk (s : State) (r : PendReq) (n : Nat) (data : Option (List Byte)) : State :=
  let (x, y) := s.tapCell r.tap
  let bs : List (List Byte × Bool) := match data with
    | some d => (beats16 256 d).map (fun b => (b, false))
    | none => List.replicate 256 (List.replicate 16 0, true)
  s.fromTap 1 r.tap .v ((List.range 16).flatMap (fun m =>
    vMessage s.graft.tag r.route ⟨1, 15, r.window, r.gen, r.offset + 256 * n + 16 * m, x, y, false, false, 0, 0⟩
      ((bs.drop (16 * m)).take 16)))

/-! ## Chunks of a cell's stream READ (R293 to R299) -/

/-- The cache entry of an address and version. -/
def Limb.entry (l : Limb) (addr v : Nat) : Option CacheEntry := l.cache.find? (fun e => e.addr == addr && e.version == v)

/-- Sends the fills of a cell's request that can go, in ascending order; a request whose fills have all gone is done (R293). -/
def State.advance : Nat → State → Nat → Nat → State
  | 0, s, _, _ => s
  | n + 1, s, k, tag =>
    match (s.limb k).pending.find? (fun r => r.tag == tag) with
    | none => s
    | some r =>
      let next (s : State) : State := State.advance n (s.modPend k tag (fun r => { r with done := r.done + 1 })) k tag
      match r.chunks[r.done]? with
      | none => s.dropPend k tag
      | some .failed => next (s.fillChunk r r.done none)
      | some (.ready v) => next (s.fillChunk r r.done (((s.limb k).entry (r.addr + 4096 * r.done) v).map (·.data)))
      | some .idle => s
      | some .asked => s

/-- Moves chunks lo to lo + n - 1 of a cell's request to a state, and sends what can go. -/
def State.setChunks (s : State) (k tag lo n : Nat) (c : ChunkSt) : State :=
  State.advance 258 (s.modPend k tag (fun r =>
    { r with chunks := r.chunks.zipIdx.map (fun p => if lo ≤ p.2 ∧ p.2 < lo + n then c else p.1) })) k tag

/-- The tree chunk a chunk's version waits for, if the tree unit does not know it (R368). -/
def State.missingTree (s : State) (addr : Nat) : Option Nat :=
  match s.version (addr / 4096) with
  | .ok _ => none
  | .error (l, i) => some (treeChunk s.extent l i)

/-- Every chunk that waits for a tree chunk fails (R368). -/
def State.failTree (s : State) (t : Nat) : State :=
  (List.range 12).foldl (fun s k => ((s.limb k).pending.filter (fun r => r.kind == .stream)).foldl (fun s r =>
    let hit (n : Nat) : Bool := s.missingTree (r.addr + 4096 * n) == some t
    State.advance 258 (s.modPend k r.tag (fun r => { r with chunks := r.chunks.zipIdx.map (fun p =>
      if p.1 = .idle ∧ hit p.2 = true then .failed else p.1) })) k r.tag) s) s

/-- A refused request returns its result: READ_DATA with NACK, CREDIT_GRANT with the disposition, or poisoned fills (R284,
R303, R308, R368); a stream write or open stays as it is, unacknowledged or unserved. -/
def State.refuseResult (s : State) (r : PendReq) (reason : Nat) : State :=
  match r.kind with
  | .read => s.answerRead r r.gen true []
  | .credit => s.answerCredit r 2 reason 0 r.gen 0
  | .streamRead =>
    let lo := (r.addr - ((((s.limb (limbOfTap r.tap)).pending.find? (fun q => q.tag == r.parent)).map (·.addr)).getD 0)) / 4096
    s.setChunks (limbOfTap r.tap) r.parent (lo + r.done) (r.count - r.done) .failed
  | .treeRead => s.failTree ((r.addr - 2 ^ 51) / 4096)
  | .stream | .gather | .streamWrite | .streamOpen => s

/-! ## Store writes that fail (R300, R303) -/

/-- The group a sent STREAM_WRITE belongs to; a write that no group holds any more counts as checkpoint traffic. -/
def State.writeGroup (s : State) (r : PendReq) : Nat :=
  ((s.stream.writes.find? (fun w => w.session == r.session && w.addr == r.addr && ! w.acked)).map (·.group)).getD 1

/-! ## Local completion, loss, epochs (R281 to R284, R303) -/

/-- Completes every pending request of a session locally and raises DIE_RESET at the own end or PEER_RESET (R284). A write of a
store owes a DISCARD (R303). -/
def State.completeLocal (s : State) (i : Nat) (own inj : Bool) : State :=
  let mine (r : PendReq) : Bool := r.session == i
  let out := (List.range 12).flatMap (fun k => (s.limb k).pending.filter (fun r => mine r && ! r.inward))
  let s1 := (List.range 12).foldl (fun s k =>
    let l := s.limb k
    s.setLimb k { l with pending := l.pending.filter (fun r => ! mine r) }) s
  let s2 := out.foldl (fun s r => s.refuseResult r 4) s1
  let owes := out.any (fun r => r.kind == .streamWrite)
  let update := out.any (fun r => r.kind == .streamWrite && s.writeGroup r == 0)
  let s3 : State := if owes then { s2 with stream := { s2.stream with oweDiscard := s2.stream.oweDiscard ++ [i] } } else s2
  let s3 := if update then s3.syncBut [i] false 0 else s3
  if out.isEmpty then s3
  else (s3.inc (SAP_CNT_COUNT (if own then 12 else 11)) out.length).peerFault (if own then 2 else 1) i 0 true inj

/-- The epoch in force as the previous one, for GRACE rings (R282). -/
def State.epochPast (s : State) (i : Nat) : Option PrevEpoch :=
  let q := s.ses i
  q.keys.map (fun k => ⟨s.sesEpoch i, ringAdd s.now (s.f SAP_CONFIG_GRACE), k.1, k.2, q.txNext, q.expect⟩)

/-- A session is CLOSED: nothing of it is kept but its epoch; S is erased, and the keys of its last epoch stay for the grace period
when `grace` says so (R281, R357). -/
def State.closeSes (s : State) (i : Nat) (grace : Bool) : State :=
  let r := { Session.reset with epoch := (s.ses i).epoch, prev := if grace then s.epochPast i else none }
  (s.sesTo i .closed).setSes i r

/-- The session command in progress on an index ends with a RESULT (R288). -/
def State.cmdDone (s : State) (i result : Nat) : State :=
  if s.sessCmd.busy = some i then { s with sessCmd := ⟨none, result⟩ } else s

/-- A session is lost: PEER/SESSION_LOST, or AUTH_FAIL at the tag failure limit; its requests complete with PEER_RESET (R278,
R281). -/
def State.loseSes (s : State) (i code seq : Nat) (inj : Bool) : State :=
  ((s.peerFault code i seq true inj).completeLocal i false inj).closeSes i false

/-- The keys of an epoch from the session secret, toward and from the peer (R357). -/
def Session.keysAt (q : Session) (epoch : Nat) : Option (List Byte × List Byte) :=
  q.secret.map (fun x => (sapKey x epoch (if q.initiator then 0 else 1), sapKey x epoch (if q.initiator then 1 else 0)))

/-- The epoch of a session advances by 1: new keys from the session's secret, both counts restart, and the previous epoch's keys
stay for GRACE rings (R282, R357). -/
def State.advanceEpoch (s : State) (i : Nat) : State :=
  let prev := s.epochPast i
  let next := (s.sesEpoch i + 1) % 65536
  let s1 := s.modSes i (fun q => { q with
    epoch := q.epoch + 1, prev := prev, keys := q.keysAt next, tagFails := 0, txNext := 0, unacked := []
    queue := q.queue.filter (fun t => t.req.isNone && t.frame.typ != 10), expect := 0, held := [], inbox := []
    ackDue := false, lateDue := false, ackTx := 0, acks := [], ackRx := 0, epochSent := false })
  if s1.stream.oweDiscard.contains i then
    let q := s1.ses i
    let t : TxFrame := ⟨0, syncFrame 4 s.stream.mark.1 s.stream.mark.2.1 s.stream.mark.2.2, none, none, false⟩
    (({ s1 with stream := { s1.stream with oweDiscard := s1.stream.oweDiscard.filter (· != i) } } : State).setSes i
      { q with queue := t :: q.queue }).inc (STREAM_CNT_COUNT 10) 1
  else s1

/-- A local domain reset on a session's scope: CONTROL EPOCH goes out, or waits for the link, pending requests complete with
DIE_RESET; the session takes its new epoch when EPOCH_ACK arrives (R281, R283). -/
def State.epochReset (s : State) (i cause : Nat) (inj : Bool) : State :=
  if ! s.isOpen i then s
  else
    let s1 := s.completeLocal i true inj
    let f := ctlFrame 4 cause i ((s1.ses i).remote.getD 0xFFFF) ((s1.sesEpoch i + 1) % 65536)
    let s2 := s1.modSes i (fun q => { q with epochSent := true })
    if s2.linkUp i then s2.sendNow i f else s2.modSes i (fun q => { q with queue := ⟨0, f, none, none, false⟩ :: q.queue })

/-- The indices of every session that is not at its reset value. -/
def State.sesKeys (s : State) : List Nat := s.sess.map (·.1)

/-- Sessions that wait for a step boundary open or begin to close (R281). -/
def State.sessionBoundary (s : State) : State :=
  s.sesKeys.foldl (fun s i =>
    let q := s.ses i
    if q.openReady then ((s.modSes i (fun q => { q with openReady := false })).sesTo i .opened).cmdDone i 0
    else if q.closeReady then
      (s.modSes i (fun q => { q with closeReady := false, closeSince := s.now })).sesTo i .closing
    else s) s

/-- A handshake succeeded with a secret: epoch advanced, keys installed, counts at 0; OPEN at once or at the next step boundary (R281, R282,
R357). -/
def State.opened (s : State) (i : Nat) (secret : List Byte) (initiator : Bool) : State :=
  let s0 := s.modSes i (fun q => { q with secret := some secret, initiator := initiator, shake := none, queue := [] })
  let s1 := ((s0.advanceEpoch i).inc (BARK_CNT_COUNT 4) 1).modSes i (fun q =>
    { q with prev := none, window := 128, openReady := s.busyJob })
  if s.busyJob then s1 else (s1.sesTo i .opened).cmdDone i 0

end Sys2Proof.Machine
end

