-- ==== Sys2Proof/Machine/EdgeExec.lean ====
section
/-!
DEFINITION. Commands of edge links and of frame delivery (R261 to R279, R306): link states, frames received and sent,
acknowledgements, retransmission, deadlines.
-/
namespace Sys2Proof.Machine

/-! ## Links (R31, R267, R268) -/

/-- The halves of a port: .1 is a link of its own only on a split port (R262). -/
def EdgePort.halves (p : EdgePort) : List Bool := if p.split then [false, true] else [false]

/-- DETECT with a cable present: auxiliary power goes on, and the link negotiates or trains (Table 9.2). Power removed after an
overcurrent stays off until a cable is plugged in again (R31). -/
def State.detect (s : State) (p : Nat) (half : Bool) : State :=
  let q := s.port p
  if q.link half ≠ .detect ∨ q.present = false then s
  else
    let s1 := if s.f (EDGE_PORT_CTRL_AUX_EN p) = 1 ∧ q.auxOff = false then s.modPort p (fun q => { q with auxOn := true }) else s
    s1.linkTo p half (if s.f (EDGE_PORT_CTRL_MEDIA p) = 0 ∧ s.f (EDGE_PORT_CTRL_AN_EN p) = 1 then .negotiate else .train)

/-- Adds to a saturating count. -/
def satAdd (w n k : Nat) : Nat := min (2 ^ w - 1) (n + k)

/-- Causes that LINK/DOWN names (Table 9.2): lock lost, uncorrectable codewords, RETRAIN, no cable; the numbers are the model's (log 7). -/
inductive DownCause where
  | lock | codewords | retrain | noCable
  deriving DecidableEq, Repr

/-- The number of a cause. -/
def DownCause.code : DownCause → Nat
  | .lock => 1 | .codewords => 2 | .retrain => 3 | .noCable => 4

/-- A LINK record: LINK/DOWN is counted, and it stops the step's commit on a port the active plane reserves (R268). -/
def State.linkFault (s : State) (p : Nat) (half : Bool) (code cause : Nat) (inj : Bool) : State :=
  let s1 := s.modPort p (fun q => if code = 1 then { q with downs := satAdd 16 q.downs 1 }
    else if code = 2 then { q with trainFails := satAdd 8 q.trainFails 1 } else q)
  s1.raise ⟨.link, code⟩ (.port p half) (Config.sapDetail (p + 128 * bit half) 0 cause) (code ≠ 2 && s.reserved p) .during inj

/-- An UP link leaves UP (Table 9.2). -/
def State.leaveUp (s : State) (p : Nat) (half : Bool) (st : LinkState) (cause : DownCause) (inj : Bool) : State :=
  if (s.port p).link half = .up then (s.linkFault p half 1 cause.code inj).linkTo p half st else s

/-- ADMIN_EN_WRITE (R267, R287): ignored on a port the variant disables. -/
def execAdminEnWrite (port : Nat) (b : Bool) (s : State) : Res :=
  .next <|
    if ! s.portEnabled port then s
    else
      let s1 := s.setF (EDGE_PORT_CTRL_ADMIN_EN port) (bit b)
      if b then
        (s1.port port).halves.foldl (fun s h =>
          if (s.port port).link h = .disabled then (s.linkTo port h .detect).detect port h else s) s1
      else [false, true].foldl (fun s h => s.linkTo port h .disabled) s1

/-- PRESENCE_CHANGE (R31, R267): a cable plugged in restores auxiliary power; one pulled drops the port's links. -/
def execPresenceChange (port : Nat) (b : Bool) (s : State) : Res :=
  .next <|
    if ! s.portEnabled port ∨ (s.port port).present = b then s
    else if b then
      let s1 := s.modPort port (fun q => { q with present := true, auxOff := false })
      (s1.port port).halves.foldl (fun s h => s.detect port h) s1
    else
      let s1 := s.modPort port (fun q => { q with present := false, auxOn := false })
      [false, true].foldl (fun s h =>
        let s2 := s.leaveUp port h .detect .noCable false
        if (s2.port port).link h = .disabled then s2 else s2.linkTo port h .detect) s1

/-- NEGOTIATION_DONE: Clause 73 completes in the configured mode (R263, R267). -/
def execNegotiationDone (port : Nat) (half split : Bool) (s : State) : Res :=
  .next <|
    if (s.port port).link half = .negotiate ∧ (s.port port).split = split then s.linkTo port half .train else s

/-- NEGOTIATION_TIMEOUT: no agreement within 3 s (R267). -/
def execNegotiationTimeout (port : Nat) (half : Bool) (s : State) : Res :=
  .next <|
    if (s.port port).link half = .negotiate then ((s.linkFault port half 2 0 false).linkTo port half .detect).detect port half
    else s

/-- A training attempt that times out (R267). -/
def State.trainFails (s : State) (port : Nat) (half inj : Bool) : State :=
  ((s.linkFault port half 2 0 inj).linkTo port half .detect).detect port half

/-- TRAIN_DONE: training converges and the link is UP (R267). -/
def execTrainDone (port : Nat) (half : Bool) (s : State) : Res :=
  .next <|
    if (s.port port).link half = .train then
      let (p, s1) := s.fireEdge (port + 128 * bit half) 18
      if p.isSome then s1.trainFails port half true else s1.linkTo port half .up
    else s

/-- TRAIN_TIMEOUT: not converged within 500 ms (R267). -/
def execTrainTimeout (port : Nat) (half : Bool) (s : State) : Res :=
  .next (if (s.port port).link half = .train then s.trainFails port half false else s)

/-- LINK_DOWN: an UP link loses lock or exceeds the uncorrectable limit, and retrains (R267, R268). -/
def execLinkDown (port : Nat) (half codewords : Bool) (s : State) : Res :=
  .next (s.leaveUp port half .train (if codewords then .codewords else .lock) false)

/-- RETRAIN: every UP link of the port goes to TRAIN (R267, R287). -/
def execRetrain (port : Nat) (s : State) : Res :=
  .next ([false, true].foldl (fun s h => s.leaveUp port h .train .retrain false) s)

/-- Auxiliary overcurrent removes the port's auxiliary power; its links go to DETECT (R31, R267). -/
def State.auxOver (s : State) (port : Nat) (inj : Bool) : State :=
  let s1 := (s.modPort port (fun q => { q with auxOn := false, auxOff := true })).linkFault port false 3 0 inj
  (s1.port port).halves.foldl (fun s h =>
    if (s.port port).link h = .disabled then s else (s.linkTo port h .detect).detect port h) s1

/-- AUX_OVERCURRENT: above 1.5 A for 1 ms (R31). -/
def execAuxOvercurrent (port : Nat) (s : State) : Res :=
  .next (if (s.port port).auxOn then s.auxOver port false else s)

/-- EDGE_CLR_COUNTERS: clears EDGE_PORT_FEC and the counts of EDGE_PORT_STATUS (R287). -/
def execEdgeClrCounters (s : State) : Res :=
  .next <| (List.range 72).foldl (fun s p =>
    ((s.clearF (EDGE_PORT_FEC_CORRECTED p)).clearF (EDGE_PORT_FEC_UNCORRECTED p)).modPort p
      (fun q => { q with trainFails := 0, downs := 0 })) s

/-! ## Acknowledgements and retransmission (R276 to R279) -/

/-- The units of 64 bytes a frame's data takes. -/
def Frame.units (f : Frame) : Nat := (f.data.length + 63) / 64

/-- Retransmits the frame of a count: ATTEMPT rises, up to 7; one with a deadline only until its deadline ring ends (R278). -/
def State.retransmit (s : State) (i count : Nat) : State :=
  match (s.ses i).unacked.find? (fun t => t.count == count) with
  | none => s
  | some t =>
    let late : Bool := match t.frame.due with
      | some d => ringBefore d s.now
      | none => false
    if late ∨ 7 ≤ t.frame.attempt then s
    else
      let f := { t.frame with attempt := t.frame.attempt + 1 }
      ((s.modSes i (fun q => { q with unacked := q.unacked.map (fun u => if u.count = count then { u with frame := f } else u) })).emit
        i f t.count 0).inc (SAP_CNT_COUNT 2) 1

/-- DEADLINE_MISS/UNACKED for a frame, once (R279). -/
def State.unacked (s : State) (i count : Nat) (w : When) (ring : Nat) : State :=
  ((s.modSes i (fun q => { q with unacked := q.unacked.map (fun u => if u.count = count then { u with raised := true } else u) })).inc
    (SAP_CNT_COUNT 10) 1).deadlineFault 1 i ring w false

/-- An acknowledgement or NAK of a session: frames below ACK are released, one acknowledged with LATE raises UNACKED, a NAK's frame
goes out again at once (R278, R279). -/
def State.takeAck (s : State) (i : Nat) (f : Frame) : State :=
  if ! f.ackValid then s
  else
    let q := s.ses i
    let ack := min q.txNext (nearestCount q.txNext f.ack)
    let done := q.unacked.filter (fun t => decide (t.count < ack))
    let late := if f.late then done.filter (fun t => t.frame.cls == 0 && t.frame.deadline != 0 && ! t.raised) else []
    let s1 := s.modSes i (fun q => { q with window := f.credit })
    let s2 := late.foldl (fun s t => s.unacked i t.count .during s.now) s1
    let s3 := s2.modSes i (fun q => { q with unacked := q.unacked.filter (fun t => decide (ack ≤ t.count)) })
    if f.nak then s3.retransmit i ack else s3

/-- ACK_FRAME_SEND: E advanced and ACK_DELAY has passed with no report (R277). -/
def execAckFrameSend (i : Nat) (s : State) : Res :=
  .next (if s.isLive i ∧ s.limbOn (limbOfPort (s.ses i).port) = true ∧ (s.ses i).ackDue = true then s.sendAck i false else s)

/-- ACK_RECEIVE: the next acknowledgement frame of a session that came authenticated is acted on (R276, R278). -/
def execAckReceive (i : Nat) (s : State) : Res :=
  .next <|
    match (s.ses i).acks with
    | f :: rest =>
      if s.isLive i ∧ s.limbOn (limbOfPort (s.ses i).port) = true then (s.modSes i (fun q => { q with acks := rest })).takeAck i f else s
    | [] => s

/-- RTO_EXPIRY: the oldest unacknowledged frame goes out again, or the session is lost (R278). -/
def execRtoExpiry (i : Nat) (s : State) : Res :=
  .next <|
    match s.isLive i && s.limbOn (limbOfPort (s.ses i).port), (s.ses i).unacked with
    | true, t :: _ =>
      match t.frame.due with
      | some d =>
        if ringBefore d s.now then s
        else if 7 ≤ t.frame.attempt then s.loseSes i 3 t.frame.seq false
        else s.retransmit i t.count
      | none =>
        if s.f SAP_CONFIG_RETX_LIMIT ≤ t.frame.attempt then s.loseSes i 3 t.frame.seq false else s.retransmit i t.count
    | _, _ => s

/-- DEADLINE_UNACKED: a class S frame stands unacknowledged at the edge that ended ring d + 1 (R279, R418). -/
def execDeadlineUnacked (i count : Nat) (s : State) : Res :=
  .next <|
    match (s.ses i).unacked.find? (fun t => t.count == count) with
    | none => s
    | some t =>
      match t.frame.due with
      | some d =>
        let e := ringAdd d 1
        if t.frame.cls = 0 ∧ t.raised = false ∧ s.isLive i = true ∧ ringBefore e s.now = true then s.unacked i count (.ended e) e
        else s
      | none => s

/-- GAP_NAK_REPEAT: while a frame is held above a gap, the NAK is repeated (R277). -/
def execGapNakRepeat (i : Nat) (s : State) : Res :=
  .next (if s.isLive i ∧ s.limbOn (limbOfPort (s.ses i).port) = true ∧ (s.ses i).held ≠ [] then s.sendAck i true else s)

/-! ## Reception (R264, R266, R270, R276, R282) -/

/-- Whether a message type takes a response, so that its request is answered when refused (Table 9.4). -/
def hasResponse (typ : Nat) : Bool := [2, 3, 4, 6, 7].contains typ

/-- Whether a frame is one this engine takes from a session: Table 9.4 with the directions of a requester and a responder, and the
OPs of CONTROL that travel as data frames. -/
def Frame.accepted (f : Frame) : Bool :=
  match f.typ with
  | 1 => ! f.resp
  | 2 | 7 => true
  | 3 | 4 | 6 => f.resp
  | 5 | 8 | 9 => ! f.resp
  | 10 => [4, 5, 6, 7, 9].contains f.op
  | _ => false

/-- A frame dropped and counted (Table 9.14). -/
def State.dropFrame (s : State) (k : Nat) : State := s.inc (SAP_CNT_COUNT k) 1

/-- The filter of R264: whether the receiving port drops a frame for its address or VLAN tag. -/
def State.filtered (s : State) (port : Nat) (half : Bool) (r : RawFrame) : Bool :=
  decide (r.dst ≠ s.macOf port half) ||
  (match r.vlan with
   | some v => decide (s.f EDGE_CTRL_VLAN_EN = 0) || decide (v % 2 ^ 12 ≠ s.f EDGE_CTRL_VLAN_ID)
   | none => decide (s.f EDGE_CTRL_VLAN_EN = 1))

/-- Bytes of a receive pool in use: what the sessions of a port hold (R277). -/
def State.poolUsed (s : State) (port : Nat) : Nat :=
  (s.sess.filter (fun p => p.2.port == port)).foldl (fun n p =>
    n + p.2.held.foldl (fun n h => n + h.2.data.length) 0 + p.2.inbox.foldl (fun n f => n + f.data.length) 0) 0

/-- Units that the active graft reserves on a port or half in a direction for the ring's slot; none with no running job (R306). -/
def State.reservedUnits (s : State) (port : Nat) (half ingress : Bool) : Nat :=
  match s.running, s.graft.active with
  | some j, some g =>
    (g.sched.reserves.filter (fun r => r.port == port && r.half == half && r.ingress == ingress &&
      r.slot == j.slot s.now)).foldl (fun n r => n + r.units) 0
  | _, _ => 0

/-- Whether the pool has room for a frame: classes B and U leave the ingress reservation free (R277, R306). -/
def State.poolRoom (s : State) (port : Nat) (half : Bool) (f : Frame) : Bool :=
  let keep := if f.cls = 0 then 0 else 64 * s.reservedUnits port half true
  decide (s.poolUsed port + f.data.length + keep ≤ 2 * 2 ^ 20)

/-- The PEER record of a delivered frame (Table 15.11): payloads whole under FULL, hashed under HASH. -/
def State.peerRecord (s : State) (i count : Nat) (f : Frame) (inj : Bool) : State :=
  let req := f.typ = 1 ∨ ((f.typ = 2 ∨ f.typ = 7) ∧ f.resp = false)
  let fl := if req then f.fields else []
  let full := match s.job.cur with
    | some j => decide (j.desc.journal = 2)
    | none => false
  let body := leBytes 2 i ++ leBytes 2 f.epoch ++ leBytes 8 count ++ leBytes 1 f.typ ++ [0, 0, 0] ++ leBytes 2 (rd fl 0 2 % 512)
    ++ leBytes 1 (rd fl 2 1) ++ leBytes 1 (rd fl 3 1) ++ leBytes 2 (rd fl 4 2) ++ leBytes 2 (rd fl 6 2) ++ leBytes 2 (rd fl 8 2)
    ++ leBytes 2 (rd fl 10 2) ++ leBytes 4 f.data.length
  s.record 4 inj (body ++ (if full then f.data else (sha384 f.data).take 16))

/-- In a replay, a live payload is checked against its recorded hash (R439). -/
def State.replayHash (s : State) (i count : Nat) (f : Frame) : State :=
  if ! s.journal.replaying then s
  else
    match s.journal.replay.find? (fun r => r.kind == 4 && decide (rd r.body 0 2 = i) && decide (rd r.body 4 8 = count)) with
    | some r =>
      let s1 := { s with journal := { s.journal with replay := s.journal.replay.erase r } }.inc (JOURNAL_CNT_COUNT 3) 1
      if r.body.length = 48 ∧ cut r.body 32 16 ≠ (sha384 f.data).take 16 then
        s1.peerFault 8 i f.seq true false
      else s1
    | none => s

/-- Delivers the next frame of a session: its own deadline is judged now; a late one is not placed (R276, R279). -/
def State.deliver (s : State) (i : Nat) (f : Frame) : State :=
  let q := s.ses i
  let s1 := ((s.modSes i (fun q => { q with expect := q.expect + 1, ackDue := true })).inc (SAP_CNT_COUNT 1) 1).replayHash i
    q.expect f
  let cls0 := decide (f.cls = 0) && decide (f.deadline ≠ 0)
  let (p, s2) := if cls0 then s1.fireEdge i 22 else (none, s1)
  let late := p.isSome || (match f.due with
    | some d => cls0 && ringBefore d s.now
    | none => false)
  let s3 := if (q.store : Bool) then s2 else s2.peerRecord i q.expect f p.isSome
  if late then
    ((s3.modSes i (fun q => { q with lateDue := true })).inc (SAP_CNT_COUNT 9) 1).deadlineFault 2 i s.now .during p.isSome
  else if ! f.accepted then s3.dropFrame 8
  else if (f.typ = 10 ∧ (f.op = 9 ∨ f.op = 7)) ∨ (s.alone = true ∧ f.typ = 1) then s3
  else s3.modSes i (fun q => { q with inbox := q.inbox ++ [f] })

/-- Releases held frames while they follow on (R276). -/
def State.release : Nat → State → Nat → State
  | 0, s, _ => s
  | n + 1, s, i =>
    let q := s.ses i
    match q.held.find? (fun h => h.1 == q.expect) with
    | none => s
    | some h => State.release n ((s.modSes i (fun q => { q with held := q.held.erase h })).deliver i h.2) i

/-- A request under the previous epoch is answered REFUSED(SESSION_EPOCH) under that epoch's keys, at its next count (log 51); any
other frame of it is dropped (R282). -/
def State.oldEpoch (s : State) (i : Nat) (p : PrevEpoch) (f : Frame) : State :=
  if hasResponse f.typ ∧ f.resp = false then
    let a := { dataFrame f.typ f.cls f.deadline (respFields 2 4 0 f.seq 0 0 0) [] with resp := true, epoch := f.epoch, stamp := s.now }
    (((s.modSes i (fun q => { q with prev := some { p with txNext := p.txNext + 1 } })).emitUnder i a p.tx p.txNext 0)).inc
      (STREAM_CNT_COUNT 6) 1
  else s.dropFrame (if f.resp then 13 else 5)

/-- A tag failure: the frame counts as lost; at the limit the session is CLOSED (R270, R281). -/
def State.tagFail (s : State) (i seq : Nat) (inj : Bool) : State :=
  let s1 := (s.dropFrame 4).modSes i (fun q => { q with tagFails := q.tagFails + 1 })
  if s.f SAP_CONFIG_TAGFAIL_LIMIT ≤ (s1.ses i).tagFails then s1.loseSes i 4 seq inj else s1

/-- An authenticated data frame of the current epoch (R276, R277). -/
def State.sequence (s : State) (port : Nat) (half : Bool) (i : Nat) (f : Frame) : State :=
  let q := s.ses i
  let n := nearestCount q.expect f.seq
  if n < q.expect ∨ q.held.any (fun h => h.1 == n) then
    (s.dropFrame 6).modSes i (fun q => { q with ackDue := true })
  else if q.expect + s.f SAP_CONFIG_RX_WINDOW ≤ n then s.dropFrame 8
  else if ! s.poolRoom port half f then s.dropFrame 7
  else if n = q.expect then State.release 256 (s.deliver i f) i
  else
    let s1 := s.modSes i (fun q => { q with held := q.held ++ [(n, f)] })
    if q.held.isEmpty then s1.sendAck i true else s1

/-- Opens a frame of the epoch in force. Whether a CONTROL frame counts in the space of data frames or of acknowledgement frames
stands in its encrypted OP, so both are tried (R270, R276; DEDUCED, log 52). Answers the frame and whether it is an acknowledgement
frame. -/
def Session.openBody (q : Session) (body : List Byte) : Option (Frame × Bool) :=
  match q.keys with
  | none => none
  | some k =>
    let seq := rd body 16 4
    match (openFrame k.2 body (nearestCount q.expect seq) 0).filter (fun f => ! f.isAck) with
    | some f => some (f, false)
    | none =>
      if rd body 1 1 = 10 then ((openFrame k.2 body (nearestCount q.ackRx seq) 1).filter Frame.isAck).map (fun f => (f, true)) else none

/-- An authenticated frame of the epoch in force (R266, R276, R277). -/
def State.authentic (s : State) (port : Nat) (half : Bool) (i : Nat) (f : Frame) (isAck : Bool) : State :=
  if f.typ ≠ 10 ∧ s.roleOk i = false then (s.dropFrame 8).peerFault 5 i f.seq true false
  else if isAck then
    s.modSes i (fun q => { q with acks := q.acks ++ [f], ackRx := max q.ackRx (nearestCount q.ackRx f.seq + 1) })
  else
    let (p20, s1) := s.fireEdge i 20
    if p20.isSome then s1 else (s1.takeAck i f).sequence port half i f

/-- A frame of an existing session (R266, R270, R276, R281, R282). -/
def State.sessionFrame (s : State) (port : Nat) (half : Bool) (i : Nat) (body : List Byte) : State :=
  let q := s.ses i
  let f := frameOf body [] []
  if ! s.isLive i then
    if rd body 14 2 = 0 ∧ (hasResponse f.typ = false ∨ f.resp = true) then s.dropFrame 8
    else (s.dropFrame 8).peerFault 5 i f.seq true false
  else if q.port ≠ port ∨ q.half ≠ half then s.dropFrame 8
  else if f.epoch ≠ s.sesEpoch i then
    match q.prev with
    | some p =>
      if f.epoch = p.epoch ∧ ringBefore s.now p.until_ = true then
        match openFrame p.rx body (nearestCount p.expect f.seq) 0 with
        | some f => s.oldEpoch i p f
        | none => s.dropFrame 4
      else s.dropFrame 5
    | none => s.dropFrame 5
  else
    let (p21, s1) := s.fireEdge i 21
    match if p21.isSome then none else q.openBody body with
    | none => s1.tagFail i f.seq p21.isSome
    | some (g, isAck) => s1.authentic port half i g isAck

/-- A CONTROL frame of a handshake joins the message its sender is sending, and begins one where none is under way (R271, R355). -/
def State.handshakeFrame (s : State) (port : Nat) (half : Bool) (mac : Nat) (f : Frame) : State :=
  let mine (q : ShakeIn) : Bool := q.port == port && q.half == half && q.mac == mac && ! q.whole && q.fields == f.fields
  if s.shakes.any mine then
    { s with shakes := s.shakes.map (fun q => if mine q then { q with data := q.data ++ f.data, whole := ! f.more } else q) }
  else { s with shakes := s.shakes ++ [⟨port, half, mac, f.fields, f.data, ! f.more⟩] }

/-- Takes the first whole handshake message that came on a port or half and that a test picks. -/
def State.takeShake (s : State) (pick : ShakeIn → Bool) : Option (ShakeIn × State) :=
  (s.shakes.find? (fun q => q.whole && pick q)).map (fun q => (q, { s with shakes := s.shakes.erase q }))

/-- FRAME_RECEIVE: the bytes of a frame arrive at a port and are filtered, authenticated and sequenced (R263 to R284). A handshake
message is acted on by the command of its OP, an acknowledgement frame by ACK_RECEIVE, PTP frames by PTP_SYNC. -/
def execFrameReceive (port : Nat) (half : Bool) (bytes : List Byte) (s : State) : Res :=
  .next <|
    let r := rawFrame bytes
    let f := frameOf r.body [] []
    if (s.port port).link half ≠ .up ∨ s.limbOn (limbOfPort port) = false then s
    else if ! r.fcsOk then s.incSat (EDGE_PORT_FEC_UNCORRECTED port) 1
    else if s.filtered port half r then s.dropFrame 8
    else if r.etherType ≠ s.f EDGE_CTRL_ETHERTYPE then
      if r.etherType = 0x88F7 ∧ s.f RING_CONFIG_PTP_PORT = port then s else s.dropFrame 8
    else if rd r.body 0 1 ≠ 1 ∨ lengthOk r.body = false ∨ f.typ = 0 ∨ 10 < f.typ ∨ 3 ≤ f.cls then s.dropFrame 8
    else if f.session = 0xFFFF then
      if f.typ = 10 ∧ zeros (bodyTag r.body) = true then s.handshakeFrame port half r.src (plainFrame r.body (bodyText r.body))
      else s.dropFrame 8
    else if 1024 ≤ f.session then s.dropFrame 8
    else s.sessionFrame port half f.session r.body

/-! ## Transmission (R275, R306) -/

/-- Whether a frame goes in the port's reserve (Table 10.5). -/
def Frame.reserve (f : Frame) : Bool := [8, 9, 10].contains f.typ

/-- The first frame waiting on the sessions of a port that a test picks, in ascending session. -/
def State.nextFrame (s : State) (port : Nat) (half : Bool) (pick : Frame → Bool) : Option (Nat × TxFrame) :=
  s.sesKeys.findSome? (fun i =>
    let q := s.ses i
    let open_ := q.st = .opened ∧ q.epochSent = false
    if q.port = port ∧ q.half = half ∧ q.unacked.length < q.window then
      (q.queue.find? (fun t => pick t.frame)).bind (fun t =>
        if t.frame.typ = 10 ∨ (open_ ∧ s.roleOk i = true) then some (i, t) else none)
    else none)

/-- The class U allowance in force: shedding sets it to 0 (R306, Table 14.3). -/
def State.allowU (s : State) : Nat := if 1 ≤ s.power.linkShed then 0 else s.f STREAM_U_ALLOW_UNITS

/-- Units of a class sent in the ring by a port or half. -/
def EdgePort.used (p : EdgePort) (half : Bool) (u : Bool) : Nat :=
  match half, u with
  | false, false => p.usedS
  | false, true => p.usedU
  | true, false => p.usedS1
  | true, true => p.usedU1

/-- Adds to the units of a class sent in the ring. -/
def EdgePort.use (p : EdgePort) (half u : Bool) (n : Nat) : EdgePort :=
  match half, u with
  | false, false => { p with usedS := p.usedS + n }
  | false, true => { p with usedU := p.usedU + n }
  | true, false => { p with usedS1 := p.usedS1 + n }
  | true, true => { p with usedU1 := p.usedU1 + n }

/-- FRAME_TRANSMIT: the port sends its next data frame: the reserve's frames, then class S within the reservation, U within the
allowance, S beyond it, B unless shedding defers it (R275, R306, Table 14.3). -/
def execFrameTransmit (port : Nat) (half : Bool) (s : State) : Res :=
  .next <|
    if (s.port port).link half ≠ .up ∨ s.limbOn (limbOfPort port) = false then s
    else
      let p := s.port port
      let cls (c : Nat) (f : Frame) : Bool := ! f.reserve && f.cls == c
      let sFit (f : Frame) : Bool := cls 0 f && decide (p.used half false + f.units ≤ s.reservedUnits port half false)
      let uFit (f : Frame) : Bool := cls 2 f && decide (p.used half true + f.units ≤ s.allowU)
      let go (c : Nat × TxFrame) (u : Option Bool) (beyond : Bool) : State :=
        let s1 := s.transmit c.1 c.2
        let s2 := match u with
          | some u => s1.modPort port (·.use half u c.2.frame.units)
          | none => s1
        if beyond then s2.inc (STREAM_CNT_COUNT 7) 1 else s2
      match s.nextFrame port half Frame.reserve, s.nextFrame port half sFit, s.nextFrame port half uFit,
          s.nextFrame port half (cls 0), s.nextFrame port half (fun f => cls 1 f && decide (s.power.linkShed < 2)) with
      | some c, _, _, _, _ => go c none false
      | none, some c, _, _, _ => go c (some false) false
      | none, none, some c, _, _ => go c (some true) false
      | none, none, none, some c, _ => go c (some false) true
      | none, none, none, none, some c => go c none false
      | none, none, none, none, none => s

end Sys2Proof.Machine
end

