-- ==== Sys2Proof/Machine/PowerCore.lean ====
section
/-!
DEFINITION. Power-state requests and wake events (R389 to R391, Table 14.2); the drop of main rails (R22, R23).
-/
namespace Sys2Proof.Machine

/-- Changes the power unit. -/
def State.setPower (s : State) (f : Power → Power) : State := { s with power := f s.power }

/-- A wake event: recorded during entry, else it begins the return; in RUN it replaces a pending request (R389, R390). -/
def State.wakeEvent (s : State) : State :=
  match s.power.transit, s.power.state with
  | .entering _, _ => (s.setPower (fun p => { p with wake := true })).inc (PWR_CNT_COUNT 1) 1
  | .returning _, _ => s
  | .none, .run => s.setPower (fun p => { p with pending := none, fetchStop := false })
  | .none, .off => s
  | .none, _ => s.setPower (fun p => { p with transit := .returning none })

/-- Depth of a state: RUN is the shallowest. -/
def PState.depth : PState → Nat
  | .run => 0 | .idle => 1 | .sleep => 2 | .deep => 3 | .off => 4

/-- A request for a power state (Table 14.2). Entry from RUN begins at the next ring edge with no job present; until then the request is
pending and fetching stops. A request for OFF from IDLE, SLEEP or DEEP enters it directly. A request for the state in force, and one
during a transition other than a wake, waits as the pending request. -/
def State.powerRequest (s : State) (st : PState) : State :=
  if st = .run then s.wakeEvent
  else
    match s.power.transit, s.power.state with
    | .none, .run => s.setPower (fun p => { p with pending := some st, fetchStop := true })
    | .none, .off => s
    | .none, cur =>
      if st = cur then s
      else if st = .off ∨ (cur.depth < st.depth ∧ cur ≠ .deep) then
        s.setPower (fun p => { p with transit := .entering st, fetchStop := true })
      else s.setPower (fun p => { p with transit := .returning (some st) })
    | .returning _, _ => s.setPower (fun p => { p with transit := .returning (some st) })
    | .entering _, _ => s.setPower (fun p => { p with pending := some st })

/-! ## Main rails -/

/-- Main rails go down: every die but the root die loses power, and with it planes, scratchpads, caches, sessions and links; the host port
domain goes off (Table 14.1, R22, R23). What the root die keeps stays until the reset that follows. -/
def State.dropRails (s : State) : State :=
  let s1 := (List.range 72).foldl (fun s p => [false, true].foldl (fun s h => s.linkTo p h .disabled) s) s
  { s1 with
    modl := { s1.modl with mains := false, pwrGood := false }
    cells := [], taps := [], limbs := [], sess := [], stream := Stream.reset, sessCmd := ⟨none, s1.sessCmd.result⟩
    ports := smap EdgePort.reset (fun _ p => { p with auxOn := false }) s1.ports
    graft := GraftUnit.reset
    tree := { s1.tree with pendingVer := [] }
    job := { s1.job with ckpt := none }
    power := { s1.power with domains := [], lostDies := [] }
    host := { s1.host with up := false, speed := 0, width := 0, bme := false, ideSecure := false, spdm := false }
    bark := { s1.bark with host := none } }

end Sys2Proof.Machine
end

