-- ==== Sys2Proof/Machine/Ring.lean ====
section
/-!
DEFINITION. Commands of the ring unit (R36 to R56, R76): timecode frames and missing delimiters, PTP, and the RING registers with rows
of their own. RING_EDGE and PERIOD_CHANGE stand in RingEdge.lean.
-/
namespace Sys2Proof.Machine

/-- How a frame is judged (R46, R47, R460): valid with a number and, at the end of a SHORT group, its context's upper bits;
or counted in one field. -/
inductive FrameVerdict where
  | ok (n : Nat) (ctx : Option Nat)
  | crc
  | grove
  | format
  deriving DecidableEq, Repr

/-- Changes the ring unit. -/
def State.setRing (s : State) (f : Ring → Ring) : State := { s with ring := f s.ring }

/-- Moves the lock state and raises the RING cause (Table 2.5, Table 11.3). -/
def State.lockTo (s : State) (l : LockState) : State :=
  if s.ring.lock = l then s else (s.setRing (fun r => { r with lock := l })).event 2

/-- Whether the engine derives its ring from PTP (R53). -/
def State.ptpOn (s : State) : Bool := decide (s.f RING_CTRL_SOURCE = 1)

/-- The state leaves LOCKED or HOLDOVER or restarts: nothing of the run is kept (Table 2.5). A change that was announced is forgotten with
it: CHANGE_PENDING clears, and the master's next CHANGE announces anew (R51 says nothing of it; DESIGN CHOICE, log 66). -/
def State.dropLock (s : State) (l : LockState) : State :=
  let s1 := s.setRing (fun r => { r with acq := 0, prevNum := none, contexts := 0, ctx := none, invalidRun := 0,
                                         holdCount := 0, slewing := false, slewNs := 0, changePending := false,
                                         changeNext := none, edgeDue := false, ptpGood := 0 })
  let s2 := if s.ring.changePending then s1.event 2 else s1
  s2.lockTo l

/-- A TIMECODE journal record (Table 15.11). -/
def State.timeRecord (s : State) (code flags num : Nat) : State :=
  let l := match s.ring.lock with
    | .unlocked => 0 | .acquiring => 1 | .locked => 2 | .holdover => 3
  s.record 2 false (leBytes 1 code ++ leBytes 1 l ++ leBytes 1 flags ++ [0, 0, 0, 0, 0] ++ leBytes 8 num)

/-- FLAGS of a frame (Table 2.3). -/
def RingFrame.flags (f : RingFrame) : Nat := 32 * bit f.change + 16 * bit f.emerg + 2 * (f.period % 8)

/-- The bits of a field as they are sent, most significant first (R36). -/
def bitsOf (w n : Nat) : List Bool := (List.range w).map (fun i => n.testBit (w - 1 - i))

/-- The CRC a frame should carry: the CRC-16 over KIND to FLAGS of a FULL frame, the CRC-8 over KIND to CHUNK of a SHORT one
(R40, Tables 2.1 and 2.2). -/
def RingFrame.crcOf (f : RingFrame) : Nat :=
  if f.short then crcBits 8 0x07 0 (true :: (bitsOf 12 f.number ++ bitsOf 6 f.flags ++ bitsOf 8 f.chunk))
  else crcBits 16 0x1021 0xFFFF (false :: (bitsOf 48 f.number ++ bitsOf 10 f.grove ++ bitsOf 6 f.flags))

/-- Whether a frame's own CRC passes. -/
def RingFrame.crcOk (f : RingFrame) : Bool := decide (f.crc = f.crcOf)

/-- Whether a frame's PERIOD may stand: unchanged, or new in the frame of the announced ring (R51). -/
def State.periodOk (s : State) (f : RingFrame) (n : Nat) : Bool :=
  decide (f.period = s.ring.prevPeriod) || (s.ring.changePending && decide (n = s.ring.changeAt))

/-- The smallest multiple of 1,024 at least 64 rings after n (R51). -/
def changeRing (n : Nat) : Nat := (n + 64 + 1023) / 1024 * 1024 % ringMod

/-- Bytes of the chunks kept, `none` when one is not a kept chunk. -/
def keptChunks : List ChunkSeen → Option (List Byte)
  | [] => some []
  | .ok b :: l => (keptChunks l).map (BitVec.ofNat 8 b :: ·)
  | _ :: _ => none

/-- What was kept of the ring with a given RING_LO, the newest such ring first (R460). -/
def seenAt (l : List (Nat × ChunkSeen)) (lo : Nat) : ChunkSeen := ((l.find? (fun p => p.1 == lo)).map (·.2)).getD .missing

/-- RING_LO of the ring in which the receiver expects the next frame: after the counter while it runs, else after the last ring it noted. -/
def State.nextLo (s : State) : Nat :=
  if s.ring.lock = .locked ∨ s.ring.lock = .holdover then ringAdd s.ring.number 1 % 4096
  else (s.ring.seen.head?.map (fun p => (p.1 + 1) % 4096)).getD 0

/-- The receiver notes what it kept of a ring (R460). -/
def State.note (s : State) (lo : Nat) (c : ChunkSeen) : State := s.setRing (fun r => { r with seen := ((lo, c) :: r.seen).take 8 })

/-- What the receiver keeps of a frame: the chunk of a SHORT frame that passes its CRC-8, under the frame's own RING_LO (R460). -/
def State.noteFrame (s : State) (f : RingFrame) (lo : Nat) : State :=
  if ! f.crcOk then s.note lo .crcBad else s.note (f.number % 4096) (if f.short then .ok f.chunk else .missing)

/-- The context of an aligned SHORT group, oldest chunk first: its GROVE and RING[47:12], when its CRC-16 matches (R39). -/
def shortContext (bs : List Byte) : Option (Nat × Nat) :=
  let w := beNat (bs.take 6)
  let crc := crcBits 16 0x1021 0xFFFF ((bs.take 6).flatMap msbBits)
  if beNat (bs.drop 6) = crc then some (w / 2 ^ 38, w / 4 % 2 ^ 36) else none

/-- Judges a FULL frame by itself (R38, R46, R460); its RING field has 48 bits (Table 2.1). -/
def State.judgeFull (s : State) (f : RingFrame) (first : Bool) : FrameVerdict :=
  let n := f.number % ringMod
  if ! f.crcOk then .crc
  else if f.grove ≠ s.f RING_CONFIG_GROVE_ID then .grove
  else if f.period = 0 ∨ 5 < f.period then .format
  else if ! (first || s.periodOk f n) then .format
  else .ok n none

/-- Judges a SHORT frame (R39, R47, R460) against the expected number; `free` says that the upper bits are not known yet. At c = 7 its
group is the rings 8m to 8m + 7 that its own RING_LO closes. -/
def State.judgeShort (s : State) (f : RingFrame) (exp : Option Nat) (free : Bool) : FrameVerdict :=
  let lo := f.number % 4096
  let n := exp.getD lo
  if ! f.crcOk then .crc
  else
    let rest (ctx : Option Nat) : FrameVerdict :=
      if f.period ≠ 0 ∨ (exp.isSome ∧ s.periodOk f n = false) then .format
      else if n % 4096 ≠ lo then .format
      else
        match ctx with
        | none => .ok n none
        | some hi => if free then .ok (4096 * hi + lo) (some hi) else .ok (4096 * hi + n % 4096) (some hi)
    if lo % 8 ≠ 7 then rest none
    else
      let group := (List.range 7).map (fun i => seenAt s.ring.seen (lo - 7 + i))
      if group.contains .crcBad then .crc
      else
        match keptChunks group with
        | none => .format
        | some bs =>
          match shortContext (bs ++ [BitVec.ofNat 8 f.chunk]) with
          | none => .crc
          | some (g, hi) => if g ≠ s.f RING_CONFIG_GROVE_ID then .grove else rest (some hi)

/-- A ring without a valid frame breaks the run of clear frames of R52. -/
def State.noFrame (s : State) : State := s.setRing (fun r => { r with emergClear := 0 })

/-- Counts a frame that is not valid, in exactly one field (R460). -/
def State.countFrame (s : State) (v : FrameVerdict) : State :=
  match v with
  | .crc => s.noFrame.incSat RING_ERRORS_CRC_ERR 1
  | .grove => s.noFrame.incSat RING_ERRORS_GROVE_MISMATCH 1
  | .format => s.noFrame.incSat RING_ERRORS2_FORMAT_ERR 1
  | .ok _ _ => s

/-- The CHANGE flag of a valid frame of ring n (R51). -/
def State.changeFlag (s : State) (f : RingFrame) (n : Nat) : State :=
  if f.change then
    if ! s.ring.changePending then
      (s.setRing (fun r => { r with changePending := true, changeAt := changeRing n })).event 2
    else if n = s.ring.changeAt then s.setRing (fun r => { r with changeNext := some (changeRing n) })
    else s
  else s

/-- The EMERG flag of a valid frame of ring n: shown, counted, and an abort of the running job (R52, R76). -/
def State.emergFlag (s : State) (f : RingFrame) (n : Nat) : State :=
  let s2 := if f.emerg = s.ring.emerg then s else s.timeRecord 5 f.flags n
  let clear := if f.emerg then 0 else min 16 (s2.ring.emergClear + 1)
  let s3 := s2.setRing (fun r => { r with emerg := f.emerg, emergClear := clear
                                          emergHold := f.emerg || (r.emergHold && decide (clear < 16)) })
  match s3.job.cur with
  | some j => if f.emerg then s3.registerAbort j.desc.jobId 2 n else s3
  | none => s3

/-- The CHANGE and EMERG flags of a valid frame of ring n (R51, R52). -/
def State.frameFlags (s : State) (f : RingFrame) (n : Nat) : State := (s.changeFlag f n).emergFlag f n

/-- In ACQUIRING no edge of ring c is counted: the frame that shows ring c or a later one has come to it clears CHANGE_PENDING (R51). -/
def State.changePassed (s : State) (n : Nat) : State :=
  if s.ring.changePending = true ∧ ringBefore n s.ring.changeAt = false then
    (s.setRing (fun r => { r with changePending := false, changeNext := none })).event 2
  else s

/-- The flags of a valid frame in ACQUIRING: CHANGE only when the frame's whole number is known, which for SHORT frames takes a valid
context (R47, R51). -/
def State.acquireFlags (s : State) (f : RingFrame) (n : Nat) : State :=
  if f.short = false ∨ s.ring.ctx.isSome = true then (s.changePassed n).frameFlags f n else s.emergFlag f n

/-- A run of acquisition starts again with nothing counted and no number expected; a change announced in it is forgotten (log 66). -/
def Ring.restart (r : Ring) : Ring :=
  { r with acq := 0, contexts := 0, ctx := none, prevNum := none, changePending := false, changeNext := none }

/-- A frame in UNLOCKED or ACQUIRING (Table 2.5, R460). -/
def State.acquireFrame (s : State) (f : RingFrame) (v : FrameVerdict) : State :=
  let fail (v : FrameVerdict) : State :=
    (s.countFrame v).setRing Ring.restart
  match v with
  | .ok n ctx =>
    let good : Bool :=
      match s.ring.prevNum with
      | none => true
      | some p => decide (f.ppm.natAbs ≤ 100) && decide (f.period = s.ring.prevPeriod) &&
          (decide (n = (p + 1) % ringMod) || (f.short && ctx.isSome && s.ring.ctx.isNone))
    if ! good then fail .format
    else
      let acq := s.ring.acq + 1
      let cs := s.ring.contexts + bit ctx.isSome
      let s1 := (s.setRing (fun r => { r with acq := acq, contexts := cs, prevNum := some n, prevPeriod := f.period
                                              ctx := if ctx.isSome then ctx else r.ctx })).acquireFlags f n
      if (f.short = false ∧ 8 ≤ acq) ∨ (f.short = true ∧ 16 ≤ acq ∧ 2 ≤ cs) then
        (s1.setRing (fun r => { r with number := n, period := f.period, invalidRun := 0, holdCount := 0
                                       edgeDue := false })).lockTo .locked
      else s1
  | bad => fail bad

/-- Rings without a valid frame in HOLDOVER: one more edge from prediction, or the holdover expires (R461). -/
def State.holdRing (s : State) (inj : Bool) : State :=
  if s.ring.holdCount < s.f RING_CONFIG_HOLDOVER_MAX then
    s.setRing (fun r => { r with holdCount := r.holdCount + 1, edgeDue := true })
  else (s.raiseAbort ⟨.clock, 4⟩ .engine 0 .during inj).dropLock .unlocked

/-- A frame while LOCKED (Table 2.5). A valid frame with a wrong number is judged for the number alone: the acquisition run that follows
begins with the next frame (DESIGN CHOICE, log 67). -/
def State.lockedFrame (s : State) (f : RingFrame) (v : FrameVerdict) (inj : Bool) : State :=
  match v with
  | .ok n _ =>
    if n ≠ ringAdd s.ring.number 1 then ((s.emergFlag f n).raiseAbort ⟨.clock, 5⟩ .engine 0 .during inj).dropLock .acquiring
    else
      (s.setRing (fun r => { r with edgeDue := true, invalidRun := 0, xtalPpb := f.ppb, prevPeriod := f.period })).frameFlags
        f n
  | bad =>
    let s1 := (s.countFrame bad).timeRecord 1 f.flags f.number
    let k := s.ring.invalidRun + 1
    let s2 := s1.setRing (fun r => { r with invalidRun := k, edgeDue := true })
    if 8 ≤ k then
      ((s2.setRing (fun r => { r with holdCount := 1, invalidRun := 0 })).lockTo .holdover).timeRecord 3 f.flags f.number
    else s2

/-- A frame in HOLDOVER (Table 2.5, R50): slewing toward the delimiter by at most 4 ns a ring. The frame of a RING_JUMP or RELOCK_PHASE
does not count in the acquisition run that follows (log 67). -/
def State.holdFrame (s : State) (f : RingFrame) (v : FrameVerdict) (inj : Bool) : State :=
  match v with
  | .ok n _ =>
    if n ≠ ringAdd s.ring.number 1 then ((s.emergFlag f n).raiseAbort ⟨.clock, 5⟩ .engine 0 .during inj).dropLock .acquiring
    else if 500 < f.offsetNs.natAbs then
      ((s.emergFlag f n).raiseAbort ⟨.clock, 6⟩ .engine 0 .during inj).dropLock .acquiring
    else
      let s1 := (s.setRing (fun r => { r with edgeDue := true, slewing := true, prevPeriod := f.period
                                              slewNs := f.offsetNs - max (-4) (min 4 f.offsetNs) })).frameFlags f n
      if f.offsetNs.natAbs ≤ 4 then
        ((s1.setRing (fun r => { r with slewing := false, slewNs := 0, holdCount := 0, invalidRun := 0 })).lockTo
          .locked).timeRecord 4 f.flags n
      else s1
  | bad => ((s.countFrame bad).timeRecord 1 f.flags f.number).holdRing inj

/-- The predicted edge passes with no delimiter (Table 2.5, R50, R461). In ACQUIRING, for which Table 2.5 has no such row, the count
restarts at 0 and no number is expected of the next frame (DESIGN CHOICE, log 68). -/
def State.missing (s : State) (inj : Bool) : State :=
  let s0 := ((s.incSat RING_ERRORS_MISSING 1).noFrame).note s.nextLo .missing
  match s.ring.lock with
  | .unlocked => s
  | .acquiring => s0.setRing Ring.restart
  | .locked =>
    if s.ring.edgeDue then s
    else
      (((s0.timeRecord 2 0 s.ring.number).setRing (fun r =>
        { r with holdCount := 1, invalidRun := 0, edgeDue := true })).lockTo .holdover).timeRecord 3 0 s.ring.number
  | .holdover => if s.ring.edgeDue then s else (s0.timeRecord 2 0 s.ring.number).holdRing inj

/-- Whether the receiver listens to RING_IN: enabled, source RING_IN, and running on the crystal (R46, R53, R447). -/
def State.listens (s : State) : Bool := decide (s.f RING_CTRL_ENABLE = 1) && ! s.ptpOn && s.clk.xtal && decide (s.power.state ≠ .off)

/-- TIMECODE_FRAME: a frame arrives and is judged (R36 to R52, R460, R461). With one timing input alone nothing is received, so no ring
lock comes of it (R29). A second frame in a ring whose edge is still to
come, and one outside the ±8 ns window while LOCKED, are no frame of the ring. -/
def execTimecodeFrame (f : RingFrame) (s : State) : Res :=
  .next <|
    if ! s.listens ∨ f.driven = false then s
    else
      let (p, s) := s.fireRoot none 27 (fun _ => true)
      if p = some 2 then s.missing true
      else
        let f := match p with
          | some 1 => { f with crc := f.crcOf + 1 }
          | some 3 => { f with number := f.number + 2 }
          | _ => f
        let inj := p.isSome
        let keep (t : State) : State := t.noteFrame f s.nextLo
        let exp := ringAdd s.ring.number 1
        match s.ring.lock with
        | .unlocked =>
          let v := if f.short then s.judgeShort f none true else s.judgeFull f true
          keep ((s.setRing Ring.restart).lockTo .acquiring |>.acquireFrame f v)
        | .acquiring =>
          let e := s.ring.prevNum.map (fun p => (p + 1) % ringMod)
          let v := if f.short then s.judgeShort f e s.ring.ctx.isNone else s.judgeFull f true
          keep (s.acquireFrame f v)
        | .locked =>
          if s.ring.edgeDue ∨ 8 < f.offsetNs.natAbs then s
          else keep (s.lockedFrame f (if f.short then s.judgeShort f (some exp) false else s.judgeFull f false) inj)
        | .holdover =>
          if s.ring.edgeDue then s
          else keep (s.holdFrame f (if f.short then s.judgeShort f (some exp) false else s.judgeFull f false) inj)

/-- DELIMITER_MISSING (R46, R49, R50, R461); under PTP a lost Sync counts as one (R54). -/
def execDelimiterMissing (s : State) : Res :=
  .next (if s.listens || (s.ptpOn && decide (s.f RING_CTRL_ENABLE = 1)) then
    (s.missing false).setRing (fun r => { r with ptpGood := 0 }) else s)

/-- A PTP period code in force: codes 6 and 7 name no period, and the one in force stays (R54, R76; DESIGN CHOICE, log 69). -/
def State.ptpPeriod (s : State) (code : Nat) : State :=
  if code ≤ 5 then s.setRing (fun r => { r with period := code }) else s

/-- The offset from master of an exchange: half the difference between the two ways, each less its correction (IEEE 1588, end-to-end delay
mechanism; R53). Half a nanosecond is dropped (DESIGN CHOICE, log 70). -/
def PtpObs.offset (o : PtpObs) : Int := ((o.t2 - o.t1 - o.corrSync) - (o.t4 - o.t3 - o.corrResp)) / 2

/-- The ring in force at an exchange: the edge of ring n falls at PTP time ORIGIN + n × P (R54). -/
def State.ptpRing (s : State) (o : PtpObs) : Nat :=
  ((o.t2 - o.offset - (s.f RING_PTP_ORIGIN_ORIGIN : Int)) / (periodNs s.ring.period : Int) % (ringMod : Int)).toNat

/-- Whether an exchange is one the engine takes part in: its port and domain, and with a two-step master the Follow_Up (R53). -/
def State.ptpTaken (s : State) (o : PtpObs) : Bool :=
  s.ptpOn && decide (s.f RING_CTRL_ENABLE = 1) && s.clk.xtal && decide (o.port = s.f RING_CONFIG_PTP_PORT) &&
    decide (o.domain = s.f RING_CONFIG_PTP_DOMAIN) && (! o.twoStep || o.followUp)

/-- What the engine does on a good exchange (R54, R56): 16 consecutive Sync intervals with |offset| at most 20 ns lock, the counter taking
its ring from PTP time; while locked, edges move by at most 4 ns a ring. -/
def State.ptpSteer (s : State) (o : PtpObs) : State :=
  let left := o.offset - max (-4) (min 4 o.offset)
  match s.ring.lock with
  | .unlocked => (s.setRing (fun r => { r with ptpGood := bit (decide (o.offset.natAbs ≤ 20)) })).lockTo .acquiring
  | .acquiring =>
    let k := if o.offset.natAbs ≤ 20 then s.ring.ptpGood + 1 else 0
    let s1 := s.setRing (fun r => { r with ptpGood := k })
    if 16 ≤ k then
      let s2 := s1.ptpPeriod (s.f RING_CTRL_PTP_PERIOD)
      (s2.setRing (fun r => { r with number := s2.ptpRing o, holdCount := 0, edgeDue := false })).lockTo .locked
    else s1
  | .locked => s.setRing (fun r => { r with edgeDue := true, slewNs := left })
  | .holdover =>
    let s1 := s.setRing (fun r => { r with edgeDue := true, slewing := true, slewNs := left })
    if o.offset.natAbs ≤ 4 then (s1.setRing (fun r => { r with slewing := false, holdCount := 0 })).lockTo .locked else s1

/-- PTP_SYNC: an exchange updates the offset and steers the edges; a correction above 500 ns raises PTP_STEP (R53, R54, R56). The port must
be enabled and set to FABRIC: an exchange over another is a broken duty with no response of its own (R14, R53; DEDUCED, log 71). Edge ports
receive nothing while the root die runs on its oscillator (R66). -/
def execPtpSync (o : PtpObs) (s : State) : Res :=
  .next <|
    if s.ptpTaken o = false then s
    else if s.portEnabled o.port = false ∨ (s.port o.port).role ≠ 2 then s.breach (.port o.port false) 0
    else
      let s1 := s.setF RING_PTP_OFFSET_OFFSET (o.offset % 2 ^ 32).toNat
      if 500 < o.offset.natAbs ∧ s.ring.lock ≠ .unlocked ∧ s.ring.lock ≠ .acquiring then
        (s1.raiseAbort ⟨.clock, 7⟩ .engine 0 .during false).dropLock .acquiring
      else s1.ptpSteer o

/-- ceil(0.1 µs × f) at a code: the least guard under PTP (R55). -/
def ptpGuard (code : Nat) : Nat := (600 + 25 * code + 9) / 10

/-- Whether the active graft still fits under a guard, spread and highest code (R58). -/
def State.stillFits (s : State) (guard depth code : Nat) : Bool :=
  match s.activeNeed with
  | some need => decide (need + guard ≤ ringCycles s.ring.period code depth)
  | none => true

/-- RING_CONFIG_WRITE: applied at the next edge, or ignored whole with CFG_REJECT; GROVE_ID only while UNLOCKED (R55, R58,
R76). -/
def execRingConfigWrite (w : Word64) (s : State) : Res :=
  .next <|
    let g := RING_CONFIG_GUARD.of w
    let d := RING_CONFIG_EDGE_DELAY.of w
    let h := RING_CONFIG_HOLDOVER_MAX.of w
    if RING_CONFIG_PTP_PORT.of w < 72 ∧ 64 ≤ d ∧ 16 ≤ g ∧ g ≤ 512 ∧ 1 ≤ h ∧ h ≤ 1000 ∧
        (s.ptpOn = true → ptpGuard (s.f CLK_FREQ_MAX_CODE) ≤ g) ∧ s.stillFits g s.depthSet s.maxCode = true then
      let s1 := [RING_CONFIG_PTP_PORT, RING_CONFIG_PTP_DOMAIN, RING_CONFIG_HOLDOVER_MAX, RING_CONFIG_EDGE_DELAY,
        RING_CONFIG_GUARD].foldl (fun s F => s.put F w) s
      if s.ring.lock = .unlocked then s1.put RING_CONFIG_GROVE_ID w else s1
    else s.flag RING_STATUS_CFG_REJECT

/-- RING_ENABLE_WRITE: 0 forces UNLOCKED and aborts the running step with RING_JUMP (Table 2.5, R76). -/
def execRingEnableWrite (b : Bool) (s : State) : Res :=
  .next <|
    if b then s.setF RING_CTRL_ENABLE 1
    else
      let s1 := (s.setF RING_CTRL_ENABLE 0).setRing (fun r => { r with seen := [] })
      let locked := s.ring.lock = .locked ∨ s.ring.lock = .holdover
      (if locked then s1.raiseAbort ⟨.clock, 5⟩ .engine 0 .during false else s1).dropLock .unlocked

/-- RING_SOURCE_WRITE: ignored while a job is running, and for PTP while the guard rule fails (R53, R55, R76). The new
source is acquired afresh; under PTP
there are no FLAGS, and EMERG stays 0 (R54). -/
def execRingSourceWrite (b : Bool) (s : State) : Res :=
  .next <|
    if s.busyJob ∨ (b = true ∧ s.f RING_CONFIG_GUARD < ptpGuard (s.f CLK_FREQ_MAX_CODE)) ∨ b = s.ptpOn then s
    else
      let s1 := (s.setF RING_CTRL_SOURCE (bit b)).dropLock .unlocked
      if b then s1.setRing (fun r => { r with emerg := false, emergHold := false, emergClear := 16 }) else s1

/-- CLR_STATS: clears RING_ERRORS and RING_ERRORS2 and resets RING_MARGIN (R76). -/
def execClrStats (s : State) : Res :=
  .next (s.clearFs [RING_ERRORS_SEAM_SLIPS, RING_ERRORS_GROVE_MISMATCH, RING_ERRORS_MISSING, RING_ERRORS_CRC_ERR,
    RING_ERRORS2_FORMAT_ERR, RING_MARGIN_RING_LO, RING_MARGIN_DIE, RING_MARGIN_MIN_MARGIN])

end Sys2Proof.Machine
end

