-- ==== Sys2Proof/Machine/BarkCore.lean ====
section
/-!
DEFINITION. What Bark and heartwood do for many commands: a heartwood write that becomes persistent (R375 to R378), entropy and random
bytes (R339), measurements (R348), engine signatures (R346, R347), the end of a grant (R352).
-/
namespace Sys2Proof.Machine

/-! ## A write becomes persistent (R375 to R378) -/

/-- Replaces a heartwood register. -/
def State.setHwReg (s : State) (r : Nat) (h : HwReg) : State := { s with hw := { s.hw with regs := sset HwReg.zero s.hw.regs r h } }

/-- The slot that holds the current value (R375). -/
def HwReg.newestAt (h : HwReg) : Nat :=
  match h.newest with
  | none => 3
  | some b => ((List.range 4).find? (fun k => h.slots.getD k default == b)).getD 3

/-- The next live slot after the one that holds the current value, in the order 0, 1, 2, 3, 0 (R376). -/
def HwReg.nextLive (h : HwReg) : Option Nat :=
  ((List.range 4).map (fun k => (h.newestAt + 1 + k) % 4)).find? (fun k => ! h.retired.testBit k)

/-- Bits 111:0 of a slot (Table 13.1). -/
def HwSlot.bits (c : HwSlot) : Nat := c.value % 2 ^ 64 + 2 ^ 64 * (c.wcount % 2 ^ 19) + 2 ^ 83 * (c.retired % 16) + 2 ^ 87 * (c.hours % 2 ^ 24)

/-- The CRC-16 of a slot over bits 111:0, least significant byte first (R375, R40). -/
def slotCrc (n : Nat) : Nat := crcBits 16 0x1021 0xFFFF ((leBytes 14 n).flatMap msbBits)

/-- The 128 bits of a slot (Table 13.1). -/
def HwSlot.word (c : HwSlot) : Nat := c.bits + 2 ^ 112 * slotCrc c.bits

/-- What a write puts into a slot: the value, WCOUNT + 1, RETIRED copied forward, the powered hours (R376, Table 13.1). -/
def HwReg.next (h : HwReg) (k value hours : Nat) : HwSlot :=
  ⟨value % 2 ^ 64, h.count + 1, h.retired, hours % 2 ^ 24, true, (h.slots.getD k default).taken + 1⟩

/-- A verified slot takes the value. -/
def HwReg.hold (h : HwReg) (k value hours : Nat) : HwReg := { h with slots := h.slots.set k (h.next k value hours) }

/-- A slot that fails verification is retired; it holds what was read back (R376). -/
def HwReg.retire (h : HwReg) (k word : Nat) : HwReg :=
  { h with slots := h.slots.set k ⟨word % 2 ^ 64, word / 2 ^ 64 % 2 ^ 19, word / 2 ^ 83 % 16, word / 2 ^ 87 % 2 ^ 24, false,
             (h.slots.getD k default).taken + 1⟩
           retired := h.retired ||| 2 ^ k }

/-- A HEARTWOOD record (R386). -/
def State.hwFault (s : State) (r code : Nat) (inj : Bool) : State := s.raise ⟨.heartwood, code⟩ (.heartwood r) 0 false .during inj

/-- A slot of a register is retired: the record and the count (R376, R386). -/
def State.slotFails (s : State) (r k word : Nat) : State :=
  ((s.setHwReg r ((s.hwReg r).retire k word)).inc (HW_CNT_COUNT 3) 1).hwFault r 3 false

/-- Whether a slot reads back as it was written; `back` is the word read back where it is another (R376). -/
def HwReg.verified (h : HwReg) (k value hours : Nat) (back : Option Nat) : Bool := back.all (fun w => w == (h.next k value hours).word)

/-- Powered hours shown in a slot: LIFE[0] and what has run since (R384). -/
def State.poweredHours (s : State) : Nat := s.hwVal 0x1C8 + s.hw.hours

/-- A verified slot holds the value; the write is persistent (R376, Table 13.8). -/
def State.slotHolds (s : State) (r k value : Nat) (refresh : Bool) : State :=
  let s1 := (s.setHwReg r ((s.hwReg r).hold k value s.poweredHours)).inc (HW_CNT_COUNT 0) 1
  if refresh then s1.inc (HW_CNT_COUNT 1) 1 else s1

/-- WEAR_WARN and WEAR_LIMIT, each raised once (R378). -/
def State.wear (s : State) (r : Nat) : State :=
  let h := s.hwReg r
  let s1 := if h.atWarn ∧ h.warned = false then (s.setHwReg r { h with warned := true }).hwFault r 1 false else s
  let h1 := s1.hwReg r
  if h1.atLimit ∧ h1.limit = false then (s1.setHwReg r { h1 with limit := true }).hwFault r 2 false else s1

/-- Registers that M5 measures (Table 13.3). -/
def hwConfig (r : Nat) : Bool :=
  decide (r ≤ 0x00A) || (decide (0x010 ≤ r) && decide (r ≤ 0x1AA)) || (decide (0x1B0 ≤ r) && decide (r ≤ 0x1BE)) || decide (r = 0x1C2) ||
    (decide (0x1D0 ≤ r) && decide (r ≤ 0x1EA))

/-- Extends a measurement with a digest (R348). -/
def State.measure (s : State) (n : Nat) (digest : List Byte) : State :=
  { s with bark := { s.bark with meas := s.bark.meas.set n (sha384 (s.bark.meas.getD n [] ++ digest)) } }

/-- Sets a measurement (R348). -/
def State.setMeas (s : State) (n : Nat) (v : List Byte) : State := { s with bark := { s.bark with meas := s.bark.meas.set n v } }

/-- M5 anew: SHA-384 over the configuration registers, in ascending order (R348). -/
def State.measureConfig (s : State) : State :=
  s.setMeas 5 (sha384 (((List.range 1024).filter (fun r => hwConfig r && hwAssigned r)).flatMap (fun r => leBytes 8 (s.hwVal r))))

/-- A write ends: on the next live slot, or after one failed verification on the one after it; a write whose retry fails too, or
that finds no live slot, leaves the old value (R376; DESIGN CHOICE, log 32). `first` and `second` are the words the two tries read
back, none where it is what was written. -/
def State.hwPersist (s : State) (r value : Nat) (refresh : Bool) (first second : Option Nat) : State :=
  if (s.hwReg r).atLimit then s.inc (HW_CNT_COUNT 4) 1
  else
    let s1 :=
      match (s.hwReg r).nextLive with
      | none => s
      | some k =>
        if (s.hwReg r).verified k value s.poweredHours first then s.slotHolds r k value refresh
        else
          let s1 := s.slotFails r k (first.getD 0)
          match (s1.hwReg r).nextLive with
          | none => s1
          | some k2 =>
            let s2 := s1.inc (HW_CNT_COUNT 2) 1
            if (s2.hwReg r).verified k2 value s2.poweredHours second then s2.slotHolds r k2 value refresh
            else s2.slotFails r k2 (second.getD 0)
    let s2 := s1.wear r
    if hwConfig r then s2.measureConfig else s2

/-- A write that its command waits for: it stands when the command ends, verified at the first try, and it replaces writes of the same
register still under way (R346, R367; DESIGN CHOICE, log 33). -/
def State.hwWait (s : State) (r value : Nat) : State :=
  let keep (l : List HwWrite) : List HwWrite := l.filter (fun w => w.reg != r)
  let s1 : State := { s with hw := { s.hw with busy := keep s.hw.busy, engineQ := keep s.hw.engineQ } }
  s1.hwPersist r value false none none

/-- Advances an anti-rollback counter to a higher value: one heartwood write (R349). -/
def State.advanceCounter (s : State) (n svn : Nat) : State :=
  if s.hwNext (0x1B0 + n) < svn then s.hwWrite (0x1B0 + n) svn false else s

/-! ## Entropy (R339) -/

/-- Random bytes of Bark's DRBG (log 2). -/
def State.random (s : State) (n : Nat) : List Byte × State :=
  (Config.randomBytes s.bark.draws n, { s with bark := { s.bark with draws := s.bark.draws + 1 } })

/-- Asks for entropy: whether the source is healthy. A request while it is not counts toward the next reseed, at which it recovers; DET 43
makes the next health test fail (R339, R423). -/
def State.entropy (s : State) : Bool × State :=
  let (p, s1) := s.fireRoot none 43 (fun _ => true)
  let ok := s1.bark.entropyOk && p.isNone
  if ok then (true, s1)
  else
    let n := s1.bark.draws + 1
    (false, { s1 with bark := { s1.bark with draws := n, entropyOk := decide (n % 2 ^ 20 = 0) } })

/-! ## Signed objects and signatures -/

/-- DETAIL of a SIGNATURE record: object kind (firmware kinds as 0x80 plus the kind, a graft as 0x40) and the signature (DESIGN CHOICE,
log 29): bit 0 ECDSA, bit 1 HSS, bit 2 the keys. -/
def sigDetail (kind which : Nat) : Nat := kind + 256 * which

/-- A signature that DET 40 makes the next signed object fail: 1 ECDSA, 2 HSS, 0 none, and whether it was injected (R341, R423). -/
def State.sigForce (s : State) : Nat × Bool × State :=
  let (p, s1) := s.fireRoot none 40 (fun p => p == 1 || p == 2)
  (p.getD 0, p.isSome, s1)

/-- What fails of a signature block over a message: the signatures, and bit 2 where its keys do not have the key hash they must have
(R341, R342, Table 12.2). -/
def sealFails (force : Nat) (key : Option (List Byte)) (msg blk : List Byte) : Nat :=
  (blockFails msg blk ||| force) + (if key.all (· == blockKeyHash blk) then 0 else 4)

/-- Counts a checked object (Table 12.14). -/
def State.objectCount (s : State) (ok : Bool) : State := s.inc (BARK_CNT_COUNT (if ok then 0 else 1)) 1

/-- A SECURITY record that stops no step. -/
def State.security (s : State) (code detail : Nat) (inj : Bool) : State := s.raise ⟨.security, code⟩ .engine detail false .during inj

/-- The value of LMS in heartwood: GEN and NEXT_TREE (Table 13.3). -/
def State.lmsNext (s : State) : Nat × Nat := (s.hwVal 0x1C0 % 16, s.hwVal 0x1C0 / 16 % 2048)

/-- The signatures are spent: LMS_EXHAUSTED, for good (R347). -/
def State.lmsSpent (s : State) (report : Bool) : State :=
  let s1 : State := { s with bark := { s.bark with lmsDone := true } }
  if report then s1.security 0xE 0 false else s1

/-- Reserves a fresh bottom tree before it is used (R346). The last tree of generation 15 leaves NEXT_TREE at 1,024 (DESIGN CHOICE,
log 34); a register at its limit ends signing (R385). -/
def State.lmsReserve (s : State) : State :=
  let (g, q) := s.lmsNext
  if 1024 ≤ q then s.lmsSpent true
  else if (s.hwReg 0x1C0).atLimit then (s.inc (HW_CNT_COUNT 4) 1).lmsSpent false
  else
    let next := if q + 1 < 1024 then g + 16 * (q + 1) else if g < 15 then g + 1 else 15 + 16 * 1024
    let s1 := s.hwWait 0x1C0 next
    ({ s1 with bark := { s1.bark with lmsGen := g, lmsTree := q, lmsLeaf := 0 } } : State).inc (BARK_CNT_COUNT 3) 1

/-- Makes a leaf ready: a reservation where one is due (R346). -/
def State.signReady (s : State) : State := if s.bark.lmsDone = false ∧ 1024 ≤ s.bark.lmsLeaf then s.lmsReserve else s

/-- The two public keys that the engine signs under: of its identity and of the HSS generation in use (R341, R346). -/
def State.signKeys (s : State) : List Byte := identityPublic (s.bark.ds.getD []) ++ hssPublicOf (s.bark.ds.getD []) s.bark.lmsGen

/-- One engine signature over a message, ECDSA and HSS. A leaf is used, after a reservation where one is due; nothing is signed once
the trees are spent (R341, R346, R347). -/
def State.sign (s : State) (msg : List Byte) (chained : Bool) : Option (List Byte) × State :=
  let s1 := s.signReady
  if s1.bark.lmsDone then (none, s1)
  else
    let (rnd, s2) := s1.random 88
    let b := s2.bark
    let blk := engineSigs (b.ds.getD []) b.lmsGen b.lmsTree b.lmsLeaf rnd msg chained
    let s3 := ({ s2 with bark := { b with lmsLeaf := b.lmsLeaf + 1 } } : State).inc (BARK_CNT_COUNT 2) 1
    (some blk, if b.lmsGen = 15 ∧ b.lmsTree = 1023 ∧ b.lmsLeaf = 1023 then s3.lmsSpent true else s3)

/-- A fresh ECDH key from the DRBG: its scalar (R355, R358). -/
def State.ecdhKey (s : State) : Nat × State :=
  let (e, s1) := s.random 56
  (scalarOf e, s1)

/-- The device certificate (R345). -/
def State.deviceCert (s : State) : List Byte := Sys2Proof.Machine.deviceCert (s.bark.ds.getD []) (s.hwVal 0x001) s.cert.variant s.cert.line

/-! ## Grants and measurements under way -/

/-- A grant ends: armed injections are disarmed (R352, R422). `mark` extends M8, at a revocation or expiry (R348). -/
def State.endGrant (s : State) (mark : Bool) : State :=
  match s.bark.grant with
  | none => s
  | some _ =>
    let s1 : State := { s with bark := { s.bark with grant := none }, ras := { s.ras with inj := ⟨none, none, none, none⟩ } }
    if mark then s1.measure 8 (List.replicate 48 0xFF) else s1

/-- A job's edge p ends an M7 measurement: ATTEST returns ABANDONED (R371). -/
def State.abandonM7 (s : State) : State :=
  if s.bark.attest.isSome then
    ({ s with bark := { s.bark with attest := none } } : State).setF BARK_RESULT_RESULT 8
  else s

end Sys2Proof.Machine
end

