-- ==== Sys2Proof/Machine/Verify.lean ====
section
/-!
DEFINITION. Verification of a staged graft: the checks of Table 7.9 over its sections and over the final content of every plane (R3,
R83, R85, R109, R116, R122, R130, R164, R178, R194, R203 to R219, R244, R275, R463).
-/
namespace Sys2Proof.Machine

/-! ## Final planes (R208) -/

/-- Every beat written to a cell in order gives the plane a graft leaves in it (R208). -/
def Graft.planeAt (g : Graft) (x y : Nat) : Plane :=
  (g.beats.filter (fun b => b.sets.any (·.has x y))).foldl (fun p b => p.load b.what) Plane.empty

/-- The cells a graft configures, each with the TEMPLATE record that covers it. -/
def Graft.planes (g : Graft) : List ((Nat × Nat) × Nat) :=
  g.templates.zipIdx.flatMap (fun t => (t.1.sets.flatMap CellSet.cells).map (·, t.2))

/-- The credit entries of a plane that are taken before the CREDIT section is applied (R213). -/
def Graft.creditsBefore (g : Graft) (x y : Nat) : Nat :=
  let p := ({ g with credits := [] } : Graft).planeAt x y
  ((List.range 32).filter (fun k => p.nat (0x2D0 + 8 * k) 8 / 2 ^ 26 % 1024 != 0)).length

/-- The first CREDIT record that finds no free entry in one of its owners (R130, R213). -/
def Graft.creditFull (g : Graft) : Option Nat :=
  g.credits.zipIdx.findSome? (fun r =>
    if r.1.set.cells.any (fun c =>
        decide (32 < g.creditsBefore c.1 c.2 + ((g.credits.take (r.2 + 1)).filter (fun q => q.set.has c.1 c.2)).length)) then some r.2
    else none)

/-! ## Check 5: resources -/

/-- Whether a writer of a standing credit is a cell of the grid, or a session (R3, R213). -/
def State.writerIn (s : State) (v : Nat) : Bool := v.testBit 4 || s.inGrid (v / 2 ^ 5 % 2 ^ 11) (v / 2 ^ 16 % 2 ^ 10)

/-- The cells a pipeline configuration names: the owner pack writes to, the senders of remote terms (R90, R101). -/
def PipeCfg.names (cfg : PipeCfg) : List (Nat × Nat) :=
  (match cfg.dest with
   | .remote _ _ ox oy _ _ _ => [(ox, oy)]
   | .ag _ | .vnet _ | .term _ _ => []) ++ cfg.remote.flatMap (fun p => p.2.map (fun t => (t.sx, t.sy)))

/-- Whether every cell that a plane addresses lies in the grid (R3). -/
def State.planeIn (s : State) (p : Plane) : Bool :=
  p.cfg.names.all (fun c => s.inGrid c.1 c.2) &&
  (List.range 32).all (fun k =>
    let v := p.nat (0x2D0 + 8 * k) 8
    decide (v / 2 ^ 26 % 1024 = 0) || s.writerIn v)

/-- Whether every cell of a set lies in the grid (R206). -/
def State.setIn (s : State) (c : CellSet) : Bool :=
  decide (c.size = 0) || (let p := c.at (c.size - 1); s.inGrid p.1 p.2)

/-- Check 5: variant, grid, taps, ports, dies and bands (R3, R9, R74, R393, R405, R425): the section and record that fails. -/
def State.resourceFail (s : State) (g : Graft) : Option (Nat × Nat) :=
  if g.variant ≠ s.cert.variant then some (0, 0)
  else
    (((g.sets.find? (fun p => ! s.setIn p.2.1)).map (fun p => (p.1, p.2.2))).orElse fun _ =>
      ((g.credits.findIdx? (fun r => ! s.writerIn r.val)).map (fun i => (5, i))).orElse fun _ =>
      ((g.taps.findIdx? (fun t => ! (decide (t.1 < 384) && s.tapEnabled t.1))).map (fun i => (7, i))).orElse fun _ =>
      ((g.ports.findIdx? (fun p => ! s.portEnabled p.1)).map (fun i => (8, i))).orElse fun _ =>
      (if g.sched.reserves.all (fun r => s.portEnabled r.port) then none else some (9, 0)).orElse fun _ =>
      ((g.planes.find? (fun p => ! s.planeIn (g.planeAt p.1.1 p.1.2))).map (fun p => (1, p.2))).orElse fun _ =>
      if (List.range 48).any (fun d => s.dieEnabled d && decide (s.domain d = .unavailable) && s.graftUses g d) ||
          (List.range 12).any (fun k => decide (s.pll (48 + k) = .failed) &&
            (g.taps.any (fun t => t.2 != 0 && limbOfTap t.1 == k) || g.ports.any (fun p => limbOfPort p.1 == k))) ||
          (List.range 432).any (fun n => s.dieEnabled (n / 9) && s.bandUnusable n && s.bandInGraft g n) then some (1, 0)
      else none)

/-! ## Check 6: coverage -/

/-- Check 6: no cell under two TEMPLATE records, patches within the plane (R209, R210). -/
def Graft.coverageFail (g : Graft) : Option (Nat × Nat) :=
  match g.templates.zipIdx.find? (fun b => g.templates.zipIdx.any (fun a => decide (a.2 < b.2) &&
      a.1.sets.any (fun p => b.1.sets.any (fun q => p.overlaps q)))) with
  | some b => some (1, b.2)
  | none =>
    (g.patches.findIdx? (fun p => ! (decide (1 ≤ p.data.length) && decide (p.off + p.data.length ≤ 1024)))).map
      (fun i => (2, i))

/-! ## Check 7: records -/

/-- Whether the SCHEDULE section obeys Table 7.6 and R216. -/
def Sched.ok (c : Sched) : Bool :=
  decide (1 ≤ c.cNeed) && decide (1 ≤ c.stride) && decide (c.stride ≤ 64) && decide (c.period ≤ 5) &&
  (decide (c.freePeriod = 0) || (decide (2 ≤ c.freePeriod) && decide (c.freePeriod ≤ 256))) &&
  decide (1 ≤ c.crossLatency) && decide (c.crossLatency ≤ 4096) && (! c.xposes.isEmpty || decide (c.xposeRings = 0)) &&
  c.reserves.all (fun r => decide (r.slot < c.stride))

/-- Whether the reservations of every port, half, direction and slot fit (R275). -/
def Graft.reservesOk (g : Graft) : Bool :=
  g.sched.reserves.all (fun r =>
    let l := g.sched.reserves.filter (fun q => q.port == r.port && q.half == r.half && q.ingress == r.ingress && q.slot == r.slot)
    decide (l.foldl (fun n q => n + q.units) 0 ≤ reserveMax g.sched.period (g.portFunc r.port).2))

/-- Whether an FP32 value is finite (Table 5.7). -/
def finite32 (w : Nat) : Bool :=
  match val32 (BitVec.ofNat 32 w) with
  | .fin _ _ _ => true
  | .inf _ | .nan => false

/-- Whether a predictor binding, bytes 8 to 31 of a PREDICT record, is in range (Table 5.7, Table 7.7). -/
def predictOk (b : List Byte) : Bool :=
  let rank := rd b 2 1 % 128
  let pol := rd b 19 1 / 16 % 4
  let mk := rd b 20 1 % 128
  decide (1 ≤ rank) && decide (rank ≤ 64) && finite32 (rd b 4 4) && finite32 (rd b 8 4) &&
  ! Val.lt (val32 (BitVec.ofNat 32 (rd b 8 4))) (.fin false 0 0) && decide (4 ≤ rd b 19 1 % 16) && decide (rd b 19 1 % 16 ≤ 10) &&
  decide (rd b 19 1 / 64 = 0) && decide (pol ≤ 2) && (if pol = 1 then decide (1 ≤ mk) && decide (mk ≤ 64) else decide (mk = 0)) &&
  decide (rd b 20 1 / 128 = 0) && zeros (cut b 21 3) && decide (1 ≤ rd b 16 2)

/-- Whether a claim group is well formed against the others before it (R214, R244, R463). -/
def State.claimOk (s : State) (before : List ClaimRec) (r : ClaimRec) : Bool :=
  decide (4 ≤ r.set.size) && decide (r.tiles < 2 ^ 28) && decide (r.counter < 64) && decide (r.order ≤ 1) &&
  before.all (fun q => ! (r.cx == q.cx && r.cy == q.cy) &&
    ! (s.dieOf r.cx r.cy == s.dieOf q.cx q.cy && r.counter == q.counter))

/-- Whether a window descriptor is in range (R212, Table 4.2): one that declares no window is all zero. -/
def windowValOk (v : Nat) : Bool :=
  decide (v / 2 ^ 36 = 0) && (decide (v = 0) || (decide (v / 2 ^ 12 % 256 ≠ 0) && decide (v / 2 ^ 4 % 256 + v / 2 ^ 12 % 256 ≤ 192) &&
    decide (v / 2 ^ 26 % 1024 ≤ 4 * (v / 2 ^ 12 % 256))))

/-- Whether a spill descriptor is in range (R211); one of SIZE 0 places no queue and is all zero. -/
def spillValOk (v : Nat) : Bool :=
  decide (v / 2 ^ 20 = 0) && (decide (v = 0) || (decide (1 ≤ v / 2 ^ 12) && decide (v / 2 ^ 12 ≤ 128) &&
    decide (v % 2 ^ 12 + v / 2 ^ 12 ≤ 3072)))

/-- Whether a ROUTE record is in range (R211, Table 7.5). -/
def routeRecOk (r : SetRec) : Bool :=
  if r.val % 256 = 1 then decide (r.val / 2 ^ 8 % 4 ≤ 1) && decide (r.val / 2 ^ 10 % 4 = 0) && decide (1 ≤ r.val / 2 ^ 12 % 16) &&
    decide (r.val / 2 ^ 12 % 16 ≤ 4) && decide (r.val / 2 ^ 16 % 2 ^ 16 = 0) && decide (r.val / 2 ^ 44 ≠ 0) && spillValOk (r.val / 2 ^ 32)
  else decide (r.val % 256 = 0) && decide (r.val / 2 ^ 8 % 4 ≤ 2) && decide (r.val / 2 ^ 10 % 4 = 0) &&
    decide (r.val / 2 ^ 16 % 2 ^ 16 = 0) && decide (r.val / 2 ^ 60 = 0)

/-- Whether a standing credit is in range (R213): an entry of UNITS 0 is all zero. -/
def creditValOk (v : Nat) : Bool :=
  decide (v / 2 ^ 36 = 0) && (decide (v = 0) || (decide (1 ≤ v / 2 ^ 26 % 1024) && decide (v / 2 ^ 26 % 1024 ≤ 768) &&
    (! v.testBit 4 || (! v.testBit 15 && decide (v / 2 ^ 16 % 1024 = 0)))))

/-- Whether the cell sets, reserved bits and codes of a section's fixed-size records are as R206 and R211 to R217 give them. -/
def recordOk (kind : Nat) (r : List Byte) : Bool :=
  match kind with
  | 3 | 4 | 5 => cellSetOk (rd r 0 8)
  | 6 => cellSetOk (rd r 0 8) && decide (rd r 8 4 / 2 ^ 11 % 2 ^ 5 = 0) && decide (rd r 8 4 / 2 ^ 26 = 0) && zeros (cut r 14 2) &&
      zeros (cut r 20 4)
  | 7 => decide (rd r 0 4 < 2 ^ 11)
  | 8 => decide (rd r 0 4 < 2 ^ 10) && decide (rd r 0 4 / 2 ^ 7 % 4 ≤ 2)
  | 9 => if rd r 0 1 = 1 then decide (rd r 2 1 ≤ 1) && zeros (cut r 8 8)
      else decide (rd r 0 1 = 2) && decide (rd r 2 1 < 16) && decide (rd r 3 1 < 32) && zeros (cut r 4 4) && cellSetOk (rd r 8 8)
  | 10 => cellSetOk (rd r 0 8) && predictOk (cut r 8 24)
  | _ => true

/-- Size of a section kind's fixed-size records (Table 7.3). -/
def recordSize : Nat → Nat
  | 6 => 24 | 7 => 4 | 8 => 4 | 10 => 32 | _ => 16

/-- The first record of a section whose fixed layout does not hold. -/
def Section.recordFail (q : Section) : Option Nat :=
  let body := if q.kind = 9 then q.payload.drop 32 else q.payload
  match fixedOf (recordSize q.kind) q.count body with
  | some rs => rs.findIdx? (fun r => ! recordOk q.kind r)
  | none => none

/-! ## Check 7: planes -/

/-- Whether a plane's pipeline region is valid: format codes, operand pair, activation function, its bounds and REQUANT's functions, at
most 8 remote terms an output with an index of 20 bits, window ids (R83, R85, R90, R97, R98). -/
def PipeCfg.valid (cfg : PipeCfg) : Bool :=
  ([cfg.wCode, cfg.aCode, cfg.outCode] ++ cfg.grad.toList.map (·.code)).all (fun c => (Fmt.ofCode c).isSome) &&
  (match pairClass cfg.opFmt cfg.aFmt with
   | none => false
   | some k => match cfg.intPath with
     | .requant _ sh _ => ! k.isInt || (decide (sh < 64) && [0, 1, 3].contains cfg.fn)
     | .convert => true) &&
  decide (cfg.fn ≤ 12) &&
  (decide (cfg.fn ≠ 3) || ! Val.lt (val32 cfg.hi) (val32 cfg.lo)) &&
  (decide (cfg.fn ≠ 12) || (Val.lt (val32 cfg.lo) (val32 cfg.hi) && decide (cfg.tableWin < 16))) &&
  cfg.remote.all (fun p => decide (p.2.length ≤ 8) && p.2.all (fun t => decide (t.idx < 2 ^ 20)))

/-- Whether a stride of a pattern is in range (Table 4.1). -/
def strideOk (d : Int) : Bool := decide (-49152 ≤ d) && decide (d ≤ 49136) && decide (d % 16 = 0)

/-- Whether a checked pattern reads whole lines in order (R116): from a line boundary, 16 bytes a step, whole lines, every outer loop a
whole number of lines. -/
def AgPattern.checkOk (a : AgPattern) : Bool :=
  ! a.check || (decide (a.port ≠ .w) && ! a.indirect && decide (a.base % 256 = 0) && decide (a.strides.getD 0 0 = 16) &&
    decide (a.counts.getD 0 0 % 16 = 0) &&
    [1, 2, 3].all (fun k => decide (a.counts.getD k 1 ≤ 1) || decide (a.strides.getD k 0 % 256 = 0)))

/-- Whether generator `n`'s pattern is in range (Table 4.1, R116). -/
def Plane.agValid (p : Plane) (n : Nat) : Bool :=
  let a := p.ag n
  decide (a.window < 16) && decide (a.base % 16 = 0) &&
  (match p.window a.window with
   | some d => decide (a.base + 16 ≤ d.len)
   | none => true) &&
  a.counts.all (fun c => decide (1 ≤ c) && decide (c ≤ 65536)) && a.strides.all strideOk &&
  (! a.indirect || (decide (a.isrc < n) && (List.range 9).any (fun m => decide (a.iscale = 16 * 2 ^ m)))) && a.checkOk

/-- Whether a steering unit's configuration is in range (Table 6.8, Table 6.9). -/
def SteerCfg.valid (c : SteerCfg) : Bool :=
  decide (c.mode = .off) ||
  ((match c.unitSize with
    | none => true
    | some n => decide (1 ≤ n) && decide (n ≤ (if c.mode = .repeatN then 8 else 256))) &&
   (match c.tokenRoute with
    | none => true
    | some r => decide (r < 32)) && c.outs.all (fun r => decide (r < 32)) &&
   c.map.all (fun m => match m with
     | some k => decide (k < 4)
     | none => true))

/-- Areas of the scratchpad that a plane's windows and spill queues take: whether a window, first byte, bytes (R122, R197). -/
def Plane.areas (p : Plane) : List (Bool × Nat × Nat) :=
  (List.range 16).filterMap (fun w => (p.window w).map (fun d => (true, d.base, d.len)))
    ++ (([1, 2, 3, 4].filter (fun k => decide (0 < p.spillBeats k))).map (fun k => (false, p.spillBase k, 16 * p.spillBeats k)))

/-- Whether no window overlaps another window or a spill queue (R122). -/
def Plane.areasOk (p : Plane) : Bool :=
  let l := p.areas.zipIdx
  l.all (fun a => l.all (fun b => decide (a.2 = b.2) || ! (a.1.1 || b.1.1) ||
    decide (a.1.2.1 + a.1.2.2 ≤ b.1.2.1) || decide (b.1.2.1 + b.1.2.2 ≤ a.1.2.1)))

/-- Whether every window descriptor is valid, and names its own slot (R212). -/
def Plane.windowsOk (p : Plane) : Bool :=
  (List.range 16).all (fun k =>
    let v := p.nat (0x250 + 8 * k) 8
    windowValOk v && (decide (v = 0) || decide (v % 16 = k)))

/-- The valid route entries of a network as stored (R211). -/
def Plane.routesOf (p : Plane) (net : Net) : List Nat :=
  ((List.range 16).map (fun k => p.nat (0x180 + 64 * net.idx + 4 * k) 4)).filter (·.testBit 0)

/-- Whether a local target is configured (R178). -/
def Plane.targetOk (p : Plane) (t : Nat) : Bool :=
  match t with
  | 0 => (List.range 16).any (fun w => (p.window w).isSome)
  | 1 => p.cfg.remote.any (fun q => ! q.2.isEmpty)
  | 2 => decide ((p.steerCfg 0).mode ≠ .off)
  | _ => decide ((p.steerCfg 1).mode ≠ .off)

/-- Whether a route entry of a network may stand in a cell's box: reserved bits clear, outputs inside the grid, T on a tap cell alone,
a configured local target, and a spill queue that is placed, none on the C-net (R178, R197, R211). -/
def State.routeOk (s : State) (p : Plane) (x y : Nat) (net : Net) (v : Nat) : Bool :=
  let outMask := v / 2 ^ 15 % 64
  let spill := v / 2 ^ 25 % 8
  decide (v / 2 ^ 28 = 0) && (! outMask.testBit 0 || decide (0 < y)) && (! outMask.testBit 1 || s.inGrid (x + 1) y) &&
  (! outMask.testBit 2 || s.inGrid x (y + 1)) && (! outMask.testBit 3 || decide (0 < x)) &&
  (! outMask.testBit 4 || (decide (net ≠ .c) && (s.tapAt x y).isSome)) &&
  (! outMask.testBit 5 || p.targetOk (v / 2 ^ 21 % 4)) &&
  (decide (spill = 0) || (decide (spill ≤ 4) && decide (net ≠ .c) && decide (0 < p.spillBeats spill)))

/-- Whether the boxes' route tables hold (R178): no route twice on a network, each entry allowed. -/
def State.routesOk (s : State) (p : Plane) (x y : Nat) : Bool :=
  [Net.v, .s, .c].all (fun net =>
    let l := p.routesOf net
    (l.map (fun v => v / 2 % 32)).Nodup && l.all (s.routeOk p x y net))

/-- The network a cell's spill queue serves, by the last ROUTE record that places it (R211). -/
def Graft.spillNet (g : Graft) (x y k : Nat) : Option Nat :=
  ((g.routes.filter (fun r => r.set.has x y && decide (r.val % 256 = 1) && decide (r.val / 2 ^ 12 % 16 = k))).getLast?).map
    (fun r => r.val / 2 ^ 8 % 4)

/-- Whether every route entry that names a spill queue is of the queue's network, and no queue serves two (R211). -/
def Graft.spillsOk (g : Graft) (p : Plane) (x y : Nat) : Bool :=
  let users (net : Net) (k : Nat) : Bool := (p.routesOf net).any (fun v => decide (v / 2 ^ 25 % 8 = k))
  [1, 2, 3, 4].all (fun k => spillValOk (p.nat (0x240 + 4 * (k - 1)) 4) && ! (users .v k && users .s k) &&
    (match g.spillNet x y k with
     | some n => ! users (if n = 0 then .s else .v) k
     | none => true))

/-- Whether the region at 0x3D0 holds: reserved bits clear, a valid claimant set and counter where a counter stands, a predictor
binding in range (R463). -/
def Plane.regionOk (p : Plane) : Bool :=
  let b := p.nat 0x3D2 1
  decide (b < 4) && decide (p.nat 0x3DE 2 = 0) && (! b.testBit 0 || (cellSetOk (p.nat 0x3E0 8) && decide (p.nat 0x3D3 1 < 64))) &&
  (let r := p.region 0x3E8 24; zeros r || predictOk r)

/-- Whether the final plane of a cell obeys every rule that names graft verification (R208). -/
def State.planeOk (s : State) (g : Graft) (x y : Nat) : Bool :=
  let p := g.planeAt x y
  p.cfg.valid && (List.range 4).all p.agValid && (List.range 2).all (fun k => (p.steerCfg k).valid) && p.windowsOk && p.areasOk &&
  (List.range 32).all (fun k => creditValOk (p.nat (0x2D0 + 8 * k) 8)) && s.routesOk p x y && g.spillsOk p x y && p.regionOk

/-- Whether a claim group's planes agree with its record: the tile grid, and claimants equal in 0x000 to 0x17F (R244). -/
def Graft.claimPlanesOk (g : Graft) (r : ClaimRec) : Bool :=
  let p := g.planeAt r.cx r.cy
  decide (p.nat 0x3D4 2 * p.nat 0x3D6 2 = r.tiles) &&
  (match r.set.cells with
   | [] => true
   | c :: l => l.all (fun d => (g.planeAt d.1 d.2).region 0 0x180 == (g.planeAt c.1 c.2).region 0 0x180))

/-- Whether every cell of a PREDICT record declares at least NMAX outputs (R164). -/
def Graft.predictFits (g : Graft) (r : PredictRec) : Bool :=
  r.set.cells.all (fun c =>
    let cfg := (g.planeAt c.1 c.2).cfg
    decide (rd r.body 16 2 ≤ cfg.rows * cfg.cols.length))

/-- Check 7: every field and plane (Tables 7.5 to 7.7, R212 to R217, R244, R275, R463): the section and record that fails. -/
def State.ruleFail (s : State) (g : Graft) (secs : List Section) : Option (Nat × Nat) :=
  let first (sec : Nat) (i : Option Nat) : Option (Nat × Nat) := i.map (fun i => (sec, i))
  if ! (g.sched.ok && g.reservesOk) || ! (match findSec secs 9 with
      | some q => zeros (cut q.payload 0x12 14)
      | none => true) then some (9, 0)
  else
    ((secs.findSome? (fun q => first q.kind q.recordFail)).orElse fun _ =>
      (first 3 (g.routes.findIdx? (fun r => ! routeRecOk r))).orElse fun _ =>
      (first 4 (g.windows.findIdx? (fun r => ! windowValOk r.val))).orElse fun _ =>
      (first 5 (g.credits.findIdx? (fun r => ! creditValOk r.val || decide (r.val = 0)))).orElse fun _ =>
      (first 5 g.creditFull).orElse fun _ =>
      (first 6 ((g.claims.zipIdx).findIdx? (fun p => ! s.claimOk (g.claims.take p.2) p.1 || ! g.claimPlanesOk p.1))).orElse fun _ =>
      (first 10 (g.predicts.findIdx? (fun r => ! g.predictFits r))).orElse fun _ =>
      ((g.planes.find? (fun p => ! s.planeOk g p.1.1 p.1.2)).map (fun p => (1, p.2))))

/-! ## The order of the checks -/

/-- Which signatures of a staged graft fail over its message (R218, R341). -/
def graftFails (bs : List Byte) (secs : List Section) : Nat :=
  match findSec secs 11 with
  | some q => blockFails (graftMessage bs secs) q.payload
  | none => 3

/-- The first section whose DIGEST is not that of its payload (R204). -/
def badDigest (secs : List Section) : Option Section := secs.find? (fun q => sectionDigest q.payload != q.digest)

/-- Verification in the order of Table 7.9: the first check that fails, with the section and record it names. `sig` says which signatures
fail. -/
def State.graftCheck (s : State) (g : Option (Graft × List Section)) (sig : Nat) : Option (Nat × Nat × Nat) :=
  match g with
  | none => some (1, 0, 0)
  | some (a, secs) =>
    match badDigest secs with
    | some q => some (2, q.kind, 0)
    | none =>
      if sig ≠ 0 then some (2, 11, 0)
      else if a.owner ≠ s.ownerHash ∨ s.owner ≠ 1 then some (3, 11, 0)
      else if a.rollbackIdx < 4 ∨ 7 < a.rollbackIdx ∨ a.svn < s.rollback a.rollbackIdx then some (4, 0, 0)
      else
        match s.resourceFail a, a.coverageFail with
        | some p, _ => some (5, p)
        | none, some p => some (6, p)
        | none, none =>
          match s.ruleFail a secs with
          | some p => some (7, p)
          | none => if ! s.fitsMax a.sched.period a.sched.cNeed then some (8, 9, 0) else none

end Sys2Proof.Machine
end

