-- ==== Sys2Proof/Machine/GraftExec.lean ====
section
/-!
DEFINITION. Commands of the graft unit (R203 to R231): loading, verification, broadcast and the swap.
-/
namespace Sys2Proof.Machine

/-- Changes the graft unit. -/
def State.setGraft (s : State) (f : GraftUnit → GraftUnit) : State := { s with graft := f s.graft }

/-- Raises a fault with job id 0 in its record, so that no job notes it (R219). -/
def State.raiseNoJob (s : State) (fc : FaultCode) (src : Src) (detail : Nat) (inj : Bool) : State :=
  let s1 := ({ s with job := { s.job with cur := none } } : State).raise fc src detail false .during inj
  { s1 with job := { s1.job with cur := s.job.cur } }

/-- GRAFT_ERROR of a failure (R231). -/
def State.graftError (s : State) (code check sec rec : Nat) : State :=
  (((s.setF GRAFT_ERROR_CODE code).setF GRAFT_ERROR_CHECK check).setF GRAFT_ERROR_SECTION sec).setF GRAFT_ERROR_RECORD rec

/-- Sets a GRAFT_STATUS bit and raises the GRAFT cause (Table 11.3). -/
def State.graftFlag (s : State) (F : Fld) : State := (s.flag F).event 6

/-! ## Staging space (R220, R295) -/

/-- Chunk entries a limb die's cache can hold while `mib` MiB are staged. -/
def cacheRoom (mib : Nat) : Nat := 24576 - 256 * mib

/-- Drops the least recently used unpinned entries until the cache fits (R296). -/
def trimCache : Nat → Nat → List CacheEntry → List CacheEntry
  | 0, _, l => l
  | f + 1, room, l =>
    if l.length ≤ room then l
    else
      match l.find? (fun e => e.pins == 0) with
      | some e => trimCache f room (l.erase e)
      | none => l

/-- Sets the MiB staged in every limb die. -/
def State.stage (s : State) (mib : Nat) : State :=
  (List.range 12).foldl (fun s k =>
    let d := s.limb k
    s.setLimb k { d with stagedMib := mib, cache := trimCache d.cache.length (cacheRoom mib) d.cache }) s

/-- MiB each limb die stages of a graft striped over twelve. -/
def stageMib (len : Nat) : Nat := (len + 12 * 2 ^ 20 - 1) / (12 * 2 ^ 20)

/-- Whether a load is under way (Table 7.10). -/
def State.loading (s : State) : Bool :=
  decide (s.graft.load = .staging) || decide (s.graft.load = .verifying) || decide (s.graft.load = .broadcast)

/-- Whether a job names a graft. -/
def Desc.names (d : Desc) (g : Graft) : Bool := d.graftId == g.id && d.epoch == g.epoch

/-- Whether a swap is pending: an armed SWAP_RING, an admitted job that names the SHADOW graft, or a swap of this very ring
(Table 7.10, R224). -/
def State.swapPending (s : State) : Bool :=
  s.graft.armed.isSome || decide (s.graft.swapAt = some s.now) ||
    (match s.graft.shadow with
     | some g => s.job.queue.any (fun j => j.desc.names g)
     | none => false)

/-- The SHADOW planes of every cell emptied. -/
def State.clearShadow (s : State) : State := { s with cells := smap Cell.init (fun _ c => { c with shadow := Plane.empty }) s.cells }

/-- A load ends FAILED: staging is released, GRAFT_ERROR and the counter set, the code raised (R219, R224). -/
def State.loadFails (s : State) (check sec rec : Nat) (inj : Bool) : State :=
  let s1 := (s.stage 0).setGraft (fun g => { g with load := .failed, bytes := [], parsed := none, shadow := none, refill := false
                                                    refillDies := [], pos := [], armed := none })
  let s2 := (s1.graftError check check sec rec).inc (GRAFT_CNT_COUNT 1) 1
  (s2.raiseNoJob ⟨.graft, check⟩ .engine (sec * 2 ^ 32 + rec) inj).graftFlag GRAFT_STATUS_LOAD_FAIL

/-- GRAFT_LOAD: starts staging from GRAFT_SRC, or is refused as busy (R224). -/
def execGraftLoad (s : State) : Res :=
  .next <|
    if s.loading || s.swapPending then s.graftFlag GRAFT_STATUS_REFUSED_BUSY
    else
      (s.stage (min 84 (stageMib (s.f GRAFT_SRC_LEN_LEN)))).setGraft (fun g =>
        { g with load := .staging, bytes := [], parsed := none, pos := [], refill := false, refillDies := [] })

/-- ABORT_LOAD: stops a load, releases staging and invalidates the SHADOW planes (R224). -/
def execAbortLoad (s : State) : Res :=
  .next <|
    if s.loading then
      ((s.stage 0).clearShadow).setGraft (fun g =>
        { g with load := .empty, bytes := [], parsed := none, shadow := none, pos := [], refill := false, refillDies := [] })
    else s

/-- GRAFT_CLR_COUNTERS: clears every GRAFT_CNT (R231). -/
def execGraftClrCounters (s : State) : Res := .next (s.clearArr GRAFT_CNT_COUNT 6)

/-- STAGING_DONE: the last byte is staged and hashed; verification begins, in RUN alone. The bytes come from host memory, which the engine
reads only while it may master (R224, R318, R391). -/
def execStagingDone (bytes : List Byte) (s : State) : Res :=
  .next <|
    if s.graft.load = .staging ∧ s.inRun = true ∧ s.canMaster = true ∧ bytes.length = s.f GRAFT_SRC_LEN_LEN then
      s.setGraft (fun g => { g with load := .verifying, bytes := bytes })
    else s

/-- STAGING_READ_ERROR: a host read error ends the load FAILED with GRAFT/FORMAT (R224, R327). -/
def execStagingReadError (s : State) : Res :=
  .next (if s.graft.load = .staging then s.loadFails 1 0 0 false else s)

/-- Whether a die holds no plane at all (R223). -/
def State.dieEmpty (s : State) (d : Nat) : Bool :=
  ! s.cells.any (fun p => decide (s.dieOf (keyXY p.1).1 (keyXY p.1).2 = d) && (p.2.active.configured || p.2.shadow.configured))

/-- Dies the active graft configures whose planes a DIE reset emptied (R223). -/
def State.resetDies (s : State) : List Nat :=
  match s.graft.active with
  | some g => s.dies.filter (fun d => s.dieConfigured g d && s.dieEmpty d)
  | none => []

/-- VERIFY_DONE: the checks of Table 7.9 in order; broadcast starts, or the load ends FAILED (R219, R223); a failed
signature is a SECURITY/SIGNATURE as well (R341). -/
def execVerifyDone (s : State) : Res :=
  .next <|
    if s.graft.load ≠ .verifying then s
    else
      let parsed := graftOf s.graft.bytes (s.f GRAFT_SRC_LEN_LEN)
      let (p45, s1) := s.fireRoot none 45 (fun p => decide (1 ≤ p) && decide (p ≤ 8))
      let (force, forced, s2) := s1.sigForce
      let secs := (parsed.map (·.2)).getD []
      let sig := graftFails s.graft.bytes secs ||| force
      let verdict := match p45 with
        | some k => some (k, 0, 0)
        | none => s.graftCheck parsed sig
      match verdict, parsed with
      | some (k, sec, rec), _ =>
        let inj := p45.isSome || forced
        let s3 := if 2 ≤ k then s2.objectCount false else s2
        let s4 := if p45.isNone ∧ k = 2 ∧ (badDigest secs).isNone then
            s3.raiseNoJob ⟨.security, 1⟩ .engine (sigDetail 0x40 sig) inj else s3
        s4.loadFails k sec rec inj
      | none, some (g, _) =>
        let again := match s.graft.active with
          | some a => a.id == g.id && a.epoch == g.epoch
          | none => false
        let s3 := (s2.objectCount true).setF (GRAFT_CNT_COUNT 5) 0
        if again then
          s3.setGraft (fun q => { q with load := .broadcast, parsed := some g, pos := [], refill := true
                                         refillDies := s.resetDies })
        else
          s3.clearShadow.setGraft (fun q => { q with load := .broadcast, parsed := some g, pos := [], shadow := none
                                                     refill := false, refillDies := [] })
      | none, none => s2

/-- Writes one beat to the cells of a tap region: to SHADOW planes, or on a refill to the ACTIVE planes of a reset die (R222,
R223). -/
def State.loadBeat (s : State) (t : Nat) (b : LoadBeat) : State :=
  let (x0, x1, y0, y1) := s.tapRect t
  let refill := s.graft.refill
  (List.range (y1 + 1 - y0)).foldl (fun s dy =>
    (List.range (x1 + 1 - x0)).foldl (fun s dx =>
      let x := x0 + dx
      let y := y0 + dy
      if b.sets.any (fun c => c.has x y) then
        let c := s.cell x y
        s.setCell x y (if refill then { c with active := c.active.load b.what } else { c with shadow := c.shadow.load b.what })
      else s) s) s

/-- LOADER_WRITE: the loader writes the next beat of a tap region; an OFF die is woken first, and the write waits (R222, R393). -/
def execLoaderWrite (tap : Nat) (s : State) : Res :=
  .next <|
    let d := tap / 8
    if s.graft.load ≠ .broadcast ∨ s.tapEnabled tap = false then s
    else
      match s.graft.parsed with
      | none => s
      | some g =>
        if s.graft.refill && ! s.graft.refillDies.contains d then s
        else
          match (s.tapBeats g tap)[sget 0 s.graft.pos tap]? with
          | none => s
          | some b =>
            match s.domain d with
            | .off => s.setDomain d .waking
            | .waking => s
            | .unavailable => s.loadFails 5 1 0 false
            | .on =>
              ((s.loadBeat tap b).setGraft (fun q => { q with pos := smod 0 q.pos tap (· + 1) })).inc (GRAFT_CNT_COUNT 5) 1

/-- Whether every beat of the load is written. -/
def State.allBeats (s : State) (g : Graft) : Bool :=
  (List.range 384).all (fun t => ! s.tapEnabled t || (s.graft.refill && ! s.graft.refillDies.contains (t / 8)) ||
    decide ((s.tapBeats g t).length ≤ sget 0 s.graft.pos t))

/-- A swap fails: it is disarmed, counted, its code recorded and raised (R226). -/
def State.swapFails (s : State) (code : Nat) : State :=
  let s1 := (s.setGraft (fun g => { g with armed := none, swapAt := some s.now })).inc (GRAFT_CNT_COUNT 3) 1
  let check := if code = 8 then 8 else 0
  ((s1.graftError code check 0 0).raise ⟨.graft, code⟩ .engine 0 false .start false).graftFlag GRAFT_STATUS_SWAP_FAIL

/-- BROADCAST_DONE: the last beat is written; the load is LOADED and its SWAP_RING armed, or at once disarmed when it lies too near
(R224, R225). `late` says the beat came after cycle 0 of the ring. -/
def execBroadcastDone (late : Bool) (s : State) : Res :=
  .next <|
    match s.graft.load, s.graft.parsed with
    | .broadcast, some g =>
      if ! s.allBeats g then s
      else
        let ready := if late then ringAdd s.now 1 else s.now
        let s1 := ((s.stage 0).inc (GRAFT_CNT_COUNT 0) 1).graftFlag GRAFT_STATUS_LOAD_DONE
        if s.graft.refill then
          s1.setGraft (fun q => { q with load := if q.shadow.isSome then .loaded else .empty, bytes := [], parsed := none
                                         refill := false, refillDies := [], pos := [] })
        else
          let s2 := s1.setGraft (fun q => { q with load := .loaded, bytes := [], parsed := none, shadow := some g
                                                   readyRing := ready, pos := [] })
          if g.swapRing = 0 then s2
          else if ringBefore ready g.swapRing && decide (s.lead ≤ ringsTo ready g.swapRing) then
            s2.setGraft (fun q => { q with armed := some g.swapRing })
          else s2.swapFails 9
    | _, _ => s

/-! ## The swap (R225 to R229) -/

/-- Units that a swap drops from a cell, and the lowest queue identifier among the queues that held them: what waits to enter a local
input counts with it (Table 6.10, R227, R229). -/
def Cell.heldQueues (c : Cell) : Nat × Option Nat :=
  let route (q : List NetUnit) : Nat := match q with
    | u :: _ => u.route
    | [] => 0
  let waits (p : InPort) (q : List (Net × NetUnit)) : List (Nat × Nat) := [Net.v, .s, .c].map (fun n =>
    let l := (q.filter (fun u => u.1 == n)).map (·.2)
    (inputId n p (route l), l.length))
  let boxes := [Net.v, .s, .c].flatMap (fun n => allIn.map (fun p => (inputId n p (route (c.box.queue n p)), (c.box.queue n p).length)))
  let spills := (List.range 4).map (fun k =>
    let q := c.box.spill (k + 1)
    (2 * 2 ^ 12 + 2 ^ 10 * ((q.head?.map (·.net.idx)).getD 0) + route (q.map (·.u)), q.length))
  let inboxes := [Net.v, .s].flatMap (fun n => [0, 1, 4, 5, 6].map (fun k => (2 ^ 12 + 2 ^ 10 * n.idx + 2 ^ 7 * 5 + 2 ^ 5 * 3,
    (sget [] c.box.inbox (ikey n k)).length)))
  let steer := [(c.steer0, 0), (c.steer1, 1)].flatMap (fun p =>
    let held := p.1.outgoing.length + (match p.1.act with
      | some a => a.buf.length
      | none => 0)
    [(3 * 2 ^ 12 + 2 ^ 5 * p.2, held), (4 * 2 ^ 12 + 2 ^ 11 + 2 ^ 5 * p.2, p.1.tokens.length)])
  let all := (boxes ++ waits .lPack c.comp.netOut ++ waits .lMemory c.mem.out ++ spills ++ inboxes ++ steer).filter (fun p => decide (0 < p.2))
  (all.foldl (fun n p => n + p.2) 0,
   all.foldl (fun b p => match b with
     | none => some p.1
     | some q => some (min q p.1)) none)

/-- Whether a byte lies in a RESIDENT window that two planes declare alike (R128). -/
def residentIn (p q : Plane) (a : Nat) : Bool :=
  (List.range 16).any (fun w => match p.window w, q.window w with
    | some d, some e => d.resident && e.resident && decide (d.base = e.base) && decide (d.len = e.len) &&
        decide (d.base ≤ a) && decide (a < d.base + d.len)
    | _, _ => false)

/-- Zeroes every byte that `keep` does not name, with a valid check pattern and SEALED clear (R127). -/
def MemUnit.zero (m : MemUnit) (keep : Nat → Bool) : MemUnit :=
  let some_ := (List.range 192).any (fun l => keep (256 * l))
  { m with
    bytes := Memory.clear m.bytes (fun a => ! keep a)
    words := skeep (fun w => keep (8 * w)) m.words
    lines := skeep (fun l => keep (256 * l)) m.lines
    lost := if some_ then m.lost else none
    kept := if m.lost.isSome && some_ then
        (List.range scratchBytes).foldl (fun k a => if keep a then k else sset false k a true) m.kept
      else [] }

/-- A cell at a swap edge: its queues dropped, its planes exchanged, windows closed in the outgoing plane and opened in the
incoming one with standing credits bound anew; bytes outside windows that both planes declare RESIDENT alike are zeroed (R127,
R128, R227). -/
def Cell.swap (c : Cell) (epoch : Nat → Nat) : Cell :=
  let m0 : MemUnit := { c.mem.zero (residentIn c.active c.shadow) with
    msgs := [], held := [], asked := [], out := [], waiting := [] }
  let m1 := (List.range 16).foldl (fun m id => m.closeWin id) m0
  let m2 := (List.range 16).foldl (fun m id => m.openWin c.shadow epoch id) { m1 with credits := [] }
  { c with active := c.shadow, shadow := c.active, comp := Compute.idle, mem := m2, gate := []
           box := { Box.idle with flight := c.box.flight, linkUE := c.box.linkUE }
           steer0 := ⟨[], none, []⟩, steer1 := ⟨[], none, []⟩ }

/-- Every cell of a list of keys refreshes its standing credits and those of its writers (R132, R227). -/
def State.refreshAll (s : State) : State :=
  (s.cells.map (·.1)).foldl (fun s k => s.refreshCell (keyXY k).1 (keyXY k).2) s

/-- Units of a tap that are in its channel towards the cell, the others waiting in the limb die for credit (R191): as many as the T input
of `s` has room for. -/
def State.crossing (s : State) (t : Nat) (net : Net) : List NetUnit :=
  let p := s.tapCell t
  ((s.tap t).toCell net).take (192 - ((s.cell p.1 p.2).box.queue net .t).length)

/-- Limb dies take the new TAP and PORT bindings and discard what they hold for the old ones; units in a channel towards a cell still
arrive (R227, R228). `old` is the state before the planes were exchanged. -/
def State.bindTaps (s old : State) (g : Graft) : State :=
  let s1 := (List.range 384).foldl (fun s t =>
    s.setTap t { s.tap t with
      func := g.tapFunc t, toLimbV := [], toLimbS := [], bufV := [], bufS := [], toCellV := old.crossing t .v, toCellS := old.crossing t .s }) s
  (List.range 72).foldl (fun s p =>
    let q := s.port p
    let (role, split) := g.portFunc p
    let s2 := s.setPort p { q with role := role, split := split }
    if split = q.split then s2
    else s2.linkTo p true (if split ∧ q.link0 ≠ .disabled then .detect else .disabled)) s1

/-- STALE_TOKEN/FLUSHED, once for each die that dropped units at the edge, under a strict incoming plane (R229). -/
def State.flushed (s : State) (drops : List (Nat × Nat × Nat × Nat)) : State :=
  s.dies.foldl (fun s d =>
    let l := drops.filter (fun p => s.dieOf p.1 p.2.1 == d)
    match l with
    | [] => s
    | (x, y, _, q) :: _ =>
      (s.setGraft (fun g => { g with staleBlock := true })).raise ⟨.staleToken, 1⟩ (.cell x y)
        (l.foldl (fun n p => n + p.2.2.1) 0 + 2 ^ 32 * q) true .start false) s

/-- The swap takes place (R227): planes exchanged in every cell, the tag advanced, queues dropped and counted, windows and credits
rebound, clocks gated for the new plane (R70), taps and ports switched. Cells stand in ascending y, then ascending x. -/
def State.swapNow (s : State) : State :=
  match s.graft.shadow with
  | none => s
  | some g =>
    let drops := s.cells.filterMap (fun p =>
      match p.2.heldQueues with
      | (n, some q) => some ((keyXY p.1).1, (keyXY p.1).2, n, q)
      | (_, none) => none)
    let n := drops.foldl (fun n p => n + p.2.2.1) 0
    let s1 : State := { s with cells := smap Cell.init (fun _ c => c.swap s.sesEpoch) s.cells
                               power := { s.power with lostDies := [] } }
    let s2 := s1.setGraft (fun q => { q with
      active := some g, shadow := q.active, load := if q.active.isSome then .loaded else .empty, tag := (q.tag + 1) % 4
      armed := none, swapAt := some s.now, readyRing := s.now, arrived := [], arrivedCount := [], staleBlock := false })
    let s3 := (((s2.regate.bindTaps s g).refreshAll.measure 6 g.message).inc (GRAFT_CNT_COUNT 2) 1).inc (GRAFT_CNT_COUNT 4) n
    if g.strict then s3.flushed drops else s3

/-- What stops a swap at the edge of the ring in force (R225, R226): the GRAFT code. -/
def State.swapStop (s : State) : Option Nat :=
  match s.graft.shadow with
  | none => some 9
  | some g =>
    let busy := match s.job.cur with
      | some j => (decide (j.stage = .running) && decide (j.stepRing ≠ s.now)) || decide (j.stage = .recovering)
      | none => false
    let ready := s.graft.readyRing
    if s.graft.load ≠ .loaded ∨ ringsTo ready s.now < s.lead ∨ ringBefore s.now ready = true then some 9
    else if g.unusable = true then some 5
    else if busy = true then some 10
    else if ! s.fitsMax s.ring.period g.sched.cNeed then some 8
    else none

/-- SWAP: at the edge an armed SWAP_RING names, the planes are exchanged or the swap fails (R225 to R229). -/
def execSwap (s : State) : Res :=
  .next <|
    if s.graft.armed = some s.now then
      match s.swapStop with
      | some code => s.swapFails code
      | none => s.swapNow
    else s

end Sys2Proof.Machine
end

