-- ==== Sys2Proof/Machine/SapExec.lean ====
section
/-!
DEFINITION. Commands of Sap messages and sessions (R273, R274, R280 to R284, R288, R307 to R310, R355, R356).
-/
namespace Sys2Proof.Machine

/-! ## From cells to peers (R273) -/

/-- An address flit (Table 9.6). -/
structure AddrFlit where
  op : Nat
  cls : Nat
  deadline : Nat
  tap : Nat
  route : Nat
  x : Nat
  y : Nat
  reply : Nat
  dstReply : Nat
  count : Nat
  deriving DecidableEq, Repr

/-- Splits an address flit (Table 9.6). -/
def addrFlit (n : Nat) : AddrFlit :=
  ⟨fld n 0 4, fld n 4 2, fld n 8 16, fld n 24 9, fld n 33 5, fld n 38 11, fld n 49 10, fld n 59 5, fld n 64 5, fld n 69 10⟩

/-- Takes the first units out of a limb die's receive buffer of a tap. -/
def State.takeTap (s : State) (t : Nat) (net : Net) (n : Nat) : State :=
  let v := s.tap t
  s.setTap t (match net with
    | .v => { v with bufV := v.bufV.drop n }
    | .s => { v with bufS := v.bufS.drop n }
    | .c => v)

/-- BAD_TARGET at a tap (R273, R274, R281, R292). -/
def State.badTap (s : State) (t : Nat) : State :=
  s.raise ⟨.peer, 5⟩ (.tap t) (Config.sapDetail (limbOfTap t) 0 0) true .during false

/-- Merges a WRITE into the frame queued just before it: same tap, session, address flit and ring, contiguous offsets (R273). -/
def mergeWrite (q : List TxFrame) (f : Frame) (due : Option Nat) : Option (List TxFrame) :=
  match q.getLast? with
  | none => none
  | some t =>
    let g := t.frame
    if g.typ = 1 ∧ f.typ = 1 ∧ g.session = f.session ∧ g.stamp = f.stamp ∧ g.cls = f.cls ∧ g.deadline = f.deadline ∧ t.due = due ∧
        cut g.fields 0 6 = cut f.fields 0 6 ∧ g.fields.drop 8 = f.fields.drop 8 ∧
        rd f.fields 6 2 = rd g.fields 6 2 + g.data.length / 16 ∧ g.data.length + f.data.length ≤ 4096 then
      some (q.dropLast ++ [{ t with frame := { g with data := g.data ++ f.data } }])
    else none

/-- A class S request that an injection has refused: PEER/REFUSED, and the requester gets the refusal (R308, Table 15.5). -/
def State.refusedReq (s : State) (i : Nat) (r : PendReq) (reason : Nat) (inj : Bool) : State :=
  ((s.inc (STREAM_CNT_COUNT 4) 1).refuseResult r reason).refusedFault i reason inj

/-- Sends a request of this engine and keeps it in the limb die's table; `none` with the table full (R273). -/
def State.request (s : State) (k : Nat) (r : PendReq) : Option State :=
  let (p, s1) := if r.cls = 0 then s.fireEdge r.session 24 else (none, s)
  match p with
  | some n => some (s1.refusedReq r.session r n true)
  | none => if s.limbOn k then (s1.addPend k r).map (fun q => q.1.sendPend k q.2 r) else none

/-- A cell's message toward a peer while a replay sends no peer traffic: a WRITE goes no further, a READ waits for its recorded
answer, and a CREDIT is granted what it asks (R438, R439; DESIGN CHOICE, log 97). -/
def State.aloneEgress (s : State) (t : Nat) (h : VHead) (a : AddrFlit) (count : Nat) : State :=
  let r := { PendReq.blank (if a.op = 2 then .read else .credit) h.session with
    cls := a.cls, tap := t, x := h.sx, y := h.sy, reply := a.reply, window := h.window, gen := h.gen, offset := h.offset, count := count }
  if a.op = 1 then s
  else if a.op = 2 then ((s.addPend (limbOfTap t) r).map (·.1)).getD s
  else s.answerCredit r 0 0 count h.gen 0

/-- A V-net message from a SAP tap: WRITE, READ or CREDIT toward a peer (R273). -/
def State.egress (s : State) (t : Nat) (us : List NetUnit) (h : VHead) : State :=
  let s1 := s.takeTap t .v us.length
  match us with
  | _ :: u :: body =>
    let a := addrFlit u.data
    let i := h.session
    if h.kind ≠ 0 ∨ h.peer = false ∨ a.cls = 3 ∨ ! [1, 2, 7].contains a.op then s1.badTap t
    else if s.alone = false ∧ s.isLive i = false then s1.badTap t
    else if s.alone = false ∧ (s.isOpen i = false ∨ s.roleOk i = false) then s1
    else
      let due := if a.cls = 0 then some (ringAdd s.now a.deadline) else none
      let count := if a.op = 2 then a.count % 256 + 1 else if a.op = 7 then a.count else 0
      let f := { dataFrame a.op a.cls (if a.cls = 0 then a.deadline else 0)
          (reqFields a.tap a.route h.window h.gen h.offset a.x a.y count (if a.op = 1 then 0 else a.dstReply))
          (body.flatMap (fun v => leBytes 16 v.data)) with session := t, stamp := s.now }
      if s.alone then s1.aloneEgress t h a count
      else if a.op = 1 then
        match mergeWrite (s.ses i).queue f none with
        | some q => s1.modSes i (fun r => { r with queue := q })
        | none => s1.queueFrame i f
      else
        let r := { PendReq.blank (if a.op = 2 then .read else .credit) i with
          cls := a.cls, due := due, tap := t, x := h.sx, y := h.sy, reply := a.reply, window := h.window, gen := h.gen,
          offset := h.offset, count := count, frame := { f with data := [] } }
        match s1.request (limbOfTap t) { r with due := none } with
        | some s2 => s2
        | none => s
  | _ => s1.badTap t

/-- A response frame to a peer's request (R274, R307). -/
def State.respond (s : State) (i : Nat) (typ cls : Nat) (due : Option Nat) (fields data : List Byte) : State :=
  let f := { dataFrame typ cls 0 fields data with resp := true }
  let s1 := s.queueReq i f due none
  let disp := rd fields 0 1
  if disp = 1 then s1.inc (STREAM_CNT_COUNT 5) 1
  else if disp = 2 then
    let s2 := s1.inc (STREAM_CNT_COUNT 6) 1
    if rd fields 1 1 = 5 then s2.inc (PWR_CNT_COUNT 6) 1 else s2
  else s1

/-- Data a cell read for a peer comes back through the tap: gathered until every beat is there, then answered (R184, R274). A
poisoned beat is answered as NACK = 1 (log 8). -/
def State.readBack (s : State) (t : Nat) (us : List NetUnit) (h : VHead) : State :=
  let k := limbOfTap t
  let s1 := s.takeTap t .v us.length
  match (s.limb k).pending.find? (fun r => r.inward && r.kind == .read && r.session == h.session && r.window == h.window &&
      r.frame.epoch == h.epoch && decide (h.offset = r.offset + r.frame.data.length / 16)) with
  | none => s1
  | some r =>
    let body := us.drop 1
    let data := r.frame.data ++ body.flatMap (fun v => leBytes 16 v.data)
    let bad := r.frame.nak || h.nack || body.any (·.poison)
    if 16 * r.count ≤ data.length then
      (s1.dropPend k r.tag).respond r.session 2 r.cls r.due
        (respFields 0 0 0 (r.seq.getD 0) h.gen r.count (bit bad)) data
    else s1.modPend k r.tag (fun r => { r with frame := { r.frame with data := data, nak := bad } })

/-- An S-net message from a SAP tap: a grant or a NACK that belongs to a peer (R134, R184, R274). -/
def State.egressS (s : State) (t : Nat) (us : List NetUnit) : State :=
  let k := limbOfTap t
  let s1 := s.takeTap t .s us.length
  let w (n : Nat) : Nat := (us.getD n default).data
  if fld (w 0) 0 4 = 1 then
    let tag := fld (w 2) 10 12
    match (s.limb k).pending.find? (fun r => r.inward && r.kind == .credit && r.tag == tag && r.session == fld (w 2) 0 10) with
    | none => s1
    | some r =>
      let s2 := s1.dropPend k tag
      let disp := fld (w 0) 8 2
      if disp = 3 then s2
      else s2.respond r.session 7 r.cls r.due
        (respFields disp (fld (w 0) 10 3) (fld (w 1) 16 16) (r.seq.getD 0) (fld (w 1) 0 16) (fld (w 0) 13 10) 0) []
  else if fld (w 0) 0 4 = 2 then
    let i := fld (w 2) 21 10
    match (s.limb k).writes.find? (fun r => r.session == i && r.epoch == fld (w 3) 12 16 && r.window == fld (w 0) 4 4 &&
        r.offset == fld (w 3) 0 12) with
    | none => s1
    | some r =>
      let l := s1.limb k
      let s2 := s1.setLimb k { l with writes := l.writes.erase r }
      if s.isLive i then
        s2.queueFrame i (dataFrame 9 0 0 (noticeFields (fld (w 0) 4 4) (fld (w 1) 0 16) (fld (w 1) 16 16) (fld (w 2) 0 11)
          (fld (w 2) 11 10) (fld (w 0) 8 9) r.seq) [])
      else s2
  else s1.badTap t

/-- SAP_EGRESS: a cell's message reaches the limb die through a tap bound SAP (R273, R274). -/
def execSapEgress (tap : Nat) (net : Net) (s : State) : Res :=
  .next <|
    if (s.tap tap).func ≠ 2 ∨ s.tapEnabled tap = false ∨ s.limbOn (limbOfTap tap) = false then s
    else
      match firstMessage ((s.tap tap).buf net) with
      | none => s
      | some us =>
        match net with
        | .v =>
          let h := vHead (us.getD 0 default).data
          if h.kind = 2 then s.readBack tap us h else s.egress tap us h
        | .s => s.egressS tap us
        | .c => s

/-! ## From peers to cells (R274, R307) -/

/-- Takes the first delivered frame of a session when it is of the wanted kind and the limb die of its home port is clocked (R74). -/
def State.takeInbox (s : State) (i : Nat) (want : Frame → Bool) : Option (Frame × State) :=
  match (s.ses i).inbox with
  | f :: rest => if want f && s.limbOn (limbOfPort (s.ses i).port) then some (f, s.modSes i (fun q => { q with inbox := rest })) else none
  | [] => none

/-- Whether a request's TAP is served by the session's limb die and bound SAP (R274). -/
def State.tapOk (s : State) (i tap : Nat) : Bool :=
  decide (tap < 384) && s.tapEnabled tap && decide (limbOfTap tap = limbOfPort (s.ses i).port) && decide ((s.tap tap).func = 2)

/-- Fields of a request frame: tap, route, window, GEN, offset, x, y, count, reply route. -/
def Frame.tapOf (f : Frame) : Nat := rd f.fields 0 2 % 512

/-- The WRITE messages of a frame: up to 16 beats each (R274). -/
def writeMessages (tag route : Nat) (h : VHead) : Nat → List (List Byte) → List NetUnit
  | 0, _ => []
  | _, [] => []
  | n + 1, bs =>
    let part := bs.take 16
    vMessage tag route { h with len := part.length - 1 } (part.map (fun b => (b, false))) ++
      writeMessages tag route { h with offset := h.offset + 16 } n (bs.drop 16)

/-- A session's WRITE becomes V-net WRITE messages, or raises BAD_TARGET where its TAP is none of the limb die's (R274). -/
def State.placeWrite (s : State) (i : Nat) (f : Frame) : State :=
  let t := f.tapOf
  if ! s.tapOk i t then s.peerFault 5 i f.seq true false
  else
    let (x, y) := s.tapCell t
    let off := rd f.fields 6 2
    let win := rd f.fields 3 1 % 16
    let gen := rd f.fields 4 2
    let bs := beats16 256 f.data
    let k := limbOfTap t
    let l := s.limb k
    let recs := (List.range ((bs.length + 15) / 16)).map (fun m =>
      (⟨i, f.epoch, win, off + 16 * m, f.seq, rd f.fields 8 2, rd f.fields 10 2⟩ : WriteRec))
    (s.setLimb k { l with writes := (recs ++ l.writes).take 4096 }).fromTap 2 t .v
      (writeMessages s.graft.tag (rd f.fields 2 1 % 32) ⟨0, 0, win, gen, off, x, y, true, false, i, f.epoch⟩ 16 bs)

/-- WRITE_RECEIVE: a delivered WRITE becomes V-net WRITE messages (R274). -/
def execWriteReceive (i : Nat) (s : State) : Res :=
  .next <|
    match s.takeInbox i (fun f => f.typ == 1) with
    | none => s
    | some (f, s1) => s1.placeWrite i f

/-- Units of a class that a port or half still owes: frames queued on its sessions, and reads of its peers that are being served (R307). -/
def State.owed (s : State) (port : Nat) (half : Bool) (cls : Nat) : Nat :=
  let here (i : Nat) : Bool := decide ((s.ses i).port = port) && (s.ses i).half == half
  (s.sess.filter (fun p => here p.1)).foldl (fun n p => n + (p.2.queue.filter (fun t => t.frame.cls == cls)).foldl (fun n t => n + t.frame.units) 0) 0
    + ((s.limb (limbOfPort port)).pending.filter (fun r => r.inward && r.kind == .read && r.cls == cls && here r.session)).foldl
        (fun n r => n + (16 * r.count + 63) / 64) 0

/-- Rings until a response of class U or B fits: U within its allowance, B within what a port can carry in a ring beside S and U
(R275, R306, R307; the rings B waits are the model's reckoning: DESIGN CHOICE, log 104). -/
def State.allowWait (s : State) (i cls units : Nat) : Nat :=
  let q := s.ses i
  let p := s.port q.port
  let allow := if cls = 2 then s.allowU else reserveMax s.ring.period p.split
  let used := s.owed q.port q.half cls + p.used q.half true + (if cls = 2 then 0 else p.used q.half false)
  if used + units ≤ allow then 0
  else if allow = 0 then 2 ^ 16
  else (used + units - 1) / allow

/-- The disposition of a peer's request, before the window conditions of a credit (Table 10.6): code, reason, rings. -/
def State.disposition (s : State) (i : Nat) (f : Frame) (units : Nat) : Nat × Nat × Nat :=
  let q := s.ses i
  let k := limbOfPort q.port
  let n := if f.cls = 0 then 0 else s.allowWait i f.cls units
  if 4096 ≤ (s.limb k).pending.length then (2, 3, 0)
  else if s.inRun = false ∨ s.power.linksFloor = true then (2, 5, 0)
  else if f.cls = 0 ∧ s.running.isSome ∧
      s.reservedUnits q.port q.half false < (s.port q.port).used q.half false + units then (2, 1, 0)
  else if f.cls = 2 ∧ s.f STREAM_U_ALLOW_DEFER_MAX < n then (2, 2, 0)
  else if 1 ≤ n then (1, 0, n)
  else (0, 0, 0)

/-- A peer's READ or CREDIT request: answered at once unless SERVED, else passed on to the cell (R274, R307). -/
def State.serve (s : State) (i : Nat) (f : Frame) (units : Nat) (words : Nat → Nat × Nat → List Nat) : State :=
  let t := f.tapOf
  if ! s.tapOk i t then s.peerFault 5 i f.seq true false
  else
    match s.disposition i f units with
    | (0, _, _) =>
      let k := limbOfTap t
      let r := { PendReq.blank (if f.typ = 2 then .read else .credit) i with
        inward := true, seq := some f.seq, cls := f.cls, due := f.due, tap := t, window := rd f.fields 3 1 % 16,
        gen := rd f.fields 4 2, offset := rd f.fields 6 2, count := rd f.fields 12 2, frame := { Frame.blank 2 with epoch := f.epoch } }
      match s.addPend k r with
      | some (s1, tag) => s1.fromTap 2 t .s (sMessage s.graft.tag (rd f.fields 2 1 % 32) (words tag (s.tapCell t)))
      | none => s.respond i f.typ f.cls f.due (respFields 2 3 0 f.seq 0 0 0) []
    | (d, reason, n) => s.respond i f.typ f.cls f.due (respFields d reason n f.seq 0 0 0) []

/-- READ_RECEIVE: a delivered READ becomes an S-net READ_REQ, or is refused or deferred (R274, R307). -/
def execReadReceive (i : Nat) (s : State) : Res :=
  .next <|
    match s.takeInbox i (fun f => f.typ == 2 && ! f.resp) with
    | none => s
    | some (f, s1) =>
      let n := rd f.fields 12 2
      if n = 0 ∨ 256 < n then s1.dropFrame 8
      else s1.serve i f ((16 * n + 63) / 64) (fun _ xy =>
        [3 + (rd f.fields 3 1 % 16) * 2 ^ 4 + rd f.fields 4 2 * 2 ^ 8 + (rd f.fields 14 1 % 32) * 2 ^ 24 + 2 ^ 29,
         rd f.fields 6 2 % 4096 + (n - 1) * 2 ^ 12, xy.1 + xy.2 * 2 ^ 11 + i * 2 ^ 21, f.epoch])

/-- CREDIT_RECEIVE: a delivered CREDIT request becomes an S-net CREDIT_REQ (R274, R307). -/
def execCreditReceive (i : Nat) (s : State) : Res :=
  .next <|
    match s.takeInbox i (fun f => f.typ == 7 && ! f.resp) with
    | none => s
    | some (f, s1) =>
      let n := rd f.fields 12 2
      if n = 0 ∨ 768 < n then s1.dropFrame 8
      else s1.serve i f 0 (fun tag xy =>
        [(rd f.fields 3 1 % 16) * 2 ^ 4 + n * 2 ^ 8 + (rd f.fields 14 1 % 32) * 2 ^ 18 + 2 ^ 23,
         xy.1 + xy.2 * 2 ^ 11, i + tag * 2 ^ 10, f.epoch])

/-- A response that is not SERVED: a deferral reissues n rings later, a refusal returns its result; for class S a refusal, or a
deferral past the deadline, raises PEER/REFUSED (R308). -/
def State.notServed (s : State) (i k : Nat) (r : PendReq) (f : Frame) : State :=
  let reason := rd f.fields 1 1
  if rd f.fields 0 1 = 1 then
    let s1 := s.inc (STREAM_CNT_COUNT 3) 1
    let ring := ringAdd s.now (rd f.fields 2 2)
    let late : Bool := match r.due, r.frame.due with
      | some d, _ => r.cls == 0 && ringBefore d ring
      | none, some d => r.cls == 0 && ringBefore d ring
      | none, none => false
    if late then ((s1.dropPend k r.tag).refuseResult r 0).refusedFault i 0 false
    else s1.modPend k r.tag (fun r => { r with seq := none, reissue := some ring })
  else
    let s1 := ((s.inc (STREAM_CNT_COUNT 4) 1).dropPend k r.tag).refuseResult r reason
    if r.cls = 0 then s1.refusedFault i reason false else s1

/-- RESPONSE_RECEIVE: a READ or CREDIT response returns to the requester; a reply to no pending request is dropped (R273, R284,
R308). -/
def execResponseReceive (i : Nat) (s : State) : Res :=
  .next <|
    match s.takeInbox i (fun f => f.resp && (f.typ == 2 || f.typ == 7)) with
    | none => s
    | some (f, s1) =>
      match s1.findReq i (rd f.fields 4 4) with
      | none => s1.dropFrame 13
      | some (k, r) =>
        if rd f.fields 0 1 = 0 then
          let s2 := s1.dropPend k r.tag
          if r.kind = .read then
            s2.answerRead r (rd f.fields 8 2) (decide (rd f.fields 12 1 = 1)) f.data
          else s2.answerCredit r 0 0 (rd f.fields 10 2) (rd f.fields 8 2) 0
        else s1.notServed i k r f

/-- NOTICE_RECEIVE: a NACK_CLOSED of a peer reaches the tap cell of the WRITE it names (R274). -/
def execNoticeReceive (i : Nat) (s : State) : Res :=
  .next <|
    match s.takeInbox i (fun f => f.typ == 9) with
    | none => s
    | some (f, s1) =>
      if rd f.fields 0 1 ≠ 1 then s1.dropFrame 8
      else
        match (List.range 12).findSome? (fun k => (s.limb k).outWrites.find? (fun r => r.1 == i && r.2.1 == rd f.fields 12 4)) with
        | none => s1
        | some (_, _, t) =>
          let (x, y) := s.tapCell t
          let us := sMessage s.graft.tag 0 (nackWords (rd f.fields 1 1 % 16) (rd f.fields 2 2) (rd f.fields 4 2)
            (rd f.fields 10 2 % 512) 0 (rd f.fields 6 2) (rd f.fields 8 2) (.cell x y))
          let c := s1.cell x y
          s1.setCell x y { c with box := { c.box with inbox := smod [] c.box.inbox (ikey .s 4) (· ++ us) } }

/-- SYNC_RECEIVE: COMMITTED or NOT_COMMITTED of a peer; with HALT_ON_PEER the latter is a fault (R301, R310). -/
def execSyncReceive (i : Nat) (s : State) : Res :=
  .next <|
    match s.takeInbox i (fun f => f.typ == 8) with
    | none => s
    | some (f, s1) =>
      let kind := rd f.fields 6 1
      if kind = 1 then s1
      else if kind = 2 then
        let s2 := s1.inc (STREAM_CNT_COUNT 11) 1
        if s.f STREAM_CTRL_HALT_ON_PEER = 1 then s2.peerFault 7 i f.seq true false else s2
      else s1.dropFrame 8

/-! ## Sessions (R280 to R283, R288, R355, R356) -/

/-- FLAGS of a handshake message: a grant is active, and it has INJECT (Table 12.8). -/
def State.debugFlags (s : State) : Nat :=
  match s.grantNow with
  | some g => 1 + 2 * bit g.inject
  | none => 0

/-- A handshake message of this engine, signed with one engine signature (Table 12.8, R347, R355); `before` stands ahead of its own
bytes in what is signed. -/
def State.handshakeMsg (s : State) (before point kem : List Byte) : List Byte × State :=
  let (nonce, s1) := s.random 32
  let m := handshakeHead s.debugFlags s.now nonce s.ownerHash point kem ++ s.deviceCert
  let (sigs, s2) := s1.sign (before ++ m) true
  (m ++ sigs.getD [], s2)

/-- A handshake message cut into CONTROL frames with SESSION 0xFFFF and MORE on every one but the last (R271, R355). -/
def handshakeFrames (f : Frame) : Nat → List Byte → List Frame
  | 0, _ => []
  | n + 1, bs =>
    { f with session := 0xFFFF, data := bs.take 4096, more := decide (4096 < bs.length) } ::
      (if bs.length ≤ 4096 then [] else handshakeFrames f n (bs.drop 4096))

/-- Sends a handshake message from a port or half to an address (R270, R355). -/
def State.sendHandshake (s : State) (port : Nat) (half : Bool) (mac op index remote epoch : Nat) (msg : List Byte) : State :=
  (handshakeFrames { ctlFrame op 0 index remote epoch with stamp := s.now } 8 msg).foldl (fun s f =>
    s.send (.frame port half (s.ethOf port half mac f.clear))) s

/-- OPEN_REFUSE with REFUSED(TABLE_FULL) (R280). -/
def State.refuseOpen (s : State) (port : Nat) (half : Bool) (mac remote : Nat) : State :=
  let f := { Frame.blank 10 with session := 0xFFFF, stamp := s.now, fields := ctlFields 3 0 0xFFFF remote 0 2 3 0 }
  s.send (.frame port half (s.ethOf port half mac f.clear))

/-- What makes the certificate of a handshake message invalid: 8 its header, else its signature block under the vendor key hash, or
under the owner key hash for a store credential, and 16 an SVN below counter 7; 0 nothing (R349, R356; the credential's body as a
host credential's, log 53). -/
def State.certFails (s : State) (cert : List Byte) (store : Bool) : Nat :=
  let key := if store then s.ownerHash else Config.vendorKeyHash
  if headerOk (if store then 7 else 8) (if store then 176 else 1088) false cert = false ∨ (store = true ∧ rd cert 8 8 ≠ s.hwVal 0x001) then 8
  else if sealFails 0 (some key) (signedPart cert) (blockOf cert) ≠ 0 then sealFails 0 (some key) (signedPart cert) (blockOf cert)
  else if store = true ∧ rd cert 0x38 8 < s.rollback 7 then 16
  else 0

/-- The first check of R356 that a handshake message fails, 7 for bytes that are no message or keys that are none (log 53). `before`
stands ahead of the message in what is signed, and `force` is a signature that an injection fails. -/
def State.handshakeFails (s : State) (before m : List Byte) (store : Bool) (force : Nat) : Option Nat :=
  let cert := certIn m
  let ring := rd m 10 6
  if m.length ≠ 1761 + (64 + (if store then 176 else 1088) + sigBlock) + 96 + 5076 ∨ (pointOf (cut m 96 97)).isNone = true then some 7
  else if s.certFails cert store ≠ 0 then some 1
  else if ! store ∧ cut m 48 48 ≠ s.ownerHash then some 2
  else if 64 < min (ringsTo ring s.now) (ringsTo s.now ring) then some 3
  else if messageFails before m (certKeys cert store) ||| force ≠ 0 then some 4
  else if s.cert.line = 1 ∧ ! store ∧ rd cert (64 + 1073) 1 ≠ 1 then some 5
  else if rd m 0 2 % 2 = 1 ∧ s.f BARK_POLICY_ACCEPT_DEBUG_PEERS = 0 then some 6
  else none

/-- Checks a handshake message, counts it, and records a signature that fails or an SVN below its counter (R341, R349, R356; log 29). -/
def State.checkHandshake (s : State) (before m : List Byte) (store : Bool) : Option Nat × State :=
  let (force, inj, s1) := s.sigForce
  let n := s1.handshakeFails before m store force
  let w := s1.certFails (certIn m) store
  let s2 := s1.objectCount n.isNone
  let kind := if store then 7 else 8
  (n, if n = some 1 ∧ w = 16 then s2.security 2 kind inj
    else if n = some 1 then s2.security 1 (sigDetail kind w) inj
    else if n = some 4 then s2.security 1 (sigDetail 0x20 (messageFails before m (certKeys (certIn m) store) ||| force)) inj
    else s2)

/-- Whether Bark can make the keys, nonce and signature of a handshake message (R339, R347). -/
def State.canHandshake (s : State) : Bool :=
  s.entropy.1 && ! s.bark.lmsDone && (decide (s.bark.lmsLeaf < 1024) || (decide (s.lmsNext.2 < 1024) && ! (s.hwReg 0x1C0).atLimit))

/-- A handshake ends with AUTH_FAIL; the record names the check (R285, R356). -/
def State.authFail (s : State) (i check : Nat) : State :=
  ((s.peerFault 4 i check true false).closeSes i false).cmdDone i 2

/-- Stores the RW fields of a SAP_SESSION_CMD write (R288). -/
def State.putCmd (s : State) (w : Word64) : State :=
  [SAP_SESSION_CMD_OP, SAP_SESSION_CMD_KIND, SAP_SESSION_CMD_HALF, SAP_SESSION_CMD_PORT, SAP_SESSION_CMD_ANY_REMOTE,
   SAP_SESSION_CMD_REMOTE_INDEX, SAP_SESSION_CMD_INDEX].foldl (fun s F => s.put F w) s

/-- The RESULT of a command that ends at once. -/
def State.result (s : State) (r : Nat) : State := { s with sessCmd := ⟨none, r⟩ }

/-- Whether a session command names a kind and a home port that exist. -/
def State.cmdOk (s : State) (w : Word64) : Bool :=
  decide (SAP_SESSION_CMD_KIND.of w ≤ 1) && s.portEnabled (SAP_SESSION_CMD_PORT.of w)

/-- SESSION_OPEN: SAP_SESSION_CMD with OP OPEN sends CONTROL OPEN and starts the handshake (R280, R281). Without entropy Bark makes
no key or nonce, and the handshake fails (R339). -/
def execSessionOpen (w : Word64) (s : State) : Res :=
  .next <|
    if s.sessCmd.busy.isSome then { s with sessCmd := { s.sessCmd with result := 5 } }
    else
      let s1 := s.putCmd w
      let i := SAP_SESSION_CMD_INDEX.of w
      let q := s.ses i
      if ! s.cmdOk w ∨ (q.st ≠ .closed ∧ q.st ≠ .listen) then s1.result 4
      else if ! s1.canHandshake then s1.entropy.2.result 2
      else
        let s1 := s1.entropy.2
        let port := SAP_SESSION_CMD_PORT.of w
        let half := decide (SAP_SESSION_CMD_HALF.of w = 1)
        let store := decide (SAP_SESSION_CMD_KIND.of w = 1)
        let remote := if SAP_SESSION_CMD_ANY_REMOTE.of w = 1 ∨ store = true then 0xFFFF else SAP_SESSION_CMD_REMOTE_INDEX.of w
        let mac := s.f SAP_SESSION_PEER_MAC
        let (e, s2) := s1.ecdhKey
        let (dz, s3) := s2.random 64
        let (ek, dk) := kemKeys (cut dz 0 32) (cut dz 32 32)
        let (msg, s4) := s3.handshakeMsg [] (publicPoint e) ek
        let s5 := (s4.modSes i (fun q => { q with store := store, port := port, half := half, remote := some remote, mac := mac
                                                  shake := some ⟨e, dk, msg⟩ })).sesTo i .opening
        ({ s5 with sessCmd := ⟨some i, 0⟩ } : State).sendHandshake port half mac 1 i remote ((s.sesEpoch i + 1) % 65536) msg

/-- SESSION_LISTEN: the index waits for an OPEN from the named address (R280, R281). For a store's session it waits in vain: an OPEN
from a store is never accepted (DEDUCED, log 101). -/
def execSessionListen (w : Word64) (s : State) : Res :=
  .next <|
    if s.sessCmd.busy.isSome then { s with sessCmd := { s.sessCmd with result := 5 } }
    else
      let s1 := s.putCmd w
      let i := SAP_SESSION_CMD_INDEX.of w
      if ! s.cmdOk w ∨ (s.ses i).st ≠ .closed then s1.result 4
      else
        ((s1.modSes i (fun q => { q with store := decide (SAP_SESSION_CMD_KIND.of w = 1), port := SAP_SESSION_CMD_PORT.of w
                                         half := decide (SAP_SESSION_CMD_HALF.of w = 1)
                                         mac := s.f SAP_SESSION_PEER_MAC })).sesTo i .listen).result 0

/-- An OPEN session begins to close: at once, or at the next step boundary (R281). -/
def State.beginClose (s : State) (i : Nat) : State :=
  if s.running.isSome then s.modSes i (fun q => { q with closeReady := true })
  else (s.modSes i (fun q => { q with closeSince := s.now })).sesTo i .closing

/-- SESSION_CLOSE of an OPEN session; at any other index nothing is to be closed (R280, R281; DESIGN CHOICE, log 101). -/
def execSessionClose (w : Word64) (s : State) : Res :=
  .next <|
    if s.sessCmd.busy.isSome then { s with sessCmd := { s.sessCmd with result := 5 } }
    else
      let s1 := s.putCmd w
      let i := SAP_SESSION_CMD_INDEX.of w
      if s.isOpen i then (s1.beginClose i).result 0 else s1.result 4

/-- The index on which an OPEN is accepted (R280). -/
def State.acceptIndex (s : State) (mac remote : Nat) : Option Nat :=
  if remote = 0xFFFF then (List.range 1024).find? (fun i => decide ((s.ses i).st = .closed))
  else if remote < 1024 ∧ (s.ses remote).st = .listen ∧ (s.ses remote).store = false ∧ (s.ses remote).mac = mac then some remote
  else none

/-- Whether an OPEN meets one this engine sent for the same pair of indices (R280). -/
def State.crossed (s : State) (mac index remote : Nat) : Bool :=
  let q := s.ses remote
  decide (remote < 1024) && decide (q.st = .opening) && ! q.openReady && decide (q.mac = mac) && decide (q.remote = some index)

/-- Accepts an OPEN on an index: an encapsulation to its key, OPEN_ACK, the session secret, and the session opens (R280, R281, R355,
R357). -/
def State.accept (s : State) (i port : Nat) (half : Bool) (mac index : Nat) (opn : List Byte) : State :=
  let ek := cut opn 193 1568
  match if kemKeyOk ek then s.checkHandshake [] opn false else (some 7, s.objectCount false) with
  | (some n, s) => s.authFail i n
  | (none, s) =>
    if ! s.canHandshake then s.entropy.2.authFail i 0
    else
      let (e, s1) := s.entropy.2.ecdhKey
      let (m, s2) := s1.random 32
      let (k, ct) := kemEncaps ek m
      let (ack, s3) := s2.handshakeMsg (sha384 opn) (publicPoint e) ct
      let s4 := (s3.modSes i (fun q => { q with store := false, port := port, half := half, remote := some index, mac := mac })).sesTo i .opening
      (s4.sendHandshake port half mac 2 i index ((s.sesEpoch i + 1) % 65536) ack).opened i
        (sessionSecret opn ack ((ecdh e (cut opn 96 97)).getD []) k) false

/-- CONTROL_OPEN: an OPEN that has come whole is accepted on a listening or free index, or refused (R280, R356). One from a store,
with a store credential, is never accepted. -/
def execControlOpen (port : Nat) (half : Bool) (s : State) : Res :=
  .next <|
    if (s.port port).link half ≠ .up then s
    else
      match s.takeShake (fun q => q.port == port && q.half == half && decide (rd q.fields 0 1 = 1)) with
      | none => s
      | some (q, s) =>
        let index := rd q.fields 2 2
        let remote := rd q.fields 4 2
        if rd (certIn q.data) 4 2 = 7 then s.refuseOpen port half q.mac index
        else if s.crossed q.mac index remote then
          if q.mac < s.macOf port half then s.accept remote port half q.mac index q.data else s
        else
          match s.acceptIndex q.mac remote with
          | none => s.refuseOpen port half q.mac index
          | some i => s.accept i port half q.mac index q.data

/-- The answer of an opening session's peer, by OP: from its address, on its port, to its index. -/
def State.takeAnswer (s : State) (i op : Nat) : Option (ShakeIn × State) :=
  let q := s.ses i
  if q.st ≠ .opening ∨ q.openReady = true then none
  else s.takeShake (fun r => r.port == q.port && r.half == q.half && r.mac == q.mac && decide (rd r.fields 0 1 = op) && decide (rd r.fields 4 2 = i))

/-- OPEN_ACK: the handshake completes: the checks of R356, the session secret, keys installed (R281, R357). -/
def execOpenAck (i : Nat) (s : State) : Res :=
  .next <|
    match s.takeAnswer i 2, (s.ses i).shake with
    | some (r, s1), some h =>
      let ack := r.data
      (match s1.checkHandshake (sha384 h.opn) ack (s.ses i).store with
      | (some n, s2) => s2.authFail i n
      | (none, s2) =>
        (s2.modSes i (fun q => { q with remote := some (rd r.fields 2 2) })).opened i
          (sessionSecret h.opn ack ((ecdh h.scalar (cut ack 96 97)).getD []) (kemDecaps h.dk (cut ack 193 1568))) true)
    | _, _ => s

/-- OPEN_REFUSE: the opening session is CLOSED with REFUSED_TABLE_FULL (R281, R288). -/
def execOpenRefuse (i : Nat) (s : State) : Res :=
  .next <|
    match s.takeAnswer i 3 with
    | some (_, s1) => (s1.closeSes i false).cmdDone i 1
    | none => s

/-- HANDSHAKE_TIMEOUT: 10 ms have passed (R281). -/
def execHandshakeTimeout (i : Nat) (s : State) : Res :=
  .next <|
    if (s.ses i).st = .opening ∧ (s.ses i).openReady = false then (s.closeSes i false).cmdDone i 3 else s

/-- CONTROL_EPOCH: a peer's domain was reset: EPOCH_ACK, requests complete with PEER_RESET, the epoch advances (R281, R282). -/
def execControlEpoch (i : Nat) (s : State) : Res :=
  .next <|
    match s.takeInbox i (fun f => f.op == 4) with
    | none => s
    | some (f, s1) =>
      if ! s.isLive i then s1
      else ((s1.sendNow i (ctlFrame 5 0 i (rd f.fields 2 2) (rd f.fields 6 2))).completeLocal i false false).advanceEpoch i

/-- EPOCH_ACK: the session goes on under its new epoch (R281). -/
def execEpochAck (i : Nat) (s : State) : Res :=
  .next <|
    match s.takeInbox i (fun f => f.op == 5) with
    | none => s
    | some (_, s1) => if (s.ses i).epochSent then s1.advanceEpoch i else s1

/-- CONTROL_CLOSE: CLOSE_ACK, and the session closes at the next step boundary (R281). -/
def execControlClose (i : Nat) (s : State) : Res :=
  .next <|
    match s.takeInbox i (fun f => f.op == 6) with
    | none => s
    | some (_, s1) =>
      let s2 := if s.isLive i then s1.sendNow i (ctlFrame 7 0 i ((s.ses i).remote.getD 0xFFFF) 0) else s1
      if s.isOpen i then s2.beginClose i else s2

/-- Whether a request of a session is pending. -/
def State.pendingOn (s : State) (i : Nat) : Bool := (List.range 12).any (fun k => (s.limb k).pending.any (fun r => r.session == i))

/-- CLOSING_DONE: all acknowledged and nothing pending, or 64 rings have passed: CLOSE goes out and the session is CLOSED, its keys
kept for the grace period (R281). -/
def execClosingDone (i : Nat) (s : State) : Res :=
  .next <|
    let q := s.ses i
    if q.st = .closing ∧ ((q.unacked = [] ∧ s.pendingOn i = false) ∨ 64 ≤ ringsTo q.closeSince s.now) then
      (s.sendNow i (ctlFrame 6 0 i (q.remote.getD 0xFFFF) 0)).closeSes i true
    else s

/-- KEEPALIVE: nothing sent for 1 ms (R281). -/
def execKeepalive (i : Nat) (s : State) : Res :=
  .next (if s.isLive i && s.limbOn (limbOfPort (s.ses i).port) then s.queueFrame i (ctlFrame 9 0 i ((s.ses i).remote.getD 0xFFFF) 0) else s)

/-- HOLD_EXPIRY: no frame, or no link, for HOLD ms: the session is lost (R268, R281). -/
def execHoldExpiry (i : Nat) (s : State) : Res := .next (if s.isLive i then s.loseSes i 3 0 false else s)

/-- GRACE_EXPIRY: the previous epoch's keys are erased (R282). -/
def execGraceExpiry (i : Nat) (s : State) : Res :=
  .next <|
    match (s.ses i).prev with
    | some p => if ringBefore s.now p.until_ then s else s.modSes i (fun q => { q with prev := none })
    | none => s

/-- SAP_CONFIG_WRITE: applied, or ignored whole with CFG_REJECT (R288). -/
def execSapConfigWrite (w : Word64) (s : State) : Res :=
  .next <|
    let tf := SAP_CONFIG_TAGFAIL_LIMIT.of w
    let hold := SAP_CONFIG_HOLD.of w
    let gr := SAP_CONFIG_GRACE.of w
    let ad := SAP_CONFIG_ACK_DELAY.of w
    let rx := SAP_CONFIG_RX_WINDOW.of w
    let rl := SAP_CONFIG_RETX_LIMIT.of w
    let rto := SAP_CONFIG_RTO.of w
    if s.busyJob = false ∧ 1 ≤ tf ∧ 1 ≤ hold ∧ hold ≤ 1000 ∧ 8 ≤ gr ∧ 1 ≤ ad ∧ ad ≤ 100 ∧ 16 ≤ rx ∧ 1 ≤ rl ∧ 5 ≤ rto then
      [SAP_CONFIG_TAGFAIL_LIMIT, SAP_CONFIG_HOLD, SAP_CONFIG_GRACE, SAP_CONFIG_ACK_DELAY, SAP_CONFIG_RX_WINDOW,
       SAP_CONFIG_RETX_LIMIT, SAP_CONFIG_RTO].foldl (fun s F => s.put F w) s
    else s.flag SAP_STATUS_CFG_REJECT

/-- SAP_CLR_COUNTERS: clears every SAP_CNT (R288). -/
def execSapClrCounters (s : State) : Res := .next (s.clearArr SAP_CNT_COUNT 14)

end Sys2Proof.Machine
end

