-- ==== Sys2Proof/Machine/StreamExec.lean ====
section
/-!
DEFINITION. Commands of the stream unit: chunks read and written by cells, the staging caches, store writes, the integrity
tree's traffic, checkpoints, and the STREAM registers with rows of their own (chapter 10, R259, R364 to R369).
-/
namespace Sys2Proof.Machine

/-! ## Requests (R289 to R292) -/

/-- A stream request flit (Table 10.1). -/
structure StreamFlit where
  op : Nat
  cls : Nat
  label : Nat
  chunks : Nat
  chunk : Nat
  deadline : Nat
  x : Nat
  y : Nat
  route : Nat
  reply : Nat
  offset : Nat
  window : Nat
  gen : Nat
  deriving DecidableEq, Repr

/-- Splits a stream request flit (Table 10.1). -/
def streamFlit (n : Nat) : StreamFlit :=
  ⟨fld n 0 4, fld n 4 2, fld n 6 4, fld n 10 8 + 1, fld n 18 31, fld n 49 16, fld n 65 11, fld n 76 10, fld n 86 5, fld n 91 5,
   fld n 96 12, fld n 108 4, fld n 112 16⟩

/-- Whether a session can carry stream traffic of a limb die: OPEN to a store, homed there on a STREAM port (R291). -/
def State.storeOn (s : State) (k i : Nat) : Bool :=
  decide (i < 1024) && s.isOpen i && (s.ses i).store && decide (limbOfPort (s.ses i).port = k) &&
    decide ((s.port (s.ses i).port).role = 1)

/-- Whether a stream request flit is one of Table 10.1: OP and CLASS valid, OFFSET a multiple of 16, and 0 where the table says 0
(DEDUCED, log 102). -/
def StreamFlit.ok (a : StreamFlit) : Bool :=
  decide (a.cls ≠ 3) && decide (a.offset % 16 = 0) && (decide (a.cls = 0) || decide (a.deadline = 0)) &&
    ((decide (a.op = 1) && decide (a.reply = 0)) || (decide (a.op = 2) && decide (a.chunks = 1)))

/-- The sessions a limb die's map of a label names (R291). -/
def State.mapSessions (s : State) (k l : Nat) : List Nat :=
  (List.range (s.f (STREAM_LABEL_MAP_WIDTH (16 * k + l)))).map (fun n => s.f (STREAM_LABEL_MAP_FIRST (16 * k + l)) + n)

/-- The session of chunk i of a label through a limb die; `none` where the map or the session fails R291. -/
def State.mapped (s : State) (k l i : Nat) : Option Nat :=
  let e := 16 * k + l
  let w := s.f (STREAM_LABEL_MAP_WIDTH e)
  let j := s.f (STREAM_LABEL_MAP_FIRST e) + i / 2 ^ s.f (STREAM_LABEL_MAP_STRIPE_EXP e) % max 1 w
  if 1 ≤ w ∧ s.storeOn k j = true then some j else none

/-- The base address a label is bound to in a direction, for the current job (R290). -/
def State.labelBase (s : State) (l : Nat) (output : Bool) : Option Nat :=
  match s.job.cur with
  | some j => (j.desc.bindings.find? (fun b => b.kind == 1 && b.label == l && b.output == output)).map (·.addr)
  | none => none

/-- The host address of a label's HOST output binding, for the current job (Table 8.4). -/
def State.hostBase (s : State) (l : Nat) : Option Nat :=
  match s.job.cur with
  | some j => (j.desc.bindings.find? (fun b => b.kind == 2 && b.label == l && b.output)).map (·.addr)
  | none => none

/-- Whether chunk i of a label bound at `base` may be requested: within the label and below the extent (R289, R290). -/
def State.chunkOk (s : State) (l base i : Nat) : Bool :=
  decide (i < s.f (STREAM_LABEL_LEN_CHUNKS l)) && decide (base / 4096 + i < s.extent)

/-! ## Issuing a READ (R295, R296, R299, R368, R369) -/

/-- Chunks asked of stores and not yet come, for a limb die: each will need a cache entry. -/
def Limb.asked (l : Limb) : Nat :=
  l.pending.foldl (fun n r => n + (r.chunks.filter (fun c => decide (c = .asked))).length) 0

/-- Whether a miss finds room: an entry that is free or can be replaced, and is promised to no other miss (R296). -/
def Limb.missRoom (l : Limb) : Bool :=
  decide ((l.cache.filter (fun e => e.pins != 0)).length + l.asked < cacheRoom l.stagedMib)

/-- Uses an entry: it becomes the most recently used one, pinned once more (R296). -/
def Limb.pin (l : Limb) (addr v : Nat) : Limb :=
  match l.entry addr v with
  | some e => { l with cache := l.cache.erase e ++ [{ e with pins := e.pins + 1 }] }
  | none => l

/-- Places an entry, replacing the least recently used unpinned ones where there is no room (R295, R296). -/
def Limb.place (l : Limb) (e : CacheEntry) : Limb :=
  let rest := l.cache.filter (fun q => ! (q.addr == e.addr && q.version == e.version))
  { l with cache := trimCache l.cache.length (cacheRoom l.stagedMib - 1) rest ++ [e] }

/-- The session of a tree chunk (R368). -/
def State.treeSession (s : State) (t : Nat) : Option Nat :=
  let w := s.f BARK_TREE_CFG_WIDTH
  if w = 0 then none else some (s.f BARK_TREE_CFG_FIRST + t % w)

/-- Reads a tree chunk for a request, unless it is being read: a session that is not OPEN is no target, and every chunk that needs
the node fails (R281, R368). -/
def State.readTree (s : State) (r : PendReq) (t : Nat) : State :=
  if (List.range 12).any (fun k => (s.limb k).pending.any (fun q => q.kind == .treeRead && q.addr == treeAddr t)) then s
  else
    match s.treeSession t with
    | none => s.failTree t
    | some i =>
      if ! s.isOpen i then (s.peerFault 5 i 0 true false).failTree t
      else
        let q := { PendReq.blank .treeRead i with
          cls := r.cls, due := r.due, addr := treeAddr t, count := 1, frame := dataFrame 4 r.cls 0 (streamFields (treeAddr t) 1) [] }
        (s.request (limbOfPort (s.ses i).port) q).getD s

/-- The version a replayed job's recording names for a fetch of a chunk whose version in force is `v`, and the records that are left (R438,
R439). A later version in the recording belongs to a later fetch: hits leave no record. -/
def takeChunkRec (label limb chunk v : Nat) : List JournalRec → Option Nat × List JournalRec
  | [] => (none, [])
  | r :: rs =>
    if r.kind = 5 ∧ rd r.body 0 1 = label ∧ rd r.body 1 1 = limb ∧ rd r.body 8 8 = chunk then
      (if v < rd r.body 16 8 then (none, r :: rs) else (some (rd r.body 16 8), rs))
    else
      let (w, l) := takeChunkRec label limb chunk v rs
      (w, r :: l)

/-- A chunk fails its check: counted, a SECURITY fault, poisoned fills (R299). -/
def State.chunkFails (s : State) (i code : Nat) (inj : Bool) : State :=
  (s.inc (STREAM_CNT_COUNT 8) 1).raise ⟨.security, code⟩ (.session i) 0 true .during inj

/-- Tries chunk n of a cell's request: a hit is pinned and ready; a miss waits for its version, for a pending version, for room, or
for the end of a shedding action (Table 14.3); else it is to be asked of its session (R295, R296, R368, R369). -/
def State.tryChunk (s : State) (k tag n : Nat) : State × Option Nat :=
  match (s.limb k).pending.find? (fun r => r.tag == tag) with
  | none => (s, none)
  | some r =>
    let addr := r.addr + 4096 * n
    if r.chunks[n]? ≠ some .idle then (s, none)
    else
      match s.version (addr / 4096) with
      | .error (l, i) => (s.readTree r (treeChunk s.extent l i), none)
      | .ok v =>
        let (want, left) := if s.journal.replaying || s.reenacts then takeChunkRec r.label k (r.chunk + n) v s.journal.replay
          else (none, s.journal.replay)
        if want.isSome ∧ want ≠ some v then
          let s1 : State := { s with journal := { s.journal with replay := left } }
          ((if s.reenacts then s1.recoveryFault 0x103 4 else s1.chunkFails r.session 7 false).setChunks k tag n 1 .failed, none)
        else
          match (s.limb k).entry addr v with
          | some _ =>
            let s1 : State := { s with journal := { s.journal with replay := left } }
            (((s1.setLimb k ((s1.limb k).pin addr v)).setChunks k tag n 1 (.ready v)).inc (STREAM_CNT_COUNT 1) 1, none)
          | none =>
            if sget 0 s.tree.pendingVer (addr / 4096) ≠ 0 ∨ (s.limb k).missRoom = false ∨ (4 ≤ s.power.memShed ∧ r.cls ≠ 0) then (s, none)
            else
              match s.mapped k r.label (r.chunk + n) with
              | some j =>
                let s1 : State := { s with journal := { s.journal with replay := left } }
                (s1.setChunks k tag n 1 .asked, some j)
              | none => ((s.badTap r.tap).setChunks k tag n 1 .failed, none)

/-- Chunks to ask joined into runs of one session: session, first, count (R299). -/
def joinRuns : List (Nat × Nat) → List (Nat × Nat × Nat)
  | [] => []
  | (n, j) :: l =>
    match joinRuns l with
    | (j', m, c) :: rs => if j' = j ∧ m = n + 1 ∧ c < 256 then (j, n, c + 1) :: rs else (j, n, 1) :: (j', m, c) :: rs
    | [] => [(j, n, 1)]

/-- One STREAM_READ of a run; with the table full the run waits (R299). -/
def State.askRun (s : State) (k tag : Nat) (run : Nat × Nat × Nat) : State :=
  match (s.limb k).pending.find? (fun r => r.tag == tag) with
  | none => s
  | some r =>
    let addr := r.addr + 4096 * run.2.1
    let q := { PendReq.blank .streamRead run.1 with
      cls := r.cls, due := r.due, tap := r.tap, label := r.label, chunk := r.chunk + run.2.1, addr := addr, count := run.2.2, parent := tag,
      frame := dataFrame 4 r.cls 0 (streamFields addr run.2.2) [] }
    match s.request k q with
    | some s1 => s1
    | none => s.setChunks k tag run.2.1 run.2.2 .idle

/-- Issues what can be issued of a cell's request. -/
def State.issue (s : State) (k tag : Nat) : State :=
  match (s.limb k).pending.find? (fun r => r.tag == tag) with
  | none => s
  | some r =>
    let (s1, ask) := (List.range r.count).foldl (fun p n =>
      let (s, j) := State.tryChunk p.1 k tag n
      (s, match j with
        | some j => p.2 ++ [(n, j)]
        | none => p.2)) ((s, []) : State × List (Nat × Nat))
    (joinRuns ask).foldl (fun s run => s.askRun k tag run) s1

/-- Tries every waiting request again. -/
def State.retry (s : State) : State :=
  (List.range 12).foldl (fun s k => ((s.limb k).pending.filter (fun r => r.kind == .stream && r.chunks.contains .idle)).foldl
    (fun s r => s.issue k r.tag) s) s

/-! ## Writes (R294, R300) -/

/-- READ_DATA at the head of a STREAM tap's buffer joins the writes that read it (R294). -/
def State.absorb : Nat → State → Nat → State
  | 0, s, _ => s
  | n + 1, s, t =>
    match firstMessage (s.tap t).bufV with
    | none => s
    | some us =>
      let h := vHead (us.getD 0 default).data
      if h.kind ≠ 2 then s
      else
        let k := limbOfTap t
        let s1 := s.takeTap t .v us.length
        let body := us.drop 1
        let s2 :=
          match (s.limb k).pending.find? (fun r => r.kind == .gather && r.tap == t && r.x == h.sx && r.y == h.sy &&
              r.window == h.window && decide (h.offset = r.offset + 16 * r.done)) with
          | some r => s1.modPend k r.tag (fun r => { r with
              done := r.done + 1
              frame := { r.frame with data := r.frame.data ++ body.flatMap (fun v => leBytes 16 v.data),
                                      nak := r.frame.nak || h.nack || body.any (·.poison) } })
          | none => s1
        State.absorb n s2 t

/-- The key of a chunk: the label key for the image as the owner wrote it, the store write key of the tree instance for every later version
(R364). -/
def State.chunkKey (s : State) (label v : Nat) : List Byte :=
  if v = 0 then sget [] s.bark.labels label else s.treeKey "zw chunk write"

/-- The nonce of a chunk (R364). -/
def chunkNonce (addr v : Nat) : List Byte := leBytes 5 (addr / 4096) ++ leBytes 7 v

/-- The additional data of a chunk (R364). -/
def chunkAad (addr v : Nat) : List Byte := leBytes 8 addr ++ leBytes 8 v

/-- Sends a STREAM_WRITE of a version from a limb die and keeps it outstanding in a group; `none` with the table full (R300, R364). -/
def State.sendWrite (s : State) (k i group cls addr v : Nat) (due : Option Nat) (data : List Byte) : Option State :=
  let (c, tag) := gcmSeal (s.chunkKey 0 v) (chunkNonce addr v) (chunkAad addr v) data
  let q := { PendReq.blank .streamWrite i with
    cls := cls, due := due, addr := addr, count := 1, frame := dataFrame 6 cls 0 (chunkFields addr v tag) c }
  (s.request k q).map (fun s1 => s1.setWrites (· ++ [⟨group, k, i, addr, v, due, false⟩]))

/-- The version of a chunk's next write; the tree holds no counter that is not fetched, and a read of it comes first (R369). -/
def State.nextVersion (s : State) (c : Nat) : Except (Nat × Nat) Nat :=
  match s.version c with
  | .ok v => .ok (v + 1)
  | .error m => .error m

/-- Whether a chunk's counter stands at its end (R369). -/
def State.versionSpent (s : State) (c : Nat) : Bool :=
  match s.nextVersion c with
  | .ok v => decide (2 ^ 56 ≤ v)
  | .error _ => false

/-- Gives a chunk its pending version (R369). -/
def State.pend (s : State) (c v : Nat) : State := { s with tree := { s.tree with pendingVer := sset 0 s.tree.pendingVer c v } }

/-- A cell's stream READ. -/
def State.streamRead (s s1 : State) (t : Nat) (a : StreamFlit) (base : Nat) : State :=
  let k := limbOfTap t
  let q := { PendReq.blank .stream 1024 with
    cls := a.cls, due := if a.cls = 0 then some (ringAdd s.now a.deadline) else none, tap := t, x := a.x, y := a.y, route := a.route,
    window := a.window, gen := a.gen, offset := a.offset, count := a.chunks, label := a.label, chunk := a.chunk,
    addr := base + 4096 * a.chunk, chunks := List.replicate a.chunks .idle }
  match s1.addPend k q with
  | some (s2, tag) => s2.issue k tag
  | none => s

/-- A cell's stream WRITE: discarded outside the UPDATE phase, else its source is read with 16 READ_REQs (R254, R294). A label with a HOST
output binding is written the same way; its request names no session (DEDUCED, log 54). -/
def State.streamWrite (s s1 : State) (t : Nat) (a : StreamFlit) (base : Nat) : State :=
  if ! s.mutOk then s1.inc (JOB_CNT_COUNT 10) 1
  else if s.suppressed then s1
  else
    let k := limbOfTap t
    let host := s.hostBase a.label
    match if host.isSome then some 1024 else s.mapped k a.label a.chunk with
    | none => s1.badTap t
    | some i =>
      let q := { PendReq.blank .gather i with
        cls := a.cls, due := if a.cls = 0 then some (ringAdd s.now a.deadline) else none, tap := t, x := a.x, y := a.y,
        route := a.route, reply := a.reply, window := a.window, gen := a.gen, offset := a.offset, count := 16, label := a.label,
        chunk := a.chunk, addr := base + 4096 * a.chunk }
      match s1.addPend k q with
      | none => s
      | some (s2, _) =>
        let (tx, ty) := s.tapCell t
        s2.fromTap 1 t .s ((List.range 16).flatMap (fun m => sMessage s.graft.tag a.route
          [3 + a.window * 2 ^ 4 + a.gen * 2 ^ 8 + a.reply * 2 ^ 24 + 2 ^ 29, (a.offset + 16 * m) % 4096 + 15 * 2 ^ 12,
           tx + ty * 2 ^ 11 + (i % 1024) * 2 ^ 21, if host.isSome then 0 else s.sesEpoch i]))

/-- STREAM_REQUEST: the message at the head of a STREAM tap's buffer (R292 to R296). -/
def execStreamRequest (tap : Nat) (s : State) : Res :=
  .next <|
    if (s.tap tap).func ≠ 1 ∨ s.tapEnabled tap = false ∨ s.limbOn (limbOfTap tap) = false then s
    else
      let s := State.absorb (s.tap tap).bufV.length s tap
      match firstMessage (s.tap tap).bufV with
      | none =>
        match firstMessage (s.tap tap).bufS with
        | some us => (s.takeTap tap .s us.length).badTap tap
        | none => s
      | some us =>
        let s1 := s.takeTap tap .v us.length
        match us with
        | [u, d] =>
          let h := vHead u.data
          let a := streamFlit d.data
          if h.kind ≠ 0 ∨ h.len ≠ 0 ∨ h.peer = true ∨ h.window ≠ 0 ∨ h.gen ≠ 0 ∨ h.offset ≠ 0 ∨ a.ok = false then s1.badTap tap
          else
            match s.labelBase a.label (decide (a.op = 2)) with
            | none =>
              match if a.op = 2 then s.hostBase a.label else none with
              | some base => if a.chunk < s.f (STREAM_LABEL_LEN_CHUNKS a.label) then s.streamWrite s1 tap a base else s1.badTap tap
              | none => s1.badTap tap
            | some base =>
              let k := limbOfTap tap
              let ok (n : Nat) : Bool := s.chunkOk a.label base (a.chunk + n) && (s.mapped k a.label (a.chunk + n)).isSome
              if a.op = 1 then
                if (List.range a.chunks).all ok then s.streamRead s1 tap a base else s1.badTap tap
              else if ok 0 then s.streamWrite s1 tap a base
              else s1.badTap tap
        | _ => s1.badTap tap

/-! ## Chunks from stores (R299, R366, R368) -/

/-- Nodes of a tree chunk as stored, by slot: their counters (R366). -/
def treeSlot (data : List Byte) (n : Nat) : List Nat := (List.range 8).map (fun k => rd data (128 * n + 8 * k) 8)

/-- The nodes of a tree chunk whose parent is known and has a counter for them, and that pass their tag under it, are cached and counted as
fetched; a node is verified before it is used (R366, R368, Table 12.14). -/
def State.takeTree (s : State) (t : Nat) (data : List Byte) : State :=
  let e := s.extent
  let d := s.treeDepth
  match (List.range d).find? (fun l => decide (levelBase e l ≤ t) && decide (t < levelBase e (l + 1))) with
  | none => s
  | some l =>
    let i0 := 32 * (t - levelBase e l)
    let known := (List.range 32).filter (fun n =>
      match s.tree.node d d (l + 1) ((i0 + n) / 8) with
      | .ok cs =>
        let parent := cs.getD ((i0 + n) % 8) 0
        parent != 0 && decide (l + 1 < d) && s.nodeTag l (i0 + n) parent (cut data (128 * n) 64) == cut data (128 * n + 64) 16
      | .error _ => false)
    ({ s with tree := known.foldl (fun tr n => tr.setNode d l (i0 + n) (treeSlot data n)) s.tree } : State).inc (BARK_CNT_COUNT 6)
      known.length

/-- Whether a waiting request still needs a node of a tree chunk (R368). -/
def State.awaits (s : State) (t : Nat) : Bool :=
  (List.range 12).any (fun k => (s.limb k).pending.any (fun r => (r.kind == .stream &&
      (r.chunks.zipIdx).any (fun p => decide (p.1 = .idle) && s.missingTree (r.addr + 4096 * p.2) == some t)) ||
    (r.kind == .gather && decide (r.count ≤ r.done) && s.missingTree r.addr == some t)))

/-- A chunk that a STREAM_READ asked for arrives, in ascending address order: its version is the tree's, its tag verifies, or its fills are
poisoned (R299, R364). -/
def State.takeChunk (s : State) (i k : Nat) (r : PendReq) (f : Frame) : State :=
  let addr := rd f.fields 0 8
  let v := rd f.fields 8 8
  let (p, s) := s.fireEdge i 25
  let s1 := if r.done + 1 = r.count then s.dropPend k r.tag else s.modPend k r.tag (fun q => { q with done := q.done + 1 })
  let n := ((s.limb k).pending.find? (fun q => q.tag == r.parent)).map (fun q => (addr - q.addr) / 4096)
  let set (s : State) (c : ChunkSt) : State := match n with
    | some n => s.setChunks k r.parent n 1 c
    | none => s
  let held : Option Nat := match s.version (addr / 4096) with
    | .ok h => some h
    | .error _ => none
  if (held != some v || p == some 2) = true then set (s1.chunkFails i 7 p.isSome) .failed
  else
    match if p = some 1 then none else gcmOpen (s.chunkKey r.label v) (chunkNonce addr v) (chunkAad addr v) f.data (cut f.fields 16 16) with
    | none => set (s1.chunkFails i 6 p.isSome) .failed
    | some plain =>
      let s2 := s1.setLimb k ((s1.limb k).place ⟨addr, v, bit n.isSome, padTo 4096 (plain.take 4096)⟩)
      let s3 := (s2.inc (STREAM_CNT_COUNT 0) 1).record 5 false
        (leBytes 1 r.label ++ leBytes 1 k ++ [0, 0, 0, 0, 0, 0] ++ leBytes 8 (r.chunk + r.done) ++ leBytes 8 v)
      set s3 (.ready v)

/-- STREAM_DATA_RECEIVE: a chunk from a store is checked against the tree and its tag, and its fills go (R293, R299); a tree chunk's
nodes are verified and the requests that waited for them go on (R368). -/
def execStreamDataReceive (i : Nat) (s : State) : Res :=
  .next <|
    match s.takeInbox i (fun f => f.typ == 5) with
    | none => s
    | some (f, s1) =>
      let addr := rd f.fields 0 8
      let kind : ReqKind := if 2 ^ 51 ≤ addr then .treeRead else .streamRead
      let hit : Option (Nat × PendReq) := (List.range 12).findSome? (fun k =>
        ((s.limb k).pending.find? (fun r => r.session == i && r.kind == kind && r.seq.isSome &&
          decide (addr = r.addr + 4096 * r.done))).map (fun r => (k, r)))
      match hit with
      | none => s1.dropFrame 13
      | some (k, r) =>
        if kind = .treeRead then
          let (p, s2) := (s1.dropPend k r.tag).fireEdge i 26
          let t := (addr - 2 ^ 51) / 4096
          let s3 := if p = none then s2.takeTree t f.data else s2
          (if s3.awaits t then (s3.raise ⟨.security, 8⟩ (.session i) 0 true .during p.isSome).failTree t else s3).retry
        else s1.takeChunk i k r f

/-- The first stream WRITE of a limb die whose source data has all come. -/
def Limb.gathered (l : Limb) : Option PendReq := l.pending.find? (fun r => r.kind == .gather && decide (r.count ≤ r.done))

/-- A chunk of a HOST binding is written as data block number CHUNK of its region; where the engine cannot master host memory the
mutation is incomplete (R254, R326, R359, R361; log 54). -/
def State.hostChunk (s : State) (limb : Nat) (r : PendReq) : State :=
  let s1 := s.dropPend limb r.tag
  if s1.canMaster then s1.hostBlock (r.addr - 4096 * r.chunk) r.chunk 0x10 r.frame.data
  else (s1.syncStores false 0).raise ⟨.peer, 6⟩ .hostPort 0 true .during false

/-- Commit ring, JOB_ID and STEP of the step whose UPDATE phase runs (R301). -/
def State.updateMark (s : State) : Nat × Nat × Nat :=
  match s.job.cur with
  | some j => (j.commitRing, j.desc.jobId, j.step)
  | none => s.stream.mark

/-- STREAM_WRITE: the source beats of a stream WRITE are back and one STREAM_WRITE goes out under the chunk's next version; an
unreadable source, or a counter at its end, is a fault instead (R294, R297, R369). -/
def execStreamWrite (limb : Nat) (s : State) : Res :=
  .next <|
    let taps := (((s.limb limb).pending.filter (fun r => r.kind == .gather)).map (·.tap)).eraseDups
    let s := taps.foldl (fun s t => State.absorb (s.tap t).bufV.length s t) s
    match if s.limbOn limb then (s.limb limb).gathered else none with
    | none => s
    | some r =>
      let c := r.addr / 4096
      if r.frame.nak then ((s.dropPend limb r.tag).syncStores false 0).refusedFault r.session 0 false
      else if r.session = 1024 then s.hostChunk limb r
      else
        match s.nextVersion c with
        | .error (l, i) => s.readTree r (treeChunk s.extent l i)
        | .ok v =>
          if 2 ^ 56 ≤ v then
            ((s.dropPend limb r.tag).syncStores false 0).raise ⟨.security, 0xA⟩ (.session r.session) 0 true .during false
          else
            match (s.dropPend limb r.tag).sendWrite limb r.session 0 r.cls r.addr v r.due r.frame.data with
            | none => s
            | some s1 =>
              let l := s1.limb limb
              let s2 := s1.setLimb limb (({ l with cache := l.cache.filter (fun e => ! (e.addr == r.addr && e.version != v)) } : Limb).place
                ⟨r.addr, v, 1, r.frame.data⟩)
              let s3 := s2.pend c v
              { s3 with stream := { s3.stream with treeSent := false, mark := s.updateMark } }

/-! ## Answers of stores (R298, R300, R308) -/

/-- Unpins a cache entry once. -/
def State.unpin (s : State) (k addr v : Nat) : State :=
  let l := s.limb k
  s.setLimb k { l with cache := l.cache.map (fun e => if e.addr = addr ∧ e.version = v then { e with pins := e.pins - 1 } else e) }

/-- The group of the writes that are all acknowledged: none left out, none unacknowledged. -/
def State.groupAcked (s : State) (g : Nat) : Bool :=
  let l := s.stream.writes.filter (fun w => w.group == g)
  ! l.isEmpty && l.all (·.acked)

/-- The checkpoint is over; a completion record that waited for it follows, its job having occupied the engine until now (R258, R259,
R410). -/
def State.ckptEnds (s : State) : State :=
  let out := match s.job.finalWait, s.job.ckpt with
    | some q, some c => s.job.outbox ++ [{ q with lastRing := s.now, energy := (s.power.energy - c.energyStart) / 10 ^ 6 }]
    | some q, none => s.job.outbox ++ [q]
    | none, _ => s.job.outbox
  { s with job := { s.job with ckpt := none, finalWait := none, outbox := out } }

/-- A checkpoint that cannot finish is abandoned: counted, and its writes dropped with DISCARD (R259, R300). -/
def State.abandonCkpt (s : State) : State :=
  match s.job.ckpt with
  | none => s
  | some _ => ((s.syncStores false 1).incHi (JOB_CNT_COUNT 11) 1).ckptEnds

/-- A STREAM_WRITE is SERVED: the entry it carried is unpinned, a journal chunk is promoted at once, and the header chunk's
acknowledgement promotes a checkpoint and makes its half the valid one (R296, R300, R304, R434). -/
def State.writeServed (s : State) (k : Nat) (r : PendReq) : State :=
  let g := s.writeGroup r
  let w := s.stream.writes.find? (fun w => w.session == r.session && w.addr == r.addr && ! w.acked)
  let s1 := ((s.dropPend k r.tag).setWrites (·.map (fun w =>
    if w.session = r.session ∧ w.addr = r.addr then { w with acked := true } else w))).inc (STREAM_CNT_COUNT 2) 1
  match w with
  | none => s1
  | some w =>
    if g = 0 then (s1.unpin k r.addr w.version).retry
    else if g = 2 then if s1.groupAcked 2 then s1.syncStores true 2 else s1
    else
      match s1.job.ckpt with
      | some c =>
        if c.headerSent ∧ s1.groupAcked 1 = true then
          let s2 := (s1.syncStores true 1).ckptEnds
          { s2 with job := { s2.job with
              valid0 := if c.half = 0 then some c.step else s2.job.valid0
              valid1 := if c.half = 1 then some c.step else s2.job.valid1 } }
        else s1
      | none => s1

/-- STREAM_RESPONSE: a store's answer to a STREAM_OPEN, STREAM_READ or STREAM_WRITE; one to no pending request is dropped (R284, R298,
R300, R308). A refused write of an UPDATE phase leaves its mutation incomplete (R300). -/
def execStreamResponse (i : Nat) (s : State) : Res :=
  .next <|
    match s.takeInbox i (fun f => f.resp && (f.typ == 3 || f.typ == 4 || f.typ == 6)) with
    | none => s
    | some (f, s1) =>
      match s1.findReq i (rd f.fields 4 4) with
      | none => s1.dropFrame 13
      | some (k, r) =>
        if rd f.fields 0 1 = 0 then
          match r.kind with
          | .streamOpen =>
            let s2 := s1.dropPend k r.tag
            { s2 with stream := { s2.stream with
                opens := s2.stream.opens.map (fun o => if o.1 = i ∧ o.2.1 = r.label then (o.1, o.2.1, true) else o) } }
          | .streamWrite => s1.writeServed k r
          | _ => s1.dropFrame 8
        else if r.kind = .streamOpen ∧ rd f.fields 0 1 = 2 then (s1.dropPend k r.tag).inc (STREAM_CNT_COUNT 4) 1
        else
          let g := s1.writeGroup r
          let s2 := s1.notServed i k r f
          let stays := (s2.limb k).pending.any (fun q => q.tag == r.tag)
          if r.kind = .streamWrite ∧ g = 0 ∧ stays = false then s2.syncStores false 0 else s2

/-- DEFERRED_REISSUE: the ring of a deferral has come and the request goes out again (R308). -/
def execDeferredReissue (limb tag : Nat) (s : State) : Res :=
  .next <|
    match (s.limb limb).pending.find? (fun r => r.tag == tag) with
    | none => s
    | some r =>
      match r.reissue with
      | none => s
      | some d =>
        if ringBefore s.now d || ! s.limbOn limb then s
        else
          let q := { r with reissue := none, seq := none }
          (s.modPend limb tag (fun _ => q)).sendPend limb tag q

/-- Pins of an entry that still stand: fills not sent, and a STREAM_WRITE that is unanswered (R296). -/
def State.pinsHeld (s : State) (k : Nat) (e : CacheEntry) : Nat :=
  ((s.limb k).pending.foldl (fun n r => n + ((r.chunks.zipIdx).filter (fun p =>
    decide (r.done ≤ p.2) && decide (p.1 = .ready e.version) && decide (r.addr + 4096 * p.2 = e.addr))).length) 0)
    + (s.stream.writes.filter (fun w => w.group == 0 && w.limb == k && w.addr == e.addr && w.version == e.version && ! w.acked)).length

/-- CACHE_UNPIN: the fills of an entry have gone, the entry is unpinned, and a miss that waited for room goes on (R296). -/
def execCacheUnpin (limb addr : Nat) (s : State) : Res :=
  .next <|
    match (s.limb limb).cache.find? (fun e => s.limbOn limb && e.addr == addr && decide (s.pinsHeld limb e < e.pins)) with
    | none => s
    | some e => (s.unpin limb addr e.version).retry

/-! ## The tree's own traffic (R255, R366, R369) -/

/-- The later of two deadline rings. -/
def laterDue (a b : Option Nat) : Option Nat :=
  match a, b with
  | some x, some y => if ringBefore x y then some y else some x
  | some x, none => some x
  | none, y => y

/-- Writes back the tree chunks that a group's writes change, each once, with the latest deadline among them; the sessions must be
OPEN (R366, R369). -/
def State.writeTree (s : State) (group : Nat) : State :=
  let cs := s.groupChunks group
  let d := s.treeDepth
  let t' := s.tree.install d cs
  let due := (s.stream.writes.filter (fun w => w.group == group)).foldl (fun a w => laterDue a w.due) none
  let chunks := ((dirtyNodes d cs).map (fun p => treeChunk s.extent p.1 p.2)).eraseDups
  chunks.foldl (fun s t =>
    match s.treeSession t with
    | none => s
    | some i =>
      if ! s.isOpen i then s.peerFault 5 i 0 true false
      else
        let k := limbOfPort (s.ses i).port
        let data := s.treeChunkData t' t
        let q := { PendReq.blank .streamWrite i with
          cls := 0, due := due, addr := treeAddr t, count := 1, frame := dataFrame 6 0 0 (chunkFields (treeAddr t) 0 []) data }
        ((s.request k q).map (fun s1 =>
          (s1.setWrites (· ++ [⟨group, k, i, treeAddr t, 0, due, false⟩])).inc (BARK_CNT_COUNT 7) 1)).getD s) s

/-- Whether every data write of the UPDATE phase has been sent. -/
def State.allSent (s : State) : Bool := (List.range 12).all (fun k => (s.limb k).pending.all (fun r => r.kind != .gather))

/-- TREE_WRITE: once an UPDATE phase's data writes are sent, the tree unit writes back each dirty tree chunk (R369). -/
def execTreeWrite (s : State) : Res :=
  .next <|
    if (s.stream.writes.any (fun w => w.group == 0)) ∧ s.allSent = true ∧ s.stream.treeSent = false then
      let s1 := s.setWrites (·.filter (fun w => ! (w.group == 0 && decide (2 ^ 51 ≤ w.addr))))
      let s2 := s1.writeTree 0
      { s2 with stream := { s2.stream with treeSent := s.f BARK_TREE_CFG_WIDTH != 0 } }
    else s

/-- ROOT_ADVANCE: every data and tree write of the UPDATE phase is acknowledged, the root advances and PROMOTE goes out (R255,
R300, R369). -/
def execRootAdvance (s : State) : Res :=
  .next <|
    if s.groupAcked 0 = true ∧ s.stream.treeSent = true ∧ s.allSent = true ∧ s.mutOk = false then
      let s1 := s.syncStores true 0
      (({ s1 with stream := { s1.stream with treeSent := false } } : State).inc (BARK_CNT_COUNT 8) 1).retry
    else s

/-! ## Checkpoints (R259, R304) -/

/-- Where a plane's RESIDENT windows lie, base and length in ascending ID: those with LW, which checkpoints hold (R259), or those without,
which the reload image holds (R428). -/
def Plane.spans (p : Plane) (lw : Bool) : List (Nat × Nat) :=
  (List.range 16).filterMap (fun w => match p.window w with
    | some d => if d.resident && d.lw == lw then some (d.base, d.len) else none
    | none => none)

/-- The bytes of a cell's checkpointed windows (R304). -/
def Cell.ckptBytes (c : Cell) (id : Nat) : List Byte :=
  (c.active.spans true).flatMap (fun q => (List.range q.2).map (fun a => c.mem.byte id (q.1 + a)))

/-- Every checkpointed byte, by ascending y, x and window (R304). -/
def State.ckptBytes (s : State) : List Byte := s.cells.flatMap (fun p => p.2.ckptBytes p.1)

/-- Bytes of the RESIDENT windows that a plane declares with LW, or without. -/
def Plane.spanLen (p : Plane) (lw : Bool) : Nat := (p.spans lw).foldl (fun n q => n + q.2) 0

/-- C of R304 for the active planes, or the SHADOW planes. -/
def State.ckptChunks (s : State) (shadow : Bool) : Nat :=
  (s.cells.foldl (fun n p => n + (if shadow then p.2.shadow else p.2.active).spanLen true) 0 + 4095) / 4096

/-- The header chunk of a checkpoint (Table 10.4). -/
def ckptHeader (c : Ckpt) (n : Nat) (root : List Byte) : List Byte :=
  padTo 4096 (leBytes 4 0x54504B43 ++ leBytes 4 1 ++ leBytes 4 c.jobId ++ leBytes 4 0 ++ leBytes 8 c.step ++ leBytes 8 c.ring
    ++ padTo 48 root ++ leBytes 8 n)

/-- Sends one chunk of the CKPT region, through the first limb die whose map reaches it (DESIGN CHOICE, log 28). -/
def State.ckptWrite (s : State) (c : Ckpt) (n : Nat) (data : List Byte) : State :=
  let addr := c.base + 4096 * n
  let via := (List.range 12).findSome? (fun k => (s.mapped k c.label n).map (fun i => (k, i)))
  match via, s.nextVersion (addr / 4096) with
  | some (k, i), .ok v => ((s.sendWrite k i 1 1 addr v none data).map (fun s1 => s1.pend (addr / 4096) v)).getD s
  | some (_, i), .error (l, j) => s.readTree { PendReq.blank .gather i with cls := 1 } (treeChunk s.extent l j)
  | none, _ => s

/-- CHECKPOINT_WRITE: the data chunks of a checkpoint go out as class B traffic; once all are acknowledged, the header chunk, with
the tree chunks that both change (R259, R304). Shedding suspends its reads (Table 14.3). -/
def execCheckpointWrite (s : State) : Res :=
  .next <|
    match s.job.ckpt with
    | none => s
    | some c =>
      let n := s.ckptChunks false
      let at_ (k : Nat) : Nat := c.half * (n + 1) + k
      let sent (s : State) (k : Nat) : Bool := s.stream.writes.any (fun w => w.group == 1 && w.addr == c.base + 4096 * at_ k)
      if (List.range (n + 1)).any (fun k => (List.range 12).all (fun l => (s.mapped l c.label (at_ k)).isNone)) then
        (s.raise ⟨.peer, 5⟩ .engine 0 true .during false).abandonCkpt
      else if (List.range (n + 1)).any (fun k => s.versionSpent (c.base / 4096 + at_ k)) then
        (s.raise ⟨.security, 0xA⟩ .engine 0 true .during false).abandonCkpt
      else if ! c.dataSent ∧ 3 ≤ s.power.memShed then s
      else if ! c.dataSent then
        let bytes := s.ckptBytes
        let s1 := (List.range n).foldl (fun s k =>
          if sent s k then s else s.ckptWrite c (at_ k) (padTo 4096 ((bytes.drop (4096 * k)).take 4096))) s
        { s1 with job := { s1.job with ckpt := some { c with dataSent := (List.range n).all (sent s1) } } }
      else if ! c.headerSent ∧ ((s.stream.writes.filter (fun w => w.group == 1)).all (·.acked)) = true then
        let s1 := s.ckptWrite c (at_ n) (ckptHeader c n s.root)
        if sent s1 n then
          let s2 := s1.writeTree 1
          { s2 with job := { s2.job with ckpt := some { c with headerSent := true } } }
        else s1
      else s

/-! ## STREAM registers with rows of their own (R312) -/

/-- STREAM_FLUSH: every unpinned entry goes; ignored while a job is running. -/
def execStreamFlush (s : State) : Res :=
  .next <|
    if s.busyJob then s
    else { s with limbs := smap Limb.reset (fun _ l => { l with cache := l.cache.filter (fun e => e.pins != 0) }) s.limbs }

/-- STREAM_EXTENT_WRITE: the tracked extent, after which the tree is invalid; rejected while a job is running, while a store session
is OPEN, or beyond 23,437,500,000 (R312, R367). -/
def execStreamExtentWrite (w : Word64) (s : State) : Res :=
  .next <|
    let n := STREAM_EXTENT_CHUNKS.of w
    if s.busyJob ∨ (s.openSessions true).isEmpty = false ∨ 23437500000 < n then (s.flag STREAM_STATUS_CFG_REJECT).event 12
    else { s.setF STREAM_EXTENT_CHUNKS n with tree := Tree.reset }

/-- STREAM_CLR_COUNTERS. -/
def execStreamClrCounters (s : State) : Res := .next (s.clearArr STREAM_CNT_COUNT 12)

end Sys2Proof.Machine
end

