-- ==== Sys2Proof/Machine/Reset.lean ====
section
/-!
DEFINITION. The resets of Table 16.1 (R445), each written once: power-on, ENGINE, the two kinds of DIE reset, PORT and HOSTPORT
(R283, R284, R317, R318).
-/
namespace Sys2Proof.Machine

/-- Every OPEN session takes a new epoch, its pending requests completed at this end (Table 9.10). -/
def State.epochAll (s : State) (cause : Nat) (inj : Bool) : State := s.sesKeys.foldl (fun s i => s.epochReset i cause inj) s

/-! ## DIE and PORT -/

/-- DIE reset of a compute die: planes, scratchpads, credit tables and windows cleared, DIE epoch advanced, every OPEN session in a
new epoch (R124, R283, R445). The burl map, and a dead cell's state, stay. -/
def State.dieReset (s : State) (d : Nat) (inj : Bool) : State :=
  let cells := smap Cell.init (fun k c =>
    let (x, y) := keyXY k
    if s.dieOf x y = d then { Cell.init with dead := c.dead } else c) s.cells
  let s1 := ({ s with cells := cells } : State).inc (SAP_DIE_EPOCH_EPOCH d) 1
  s1.epochAll 1 inj

/-- The taps of a limb die. -/
def tapsOfLimb (k : Nat) : List Nat := (List.range 384).filter (fun t => limbOfTap t == k)

/-- The ports of a limb die (R261). -/
def portsOfLimb (k : Nat) : List Nat := (List.range 6).map (6 * k + ·)

/-- DIE reset of a limb die: links DISABLED, every OPEN session in a new epoch, staging cache, pending requests and tap channel
buffers cleared, DIE epoch advanced (R283, R445). Staged grafts and session records stay. A link that goes to DISABLED raises no
LINK/DOWN (Table 9.2). -/
def State.limbReset (s : State) (k : Nat) (inj : Bool) : State :=
  let s1 := (portsOfLimb k).foldl (fun s p =>
    [false, true].foldl (fun s h => s.linkTo p h .disabled) s) s
  let s2 := (s1.inc (SAP_DIE_EPOCH_EPOCH (48 + k)) 1).epochAll 1 inj
  let s3 := (tapsOfLimb k).foldl (fun s t =>
    s.setTap t { s.tap t with toCellV := [], toCellS := [], toLimbV := [], toLimbS := [], bufV := [], bufS := [] }) s2
  s3.setLimb k { Limb.reset with stagedMib := (s.limb k).stagedMib }

/-- PORT reset: the port's links restart from DETECT, its receive pool empties, the PORT epoch advances, and sessions homed on it
take a new epoch (R268, R283, R287, R445). -/
def State.portReset (s : State) (p : Nat) (inj : Bool) : State :=
  let s1 := [false, true].foldl (fun s h =>
    let s1 := s.leaveUp p h .detect .lock inj
    if (s1.port p).link h = .disabled then s1 else (s1.linkTo p h .detect).detect p h) s
  let s2 := s1.modPort p (fun q => { q with epoch := (q.epoch + 1) % 65536 })
  let homed := s2.sesKeys.filter (fun i => decide ((s2.ses i).port = p))
  homed.foldl (fun s i => (s.modSes i (fun q => { q with held := [], inbox := [] })).epochReset i 2 inj) s2

/-- PORT_RESET: ignored on a port the variant disables (R267, R287). -/
def execPortReset (port : Nat) (s : State) : Res := .next (if s.portEnabled port then s.portReset port false else s)

/-! ## HOSTPORT -/

/-- HOSTPORT reset (R317, R318): the epoch advances, configuration space, the MSI-X table, pending bits and IDE state reset, the
host session ends, a graft staging read in flight fails. `linkStays` marks a function level reset. -/
def State.hostReset (s : State) (linkStays : Bool) : State :=
  let h := s.host
  let s1 : State := { s with
    host := { h with up := h.up && linkStays, speed := if linkStays then h.speed else 0, width := if linkStays then h.width else 0,
                     bme := false, dstate := 0, cold := false, ideSecure := false, spdm := false, msix := [], pba := 0,
                     epoch := (h.epoch + 1) % 65536, clkMode := s.hwVal 0x1C2 % 2 }
    bark := { s.bark with host := none, tags := [] } }
  let s2 := s1.inc (ID_HOST_CNT_COUNT 0) 1
  if s.graft.load = .staging then (s2.inc (ID_HOST_CNT_COUNT 1) 1).loadFails 1 0 0 false else s2

/-! ## ENGINE and power-on -/

/-- Bark after an ENGINE reset: unsealed, grant and host session ended, measurements at zero, no leaf reserved. The nonce in force,
what heartwood and flash keep, and the count of draws stay (R346, R348, R354, R445). -/
def Bark.engineReset (b : Bark) : Bark :=
  { Bark.reset with nonce := b.nonce, draws := b.draws, mbox := b.mbox, lmsDone := b.lmsDone, entropyOk := b.entropyOk }

/-- ENGINE reset (R445, R446): main rails, planes, scratchpads, caches, sessions, tree validity, grant, seal, fault log and management
cap cleared, the ring UNLOCKED, every epoch but ENGINE's 0 (R283), and boot starts again at stage 0, where the ENGINE epoch is to be
advanced. Heartwood, flash, SLOT_ID and the registers that no row of Table 16.1 names stay. -/
def State.engineReset (s : State) : State :=
  let s0 := (s.clearArr SAP_DIE_EPOCH_EPOCH 60).clearFs [INJ_COUNT_FIRED, BURL_STATUS_LAST_BAND]
  let s1 := s0.dropLock .unlocked
  ({ s1 with
    modl := { s1.modl with thermTripN := false, pwrGood := false, mains := false, inputFailed := false, hardTripped := false,
                           holdDropped := false }
    boot := { Boot.reset with latched := s1.boot.latched, buffer := s1.boot.buffer, bootedB := s1.boot.bootedB }
    clk := { Clk.reset with xtalGood := s1.clk.xtalGood, sscDepth := s1.clk.sscDepth, sscOn := s1.clk.sscOn }
    power := { Power.reset with cap := s1.power.cap, capInForce := s1.power.capInForce, classInForce := s1.power.classInForce,
                                allow := 10 ^ 9 * s1.f PWR_EXCURSION_ALLOW_J }
    thermal := Thermal.reset
    tel := Tel.reset
    hw := { s1.hw with closed := false }
    bark := s1.bark.engineReset
    tree := Tree.reset
    graft := GraftUnit.reset
    job := { JobUnit.reset with m := s1.job.m, k := s1.job.k, held := s1.job.held }
    cells := []
    taps := []
    ports := smap EdgePort.reset (fun _ p => { EdgePort.reset with present := p.present, auxOff := p.auxOff, downs := p.downs, trainFails := p.trainFails })
      s1.ports
    sess := []
    limbs := []
    stream := Stream.reset
    sessCmd := ⟨none, s1.sessCmd.result⟩
    host := { HostPort.reset with clkMode := s1.hwVal 0x1C2 % 2, perstLow := s1.host.perstLow }
    ras := Ras.reset
    journal := Journal.reset
    pendRing := []
    pendStep := [] } : State).settleFaultN

/-- Power-on reset (R445): everything volatile is cleared; heartwood, flash and what the outside drives stay, cable
presence among it; what kept a port's auxiliary power off is forgotten with the rest (R31; DESIGN CHOICE, log 64). -/
def State.powerOnReset (s : State) (slot : Nat) : State :=
  { State.reset with
    cert := s.cert, vendorId := s.vendorId, flash := s.flash, free := s.free, sent := s.sent, pending := s.pending
    modl := { s.modl with faultN := false, thermTripN := false, pwrGood := false, slotId := slot % 8, standby := true, mains := false,
                          inputFailed := false, hardTripped := false, hold := s.modl.hold, holdDropped := false, tilt := false }
    hw := { s.hw with busy := [], hostQ := [], engineQ := [], hours := 0, kwh := 0, closed := false }
    ports := smap EdgePort.reset (fun _ p => { EdgePort.reset with present := p.present }) s.ports
    host := { HostPort.reset with perstLow := s.host.perstLow }
    bark := { Bark.reset with draws := s.bark.draws } }

end Sys2Proof.Machine
end

