-- ==== Sys2Proof/Machine/Clock.lean ====
section
/-!
DEFINITION. Commands of the clock unit (R61 to R77): frequency and spread, source loss and hand-over, PLL locks, measurement and
the gating tree.
-/
namespace Sys2Proof.Machine

/-- Changes the clock unit. -/
def State.setClk (s : State) (f : Clk → Clk) : State := { s with clk := f s.clk }

/-- B of the ring in force, computed anew (R57). -/
def State.newBudget (s : State) : State := s.setRing (fun r => { r with budget := s.budgetAt s.ring.period s.clk.code })

/-- FREQ_CHANGE: at its ring a pending code takes effect on all CPLLs (R61 to R63). -/
def execFreqChange (s : State) : Res :=
  .next <|
    match s.clk.pending with
    | (c, r) :: rest =>
      if ringBefore s.now r then s else (s.setClk (fun k => { k with code := c, pending := rest })).newBudget
    | [] => s

/-! ## The source (R64, R65, R73) -/

/-- Loss of the source (R73): CLOCK/LOSS, FAULT_N, the job aborted, the ring UNLOCKED, edge transmitters idle; the root die runs on the
oscillator, and a host link clocked from the crystal goes down. -/
def State.sourceLoss (s : State) (inj : Bool) : State :=
  let s1 := (s.raiseAbort ⟨.clock, 1⟩ .engine 0 .during inj).dropLock .unlocked
  let s2 := s1.setClk (fun k => { k with xtal := false, xtalGood := false, lossActive := true, code := 48, pending := [] })
  let s3 := (List.range 72).foldl (fun s p => [false, true].foldl (fun s h => s.leaveUp p h .train .lock inj) s) s2
  if s3.host.up = true ∧ s3.host.clkMode = 1 then s3.hostReset false else s3

/-- CRYSTAL_LOSS: no transition for 100 ns while the engine runs on the crystal (R73). -/
def execCrystalLoss (s : State) : Res :=
  .next (if s.clk.xtal then s.sourceLoss false else s.setClk (fun k => { k with xtalGood := false }))

/-- CRYSTAL_GOOD: the detector passes (R65); FAULT_N deasserts where LOSS is clear (R73). -/
def execCrystalGood (s : State) : Res := .next ((s.setClk (fun k => { k with xtalGood := true })).settleFaultN)

/-- CLOCK_HANDOVER: with the detector passed and Seed verified, the root die switches to the crystal and the PLLs start at code 48; after
a loss the engine acquires its ring again (R65, R66, R73). A PLL that failed stays failed. -/
def execClockHandover (s : State) : Res :=
  .next <|
    if s.clk.xtal = false ∧ s.clk.xtalGood = true ∧ s.clk.seedVerified = true then
      let s1 := s.setClk (fun k => { k with
        xtal := true, lossActive := false, code := 48, plls := k.plls.filter (fun p => decide (p.2 = .failed)) })
      let s2 := if s.clk.lossActive ∧ s.f RING_CTRL_ENABLE = 1 ∧ s.ring.lock = .unlocked then s1.lockTo .acquiring else s1
      s2.settleFaultN
    else s

/-! ## PLLs (R66, R74) -/

/-- The source a PLL's records name: its compute or limb die. -/
def pllSrc (n : Nat) : Src := if n < 60 then .die n else .engine

/-- Grafts that use a die whose clocks are gone are refused (R74). -/
def State.refuseGrafts (s : State) (n : Nat) : State :=
  let uses (g : Graft) : Bool :=
    if n < 48 then s.graftUses g n
    else g.taps.any (fun t => t.2 != 0 && limbOfTap t.1 + 48 == n) || g.ports.any (fun p => limbOfPort p.1 + 48 == n)
  let mark (g : Graft) : Graft := { g with unusable := g.unusable || uses g }
  s.setGraft (fun q => { q with active := q.active.map mark, shadow := q.shadow.map mark, parsed := q.parsed.map mark })

/-- A PLL loses lock (R69, R74): its die's clocks stop and the running step aborts. -/
def State.pllLoss (s : State) (n code : Nat) (inj : Bool) : State :=
  (s.setClk (fun k => { k with plls := sset .locked k.plls n .relocking })).raiseAbort ⟨.clock, code⟩ (pllSrc n)
    (if code = 2 then n else 0) .during inj

/-- PLL_UNLOCK: a CPLL or LPLL that is locked loses lock; RPLL's loss is a loss of the source (R74). -/
def execPllUnlock (pll : Nat) (s : State) : Res :=
  .next <|
    if s.pll pll ≠ .locked ∨ 61 ≤ pll then s
    else if pll = 60 then s.sourceLoss false
    else s.pllLoss pll 2 false

/-- PLL_RELOCK: an attempt locks within 1 ms; a CPLL's relock is a DIE reset (R74, Table 16.1). -/
def execPllRelock (pll : Nat) (s : State) : Res :=
  .next <|
    if s.pll pll ≠ .relocking then s
    else
      let s1 := (s.setClk (fun k => { k with plls := sset .locked k.plls pll .locked })).setF (CLK_MEAS_FREQ_ERR pll) 0
      if pll < 48 then s1.dieReset pll false else s1

/-- RELOCK_TIMEOUT: three attempts fail; grafts that use the die are refused until the next ENGINE reset (R74). -/
def execRelockTimeout (pll : Nat) (s : State) : Res :=
  .next <|
    if s.pll pll ≠ .relocking then s
    else
      let s1 := (s.setClk (fun k => { k with plls := sset .locked k.plls pll .failed })).refuseGrafts pll
      if pll < 48 then s1.setDomain pll .unavailable else s1

/-- The mean frequency expected of a PLL in kHz: f × (1 − d / 2) where spread applies (R66, R69). -/
def State.expectKhz (s : State) (n : Nat) : Nat :=
  let spread (f : Nat) : Nat := f * (4000 - s.depth) / 4000
  if n < 48 then spread (1000 * (600 + 25 * s.clk.code))
  else if n < 60 then 2000000
  else spread 1000000

/-- CLK_MEAS_WINDOW: a window ends and its mean is shown; one off by more than 0.1 % sets FREQ_ERR and raises CLOCK/FREQ_ERR once,
and a compute die's CPLL counts as unlocked, with no PLL_UNLOCK record (R69). A PLL that is not locked has had its record. Index 61
is the oscillator, which is only measured. -/
def execClkMeasWindow (pll khz : Nat) (s : State) : Res :=
  .next <|
    if 62 ≤ pll then s
    else
      let (p, s0) := s.fireRoot (some pll) 30 (fun _ => true)
      let khz := if p.isSome then khz + khz / 100 else khz
      let e := s0.expectKhz pll
      let bad := decide (pll < 61) && decide (e < 1000 * (max khz e - min khz e))
      let was := s0.f (CLK_MEAS_FREQ_ERR pll) = 1
      let s1 := (s0.setF (CLK_MEAS_FREQ_KHZ pll) khz).setF (CLK_MEAS_FREQ_ERR pll) (bit bad)
      if bad = false ∨ was ∨ s0.pll pll ≠ .locked then s1
      else if pll < 48 then s1.pllLoss pll 3 p.isSome
      else s1.raise ⟨.clock, 3⟩ (pllSrc pll) 0 true .during p.isSome

/-! ## Registers with rows of their own (R55, R58, R77) -/

/-- A CLK_FREQ or CLK_SSC write that is ignored (R77). -/
def State.clkReject (s : State) : State := (s.flag CLK_SRC_CFG_REJECT).event 3

/-- CLK_FREQ_WRITE: MIN_CODE and MAX_CODE, or nothing at all (R55, R58, R77). -/
def execClkFreqWrite (w : Word64) (s : State) : Res :=
  .next <|
    let lo := CLK_FREQ_MIN_CODE.of w
    let hi := CLK_FREQ_MAX_CODE.of w
    if lo ≤ hi ∧ hi ≤ 120 ∧ (s.ptpOn = true → ptpGuard hi ≤ s.f RING_CONFIG_GUARD) ∧
        s.stillFits (s.f RING_CONFIG_GUARD) s.depthSet (min hi s.vfLimit) = true then
      (s.put CLK_FREQ_MIN_CODE w).put CLK_FREQ_MAX_CODE w
    else s.clkReject

/-- CLK_SSC_WRITE: spread settings, or nothing at all; in effect from the next edge (R58, R67, R77). -/
def execClkSscWrite (w : Word64) (s : State) : Res :=
  .next <|
    let d := CLK_SSC_DEPTH.of w
    let on := CLK_SSC_ENABLE.of w
    if CLK_SSC_RATE.of w ≤ 75 ∧ d ≤ 20 ∧ s.stillFits (s.f RING_CONFIG_GUARD) (if on = 1 then d else 0) s.maxCode = true then
      ((s.put CLK_SSC_ENABLE w).put CLK_SSC_RATE w).put CLK_SSC_DEPTH w
    else s.clkReject

/-! ## The gating tree (R70 to R72) -/

/-- CLK_GATE_REQ: submits a request with GO, unless one is busy, a field is invalid, or a unit below the node is in use (R70 to R72,
R77). Fields below the LEVEL that is named are not looked at, and a request that is invalid as well as early is answered REFUSED_BUSY
(DESIGN CHOICE, log 73). -/
def execClkGateReq (w : Word64) (s : State) : Res :=
  .next <|
    let s1 := [CLK_GATE_REQ_ACTION, CLK_GATE_REQ_LEVEL, CLK_GATE_REQ_DIE, CLK_GATE_REQ_BAND, CLK_GATE_REQ_CLUSTER,
      CLK_GATE_REQ_CELL, CLK_GATE_REQ_UNIT].foldl (fun s F => s.put F w) s
    let l := CLK_GATE_REQ_LEVEL.of w
    let n : GateNode :=
      { level := l, die := CLK_GATE_REQ_DIE.of w, band := if l < 2 then 0 else CLK_GATE_REQ_BAND.of w,
        cluster := if l < 3 then 0 else CLK_GATE_REQ_CLUSTER.of w, cell := if l < 4 then 0 else CLK_GATE_REQ_CELL.of w,
        unit := if l < 4 then 0 else CLK_GATE_REQ_UNIT.of w }
    let act := CLK_GATE_REQ_ACTION.of w
    if CLK_GATE_REQ_GO.of w = 0 then s1
    else if s.clk.gateReq.isSome then s1.setClk (fun k => { k with gateResult := 3 })
    else if 2 ≤ act ∨ l = 0 ∨ 5 ≤ l ∨ 48 ≤ n.die ∨ 9 ≤ n.band ∨ 132 ≤ n.cluster ∨ 3 ≤ n.unit then
      s1.setClk (fun k => { k with gateResult := 2 })
    else if act = 0 ∧ s1.nodeUsed n = true then s1.setClk (fun k => { k with gateResult := 1 })
    else s1.setClk (fun k => { k with gateReq := some (n, decide (act = 1)) })

/-- GATE_REQUEST_DONE: the request completes: the node gates, unless an access has come to it, or ungates with its ancestors (R71,
R72). -/
def execGateRequestDone (s : State) : Res :=
  .next <|
    match s.clk.gateReq with
    | none => s
    | some (n, true) =>
      s.setClk (fun k => { k with gateReq := none, gateResult := 0, gated := k.gated.filter (fun a => ! a.above n)
                                  ungated := k.ungated.filter (· != n) ++ [n] })
    | some (n, false) =>
      if s.nodeUsed n then s.setClk (fun k => { k with gateReq := none, gateResult := 1 })
      else s.setClk (fun k => { k with gateReq := none, gateResult := 0, gated := k.gated.filter (· != n) ++ [n]
                                       ungated := k.ungated.filter (fun a => ! n.above a) })

end Sys2Proof.Machine
end

