-- ==== Sys2Proof/Machine/Host.lean ====
section
/-!
DEFINITION. Commands of the host port (R313 to R327): link, resets, D-states, IDE, read errors, BAR0 access errors and interrupts.
-/
namespace Sys2Proof.Machine

/-- Changes the host port. -/
def State.setHost (s : State) (f : HostPort → HostPort) : State := { s with host := f s.host }

/-- Whether the host port domain is powered: bring-up has reached it and D3cold has not removed it (R316, R319). -/
def State.hostPowered (s : State) : Bool := decide (17 ≤ s.boot.stage) && ! s.host.cold

/-- HOSTPORT_RESET: a fundamental, hot or function level reset, a link disable or a surprise link down (R317, R318); only a function
level reset leaves the link up, and PCIE_PERST_N is low from its fall until a command shows it high again (R32). -/
def execHostportReset (cause : HostReset) (s : State) : Res :=
  let s1 := s.setHost (fun h => { h with perstLow := h.perstLow || decide (cause = .perst) })
  .next (if s1.hostPowered then s1.hostReset (decide (cause = .flr)) else s1)

/-- HOSTPORT_UP: the link trains at a rate and width of Table 11.1 (R316); without the crystal a link clocked from it cannot (R315),
and while PCIE_PERST_N is low the port stays in reset (R32). -/
def execHostportUp (speed width : Nat) (perstLow : Bool) (s0 : State) : Res :=
  .next <|
    let s := s0.setHost (fun h => { h with perstLow := perstLow })
    if s.hostPowered = true ∧ s.host.up = false ∧ perstLow = false ∧ 1 ≤ speed ∧ speed ≤ 7 ∧ [1, 2, 4, 8, 16].contains width = true ∧
        (s.host.clkMode = 0 ∨ s.clk.xtal = true) then
      s.setHost (fun h => { h with up := true, speed := speed, width := width })
    else s

/-- BUS_MASTER_ENABLE: the host writes Bus Master Enable; messages it held pending leave (R318, R325). -/
def execBusMasterEnable (b : Bool) (s : State) : Res :=
  .next (if s.host.up then (s.setHost (fun h => { h with bme := b })).flushPending else s)

/-- DSTATE_CHANGE (R319): D3cold removes the domain's power, and the return from it is a HOSTPORT reset. -/
def execDstateChange (d : DState) (s : State) : Res :=
  .next <|
    match d with
    | .d0 => if s.host.cold then s.hostReset false else if s.host.up then s.setHost (fun h => { h with dstate := 0 }) else s
    | .d3hot => if s.host.up then s.setHost (fun h => { h with dstate := 3 }) else s
    | .d3cold =>
      if s.hostPowered then s.setHost (fun h => { h with cold := true, up := false, speed := 0, width := 0, bme := false, dstate := 3 })
      else s

/-- An IDE integrity failure: SECURITY/IDE_FAIL and a HOSTPORT reset (R320, R372). -/
def State.ideFails (s : State) (inj : Bool) : State := (s.raise ⟨.security, 0xD⟩ .hostPort 0 false .during inj).hostReset false

/-- IDE_FAIL: a Secure stream's integrity check fails (R320). -/
def execIdeFail (s : State) : Res := .next (if s.host.up = true ∧ s.host.ideSecure = true then s.ideFails false else s)

/-- IDE_KM_REQUEST: the DOE mailbox runs SPDM and IDE_KM, which make a stream Secure or Insecure (R320). -/
def execIdeKmRequest (secure : Bool) (s : State) : Res :=
  .next (if s.host.up then (s.setHost (fun h => { h with spdm := true, ideSecure := secure })).send .doe else s)

/-- COMPLETION_TIMEOUT: a non-posted read fails: POST_ERR in the post area, FAILED for a graft load (R327). -/
def execCompletionTimeout (r : HostRead) (s : State) : Res :=
  .next <|
    match r with
    | .post => if s.f JOB_CTRL_ENABLE = 1 then ((s.inc (ID_HOST_CNT_COUNT 2) 1).flag JOB_STATUS_POST_ERR).event 7 else s
    | .graft => if s.graft.load = .staging then (s.inc (ID_HOST_CNT_COUNT 2) 1).loadFails 1 0 0 false else s

/-- BAR0_BAD_ACCESS: an access of a size or alignment that is not executed (R322). -/
def execBar0BadAccess (s : State) : Res := .next ((s.flag ID_HOST_STATUS_ACCESS_ERR).inc (ID_HOST_CNT_COUNT 6) 1)

/-- INT_CAUSE_CLEAR: clears the causes written with 1 (R325). -/
def execIntCauseClear (w : Word64) (s : State) : Res :=
  .next <| (List.range 17).foldl (fun s v =>
    if w.getLsbD v && (s.f ID_INT_CAUSE_CAUSE).testBit v then s.setF ID_INT_CAUSE_CAUSE (s.f ID_INT_CAUSE_CAUSE - 2 ^ v) else s) s

/-- INT_ENABLE_WRITE: a cause that already stands sends its message when it is enabled (R325). -/
def execIntEnableWrite (w : Word64) (s : State) : Res :=
  .next <|
    let old := s.f ID_INT_ENABLE_ENABLE
    (List.range 17).foldl (fun s v =>
      if w.getLsbD v && ! old.testBit v && (s.f ID_INT_CAUSE_CAUSE).testBit v then s.signal v else s) (s.put ID_INT_ENABLE_ENABLE w)

/-- ID_CLR_COUNTERS: clears every ID_HOST_CNT (R336). -/
def execIdClrCounters (s : State) : Res := .next (s.clearArr ID_HOST_CNT_COUNT 9)

end Sys2Proof.Machine
end

