-- ==== Sys2Proof/Machine/Firmware.lean ====
section
/-!
DEFINITION. Firmware images, flash banks and their commits (R448 to R450, R455), and signed objects with their checks (R341 to R343).
-/
namespace Sys2Proof.Machine

/-- Bytes of the image that begins bytes, by its header (R449). -/
def imageSize (raw : List Byte) : Nat := 64 + rd raw 0x18 4 + sigBlock

/-- The image that bytes spell; `none` where the header breaks Table 16.3 or bytes are missing. -/
def imageOf (raw : List Byte) : Option FwImage :=
  let kind := rd raw 4 2
  let body := rd raw 0x18 4
  let limit := if kind = 1 then 2 ^ 20 else 8 * 2 ^ 20
  if rd raw 0 4 ≠ 0x4D524946 ∨ kind = 0 ∨ 4 ≤ kind ∨ rd raw 6 2 ≠ 1 ∨ zeros (cut raw 0x16 2) = false ∨ zeros (cut raw 0x20 32) = false ∨
      limit < imageSize raw ∨ body ≤ rd raw 0x1C 4 ∨ raw.length ≠ imageSize raw then none
  else some ⟨kind, rd raw 8 8, rd raw 0x10 4, rd raw 0x14 1, rd raw 0x15 1, imageSize raw, sha384 (signedPart raw)⟩

/-- The image in the recovery buffer, whose length its header gives. -/
def bufferImage (m : Memory) : List Byte := m.readBytes 0 (imageSize (m.readBytes 0 64))

/-- Whether an image's header suits this engine: kind, line and variant (Table 16.3). -/
def State.imageSuits (s : State) (kind : Nat) (i : FwImage) : Bool :=
  decide (i.kind = kind) && i.variants.testBit s.cert.variant && decide (i.line = if kind = 1 then 0xFF else s.cert.line)

/-- Whether an image's SVN is below its anti-rollback counter (R349, R448). -/
def State.rolledBack (s : State) (i : FwImage) : Bool := decide (i.svn < s.rollback (i.kind - 1))

/-- The two banks of a kind: A and B. -/
def Flash.banks (f : Flash) (kind : Nat) : Bank × Bank :=
  match kind with
  | 1 => (f.seedA, f.seedB)
  | 2 => (f.trunkA, f.trunkB)
  | _ => (f.limbA, f.limbB)

/-- Replaces one bank of a kind. -/
def Flash.setBank (f : Flash) (kind : Nat) (b : Bool) (v : Bank) : Flash :=
  match kind, b with
  | 1, false => { f with seedA := v }
  | 1, true => { f with seedB := v }
  | 2, false => { f with trunkA := v }
  | 2, true => { f with trunkB := v }
  | _, false => { f with limbA := v }
  | _, true => { f with limbB := v }

/-- Whether a bank's record is valid: its CRC-32C matches the image (R450). -/
def Bank.valid (b : Bank) : Bool := decide (b.len ≤ b.data.length) && decide (crc32c (b.data.take b.len) = b.crc)

/-- The image that a bank's record names. -/
def Bank.image (b : Bank) : List Byte := b.data.take b.len

/-- Banks of a kind in the order they are tried, `true` for B: only those whose record's CRC matches, by descending SEQUENCE, A first
when equal (R450). -/
def Flash.order (f : Flash) (kind : Nat) : List (Bool × Bank) :=
  let (a, b) := f.banks kind
  (if a.seq < b.seq then [(true, b), (false, a)] else [(false, a), (true, b)]).filter (fun p => p.2.valid)

/-- A commit writes the bank that did not boot last, its SEQUENCE one above the other bank's (R450). -/
def State.commitImage (s : State) (kind : Nat) (raw : List Byte) : State :=
  let b := ! s.boot.bootedB.contains kind
  let (ba, bb) := s.flash.banks kind
  let other := if b then ba else bb
  { s with flash := s.flash.setBank kind b (Bank.holding (other.seq + 1) raw) }

/-- A SECURITY record of boot or of the firmware path: raised at once when Trunk runs, else kept until it does (R454). -/
def State.fwFault (s : State) (code detail : Nat) (inj : Bool) : State :=
  if s.boot.trunk then s.raise ⟨.security, code⟩ .engine detail false .during inj
  else { s with boot := { s.boot with faults := s.boot.faults ++ [(0x10, code, detail)] } }

/-- Results of a firmware check. -/
inductive FwVerdict where
  | ok (i : FwImage)
  | bad
  | signature (which : Nat)
  | rollback
  deriving DecidableEq, Repr

/-- Whether a firmware check passed. -/
def FwVerdict.passed : FwVerdict → Bool
  | .ok _ => true
  | .bad | .signature _ | .rollback => false

/-- Verifies an image as one of a kind: header, both signatures under the vendor key hash, SVN (R335, R448). `force` is a signature that
an injection fails. -/
def State.fwVerify (s : State) (kind : Nat) (raw : List Byte) (force : Nat) : FwVerdict :=
  match imageOf raw with
  | none => .bad
  | some i =>
    if ! s.imageSuits kind i then .bad
    else if sealFails force (some Config.vendorKeyHash) (signedPart raw) (blockOf raw) ≠ 0 then
      .signature (sealFails force (some Config.vendorKeyHash) (signedPart raw) (blockOf raw))
    else if s.rolledBack i then .rollback
    else .ok i

/-- The state after an image was verified: it is counted, and a failure recorded (R341, R349, R454). -/
def State.fwRecord (s : State) (kind : Nat) (inj : Bool) : FwVerdict → State
  | .ok _ => s.objectCount true
  | .bad => s.objectCount false
  | .signature w => (s.objectCount false).fwFault 1 (sigDetail (0x80 + kind) w) inj
  | .rollback => (s.objectCount false).fwFault 2 (0x80 + kind) inj

/-- Commits the buffer as an image of a kind: the verdict, and the state with flash written or a record raised. -/
def State.commitBuffer (s : State) (kind : Nat) : FwVerdict × State :=
  let (force, inj, s1) := s.sigForce
  let raw := bufferImage s1.boot.buffer
  let r := s1.fwVerify kind raw force
  let s2 := s1.fwRecord kind inj r
  (r, match r with
    | .ok _ => s2.commitImage kind raw
    | .bad | .signature _ | .rollback => s2)

end Sys2Proof.Machine
end

