-- ==== Sys2Proof/Machine/Power.lean ====
section
/-!
DEFINITION. Commands of the power controller (R388 to R405, R415): state requests and their ends, main rails, decision edges, droop,
rails and domain wakes.
-/
namespace Sys2Proof.Machine

/-! ## States (R388 to R391) -/

/-- A completed change of state: shown, counted and signalled (R389, R415). -/
def State.stateDone (s : State) (st : PState) : State :=
  ((((s.setPower (fun p => { p with state := st, transit := .none })).setF PWR_STATUS_LAST_RING_LO (s.now % 2 ^ 32)).inc
    (PWR_CNT_COUNT 0) 1).event 5).inBand

/-- A cell in DEEP: its planes and the lines of RESIDENT windows with their side storage stay; everything else is lost (R129). The
lost bytes are free values (log 3). -/
def Cell.deep (c : Cell) (n id : Nat) : Cell :=
  let keep := residentIn c.active c.active
  let kept := (List.range scratchBytes).filter keep
  let m : MemUnit := { c.mem with
    bytes := kept.foldl (fun b a => b.write a (c.mem.byte id a)) []
    words := skeep (fun w => keep (8 * w)) c.mem.words
    lines := skeep (fun l => keep (256 * l)) c.mem.lines
    msgs := [], waiting := [], writeBack := [], credits := [], held := []
    lost := some n
    kept := kept.foldl (fun k a => sset false k a true) [] }
  { c with comp := Compute.idle, mem := m, box := Box.idle, steer0 := ⟨[], none, []⟩, steer1 := ⟨[], none, []⟩, gate := [] }

/-- Entry into DEEP: sessions closed, links DISABLED, staging caches lost, cells as R129 keeps them (Table 14.1). -/
def State.enterDeep (s : State) : State :=
  let s1 := s.sesKeys.foldl (fun s i => s.closeSes i false) s
  let s2 := (List.range 72).foldl (fun s p => [false, true].foldl (fun s h => s.linkTo p h .disabled) s) s1
  let (n, s3) := s2.draw
  { s3 with
    cells := smap Cell.init (fun k c => c.deep n k) s3.cells
    taps := smap Tap.reset (fun _ t => { Tap.reset with func := t.func }) s3.taps
    limbs := smap Limb.reset (fun _ l => { Limb.reset with stagedMib := l.stagedMib }) s3.limbs }

/-- The writes of LIFE[0] and LIFE[2] (R384): hours and whole kWh since the last one. -/
def State.lifeTimes (s : State) : State :=
  let kwh := s.power.energy / (36 * 10 ^ 14)
  let s1 := (s.lifeAdd 0 s.hw.hours).lifeAdd 2 (kwh - s.hw.kwh)
  { s1 with hw := { s1.hw with hours := 0, kwh := kwh } }

/-- Entry into OFF: LIFE[0] and LIFE[2] are written, main rails drop, the ring is counted no more (R388, R389). The powered hours since
their last update are a free value below 24 (log 1). -/
def State.enterOff (s : State) : State :=
  let (h, s1) := s.draw
  ((({ s1 with hw := { s1.hw with hours := h % 24 } } : State).lifeTimes).dropLock .unlocked).dropRails

/-- POWER_ENTRY_COMPLETE: the engine is in the state it was entering; fetching resumes but in OFF. A wake recorded during the entry
begins the return at once, and a request recorded then takes its turn (R389, R390). -/
def execPowerEntryComplete (s : State) : Res :=
  .next <|
    match s.power.transit with
    | .entering st =>
      let s1 := match st with
        | .deep => s.enterDeep
        | .off => s.enterOff
        | .run | .idle | .sleep => s
      let wake := s.power.wake
      let next := s.power.pending
      let s2 := (s1.stateDone st).setPower (fun p => { p with wake := false, pending := none, fetchStop := decide (st = .off) })
      if wake then (if st = .off then s2.engineReset else s2.setPower (fun p => { p with transit := .returning next }))
      else match next with
        | some q => s2.powerRequest q
        | none => s2
    | .none => s
    | .returning _ => s

/-- On return from DEEP every memory unit makes one scrub pass over its RESIDENT windows (R129). -/
def State.scrubAll (s : State) : State :=
  (s.cells.map (·.1)).foldl (fun s k =>
    let (x, y) := keyXY k
    s.cellStep x y false (s.cell x y).scrubResident) s

/-- POWER_RETURN_COMPLETE: the engine is in RUN; after DEEP its RESIDENT windows are scrubbed first, and links train again (R129,
R388). A request for a shallower state than the one left is then entered (Table 14.2). -/
def execPowerReturnComplete (s : State) : Res :=
  .next <|
    match s.power.transit with
    | .returning next =>
      let deep := decide (s.power.state = .deep)
      let s1 := (if deep then s.scrubAll else s).stateDone .run
      let s2 := if ! deep then s1
        else (List.range 72).foldl (fun s p =>
          if s.portEnabled p && decide (s.f (EDGE_PORT_CTRL_ADMIN_EN p) = 1) then
            (s.port p).halves.foldl (fun s h => (s.linkTo p h .detect).detect p h) s
          else s) s1
      match next with
      | some q => s2.powerRequest q
      | none => s2
    | .none => s
    | .entering _ => s

/-- POWER_REQUEST: a PWR_CTRL write; with GO it requests STATE, unless a SET_POWER or a WAKE_N pulse of the same ring wins (R333, R334,
R389). A write with an invalid STATE is ignored whole (R415). -/
def execPowerRequest (w : Word64) (s : State) : Res :=
  .next <|
    match PState.ofCode (PWR_CTRL_STATE.of w) with
    | none => s.flag PWR_STATUS_CFG_REJECT
    | some st =>
      let s1 := (s.put PWR_CTRL_AUTO_WAKE w).put PWR_CTRL_STATE w
      if PWR_CTRL_GO.of w = 1 ∧ s.mgmt.setAt ≠ some s.now ∧ s.mgmt.wakeAt ≠ some s.now then s1.powerRequest st else s1

/-- Whether a low pulse of a number of nanoseconds passes the filter of R28; between 1.5 and 2.5 µs the spec leaves it open (log 1). -/
def State.pulse (s : State) (ns : Nat) : Bool × State :=
  if 2500 ≤ ns then (true, s)
  else if ns < 1500 then (false, s)
  else (Config.freeBit s.free, { s with free := s.free + 1 })

/-- WAKE_N: in OFF, and while main rails are down after an input failure or a hard trip, a full boot; otherwise a request for RUN, which
wins over a SET_POWER of the same ring (R23, R28, R334, R409). -/
def execWakeN (ns : Nat) (s : State) : Res :=
  .next <|
    let (hit, s) := s.pulse ns
    if ! hit ∨ s.modl.standby = false then s
    else if s.power.state = .off ∨ s.modl.inputFailed = true ∨ s.modl.hardTripped = true then s.engineReset
    else ({ s with mgmt := { s.mgmt with wakeAt := some s.now } } : State).wakeEvent

/-! ## Decision edges (R395 to R401, R407) -/

/-- Rings from one decision edge to the next: ceil(100 µs / P) (R396). -/
def decisionRings (period : Nat) : Nat := ringsIn 100000 period

/-- P_cool in W: the coolant limit, with ambient − 5 K in place of the inlet above 40 °C where that is lower (R25, R34). -/
def Module.pCool (m : Module) : Nat :=
  let lim (t : Int) : Nat := min 46000 ((640 * (m.flow : Int) * (4500 - t) / 100000).toNat)
  if 4000 < m.ambient then min (lim m.inlet) (lim (m.ambient - 500)) else lim m.inlet

/-- C in 50 W units (R395). -/
def State.capUnits (s : State) : Nat := min s.power.cap (s.modl.pCool / 50)

/-- fit of R399: the lowest code whose budget holds C_NEED, 0 with no graft active; the highest code where none does. -/
def State.fit (s : State) : Nat :=
  match s.activeNeed with
  | some need => (s.fitOf s.ring.period need).getD s.maxCode
  | none => 0

/-- The allotments of the three classes, in W, by class code 0 to 2 (R398). -/
def allotments (word c : Nat) (power : Nat → Nat) : Nat → Nat :=
  let floor (k : Nat) : Nat := 50 * (if k = 0 then word / 2 ^ 8 % 1024 else if k = 1 then word / 2 ^ 18 % 1024 else word / 2 ^ 28 % 1024)
  let order := [word % 4, word / 4 % 4, word / 16 % 4]
  let rest := c - (floor 0 + floor 1 + floor 2)
  let give := (order.foldl (fun (p : Nat × List (Nat × Nat)) k =>
    let g := min (power k - floor k) p.1
    (p.1 - g, p.2 ++ [(k, g)])) (rest, [])).2
  fun k => floor k + ((give.find? (fun q => q.1 == k)).map (·.2)).getD 0

/-- Shedding at a decision edge (R398, R399, R401): what each class does, whether an action was taken, whether every class above its
allotment has none left. -/
def State.shed (s : State) (c : Nat) : State × Bool × Bool :=
  let p0 := s.f PWR_MEAS_COMPUTE_W
  let p1 := s.f PWR_MEAS_MEMORY_W
  let p2 := s.f PWR_MEAS2_LINKS_W
  let a := allotments s.power.classInForce c (fun k => if k = 0 then p0 else if k = 1 then p1 else p2)
  let q := s.power
  let above (p k : Nat) : Bool := decide (a k < p)
  let under (p k : Nat) : Bool := decide (100 * p ≤ 95 * a k)
  let canC := decide (s.fit < s.clk.code)
  let actC := above p0 0 && canC
  let actM := above p1 1 && decide (q.memShed < 4)
  let floor2 := 50 * (q.classInForce / 2 ^ 28 % 1024)
  let canL := decide (q.linkShed < 2) || (decide (q.linkShed = 2) && decide (a 2 = floor2))
  let actL := above p2 2 && canL
  let next (act back : Bool) (n : Nat) : Nat := if act then n + 1 else if back then n - 1 else n
  let lk := next actL (under p2 2) q.linkShed
  let ceil := if actC then q.capCeil - 2
    else if 100 * s.power.measW ≤ 95 * c then min 120 (q.capCeil + 1) else q.capCeil
  let spent := (! above p0 0 || ! canC) && (! above p1 1 || decide (q.memShed = 4)) && (! above p2 2 || ! canL)
  (s.setPower (fun p => { p with capCeil := ceil, memShed := next actM (under p1 1) p.memShed, linkShed := lk,
                                 linksFloor := decide (lk = 3) }), actC || actM || actL, spent)

/-- The settings written since the last decision edge come into force (R396). -/
def State.takeSettings (s : State) : State :=
  let w := s.f PWR_CLASS_PRIO + 2 ^ 8 * s.f PWR_CLASS_FLOOR_COMPUTE + 2 ^ 18 * s.f PWR_CLASS_FLOOR_MEMORY +
    2 ^ 28 * s.f PWR_CLASS_FLOOR_LINKS
  let s1 := s.setPower (fun p => { p with cap := min (s.f PWR_CAP_ENGINE_CAP) p.mgmtCap, classInForce := w })
  s1.setPower (fun p => { p with capInForce := s1.capUnits })

/-- CAP_UNMET: raised once an episode, which ends at the first decision edge with P_1ms at most C (R401). -/
def State.capEpisode (s : State) (c : Nat) (spent : Bool) : State :=
  if s.power.measW ≤ c then s.setPower (fun p => { p with capUnmet := false })
  else if spent = true ∧ s.power.capUnmet = false then
    (((s.setPower (fun p => { p with capUnmet := true })).inc (PWR_CNT_COUNT 4) 1).raise ⟨.power, 2⟩ .engine 0 false .start
      (decide (0 < s.power.boostLeft)))
  else s

/-! ## Droop, rails, domains (R392, R393, R402, R404, R405) -/

/-- One droop event of a compute die: counted, and POWER/DROOP when the die passes LIMIT within the millisecond, once (R404). -/
def State.droop (s : State) (d : Nat) (inj : Bool) : State :=
  let n := sget 0 s.power.droops d + 1
  let s1 := ((s.setPower (fun p => { p with droops := sset 0 p.droops d n })).incSat PWR_DROOP_EVENTS 1).incSat (PWR_DIE_DROOPS d) 1
  let s2 : State := { s1 with tel := { s1.tel with droops := s1.tel.droops + 1, droopCd := smod 0 s1.tel.droopCd d (· + 1) } }
  if n = s.f PWR_DROOP_LIMIT + 1 then s2.raise ⟨.power, 5⟩ (.die d) 0 false .during inj else s2

/-- DROOP_EVENT: a detector of a powered compute die fires and stretches its clock by 8 to 32 cycles (R404). -/
def execDroopEvent (die cycles : Nat) (s : State) : Res :=
  .next (if s.domain die = .on ∧ 8 ≤ cycles ∧ cycles ≤ 32 then s.droop die false else s)

/-- The cells of a compute die lose everything (R392, R405). -/
def State.loseDie (s : State) (d : Nat) : State :=
  { s with cells := smap Cell.init (fun k c =>
      let (x, y) := keyXY k
      if s.dieOf x y = d then { Cell.init with dead := c.dead } else c) s.cells }

/-- A die rail is removed (R405): a compute die becomes UNAVAILABLE, a limb die is reset and its ports' auxiliary power removed (R33).
PWR_GOOD stays high: the rails that are still up are in regulation (R27; DESIGN CHOICE, log 65). -/
def State.railFault (s : State) (d : Nat) (inj : Bool) : State :=
  if s.dieEnabled d then
    ((s.raise ⟨.power, 7⟩ (.die d) 0 true .during inj).loseDie d).setDomain d .unavailable
  else if 48 ≤ d ∧ d < 60 then
    let s1 := (s.raise ⟨.power, 7⟩ (.die d) 0 true .during inj).limbReset (d - 48) inj
    (portsOfLimb (d - 48)).foldl (fun s p => s.modPort p (fun q => { q with auxOn := false })) s1
  else s

/-- RAIL_FAULT: the rail of a powered die stays more than 10 % outside its setpoint for 10 µs (R405). -/
def execRailFault (die : Nat) (s : State) : Res :=
  .next (if s.modl.mains = true ∧ (die < 48 → s.domain die = .on) then s.railFault die false else s)

/-- DOMAIN_WAKE_TIMEOUT's effect: the die is UNAVAILABLE, what stalled on it fails (R393). -/
def State.wakeFails (s : State) (d : Nat) (inj : Bool) : State :=
  let s1 := (s.setDomain d .unavailable).raise ⟨.power, 6⟩ (.die d) 0 false .during inj
  let armed : Option Armed := s1.ras.inj.cell
  let s2 : State := match armed with
    | some a => if s.dieOf (a.loc / 2 ^ 10) (a.loc % 2 ^ 10) = d then
        { s1 with ras := { s1.ras with inj := { s1.ras.inj with cell := none } } } else s1
    | none => s1
  let s3 : State := match s2.ras.inj.net with
    | some a => if s.dieOf (a.loc / 2 ^ 10 % 2 ^ 11) (a.loc % 2 ^ 10) = d then
        { s2 with ras := { s2.ras with inj := { s2.ras.inj with net := none } } } else s2
    | none => s2
  let s4 : State := match s3.bark.stalled with
    | some (x, y, _) => if s.dieOf x y = d then
        ({ s3 with bark := { s3.bark with stalled := none } } : State).setF BARK_RESULT_RESULT 11 else s3
    | none => s3
  match s4.graft.parsed with
  | some g => if s4.graft.load = .broadcast ∧ s.graftUses g d = true then s4.loadFails 5 1 0 inj else s4
  | none => s4

/-- DOMAIN_WAKE_TIMEOUT: a die is not ON within 1 ms (R393). -/
def execDomainWakeTimeout (die : Nat) (s : State) : Res :=
  .next (if s.domain die = .waking then s.wakeFails die false else s)

/-- EXCURSION_WRITE: ALLOW_J and A, ignored while a job is running (R402, R415). -/
def execExcursionWrite (joules : Nat) (s : State) : Res :=
  .next <|
    if s.busyJob ∨ 65535 < joules then (if s.busyJob then s else s.flag PWR_STATUS_CFG_REJECT)
    else (s.setF PWR_EXCURSION_ALLOW_J joules).setPower (fun p => { p with allow := joules * 10 ^ 9 })

/-- PWR_CLR_COUNTERS: clears every PWR_CNT (R415). -/
def execPwrClrCounters (s : State) : Res := .next (s.clearArr PWR_CNT_COUNT 8)

end Sys2Proof.Machine
end

