-- ==== Sys2Proof/Machine/Thermal.lean ====
section
/-!
DEFINITION. Thermal control (R406 to R409, R416): sensors, die temperatures, the thermal ceiling, trips; and the decision edge, which
moves caps and ceilings together (R396).
-/
namespace Sys2Proof.Machine

/-- Changes the thermal unit. -/
def State.setThermal (s : State) (f : Thermal → Thermal) : State := { s with thermal := f s.thermal }

/-- A signed 16-bit field. -/
def signed16 (n : Nat) : Int := if n < 2 ^ 15 then n else (n : Int) - 2 ^ 16

/-- A temperature as a signed 16-bit field. -/
def temp16 (t : Int) : Nat := (t % 2 ^ 16).toNat

/-- Sensors of a die: first index and number (R406). -/
def sensorsOf (d : Nat) : Nat × Nat := if d < 48 then (16 * d, 16) else if d < 60 then (768 + 4 * (d - 48), 4) else (816, 2)

/-- Values in ascending order. -/
def sortInts : List Int → List Int
  | [] => []
  | v :: vs =>
    let l := sortInts vs
    l.filter (· < v) ++ [v] ++ l.filter (fun w => ! decide (w < v))

/-- Twice the median of readings: the mean of the two in the middle (R406). -/
def median2 (l : List Int) : Int :=
  let q := sortInts l
  q.getD ((q.length - 1) / 2) 0 + q.getD (q.length / 2) 0

/-- Whether a reading is valid against its die's median (R406). -/
def sensorOk (med2 v : Int) : Bool := decide (-4000 ≤ v) && decide (v ≤ 15000) && decide ((2 * v - med2).natAbs ≤ 4000)

/-- A die's temperature as thermal control takes it: its highest valid reading, and the trip temperature for a compute die in use with too
few (R406). -/
def State.dieTemp (s : State) (d : Nat) : Int :=
  if d < 48 ∧ s.f (THM_DIE_INVALID d) = 1 ∧ s.thermalUse d = true then 11000 else signed16 (s.f (THM_DIE_TEMP d))

/-- Whether a die is in use for thermal control: limb dies always, and the root die (R407). -/
def State.hotUse (s : State) (d : Nat) : Bool := if d < 48 then s.thermalUse d else true

/-- THERMAL/SENSOR for a compute die in use whose valid sensors fall below 8 (R406). -/
def State.sensorFault (s : State) (d : Nat) (inj : Bool) : State :=
  if s.thermalUse d then s.raise ⟨.thermal, 4⟩ (.die d) 0 true .during inj else s

/-- The readings of one die: every sensor shown, the die's temperature, count, flags and peak (R406, R416). INVALID is shown for a
compute die in use (DEDUCED, log 106). -/
def State.sampleDie (s : State) (r : List Int) (d : Nat) : State :=
  let (a, n) := sensorsOf d
  let l := (r.drop a).take n
  let m := median2 l
  let s1 := (l.zipIdx).foldl (fun s p =>
    let ok := sensorOk m p.1
    let was := s.f (THM_SENSOR_VALID (a + p.2)) = 1
    let s1 := (s.setF (THM_SENSOR_TEMP (a + p.2)) (temp16 p.1)).setF (THM_SENSOR_VALID (a + p.2)) (bit ok)
    if was ∧ ok = false then s1.inc (THM_CNT_COUNT 3) 1 else s1) s
  let good := l.filter (sensorOk m)
  let few := decide (d < 48) && decide (good.length < 8) && s.thermalUse d
  let s2 := (s1.setF (THM_DIE_VALID d) good.length).setF (THM_DIE_INVALID d) (bit few)
  let s3 := match good with
    | [] => s2
    | t :: ts =>
      let hi := ts.foldl max t
      let pk := max hi (signed16 (s2.f (THM_DIE_PEAK d)))
      (s2.setF (THM_DIE_TEMP d) (temp16 hi)).setF (THM_DIE_PEAK d) (temp16 pk)
  let hot := decide (100 * (s.f THM_CONFIG_THROTTLE : Int) ≤ s3.dieTemp d)
  let s4 := s3.setF (THM_DIE_HOT d) (bit hot)
  let s5 : State := if hot then { s4 with tel := { s4.tel with hot := sset false s4.tel.hot d true } } else s4
  if few = true ∧ s.f (THM_DIE_INVALID d) = 0 then s5.sensorFault d false else s5

/-- The hottest die, lowest index among equals. -/
def State.hottest (s : State) : Nat × Int :=
  (List.range 61).foldl (fun b d => if b.2 < s.dieTemp d then (d, s.dieTemp d) else b) (0, s.dieTemp 0)

/-- SENSOR_SAMPLE: every sensor is read and judged, in the order of THM_SENSOR (R406). -/
def execSensorSample (r : List Int) (s : State) : Res :=
  .next <|
    if r.length ≠ 818 then s
    else
      let s1 := (List.range 61).foldl (fun s d => s.sampleDie r d) s
      let (d, t) := s1.hottest
      (s1.setF THM_STATUS_HOTTEST_DIE d).setF THM_STATUS_HOTTEST_TEMP (temp16 t)

/-! ## Trips (R408, R409) -/

/-- THERM_TRIP_N asserts (Table 11.3). -/
def State.thermTrip (s : State) : State :=
  if s.modl.thermTripN then s else ({ s with modl := { s.modl with thermTripN := true } } : State).event 4

/-- A die in use trips at a ring edge (R408): the running step aborts, compute clocks stop in IDLE, the trip is counted. A request that was
pending is entered from IDLE (Table 14.2); a transition under way goes on (DESIGN CHOICE, log 106). -/
def State.tripUsed (s : State) (d : Nat) (inj : Bool) : State :=
  let s1 := ((s.raiseAbort ⟨.thermal, 1⟩ (.die d) 0 .start inj).thermTrip.flag THM_STATUS_TRIP).inc (THM_CNT_COUNT 2) 1
  let s2 := (s1.setThermal (fun t => { t with tripped := true })).lifeAdd 3 1
  if s2.power.state = .run ∧ s2.power.transit = .none ∧ s2.modl.mains = true then
    let s3 := (s2.stateDone .idle).setPower (fun p => { p with pending := none, fetchStop := false })
    match s2.power.pending with
    | some q => s3.powerRequest q
    | none => s3
  else s2

/-- A powered die that is not in use trips: it is powered off; SHADOW planes there are lost with the SHADOW graft (R408). -/
def State.tripUnused (s : State) (d : Nat) (inj : Bool) : State :=
  let s1 := ((s.raise ⟨.thermal, 1⟩ (.die d) 0 false .start inj).inc (THM_CNT_COUNT 4) 1).loseDie d |>.setDomain d .off
  match s.graft.shadow with
  | some g => if s.graftUses g d then (s1.clearShadow).setGraft (fun q => { q with shadow := none, load := .empty, armed := none }) else s1
  | none => s1

/-- Dies at 110 °C or above trip once: in use, or powered and not in use (R408). -/
def State.trips (s : State) (inj : Bool) (hot : List Nat) : State :=
  hot.foldl (fun s d =>
    if s.hotUse d then (if s.thermal.tripped then s else s.tripUsed d inj)
    else if s.domain d = .on then s.tripUnused d inj else s) s

/-- Dies at or above the trip temperature. -/
def State.hotDies (s : State) : List Nat := (List.range 61).filter (fun d => decide (100 * (s.f THM_CONFIG_TRIP : Int) ≤ s.dieTemp d))

/-- R409: THERMAL/HARD_TRIP and LAST_GASP, both trip lines and FAULT_N, PWR_GOOD low, main rails down. -/
def State.hardTripNow (s : State) (d : Nat) (inj : Bool) : State :=
  let s1 := ((s.raiseEnd ⟨.thermal, 5⟩ (.die d) 0 .during inj).lastGasp 0x0D 5).thermTrip.faultN
  ({ s1 with modl := { s1.modl with hardTripped := true } } : State).dropRails

/-- HARD_TRIP: the analogue comparator of a powered die (R409). -/
def execHardTrip (die : Nat) (s : State) : Res := .next (if s.modl.mains = true ∧ die < 61 then s.hardTripNow die false else s)

/-- TRIP_CLEAR: acts once every die is below THROTTLE − HYST; THERM_TRIP_N deasserts (R408). -/
def execTripClear (s : State) : Res :=
  .next <|
    let cold := 100 * ((s.f THM_CONFIG_THROTTLE : Int) - s.f THM_CONFIG_HYST)
    if (List.range 61).all (fun d => decide (s.dieTemp d < cold)) then
      let s1 := (s.setF THM_STATUS_TRIP 0).setThermal (fun t => { t with tripped := false })
      { s1 with modl := { s1.modl with thermTripN := false } }
    else s

/-- CLR_PEAK: clears every THM_DIE.PEAK (R416). -/
def execClrPeak (s : State) : Res := .next (s.clearArr THM_DIE_PEAK 61)

/-- THM_CLR_COUNTERS: clears every THM_CNT (R416). -/
def execThmClrCounters (s : State) : Res := .next (s.clearArr THM_CNT_COUNT 5)

/-! ## The decision edge -/

/-- The thermal ceiling moves (R407): down while any die in use is at THROTTLE, up when all are below THROTTLE − HYST; a ceiling below
fit raises THERMAL/HOLD once an episode. -/
def State.thermalStep (s : State) (temp : Nat → Int) (inj : Bool) : State :=
  let hi := 100 * (s.f THM_CONFIG_THROTTLE : Int)
  let lo := hi - 100 * (s.f THM_CONFIG_HYST : Int)
  let used := (List.range 61).filter s.hotUse
  let step := s.f THM_CONFIG_STEP
  let old := s.thermal.ceil
  let c := if used.any (fun d => decide (hi ≤ temp d)) then old - step
    else if used.all (fun d => decide (temp d < lo)) then min 120 (old + step) else old
  let s1 := s.setThermal (fun t => { t with ceil := c })
  let s2 := if (c < 120) = (old < 120) then s1 else s1.event 4
  let s3 := if c < 120 ∧ old = 120 then s2.inc (THM_CNT_COUNT 0) 1 else s2
  if c < s.fit then
    if s.thermal.hold then s3
    else
      let s4 : State := { s3 with tel := { s3.tel with hold := true } }
      ((s4.setThermal (fun t => { t with hold := true })).inc (THM_CNT_COUNT 1) 1).raise ⟨.thermal, 3⟩ .engine 0 false .start inj
  else s3.setThermal (fun t => { t with hold := false })

/-- DECISION_EDGE: at ring edges n with n mod D = 0, settings written come into force, classes are allotted power and shed or restore
work, CAP_UNMET is judged, and the thermal ceiling moves (R396 to R401, R407). DET 31 and 32 act on this edge's readings alone. -/
def execDecisionEdge (s : State) : Res :=
  .next <|
    if s.now % decisionRings s.ring.period ≠ 0 ∨ s.modl.mains = false then s
    else
      let s0 := s.takeSettings
      let c := 50 * s0.power.capInForce
      let (s1, acted, spent) := s0.shed c
      let s2 := if acted then s1.inc (PWR_CNT_COUNT 3) 1 else s1
      let s3 := s2.capEpisode c spent
      let at_ : Option Nat := s3.ras.inj.root.map (·.loc)
      let (p31, s4) := s3.fireRoot none 31 (fun _ => true)
      let (p32, s5) := s4.fireRoot none 32 (fun _ => true)
      let temp (d : Nat) : Int :=
        match p31, p32 with
        | some t, _ => if at_ = some d then 100 * (t : Int) else s.dieTemp d
        | none, some _ => if at_ = some d ∧ d < 48 then 11000 else s.dieTemp d
        | none, none => s.dieTemp d
      let inj := p31.isSome || p32.isSome
      let s6 := if p32.isSome then s5.sensorFault (at_.getD 0) true else s5
      let s7 := if inj then s6.trips true ((List.range 61).filter (fun d => decide (11000 ≤ temp d) && decide (at_ = some d))) else s6
      s7.thermalStep temp inj

end Sys2Proof.Machine
end

