-- ==== Sys2Proof/Machine/Mgmt.lean ====
section
/-!
DEFINITION. Commands of the management port (R328 to R335, R455).
-/
namespace Sys2Proof.Machine

/-! ## Answers -/

/-- A management command is answered: the response replaces the one before, ID_MGMT shows it, and it counts as executed or refused
(R330, R336). -/
def State.answer (s : State) (cmd status : Nat) (data : List Byte) : State :=
  let s1 : State := { s with mgmt := { s.mgmt with status := status, data := data } }
  let s2 := (s1.setF ID_MGMT_LAST_CMD cmd).setF ID_MGMT_LAST_STATUS status
  if status = 0 then s2.incHi (ID_HOST_CNT_COUNT 8) 1 else s2.incLo (ID_HOST_CNT_COUNT 8) 1

/-- An answer OK with data. -/
def State.answerOk (s : State) (cmd : Nat) (data : List Byte) : State := s.answer cmd 0 data

/-- An answer OK to a command marked "notify" (Table 11.5), which raises the MGMT cause. -/
def State.answerNotify (s : State) (cmd : Nat) : State := (s.answer cmd 0 []).event 16

/-- REFUSED with a reason: 1 NOT_READY, 2 STATE, 3 BAD_IMAGE (R330). -/
def State.answerRefused (s : State) (cmd reason : Nat) : State := s.answer cmd 3 [BitVec.ofNat 8 reason]

/-- Runs a command that the port serves in every state (R329): it answers on standby power, and NOT_READY from the ring edge
at which a Trunk hand-over begins (R457). -/
def State.mgmtAlways (s : State) (cmd : Nat) (f : State → State) : State :=
  if s.modl.standby = false then s
  else if s.boot.handover = true ∧ s.boot.activateAt ≠ some s.now then s.answer cmd 4 []
  else f s

/-- Runs a command that the port serves once Trunk runs (R329). -/
def State.mgmtTrunk (s : State) (cmd : Nat) (f : State → State) : State :=
  s.mgmtAlways cmd (fun s => if s.boot.trunk then f s else s.answerRefused cmd 1)

/-- Runs a command that the port serves once Trunk runs, but not in OFF (R329). -/
def State.mgmtOn (s : State) (cmd : Nat) (f : State → State) : State :=
  s.mgmtTrunk cmd (fun s => if s.power.state = .off then s.answerRefused cmd 2 else f s)

/-! ## Bytes of responses -/

/-- VERSION of an image, 0 with none. -/
def versionOf (i : Option FwImage) : List Byte := leBytes 4 ((i.map (·.version)).getD 0)

/-- GET_ID's data: variant, firmware line, serial and versions (Table 11.5). -/
def State.idBytes (s : State) : List Byte :=
  leBytes 1 s.cert.variant ++ leBytes 1 s.cert.line ++ leBytes 16 (s.hwVal 0x001) ++ versionOf s.boot.seed ++ versionOf s.boot.trunkImg
    ++ versionOf (sget none s.boot.limbs 0)

/-- The power state GET_STATUS shows: OFF while entering OFF too (Table 11.6). -/
def State.statusPower (s : State) : Nat :=
  match s.power.transit with
  | .entering .off => 4
  | .entering _ => s.power.state.code
  | .returning _ => s.power.state.code
  | .none => s.power.state.code

/-- JOB_STATUS.STATE (R260). -/
def State.jobStateCode (s : State) : Nat :=
  match s.job.cur with
  | some j => j.stage.code
  | none => 0

/-- Code of a lock state (R76). -/
def LockState.code : LockState → Nat
  | .unlocked => 0 | .acquiring => 1 | .locked => 2 | .holdover => 3

/-- GET_STATUS's data (Table 11.6). -/
def State.statusBytes (s : State) : List Byte :=
  let stage := if s.boot.stage = 31 ∧ ¬ (s.ring.lock = .locked ∨ s.ring.lock = .holdover) then 18 else s.boot.stage
  let f : Nat × Nat := match s.ras.log with
    | r :: _ => (r.cls.code, r.code % 256)
    | [] => (0, 0)
  leBytes 1 (s.statusPower + 8 * stage)
    ++ leBytes 1 (s.ring.lock.code + 4 * s.jobStateCode + 32 * bit s.host.up + 64 * bit (decide (s.boot.recovery ≠ .none)))
    ++ leBytes 1 (bit s.modl.faultN + 2 * bit s.modl.thermTripN + 4 * bit s.modl.hold + 8 * bit s.modl.tilt + 16 * bit s.power.capUnmet
        + 32 * s.f CLK_SRC_LOSS)
    ++ leBytes 1 f.1 ++ leBytes 1 f.2 ++ leBytes 6 s.now

/-- GET_ENV's data (Table 11.5); the measured tilt is a free value (log 30). -/
def State.envBytes (s : State) (tilt : Nat) : List Byte :=
  leBytes 2 (10 * s.f PWR_MEAS2_INPUT_10MV) ++ leBytes 2 (s.f PWR_MEAS_INPUT_W) ++ leBytes 2 (temp16 s.modl.inlet)
    ++ leBytes 2 (temp16 s.modl.outlet) ++ leBytes 2 s.modl.flow ++ leBytes 2 (temp16 s.modl.dew)
    ++ leBytes 2 (temp16 s.hottest.2) ++ leBytes 2 tilt

/-! ## Commands -/

/-- DYNAMIC_ADDRESS: SETDASA or ENTDAA assigns a 7-bit address (R328). -/
def execDynamicAddress (addr : Nat) (s : State) : Res :=
  .next <|
    if s.modl.standby = true ∧ addr < 128 then
      (({ s with mgmt := { s.mgmt with dyn := some addr } } : State).setF ID_MGMT_I3C 1).setF ID_MGMT_DYN_ADDR addr
    else s

/-- GET_ID (Table 11.5). -/
def execGetId (s : State) : Res := .next (s.mgmtAlways 0x01 (fun s => s.answerOk 0x01 s.idBytes))

/-- GET_STATUS (Tables 11.5 and 11.6). -/
def execGetStatus (s : State) : Res := .next (s.mgmtAlways 0x02 (fun s => s.answerOk 0x02 s.statusBytes))

/-- GET_ENV (Table 11.5). -/
def execGetEnv (s : State) : Res :=
  .next <| s.mgmtTrunk 0x03 (fun s =>
    let (t, s1) := s.draw
    s1.answerOk 0x03 (s.envBytes (t % 65536)))

/-- GET_FAULT: one of the 16 newest records; an index with no record is INVALID (Table 11.5). -/
def execGetFault (i : Nat) (s : State) : Res :=
  .next <| s.mgmtTrunk 0x04 (fun s =>
    match (s.ras.log.take 16)[i]? with
    | some r => s.answerOk 0x04 r.bytes
    | none => s.answer 0x04 2 [])

/-- SET_POWER: requests a power state; a WAKE_N pulse of the same ring wins (R334), and it wins over a host request of the same
ring (R333). -/
def execSetPower (st : Nat) (s : State) : Res :=
  .next <| s.mgmtOn 0x10 (fun s =>
    match PState.ofCode st with
    | none => s.answer 0x10 2 []
    | some p =>
      let s1 : State := { s with mgmt := { s.mgmt with setAt := some s.now } }
      (if s.mgmt.wakeAt = some s.now then s1 else s1.powerRequest p).answerNotify 0x10)

/-- SET_CAP: the management cap, 12.0 to 46.0 kW in 50 W steps (R332). -/
def execSetCap (n : Nat) (s : State) : Res :=
  .next <| s.mgmtOn 0x11 (fun s =>
    if 240 ≤ n ∧ n ≤ 920 then (s.setPower (fun p => { p with mgmtCap := n })).answerNotify 0x11 else s.answer 0x11 2 [])

/-- ABORT: registers an abort with REASON 3 (R256, R333). -/
def execAbort (jobId : Nat) (s : State) : Res :=
  .next <| s.mgmtOn 0x12 (fun s => (s.registerAbort jobId 3 s.now).answerNotify 0x12)

/-- RESET: 0 ENGINE, 1 HOSTPORT (R333). -/
def execReset (kind : Nat) (s : State) : Res :=
  .next <| s.mgmtOn 0x13 (fun s =>
    if kind = 0 then (s.answerNotify 0x13).engineReset
    else if kind = 1 then ((if s.hostPowered then s.hostReset false else s).answerNotify 0x13)
    else s.answer 0x13 2 [])

/-- CLEAR_LOSS: clears CLK_SRC.LOSS (R73, Table 11.5). -/
def execClearLoss (s : State) : Res :=
  .next <| s.mgmtTrunk 0x14 (fun s => ((s.setF CLK_SRC_LOSS 0).settleFaultN).answerOk 0x14 [])

/-- RECOVERY_ENTER: latched for the next boot (R335). -/
def execRecoveryEnter (s : State) : Res :=
  .next <| s.mgmtAlways 0x20 (fun s => ({ s with boot := { s.boot with latched := true } } : State).answerNotify 0x20)

/-- RECOVERY_WRITE: bytes into the 16 MiB buffer; beyond it, INVALID (R335). -/
def execRecoveryWrite (off : Nat) (data : List Byte) (s : State) : Res :=
  .next <| s.mgmtAlways 0x21 (fun s =>
    if 28 < data.length ∨ 16 * 2 ^ 20 < off + data.length then s.answer 0x21 2 []
    else ({ s with boot := { s.boot with buffer := s.boot.buffer.writeBytes off data } } : State).answerOk 0x21 [])

/-- Kinds a recovery mode accepts (R454). -/
def RecMode.accepts (m : RecMode) (kind : Nat) : Bool :=
  match m with
  | .rom => decide (kind = 1)
  | .seed => decide (kind = 1) || decide (kind = 2)
  | .limb | .none => decide (1 ≤ kind) && decide (kind ≤ 3)

/-- RECOVERY_COMMIT: verifies the buffer as an image and writes its bank, or leaves flash unchanged (R335, R455). A
commit is one command here, so none of the other port is in progress when it comes (log 31). -/
def execRecoveryCommit (kind : Nat) (s : State) : Res :=
  .next <| s.mgmtAlways 0x22 (fun s =>
    if ! s.boot.recovery.accepts kind then s.answerRefused 0x22 3
    else
      let (r, s1) := s.commitBuffer kind
      match r with
      | .ok _ =>
        ({ s1 with boot := { s1.boot with rebootDue := decide (s1.boot.recovery ≠ .none) } } : State).answerOk 0x22 []
      | .bad | .signature _ | .rollback => s1.answerRefused 0x22 3)

/-- RECOVERY_REBOOT: 100 ms after a commit that passed in recovery mode, an ENGINE reset with RECOVERY_ENTER cleared (R455). -/
def execRecoveryReboot (s : State) : Res :=
  .next <|
    if s.boot.rebootDue then ({ s with boot := { s.boot with latched := false } } : State).engineReset else s

end Sys2Proof.Machine
end

