-- ==== Sys2Proof/Machine/Bark.lean ====
section
/-!
DEFINITION. Commands of Bark's mailbox but the firmware ones, its grants, scrub and measurements, and what the root die does in the
background for it (R337 to R374).
-/
namespace Sys2Proof.Machine

/-- Changes Bark. -/
def State.setBark (s : State) (f : Bark → Bark) : State := { s with bark := f s.bark }

/-! ## The mailbox (R373, R374) -/

/-- Whether a command is in progress: an M7 measurement, a stalled PLANE_READ, or a change of ownership that is not persistent yet. -/
def State.barkBusy (s : State) : Bool :=
  s.bark.attest.isSome || s.bark.stalled.isSome || (s.hw.busy ++ s.hw.engineQ).any (fun w => w.reg == 0x1BE && ! w.refresh)

/-- A command ends with a RESULT and DETAIL and no output. -/
def State.barkEnd (s : State) (result detail : Nat) : State :=
  ((s.setF BARK_RESULT_RESULT result).setF BARK_RESULT_DETAIL detail).setF BARK_RESULT_OUT_LEN 0

/-- A command ends OK with output bytes in the mailbox. -/
def State.barkOut (s : State) (out : List Byte) : State :=
  (((s.setBark (fun b => { b with mbox := b.mbox.writeBytes 0 out })).setF BARK_RESULT_RESULT 0).setF BARK_RESULT_DETAIL 0).setF
    BARK_RESULT_OUT_LEN out.length

/-- GO: runs a command on its input, or answers BUSY; an input longer than the mailbox is INVALID (R373). -/
def State.barkRun (s : State) (op len : Nat) (f : State → State) : State :=
  let s1 := (s.setF BARK_CMD_OP op).setF BARK_CMD_LEN len
  if s.barkBusy then s1.setF BARK_RESULT_RESULT 1 else if 16384 < len then s1.barkEnd 2 0 else f s1

/-- The input of a command: the first `len` bytes of the mailbox (R373). -/
def State.input (s : State) (len : Nat) : List Byte := s.bark.mbox.readBytes 0 len

/-- Runs a command that needs a key or a nonce: without entropy it is REFUSED with detail ENTROPY, code 1 here (R339; DESIGN CHOICE,
log 35). -/
def State.needEntropy (s : State) (f : State → State) : State :=
  let (ok, s1) := s.entropy
  if ok then f s1 else s1.barkEnd 11 1

/-- BARK_NONCE is replaced from the DRBG (R343). -/
def State.newNonce (s : State) : State :=
  let (n, s1) := s.random 32
  s1.setBark (fun b => { b with nonce := n })

/-- The 12-byte IV of a use of K_host: counter and suffix (R359). -/
def hostIv (counter suffix : Nat) : List Byte := leBytes 8 counter ++ leBytes 4 suffix

/-- The plaintext of a host envelope under K_host; none where its tag fails (R359, R360). -/
def openEnvelope (key inp : List Byte) : Option (List Byte) :=
  let n := rd inp 8 4
  gcmOpen key (hostIv (rd inp 0 8) 3) (inp.take 16) (cut inp 16 n) (cut inp (16 + n) 16)

/-- Runs a command of the host session (R359, R360, R374): no session, a failed precondition, bytes that are no envelope, a tag that fails
and a counter that does not rise are refused, in that order. -/
def State.envRun (s : State) (op len : Nat) (pre : State → Nat) (f : State → List Byte → State) : State :=
  s.barkRun op len (fun s =>
    match s.bark.host with
    | none => s.barkEnd 7 0
    | some h =>
      let inp := s.input len
      if pre s ≠ 0 then s.barkEnd (pre s) 0
      else if len ≠ 32 + rd inp 8 4 ∨ rd inp 12 4 ≠ 0 then s.barkEnd 2 0
      else
        match openEnvelope h.key inp with
        | none => s.barkEnd 4 0
        | some plain =>
          if h.hostCtr.any (fun c => decide (rd inp 0 8 ≤ c)) then s.barkEnd 5 0
          else f (s.setBark (fun b => { b with host := some { h with hostCtr := some (rd inp 0 8) } })) plain)

/-- No precondition. -/
def State.always (_ : State) : Nat := 0

/-- The precondition "no job" (Table 12.13). -/
def State.noJob (s : State) : Nat := if s.jobPresent then 3 else 0

/-- An envelope around data (R360). -/
def sealEnvelope (key : List Byte) (counter suffix : Nat) (data : List Byte) : List Byte :=
  let head := leBytes 8 counter ++ leBytes 4 data.length ++ [0, 0, 0, 0]
  let (ct, tag) := gcmSeal key (hostIv counter suffix) head data
  head ++ ct ++ tag

/-- A reply envelope holding data, under the engine counter (R359, R360). -/
def State.barkReply (s : State) (data : List Byte) : State :=
  match s.bark.host with
  | none => s.barkEnd 7 0
  | some h => (s.setBark (fun b => { b with host := some { h with engCtr := h.engCtr + 1 } })).barkOut (sealEnvelope h.key h.engCtr 4 data)

/-! ## Objects (R341 to R343) -/

/-- Checks an object in the order of R343: header, serial, nonce, signatures and the key hash they must have, SVN. Answers RESULT and
DETAIL. `force` is a signature that an injection fails. -/
def State.objCheck (s : State) (kind body : Nat) (nonce : Bool) (obj : List Byte) (force : Nat) (key : Option (List Byte))
    (counter : Option Nat) : Nat × Nat :=
  if headerOk kind body nonce obj = false then (2, 0)
  else if rd obj 8 8 ≠ s.hwVal 0x001 then (11, 2)
  else if nonce = true ∧ cut obj 0x10 32 ≠ s.bark.nonce then (5, 0)
  else if sealFails force key (signedPart obj) (blockOf obj) ≠ 0 then (4, sealFails force key (signedPart obj) (blockOf obj))
  else if counter.any (fun c => decide (rd obj 0x38 8 < s.rollback c)) then (6, 0)
  else (0, 0)

/-- Checks an object, counts it and raises SIGNATURE or ROLLBACK where it fails so (R341, R349). -/
def State.objVerify (s : State) (kind body : Nat) (nonce : Bool) (obj : List Byte) (key : Option (List Byte)) (counter : Option Nat) :
    Nat × Nat × State :=
  let (force, inj, s1) := s.sigForce
  let (r, d) := s1.objCheck kind body nonce obj force key counter
  let s2 := s1.objectCount (r == 0)
  (r, d, if r = 4 then s2.security 1 (sigDetail kind d) inj else if r = 6 then s2.security 2 kind inj else s2)

/-! ## Simple commands -/

/-- NEW_NONCE (Table 12.13). -/
def execNewNonce (s : State) : Res := .next (s.barkRun 1 0 (fun s => s.needEntropy (fun s => s.newNonce.barkEnd 0 0)))

/-- DEVICE_CERT: the certificate's 6,481 bytes (R345). -/
def execDeviceCert (s : State) : Res := .next (s.barkRun 2 0 (fun s => s.barkOut s.deviceCert))

/-! ## Attestation (R370, R371) -/

/-- What a RESIDENT window of a cell adds to its region digest (R371). -/
def State.windowDigest (s : State) (x y id : Nat) : List Byte :=
  let c := s.cell x y
  match c.active.window id with
  | some d =>
    if d.resident then
      leBytes 2 x ++ leBytes 2 y ++ leBytes 1 id ++ [0] ++ leBytes 2 (c.mem.win id).gen ++ leBytes 2 d.base ++ leBytes 2 (d.len - 1)
        ++ [0, 0, 0, 0] ++ (List.range d.len).map (fun a => c.mem.byte (cellKey x y) (d.base + a))
    else []
  | none => []

/-- The digest of a tap region (R371). -/
def State.regionDigest (s : State) (t : Nat) : List Byte :=
  let (x0, _, y0, _) := s.tapRect t
  sha384 ((List.range 64).flatMap (fun r => (List.range 36).flatMap (fun c =>
    (List.range 16).flatMap (fun id => s.windowDigest (x0 + c) (y0 + r) id))))

/-- M7 (R371). -/
def State.residentDigest (s : State) : List Byte :=
  sha384 (((List.range 384).filter s.tapEnabled).flatMap s.regionDigest)

/-- The body of a report (Table 12.11); `m7` says M7 was taken for it. -/
def State.reportBody (s : State) (challenge : List Byte) (m7 : Bool) : List Byte :=
  let g := s.grantNow
  let ag := s.graft.active
  leBytes 4 0x54535441 ++ leBytes 2 1
    ++ leBytes 2 (bit m7 + 2 * bit g.isSome + 4 * bit s.injectOn + 8 * bit (decide (0 < s.bark.injected)) + 16 * bit s.tree.valid)
    ++ leBytes 8 (s.hwVal 0x001) ++ cut (challenge ++ List.replicate 32 0) 0 32 ++ leBytes 8 (s.now % 2 ^ 48) ++ leBytes 2 s.engineEpoch
    ++ leBytes 1 s.cert.variant ++ leBytes 1 s.cert.line ++ leBytes 1 s.bark.lmsGen ++ leBytes 1 s.owner ++ [0, 0] ++ s.ownerHash
    ++ s.bark.meas.flatten ++ (List.range 8).flatMap (fun i => leBytes 8 (s.rollback i)) ++ leBytes 8 (s.hwVal 0x1BF)
    ++ (if s.tree.valid then s.root else List.replicate 48 0) ++ leBytes 4 ((ag.map (·.id)).getD 0) ++ leBytes 2 ((ag.map (·.epoch)).getD 0)
    ++ [0, 0] ++ leBytes 8 ((g.map (·.id)).getD 0) ++ leBytes 8 s.bark.injected ++ List.replicate 80 0

/-- Signs and returns a report: its body names the generation of the leaf made ready for it (R346, R370). -/
def State.report (s : State) (challenge : List Byte) (m7 : Bool) : State :=
  let s1 := s.signReady
  let body := s1.reportBody challenge m7
  match s1.sign body false with
  | (some sigs, s2) => s2.barkOut (body ++ s1.signKeys ++ sigs)
  | (none, s2) => s2.barkEnd 10 0

/-- ATTEST, on a challenge and flags: a report, or with flag bit 0 first a measurement of M7, which runs only while no job is out of the
queue (R370, R371). -/
def execAttest (len : Nat) (s : State) : Res :=
  .next <| s.barkRun 3 len (fun s =>
    let challenge := cut (s.input len) 0 32
    if len ≠ 40 then s.barkEnd 2 0
    else if s.bark.lmsDone then s.barkEnd 10 0
    else if rd (s.input len) 32 8 % 2 = 0 then s.report challenge false
    else if s.jobOn then s.barkEnd 8 0
    else s.setBark (fun b => { b with attest := some challenge }))

/-- M7_MEASUREMENT_DONE: the measurement ends and the report is signed (R371). -/
def execM7MeasurementDone (s : State) : Res :=
  .next <|
    match s.bark.attest with
    | none => s
    | some ch =>
      if s.jobOn then s.abandonM7
      else (((s.setBark (fun b => { b with attest := none })).setMeas 7 s.residentDigest).report ch true)

/-! ## Ownership (R350, R351) -/

/-- Whether one of some registers is at its limit (R385). -/
def State.anyLimit (s : State) (l : List Nat) : Bool := l.any (fun r => (s.hwReg r).atLimit)

/-- The OWNER_HASH registers. -/
def ownerRegs : List Nat := [0x1B8, 0x1B9, 0x1BA, 0x1BB, 0x1BC, 0x1BD]

/-- Asks for the six writes of a 48-byte hash at a register. -/
def State.writeHash (s : State) (r : Nat) (hash : List Byte) : State :=
  (List.range 6).foldl (fun s k => s.hwWrite (r + k) (rd hash (8 * k) 8) false) s

/-- BARK_CLAIM: the first owner takes an UNOWNED engine: key hash, TREE_ID and OWNED last (R350). -/
def execBarkClaim (len : Nat) (s : State) : Res :=
  .next <| s.barkRun 4 len (fun s =>
    let obj := s.input len
    if s.owner ≠ 0 ∨ s.anyLimit (ownerRegs ++ [0x1BE, 0x1BF]) = true then s.barkEnd 3 0
    else s.needEntropy (fun s =>
      let (r, d, s1) := s.objVerify 1 (rd obj 0x30 4) true obj none none
      let s2 := s1.newNonce.barkEnd r d
      if r ≠ 0 then s2
      else ((s2.writeHash 0x1B8 (blockKeyHash (blockOf obj))).hwWrite 0x1BF (s.hwVal 0x1BF + 1) false).hwWrite 0x1BE 1 true))

/-- The scrub begins: the host session ends, the grant is revoked (R351). -/
def State.startScrub (s : State) : State := (s.setBark (fun b => { b with scrubbing := true, host := none, tags := [] })).endGrant true

/-- RELEASE: the owner gives the engine up; with a job present, or during a scrub, STATE (R350, R351). -/
def execRelease (len : Nat) (s : State) : Res :=
  .next <| s.barkRun 5 len (fun s =>
    let obj := s.input len
    if s.owner ≠ 1 ∨ s.jobPresent = true ∨ s.anyLimit [0x1BE] = true then s.barkEnd 3 0
    else s.needEntropy (fun s =>
      let (r, d, s1) := s.objVerify 2 (rd obj 0x30 4) true obj (some s.ownerHash) none
      let s2 := s1.newNonce.barkEnd r d
      if r ≠ 0 then s2 else (s2.hwWrite 0x1BE 2 true).startScrub))

/-- Every job present is aborted as by the host (R350). -/
def State.abortAll (s : State) : State :=
  let ids := (s.job.cur.map (·.desc.jobId)).toList ++ s.job.queue.map (·.desc.jobId)
  ids.foldl (fun s id => s.registerAbort id 1 s.now) s

/-- RECOVER: a vendor order, with a variant certificate after it or none, takes the engine from its owner: jobs aborted, a new certificate
installed, SCRUBBING (R350). -/
def execRecover (len : Nat) (s : State) : Res :=
  .next <| s.barkRun 6 len (fun s =>
    let n := 64 + rd (s.input len) 0x30 4 + sigBlock
    let obj := (s.input len).take n
    let cert := (s.input len).drop n
    if s.owner = 2 ∨ s.bark.scrubbing = true ∨ s.anyLimit [0x1BE] = true then s.barkEnd 3 0
    else s.needEntropy (fun s =>
      let (r, d, s1) := s.objVerify 3 (rd obj 0x30 4) true obj (some Config.vendorKeyHash) none
      let (r, d, s2) := if r ≠ 0 ∨ cert = [] then (r, d, s1)
        else s1.objVerify 6 64 false cert (some Config.vendorKeyHash) (some 3)
      let s3 := s2.newNonce.barkEnd r d
      if r ≠ 0 then s3
      else
        let c := certOf cert
        let s4 : State := if cert = [] then s3
          else { ((s3.writeHash 0x002 c.hash).advanceCounter 3 c.svn) with flash := { s3.flash with cert := cert } }
        ((s4.abortAll).hwWrite 0x1BE 2 true).startScrub))

/-- What the scrub erases on the wafer and in flash (R351). -/
def State.scrub (s : State) : State :=
  let s1 := s.sesKeys.foldl (fun s i => s.closeSes i false) s
  { s1 with
    cells := smap Cell.init (fun _ c => { Cell.init with dead := c.dead }) s1.cells
    taps := smap Tap.reset (fun _ t => { t with func := 0 }) s1.taps
    graft := { GraftUnit.reset with tag := s1.graft.tag }
    limbs := smap Limb.reset (fun _ l => { l with cache := [], stagedMib := 0 }) s1.limbs
    tree := { s1.tree with cached := [], pendingVer := [] }
    flash := { s1.flash with keyRecord := none }
    bark := { s1.bark with smk := none, labels := [], keyRecOk := false, host := none, scrubbing := false } }

/-- The heartwood writes that end an ownership: OWNER-class registers cleared, UNOWNED last (R350, R351). -/
def State.scrubWrites (s : State) : State :=
  let regs := ownerRegs ++ [0x1B4, 0x1B5, 0x1B6, 0x1B7] ++ (List.range 256).map (0x200 + ·)
  (regs.foldl (fun s r => s.hwWrite r 0 false) s).hwWrite 0x1BE 0 true

/-- SCRUB_COMPLETE: the scrub is done and the BARK cause reports it (R350, R351). It waits for the jobs it aborts. -/
def execScrubComplete (s : State) : Res :=
  .next (if s.bark.scrubbing = true ∧ s.owner = 2 ∧ s.jobOn = false then (s.scrub.endGrant true).scrubWrites.event 13 else s)

/-! ## The host session (R358) -/

/-- The host session opens: Bark's point, the encapsulation to the host's key, a reply signed by the engine, K_host (R347, R358). -/
def State.openHost (s : State) (inp z k ct : List Byte) (scalar : Nat) : State :=
  let head := publicPoint scalar ++ ct
  let s0 := s.signReady
  match s0.sign (sha384 inp ++ head) false with
  | (none, s1) => s1.barkEnd 10 0
  | (some sigs, s1) =>
    let reply := head ++ s0.signKeys ++ sigs
    ((s1.setBark (fun b => { b with host := some ⟨hostKey inp reply z k, none, 0⟩, tags := [] })).inc (BARK_CNT_COUNT 5) 1).barkOut reply

/-- HOST_OPEN: the credential under the owner's keys, the host's signature under the credential's keys over BARK_NONCE and the input, then
a reply that costs one engine signature (R347, R358). A point off the curve or a key that is no ML-KEM key is INVALID (log 49). -/
def execHostOpen (len : Nat) (s : State) : Res :=
  .next <| s.barkRun 7 len (fun s =>
    let inp := s.input len
    let cred := cut inp 1681 (64 + 176 + sigBlock)
    if s.owner ≠ 1 then s.barkEnd 3 0
    else if s.bark.lmsDone then s.barkEnd 10 0
    else if len ≠ 1681 + 64 + 176 + 2 * sigBlock ∨ zeros (cut inp 0 16) = false ∨ kemKeyOk (cut inp 113 1568) = false ∨
      (pointOf (cut inp 16 97)).isNone = true then s.barkEnd 2 0
    else s.needEntropy (fun s =>
      let (r, d, s1) := s.objVerify 5 176 false cred (some s.ownerHash) (some 7)
      if r ≠ 0 then (s1.newNonce).barkEnd r d
      else
        let (force, inj, s2) := s1.sigForce
        let keys := cut cred 64 97 ++ cut cred 176 60
        let w := sealFails force (some (sha384 keys)) (s.bark.nonce ++ signedPart inp) (blockOf inp)
        let s3 := s2.newNonce
        if w ≠ 0 then ((s3.objectCount false).security 1 (sigDetail 5 w) inj).barkEnd 4 w
        else
          let (m, s4) := (s3.objectCount true).random 32
          let (e, s5) := s4.ecdhKey
          let (k, ct) := kemEncaps (cut inp 113 1568) m
          match ecdh e (cut inp 16 97) with
          | some z => s5.openHost inp z k ct e
          | none => s5.barkEnd 2 0))

/-! ## Grants (R352, R353) -/

/-- GRANT: accepted in OWNED with GRANTS_ALLOWED, for the ENGINE epoch in force and a LAST_RING not yet past; it replaces a grant in
force (R352). -/
def execGrant (len : Nat) (s : State) : Res :=
  .next <| s.barkRun 8 len (fun s =>
    let obj := s.input len
    if s.owner ≠ 1 then s.barkEnd 3 0
    else s.needEntropy (fun s =>
      let (r, d, s1) := s.objVerify 4 34 true obj (some s.ownerHash) none
      let s2 := s1.newNonce
      let rights := rd obj 72 8
      let first := rd obj 80 8 % 2 ^ 48
      let last := rd obj 88 8 % 2 ^ 48
      if r ≠ 0 then s2.barkEnd r d
      else if 4 ≤ rights then s2.barkEnd 2 0
      else if s.f BARK_POLICY_GRANTS_ALLOWED = 0 then s2.barkEnd 11 3
      else if rd obj 96 2 ≠ s.engineEpoch then s2.barkEnd 11 4
      else if ringBefore last s.now then s2.barkEnd 11 5
      else
        let g : Grant := ⟨rd obj 64 8, rights.testBit 0, rights.testBit 1, first, last, ! ringBefore s.now first⟩
        (((s2.endGrant false).measure 8 (sha384 obj)).setBark (fun b => { b with grant := some g })).barkEnd 0 0))

/-- GRANT_START: the grant becomes active at its FIRST_RING (R352). -/
def execGrantStart (s : State) : Res :=
  .next <|
    match s.bark.grant with
    | some g => if g.on = false ∧ ringBefore s.now g.first = false then s.setBark (fun b => { b with grant := some { g with on := true } }) else s
    | none => s

/-- GRANT_EXPIRY: LAST_RING is past (R352). -/
def execGrantExpiry (s : State) : Res :=
  .next <|
    match s.bark.grant with
    | some g => if ringBefore g.last s.now then s.endGrant true else s
    | none => s

/-- REVOKE (Table 12.13). -/
def execRevoke (len : Nat) (s : State) : Res := .next (s.envRun 9 len State.always (fun s _ => (s.endGrant true).barkEnd 0 0))

/-! ## Keys (R362, R363) -/

/-- The plaintext of the key record: whether SMK is there, the mask of labels, the keys, absent ones zero (R363; DESIGN CHOICE, log 48). -/
def keyText (smk : Option (List Byte)) (labels : SMap (List Byte)) : List Byte :=
  leBytes 1 (bit smk.isSome) ++ leBytes 2 ((labels.map (fun p => 2 ^ p.1)).foldl (· + ·) 0) ++ padTo 32 (smk.getD [])
    ++ (List.range 16).flatMap (fun l => padTo 32 (sget [] labels l))

/-- The key record is rewritten, wrapped under the record wrapping key with an IV from the DRBG (R363; log 48). -/
def State.keysChanged (s : State) : State :=
  let (iv, s1) := s.random 12
  let b := s1.bark
  let (ct, tag) := gcmSeal (recordKey (b.ds.getD [])) (padTo 12 (iv.take 12)) [] (keyText b.smk b.labels)
  { s1 with flash := { s1.flash with keyRecord := some (padTo 12 (iv.take 12) ++ ct ++ tag) }, bark := { b with keyRecOk := true } }

/-- KEY_LOAD: SMK on the -S line alone, or a label key (R362, R363). -/
def execKeyLoad (len : Nat) (s : State) : Res :=
  .next <| s.envRun 10 len State.noJob (fun s p =>
    let kind := rd p 0 1
    let label := rd p 1 1
    let key := cut p 2 32
    if p.length ≠ 34 ∨ 2 ≤ kind ∨ 16 ≤ label then s.barkEnd 2 0
    else if kind = 0 then
      if s.cert.line = 1 then s.barkEnd 9 0 else ((s.setBark (fun b => { b with smk := some key })).keysChanged).barkEnd 0 0
    else ((s.setBark (fun b => { b with labels := sset [] b.labels label key })).keysChanged).barkEnd 0 0)

/-- SMK_GENERATE: a new store master key (R363). -/
def execSmkGenerate (len : Nat) (s : State) : Res :=
  .next <| s.envRun 11 len State.noJob (fun s _ => s.needEntropy (fun s =>
    let (k, s1) := s.random 32
    ((s1.setBark (fun b => { b with smk := some k })).keysChanged).barkEnd 0 0))

/-- SMK_EXPORT: an envelope holding SMK, on the -S line alone (R362); with no SMK, STATE. -/
def execSmkExport (len : Nat) (s : State) : Res :=
  .next <| s.envRun 12 len (fun s => if s.cert.line = 1 then 9 else 0) (fun s _ =>
    match s.bark.smk with
    | some k => s.barkReply k
    | none => s.barkEnd 3 0)

/-! ## The tree and the counters (R349, R367) -/

/-- TREE_RESET: TREE_ID advances and the tree starts all zero (R367); with TREE_ID at its limit, STATE (R385). -/
def execTreeReset (len : Nat) (s : State) : Res :=
  .next <| s.envRun 13 len State.noJob (fun s _ =>
    if s.anyLimit [0x1BF] then s.barkEnd 3 0
    else ({ s.hwWait 0x1BF (s.hwNext 0x1BF + 1) with tree := ⟨true, zeroNode, [], []⟩ } : State).barkEnd 0 0)

/-- ROOT_LOAD: the stored top node is accepted where the hash matches, else SECURITY/ROOT_MISMATCH (R367). -/
def execRootLoad (len : Nat) (top : List Byte) (s : State) : Res :=
  .next <| s.envRun 14 len State.noJob (fun s p =>
    let node := (List.range 8).map (fun k => rd top (8 * k) 8)
    if p.length ≠ 48 then s.barkEnd 2 0
    else if top.length = 64 ∧ s.rootOf node = p then ({ s with tree := ⟨true, node, [], []⟩ } : State).barkEnd 0 0
    else (s.security 9 0 false).barkEnd 11 6)

/-- ROLLBACK_ADVANCE: raises one of counters 4 to 7 (R349). -/
def execRollbackAdvance (len : Nat) (s : State) : Res :=
  .next <| s.envRun 15 len State.always (fun s p =>
    let n := rd p 0 1
    let v := rd p 1 8
    if p.length ≠ 9 ∨ n < 4 ∨ 7 < n ∨ v ≤ s.hwNext (0x1B0 + n) then s.barkEnd 2 0
    else if s.anyLimit [0x1B0 + n] then (s.inc (HW_CNT_COUNT 4) 1).barkEnd 3 0
    else (s.advanceCounter n v).barkEnd 0 0)

/-- The 1,024 bytes of a plane. -/
def State.planeBytes (s : State) (x y plane : Nat) : List Byte :=
  (if plane = 1 then (s.cell x y).shadow else (s.cell x y).active).region 0 1024

/-- PLANE_READ: one cell's plane, under a PLANE_READ grant; an OFF die is woken first (R353, R393). -/
def execPlaneRead (len : Nat) (s : State) : Res :=
  .next <| s.envRun 16 len (fun s => if s.grantNow.any (·.planeRead) then 0 else 3) (fun s p =>
    let x := rd p 0 2
    let y := rd p 2 2
    let plane := rd p 4 1
    if p.length ≠ 5 ∨ 2 ≤ plane ∨ s.inGrid x y = false then s.barkEnd 2 0
    else
      match s.domain (s.dieOf x y) with
      | .on => s.barkReply (s.planeBytes x y plane)
      | .unavailable => s.barkEnd 11 7
      | .waking => s.setBark (fun b => { b with stalled := some (x, y, plane) })
      | .off => (s.setDomain (s.dieOf x y) .waking).setBark (fun b => { b with stalled := some (x, y, plane) }))

/-! ## Sealing, counters, health -/

/-- SEAL: the RWS fields are sealed until the next ENGINE reset (R354). -/
def execSeal (s : State) : Res := .next (s.setBark (fun b => { b with sealed := true }))

/-- BARK_CLR_COUNTERS: clears every BARK_CNT (R373). -/
def execBarkClrCounters (s : State) : Res := .next (s.clearArr BARK_CNT_COUNT 12)

/-- PUF_HEALTH_CHECK: PUF_MARGIN where the projected error rate at the next boot is above 15 %, or the helper record is damaged, which
fails the next boot (R337, R340). -/
def execPufHealthCheck (percent : Nat) (helperOk : Bool) (s : State) : Res :=
  .next <|
    let (p, s1) := s.fireRoot none 41 (fun _ => true)
    let pc := if p.isSome then 16 else percent
    let s2 : State := { s1 with flash := { s1.flash with helperOk := s1.flash.helperOk && helperOk } }
    if 15 < pc ∨ s2.flash.helperOk = false then (s2.flag BARK_STATUS_PUF_MARGIN_LOW).security 5 0 p.isSome else s2

/-- ENTROPY_HEALTH_FAIL: no key and no nonce until the source recovers at the next reseed (R339). -/
def execEntropyHealthFail (s : State) : Res := .next (s.setBark (fun b => { b with entropyOk := false }))

/-! ## Domain wake -/

/-- DOMAIN_WAKE_DONE: a woken die is ON; its memories hold lost bytes until written (R392, R393). A stalled PLANE_READ proceeds. -/
def execDomainWakeDone (die : Nat) (s : State) : Res :=
  .next <|
    if s.domain die ≠ .waking then s
    else
      let (p, s1) := s.fireRoot (some die) 39 (fun _ => true)
      if p.isSome then s1.wakeFails die true
      else
        let (n, s1) := s1.draw
        let s2 := ((((s1.loseDie die).setPower (fun p => { p with lostDies := sset 0 p.lostDies die (n + 1) })).setDomain die .on).incSat
          (PWR_DIE_WAKES die) 1).inc (PWR_CNT_COUNT 2) 1
        match s2.bark.stalled with
        | some (x, y, pl) =>
          if s2.dieOf x y = die then
            let s3 := s2.setBark (fun b => { b with stalled := none })
            if s3.grantNow.any (·.planeRead) then s3.barkReply (s3.planeBytes x y pl) else s3.barkEnd 3 0
          else s2
        | none => s2

end Sys2Proof.Machine
end

