-- ==== Sys2Proof/Machine/HeartwoodExec.lean ====
section
/-!
DEFINITION. Commands of heartwood (R375 to R387): a write ends, refreshes, host writes, lifetime counters.
-/
namespace Sys2Proof.Machine

/-- The first logical row of a band whose physical row differs between two states. -/
def firstMoved (a b : State) (n : Nat) : Option Nat := (List.range 128).find? (fun r => a.physRow n r != b.physRow n r)

/-- A cell whose scratchpad holds nothing defined any more. -/
def Cell.forget (c : Cell) (k : Nat) : Cell := { c with mem := { MemUnit.empty with wins := c.mem.wins, lost := some k } }

/-- A band's new entry has become persistent (R424, R426): failed physical cells stay failed, so the logical cells that are dead are those
that now lie on them. In recovery COPY keeps the contents of every live moved cell and the dead cell's are lost; otherwise every moved
cell's are lost, and the next job's zeroing covers them (log 36). -/
def State.bandMoved (old s : State) (n : Nat) : State :=
  match firstMoved old s n with
  | none => s
  | some r0 =>
    let (k, s1) := s.draw
    let copying := decide (s.ras.recov.stage = .shift) && s.ras.recov.bands.contains n
    let here (key : Nat) : Bool := decide (s.bandNo (keyXY key).1 (keyXY key).2 = n)
    let dead := s.cells.filterMap (fun p => if here p.1 && p.2.dead then
      some ((keyXY p.1).1, (keyXY p.1).2, old.physRow n ((keyXY p.1).2 % 128)) else none)
    let cells := smap Cell.init (fun key c =>
      if ! here key then c
      else
        let c1 := { c with dead := false }
        if copying then (if c.dead then c1.forget k else c1)
        else if r0 ≤ (keyXY key).2 % 128 then c1.forget k else c1) s1.cells
    let s2 := (({ s1 with cells := cells } : State).setF BURL_STATUS_LAST_BAND n).setF BURL_STATUS_LAST_RING_LO (s.now % 2 ^ 32)
    dead.foldl (fun s d =>
      match (List.range 128).find? (fun r => s.physRow n r == d.2.2) with
      | some r =>
        let y := d.2.1 / 128 * 128 + r
        s.setCell d.1 y { s.cell d.1 y with dead := true }
      | none => s) s2

/-! ## Band shifts (R189, R424 to R430) -/

/-- Changes the recovery unit. -/
def State.setRecov (s : State) (f : Recovery → Recovery) : State := { s with ras := { s.ras with recov := f s.ras.recov } }

/-- A band becomes UNUSABLE: grafts that use it are refused from now on (R425). -/
def State.markUnusable (s : State) (n : Nat) : State :=
  let mark (g : Graft) : Graft := { g with unusable := g.unusable || s.bandInGraft g n }
  s.setGraft (fun q => { q with active := q.active.map mark, shadow := q.shadow.map mark })

/-- Retires every row that waits, one entry write a band: the bands with no spare row left, and whether heartwood refused a write
(R385, R426, R430). -/
def State.shiftAll (s : State) : State × List Nat × Bool :=
  let waiting := s.ras.recov.pendingShifts
  let bands := (waiting.map (·.1)).eraseDups
  bands.foldl (fun (p : State × List Nat × Bool) n =>
    let (s1, ok, written) := p.1.retireRows n ((waiting.filter (fun w => w.1 == n)).map (·.2))
    (if ok then s1 else s1.markUnusable n, if ok then p.2.1 else p.2.1 ++ [n], p.2.2 || ! written))
    (s.setRecov (fun r => { r with pendingShifts := [] }), [], false)

/-- Band entries under way become persistent at once, and their bands move: the map changes between steps alone (R189; log 33). -/
def State.settleBands (s : State) : State :=
  ((s.hw.busy ++ s.hw.engineQ).filter (fun w => decide (0x0D0 ≤ w.reg) && decide (w.reg ≤ 0x1A7))).foldl (fun s w =>
    let s1 := s.hwWait w.reg w.value
    let n := 2 * (w.reg - 0x0D0)
    s.bandMoved (s.bandMoved s1 n) (n + 1)) s

/-- The bands that wait are shifted; one with no spare row left raises CELL_DEAD/NO_SPARE (R189, R426, R430). -/
def State.shiftBands (s : State) : State :=
  if s.ras.recov.pendingShifts = [] then s
  else
    let (s0, none_, _) := s.shiftAll
    none_.foldl (fun s n =>
      let (x0, _, y0, _) := s.dieRect (n / 9)
      s.raise ⟨.cellDead, 0x101⟩ (.cell (x0 + 16 * (n % 9)) y0) (s.deadDetail n none) false .during false) s0.settleBands

/-! ## Commands -/

/-- HEARTWOOD_WRITE: the write in progress on a register ends; `first` and `second` are the words its tries read back, none where it
is what was written (R376). DET 42 writes a
record and changes nothing (R423). Bands whose entry changed are remapped, and
waiting writes start (R377, R424). -/
def execHeartwoodWrite (reg : Nat) (first second : Option Nat) (s : State) : Res :=
  .next <|
    match s.hw.busy.find? (fun w => w.reg == reg) with
    | none => s
    | some w =>
      let (p, s1) := s.fireRoot none 42 (fun p => decide (1 ≤ p) && decide (p ≤ 7))
      let s2 := match p with
        | some c => s1.hwFault reg c true
        | none => s1
      let s3 : State := { s2 with hw := { s2.hw with busy := s2.hw.busy.erase w } }
      let s4 := s3.hwPersist reg w.value w.refresh first second
      let s5 := if 0x0D0 ≤ reg ∧ reg ≤ 0x1A7 then
          (s3.bandMoved s4 (2 * (reg - 0x0D0))) |> fun s => s3.bandMoved s (2 * (reg - 0x0D0) + 1)
        else s4
      { s5 with hw := s5.hw.start }

/-- HEARTWOOD_REFRESH: a register whose newest slot is 4,320 powered hours old is written again, on a general lane that no other write
needs, unless a write of it is under way, it is at its limit, or its index is reserved (R383). -/
def execHeartwoodRefresh (reg : Nat) (s : State) : Res :=
  .next <|
    let h := s.hwReg reg
    let free := s.hw.hostQ.isEmpty && s.hw.engineQ.isEmpty && decide ((s.hw.busy.filter (fun w => w.lane == .general)).length < 6)
    match h.newest with
    | none => s
    | some b =>
      if hwAssigned reg = true ∧ h.atLimit = false ∧ free = true ∧ s.hw.closed = false ∧ s.hw.busy.any (fun w => w.reg == reg) = false ∧
          b.hours + 4320 ≤ s.poweredHours then
        { s with hw := { s.hw with busy := s.hw.busy ++ [⟨reg, b.value, .general, true, false⟩] } }
      else s

/-- A host write of an RWH field starts, or waits for a lane (R377). -/
def State.hostWrite (s : State) (reg value : Nat) : State :=
  { s with hw := ({ s.hw with hostQ := s.hw.hostQ ++ [⟨reg, value, .host, false, false⟩] } : Heartwood).start }

/-- RWH_WRITE: HW_GP while OWNED, and ID_HOST_CTRL.CLK_MODE; at the limit or outside OWNED the write is ignored and counted (R315, R377,
R379, R385, R387). Any other address has no RWH field. -/
def execRwhWrite (addr : Nat) (w : Word64) (s : State) : Res :=
  .next <|
    if addr = 0x10 then
      if (s.hwReg 0x1C2).atLimit then s.inc (HW_CNT_COUNT 4) 1 else s.hostWrite 0x1C2 (ID_HOST_CTRL_CLK_MODE.of w)
    else if 0xD6000 ≤ addr ∧ addr < 0xD6800 ∧ addr % 8 = 0 then
      let r := 0x200 + (addr - 0xD6000) / 8
      if s.owner ≠ 1 then s.incLo (HW_CNT_COUNT 5) 1
      else if (s.hwReg r).atLimit then (s.inc (HW_CNT_COUNT 4) 1).incLo (HW_CNT_COUNT 5) 1
      else s.hostWrite r w.toNat
    else s

/-- HW_CLR_COUNTERS: clears every HW_CNT (R387). -/
def execHwClrCounters (s : State) : Res := .next (s.clearArr HW_CNT_COUNT 6)

/-- LIFE_COUNTER_UPDATE: every 24 powered hours LIFE[0] and LIFE[2] are written (R384). -/
def execLifeCounterUpdate (s : State) : Res := .next ({ s with hw := { s.hw with hours := 24 } } : State).lifeTimes

end Sys2Proof.Machine
end

