-- ==== Sys2Proof/Machine/FirmwareExec.lean ====
section
/-!
DEFINITION. Firmware commands of Bark's mailbox, the Trunk hand-over and the boot of a limb die (R456 to R459).
-/
namespace Sys2Proof.Machine

/-- Changes the boot unit. -/
def State.setBoot (s : State) (f : Boot → Boot) : State := { s with boot := f s.boot }

/-- FW_WRITE: bytes into the recovery buffer (R456, Table 16.6). -/
def execFwWrite (len : Nat) (s : State) : Res :=
  .next <| s.envRun 17 len State.always (fun s p =>
    let off := rd p 0 4
    let data := p.drop 8
    if p.length < 8 ∨ 16000 < data.length ∨ 16 * 2 ^ 20 < off + data.length then s.barkEnd 2 0
    else (s.setBoot (fun b => { b with buffer := b.buffer.writeBytes off data })).barkEnd 0 0)

/-- FW_COMMIT: verifies the buffer as an image of a kind and writes its bank, or leaves flash unchanged (R448, R450, R456). -/
def execFwCommit (len : Nat) (s : State) : Res :=
  .next <| s.envRun 18 len State.always (fun s p =>
    let kind := rd p 0 1
    if p.length ≠ 5 ∨ kind = 0 ∨ 4 ≤ kind ∨ (bufferImage s.boot.buffer).length ≠ rd p 1 4 then s.barkEnd 2 0
    else
      match s.commitBuffer kind with
      | (.ok _, s1) => s1.barkEnd 0 0
      | (.bad, s1) => s1.barkEnd 2 0
      | (.signature w, s1) => s1.barkEnd 4 w
      | (.rollback, s1) => s1.barkEnd 6 0)

/-- The image that R450 selects of a kind: its bank and the image. -/
def State.selected (s : State) (kind : Nat) : Option (Bool × FwImage) :=
  match s.flash.order kind with
  | (b, k) :: _ => (imageOf k.image).map (fun i => (b, i))
  | [] => none

/-- The bytes of the image that R450 selects of a kind; none with no bank to try. -/
def State.selectedRaw (s : State) (kind : Nat) : List Byte := ((s.flash.order kind).head?.map (fun p => p.2.image)).getD []

/-- Notes which bank of a kind runs (R450). -/
def Boot.ran (b : Boot) (kind : Nat) (bankB : Bool) : Boot :=
  { b with bootedB := if bankB then (if b.bootedB.contains kind then b.bootedB else b.bootedB ++ [kind]) else b.bootedB.filter (· != kind) }

/-- The precondition of FW_ACTIVATE (Table 16.6). -/
def State.mayActivate (s : State) : Nat := if s.jobPresent || s.loading then 3 else 0

/-- FW_ACTIVATE: re-verifies the selected image; Trunk hands over at the next ring edge, Limb boots on the named dies (R456 to R458). -/
def execFwActivate (len : Nat) (s : State) : Res :=
  .next <| s.envRun 19 len State.mayActivate (fun s p =>
    let kind := rd p 0 1
    let dom := rd p 1 1
    if p.length ≠ 2 ∨ (kind ≠ 2 ∧ kind ≠ 3) ∨ (kind = 3 ∧ 12 ≤ dom ∧ dom ≠ 0xFF) then s.barkEnd 2 0
    else
      let (force, inj, s1) := s.sigForce
      let r := s1.fwVerify kind (s1.selectedRaw kind) force
      let s2 := s1.fwRecord kind inj r
      match r with
      | .bad => s2.barkEnd 2 0
      | .signature w => s2.barkEnd 4 w
      | .rollback => s2.barkEnd 6 0
      | .ok _ =>
        let s3 := s2.setBoot (fun b => { b with activateAt := some s.now })
        (if kind = 2 then s3.setBoot (fun b => { b with handover := true })
         else s3.setBoot (fun b => { b with limbBoots := if dom = 0xFF then List.range 12 else [dom] })).barkEnd 0 0)

/-- Whether a job was admitted in the ring of the last FW_ACTIVATE: the admission wins (R459). -/
def State.admissionWon (s : State) : Bool :=
  (s.job.queue ++ s.job.cur.toList).any (fun j => s.boot.activateAt == some j.fetchRing)

/-- TRUNK_HANDOVER: the old Trunk hands over to the new one: a HOSTPORT reset, M2 extended, counter 1 advanced (R457). -/
def execTrunkHandover (s : State) : Res :=
  .next <|
    if s.boot.handover = false then s
    else if s.admissionWon then (s.setBoot (fun b => { b with handover := false })).barkEnd 3 0
    else
      match s.selected 2 with
      | none => s.setBoot (fun b => { b with handover := false })
      | some (bk, i) =>
        let s1 := s.setBoot (fun b => { (b.ran 2 bk) with handover := false, trunkImg := some i })
        ((s1.measure 2 i.digest).advanceCounter 1 i.svn).hostReset false

/-- The least SVN among the images of the limb dies, when every one runs one. -/
def Boot.limbSvn (b : Boot) : Option Nat :=
  (List.range 12).foldl (fun m k => match m, sget none b.limbs k with
    | some v, some i => some (min v i.svn)
    | _, _ => none) (some (2 ^ 64))

/-- LIMB_DIE_BOOT: the next limb die that FW_ACTIVATE named has a DIE reset and boots the new image; its enabled ports start at DETECT,
M3 is extended, and counter 2 advances to the least SVN that the limb dies run (R453, R458). -/
def execLimbDieBoot (limb : Nat) (s : State) : Res :=
  .next <|
    match s.boot.limbBoots with
    | [] => s
    | k :: rest =>
      if k ≠ limb then s
      else if s.admissionWon then (s.setBoot (fun b => { b with limbBoots := [] })).barkEnd 3 0
      else
        match s.selected 3 with
        | none => s.setBoot (fun b => { b with limbBoots := rest })
        | some (bk, i) =>
          let s1 := (s.limbReset k false).setBoot (fun b =>
            { (b.ran 3 bk) with limbBoots := rest, limbs := sset none b.limbs k (some i) })
          let s2 := (portsOfLimb k).foldl (fun s p =>
            if s.portEnabled p && decide (s.f (EDGE_PORT_CTRL_ADMIN_EN p) = 1) then
              (s.port p).halves.foldl (fun s h => (s.linkTo p h .detect).detect p h) s
            else s) (s1.measure 3 i.digest)
          s2.advanceCounter 2 (s2.boot.limbSvn.getD 0)

end Sys2Proof.Machine
end

