-- ==== Sys2Proof/Machine/Boot.lean ====
section
/-!
DEFINITION. The boot (R447 to R454): what each stage of Table 16.2 does when it completes, boot failures, and READY.
-/
namespace Sys2Proof.Machine

/-- The next stage begins. -/
def State.toStage (s : State) (n : Nat) : State := s.setBoot (fun b => { b with stage := n })

/-- Boot stops for good at its stage (Table 16.5). -/
def State.stopBoot (s : State) : State := s.setBoot (fun b => { b with stopped := true })

/-- The engine enters a recovery mode: FAULT_N asserts (R454). -/
def State.toRecovery (s : State) (m : RecMode) : State := (s.setBoot (fun b => { b with recovery := m })).faultN

/-- A fault found before Trunk runs, kept until it does (R64, R454). -/
def State.keepFault (s : State) (cls code detail : Nat) : State :=
  s.setBoot (fun b => { b with faults := b.faults ++ [(cls, code, detail)] })

/-! ## Images (R448, R450) -/

/-- The record of a bank that failed: its code, and DETAIL with bit 16 set when the other bank boots (R454; log 39). -/
def State.bankFailed (s : State) (kind : Nat) (v : FwVerdict) (fellBack : Bool) : State :=
  let s1 := s.objectCount false
  match v with
  | .rollback => s1.fwFault 2 (0x80 + kind + 2 ^ 16 * bit fellBack) false
  | .signature w => s1.fwFault 1 (sigDetail (0x80 + kind) w + 2 ^ 16 * bit fellBack) false
  | .bad => s1.fwFault 1 (0x80 + kind + 2 ^ 16 * bit fellBack) false
  | .ok _ => s1

/-- Tries the banks of a kind in the order of R450: the image that boots, with its bank; failed banks are recorded (R448). -/
def State.tryBanks (s : State) (kind : Nat) : Option (Bool × FwImage) × State :=
  match s.flash.order kind with
  | [] => (none, s)
  | (b1, k1) :: rest =>
    match s.fwVerify kind k1.image 0 with
    | .ok i => (some (b1, i), s.objectCount true)
    | v1 =>
      match rest with
      | [] => (none, s.bankFailed kind v1 false)
      | (b2, k2) :: _ =>
        match s.fwVerify kind k2.image 0 with
        | .ok i => (some (b2, i), (s.bankFailed kind v1 true).objectCount true)
        | v2 => (none, (s.bankFailed kind v1 false).bankFailed kind v2 false)

/-- An image runs: its bank is noted and its measurement extended (R448). -/
def State.runImage (s : State) (kind : Nat) (p : Bool × FwImage) : State :=
  (s.setBoot (fun b => b.ran kind p.1)).measure kind p.2.digest

/-! ## Stages -/

/-- Stage 0: the hard-wired reader loads OSC_TRIM and counter 0 (R64, R382). While RESET_N is low the engine stays in it (R446). -/
def State.bootStandby (s : State) (o : BootObs) : State :=
  if o.resetLow then s else
  let trim := (s.hwReg 0x008).newest.isSome
  let s1 := s.setClk (fun k => { k with trimValid := trim })
  let s2 := if trim then s1 else s1.keepFault 0x11 4 0x008
  (if (s.hwReg 0x1B0).newest.isSome then s2 else s2.keepFault 0x11 6 0x1B0).toStage 1

/-- Stage 1: ROM verifies a Seed bank (R448); when both fail, ROM recovery mode. -/
def State.bootSeed (s : State) : State :=
  match s.tryBanks 1 with
  | (some p, s1) =>
    (((s1.runImage 1 p).setBoot (fun b => { b with seed := some p.2 })).setClk (fun k => { k with seedVerified := true })).toStage 2
  | (none, s1) => s1.toRecovery .rom

/-- Bit errors that the fuzzy extractor corrects: 25 % of the array's 131,072 bits (R337). -/
def pufLimit : Nat := 16 * 1024 * 8 / 4

/-- Stage 3: the device secret is reconstructed; BARK_CNT 11 shows the bits corrected (R337). -/
def State.bootPuf (s : State) (o : BootObs) : State :=
  if o.pufBits ≤ pufLimit ∧ s.flash.helperOk = true then
    (({ s with bark := { s.bark with ds := some Config.deviceSecret } } : State).setF (BARK_CNT_COUNT 11) o.pufBits).toStage 4
  else (s.security 4 0 false).stopBoot

/-- Stage 4: the other registers are read; each without a valid slot, and each invalid VF table, is a fault (R375, R381, R382). M0 and M5
are taken (R348). -/
def State.bootHeartwood (s : State) : State :=
  let bad := (List.range 1024).filter (fun r => hwAssigned r && r != 0x008 && r != 0x1B0 && (s.hwReg r).newest.isNone)
  let s1 := bad.foldl (fun s r => s.keepFault 0x11 6 r) s
  let s2 := ((List.range 48).filter (fun d => ! s.vfValid d)).foldl (fun s d => s.keepFault 0x11 5 (0x010 + 4 * d)) s1
  let s3 : State := { s2 with bark := { s2.bark with lmsDone := decide (1024 ≤ s.lmsNext.2) } }
  ((s3.setMeas 0 (sha384 Config.romWord)).measureConfig).toStage 5

/-- The burl map's die mask of a certificate (R5). -/
def Cert.dieMask (c : Cert) : Nat :=
  (List.range 48).foldl (fun m d => if c.disRow = some (d / 8) ∨ c.disCol = some (d % 8) then m + 2 ^ d else m) 0

/-- The disabled row and column a certificate may name for its variant: none on A, row 0 or 5 on B, and also column 0 or 7 on C (R5). -/
def Cert.suits (c : Cert) : Bool :=
  let row := c.disRow = some 0 ∨ c.disRow = some 5
  match c.variant with
  | 0 => decide (c.disRow = none ∧ c.disCol = none)
  | 1 => decide (row ∧ c.disCol = none)
  | 2 => decide (row ∧ (c.disCol = some 0 ∨ c.disCol = some 7))
  | _ => false

/-- The burl map's port mask of the variant in force (R19). -/
def State.portMask (s : State) : Nat := (List.range 72).foldl (fun m p => if s.portEnabled p then m else m + 2 ^ p) 0

/-- The hash of the certificate that heartwood holds (Table 13.3). -/
def State.certHash (s : State) : List Byte := (List.range 6).flatMap (fun k => leBytes 8 (s.hwVal (0x002 + k)))

/-- Whether the masks of a certificate agree with its row and column (R5, R19) and with the burl map's disable masks (R344). -/
def State.masksAgree (s : State) (raw : List Byte) : Bool :=
  decide (rd raw 0x48 8 + s.cert.dieMask = 2 ^ 48 - 1) && decide (s.cert.dieMask = s.hwVal 0x1A8) &&
    decide (rd raw 0x50 16 + s.portMask = 2 ^ 72 - 1) && decide (s.portMask = s.hwVal 0x1A9 + 2 ^ 64 * s.hwVal 0x1AA)

/-- Stage 5: Seed checks the variant certificate: its header and body (R343, Table 12.4), its signatures under the vendor key hash (R341),
its hash, its SVN, the row and column it disables against its variant (R5), and its masks (R344). -/
def State.bootVariant (s : State) : State :=
  let raw := s.flash.cert
  let c := certOf raw
  let s1 : State := { s with cert := c }
  let w := sealFails 0 (some Config.vendorKeyHash) (signedPart raw) (blockOf raw)
  if headerOk 6 64 false raw = true ∧ rd raw 8 8 = s.hwVal 0x001 ∧ zeros (cut raw 0x44 4) = true ∧ zeros (cut raw 0x68 24) = true ∧
      c.line < 2 ∧ c.suits = true ∧ c.hash = s.certHash ∧ s.rollback 3 ≤ c.svn ∧ s1.masksAgree raw = true ∧ w = 0 then
    ((s1.objectCount true).setMeas 4 c.hash).toStage 6
  else
    let s2 := if w = 0 then s else s.security 1 (sigDetail 6 w) false
    ((s2.objectCount false).security 3 0 false).stopBoot

/-- Stage 6: Seed verifies a Trunk bank and runs it; when both fail, or RECOVERY_ENTER was latched, Seed recovery mode (R335, R448,
R454). -/
def State.bootTrunk (s : State) : State :=
  if s.boot.latched then s.toRecovery .seed
  else
    match s.tryBanks 2 with
    | (some p, s1) => ((s1.runImage 2 p).setBoot (fun b => { b with trunkImg := some p.2 })).toStage 7
    | (none, s1) => s1.toRecovery .seed

/-- One fault that waited for Trunk is recorded (R454). -/
def State.lateFault (s : State) (f : Nat × Nat × Nat) : State :=
  if f.1 = 0x10 then s.security f.2.1 f.2.2 false else s.hwFault f.2.2 f.2.1 false

/-- What an unwrapped key record holds: SMK and the label keys (R363; DESIGN CHOICE, log 48). -/
def keysOf (p : List Byte) : Option (List Byte) × SMap (List Byte) :=
  (if rd p 0 1 = 1 then some (cut p 3 32) else none,
   (List.range 16).filterMap (fun l => if (rd p 1 2).testBit l then some (l, cut p (35 + 32 * l) 32) else none))

/-- The key record unwraps under the record wrapping key, or KEY_RECORD is raised and the engine has no store keys; an erased record holds
none (R351, R363; log 39). -/
def State.unwrapKeys (s : State) : State :=
  match s.flash.keyRecord with
  | none => s
  | some r =>
    match gcmOpen (recordKey (s.bark.ds.getD [])) (r.take 12) [] (cut r 12 547) (r.drop 559) with
    | some p => { s with bark := { s.bark with smk := (keysOf p).1, labels := (keysOf p).2, keyRecOk := true } }
    | none => s.security 0xF 0 false

/-- Stage 7: Trunk runs: the ENGINE epoch is written (boot stops when it cannot be), keys unwrapped, the nonce drawn, faults that waited
recorded (R283, R346, R363, R385, R454). -/
def State.bootEpoch (s : State) : State :=
  if (s.hwReg 0x1C1).atLimit then (s.inc (HW_CNT_COUNT 4) 1).stopBoot
  else
    let s1 := (s.hwWait 0x1C1 ((s.engineEpoch + 1) % 65536)).setBoot (fun b => { b with trunk := true, faults := [] })
    let s2 := s.boot.faults.foldl State.lateFault s1
    let (n, s3) := s2.unwrapKeys.random 32
    ({ s3 with bark := { s3.bark with nonce := n } } : State).toStage 8

/-- Stage 8: the main stage starts when its conditions hold; until then the boot waits (R451). -/
def State.bootMains (s : State) : State :=
  if s.modl.inputOk = true ∧ 2000 ≤ s.modl.flow ∧ s.modl.inlet ≤ 4500 ∧ s.modl.hold = false then
    ({ s with modl := { s.modl with mains := true, pwrGood := true } } : State).toStage 9
  else s

/-- Stage 10: enabled compute dies power up; one whose CPLL does not lock is UNAVAILABLE (R451). -/
def State.bootDies (s : State) (o : BootObs) : State :=
  (s.dies.foldl (fun s d => s.setDomain d (if o.dead.contains d then .unavailable else .on)) s).toStage 11

/-- A band's entry as it will be once its writes persist says UNUSABLE. -/
def State.bandDoomed (s : State) (n : Nat) : Bool :=
  (s.hwNext (0x0D0 + n / 2) / 2 ^ (32 * (n % 2))).testBit 31 || s.bandUnusable n

/-- A recorded spare row that the SKIP fields also decode is cleared (R464). -/
def State.tidySpare (s : State) (n : Nat) : State :=
  let m := s.spareMask n
  let rows := entryRows (s.bandEntry n)
  let keep := ((List.range 4).filter (fun j => m.testBit j && ! rows.contains (128 + j))).foldl (fun a j => a + 2 ^ j) 0
  if m = keep then s else s.writeSpare n keep false

/-- Rows of a band in which self-test found a failed cell, not retired yet. -/
def State.failedRows (s : State) (n : Nat) (failed : List (Nat × Nat)) : List Nat :=
  let d := n / 9
  let gone := entryRows (s.bandEntry n) ++ spareRows (s.bandEntry n) (s.spareMask n)
  ((failed.filter (fun p => decide (p.1 / 144 = d % 8) && decide (p.2 / 132 = d / 8) && decide (p.1 % 144 / 16 = n % 9))).map
    (fun p => p.2 % 132)).filter (fun r => ! gone.contains r) |>.eraseDups

/-- Stage 12: failed rows of every band are retired; a die with every band UNUSABLE is UNAVAILABLE (R452, R464). A scrub that is still
pending begins (R350). -/
def State.bootTest (s : State) (o : BootObs) : State :=
  let s1 := ((List.range 432).filter (fun n => s.dieEnabled (n / 9))).foldl (fun s n =>
    let rows := s.failedRows n o.failed
    let s1 := s.tidySpare n
    if rows.isEmpty || s.bandUnusable n then s1 else (s1.retireRows n rows).1) s
  let s2 := s1.dies.foldl (fun s d =>
    if (List.range 9).all (fun b => s.bandDoomed (9 * d + b)) then s.setDomain d .unavailable else s) s1
  (if s2.owner = 2 then { s2 with bark := { s2.bark with scrubbing := true } } else s2).toStage 13

/-- Stage 13: once no scrub runs, every scratchpad is zeroed (R350, R447). -/
def State.bootZero (s : State) : State :=
  if s.bark.scrubbing then s
  else
    ({ s with cells := smap Cell.init (fun _ c => { c with mem := c.mem.zero (fun _ => false) }) s.cells,
              power := { s.power with lostDies := [] } } : State).toStage 14

/-- Stage 15: Trunk verifies a Limb bank and boots every limb die; when both fail, limb recovery mode, and boot goes on to stage 17
(R448, R454). -/
def State.bootLimbs (s : State) : State :=
  match s.tryBanks 3 with
  | (some p, s1) =>
    ((s1.runImage 3 p).setBoot (fun b => { b with limbs := (List.range 12).map (fun k => (k, some p.2)) })).toStage 16
  | (none, s1) => (s1.toRecovery .limb).toStage 16

/-- Stage 16: enabled ports start at DETECT, but with the limb dies held in reset (Table 9.2, R454). -/
def State.bootLinks (s : State) : State :=
  let s1 := if s.boot.recovery = .limb then s
    else (List.range 72).foldl (fun s p =>
      if s.portEnabled p && decide (s.f (EDGE_PORT_CTRL_ADMIN_EN p) = 1) then
        (s.port p).halves.foldl (fun s h => (s.linkTo p h .detect).detect p h) s
      else s) s
  s1.toStage 17

/-- Stage 17: the host port domain is powered, and its link trains at a rate and width of Table 11.1, or later (R316); while
PCIE_PERST_N is low it stays in reset (R32). In limb recovery
mode the boot stops here (R454). -/
def State.bootHost (s : State) (o : BootObs) : State :=
  let s1 := s.setHost (fun h => { h with perstLow := o.perstLow })
  let s2 := if o.perstLow = false ∧ 1 ≤ o.speed ∧ o.speed ≤ 7 ∧ [1, 2, 4, 8, 16].contains o.width = true ∧
      (s.host.clkMode = 0 ∨ s.clk.xtal = true) then
      s1.setHost (fun h => { h with up := true, speed := o.speed, width := o.width })
    else s1
  if s.boot.recovery = .limb then s2.stopBoot else s2.toStage 18

/-- BOOT_STAGE: the stage in force completes and the next begins (Table 16.2), or the boot waits, stops or enters a recovery mode (R454). -/
def execBootStage (o : BootObs) (s : State) : Res :=
  .next <|
    if s.modl.standby = false ∨ s.boot.stopped = true ∨ s.boot.recovery = .rom ∨ s.boot.recovery = .seed then s
    else
      match s.boot.stage with
      | 0 => s.bootStandby o
      | 1 => s.bootSeed
      | 2 => if s.clk.xtal then s.toStage 3 else s
      | 3 => s.bootPuf o
      | 4 => s.bootHeartwood
      | 5 => s.bootVariant
      | 6 => s.bootTrunk
      | 7 => s.bootEpoch
      | 8 => s.bootMains
      | 9 => s.toStage 10
      | 10 => s.bootDies o
      | 11 => s.toStage 12
      | 12 => s.bootTest o
      | 13 => s.bootZero
      | 14 => s.toStage 15
      | 15 => s.bootLimbs
      | 16 => s.bootLinks
      | 17 => s.bootHost o
      | _ => s

/-! ## READY (R453) -/

/-- LAST_GASP is counted into LIFE[4] or LIFE[3] and cleared (R384). -/
def State.countGasp (s : State) : State :=
  let v := s.hwNext 0x1C3
  if v = 0 then s else (s.lifeAdd (if v / 2 ^ 56 = 0x0E then 4 else 3) 1).hwWrite 0x1C3 0 false

/-- READY: stages 0 to 17 are complete and the ring is LOCKED or HOLDOVER: LIFE[1], LAST_GASP, counters 0 to 2 are written and polling may
start (R453). -/
def execReady (s : State) : Res :=
  .next <|
    if s.boot.stage ≠ 18 ∨ s.boot.stopped = true ∨ ¬ (s.ring.lock = .locked ∨ s.ring.lock = .holdover) then s
    else
      let s1 := (s.lifeAdd 1 1).countGasp
      let s2 := (s1.advanceCounter 0 ((s.boot.seed.map (·.svn)).getD 0)).advanceCounter 1 ((s.boot.trunkImg.map (·.svn)).getD 0)
      (s2.advanceCounter 2 (s.boot.limbSvn.getD 0)).toStage 31

end Sys2Proof.Machine
end

