-- ==== Sys2Proof/Machine/GateExec.lean ====
section
/-!
DEFINITION. Claim counters and the commit gate's checks and votes (R244 to R253).
-/
namespace Sys2Proof.Machine

/-- Changes a claim group at work. -/
def State.modGroup (s : State) (g : Nat) (f : GroupRun → GroupRun) : State :=
  { s with job := { s.job with groups := smod GroupRun.fresh s.job.groups g f } }

/-- A claim group at work. -/
def State.group (s : State) (g : Nat) : GroupRun := sget GroupRun.fresh s.job.groups g

/-- Whether a rank may not take a check or vote: withdrawn, or its cell under self-test (R252). -/
def State.rankOut (s : State) (g : Nat) (c : ClaimRec) (r : Nat) : Bool :=
  (s.group g).withdrawn.contains r || s.ras.selftest.withdrawn.contains (c.set.at r)

/-- The rank an assignment lands on: `r`, or the next higher rank, modulo N, that is neither out nor already assigned to the tile
(R252). -/
def State.passRank (s : State) (g : Nat) (c : ClaimRec) (used : List Nat) : Nat → Nat → Option Nat
  | 0, _ => none
  | f + 1, r =>
    let k := r % c.set.size
    if used.contains k || s.rankOut g c k then s.passRank g c used f (r + 1) else some k

/-- Joins a CLAIM_REPLY (Table 8.9). -/
def ClaimReply.words (r : ClaimReply) : List Nat :=
  [6 + r.ox * 2 ^ 4 + r.oy * 2 ^ 15,
   r.tile + 2 ^ 28 * bit r.sampled + 2 ^ 29 * bit r.check + 2 ^ 30 * bit r.vote + 2 ^ 31 * bit r.exhausted]

/-- Splits a CLAIM_REPLY (Table 8.9). -/
def claimReplyOf (w0 w1 : Nat) : ClaimReply :=
  ⟨fld w0 4 11, fld w0 15 10, fld w1 0 28, w1.testBit 28, w1.testBit 29, w1.testBit 30, w1.testBit 31⟩

/-- The counter of a group sends a CLAIM_REPLY to a cell over the S-net. The spec names no route for it: a free value (R247; log 22). -/
def State.reply (s : State) (c : ClaimRec) (p : Nat × Nat) (r : ClaimReply) : State :=
  s.sendUnits c.cx c.cy .s (sMessage s.graft.tag (Config.claimRoute (cellKey c.cx c.cy) (cellKey p.1 p.2) % 32) r.words)

/-- The owner of a tile no longer holds its operand lines: every checker has read them, or none will (R252). -/
def State.releaseLines (s : State) (g tile : Nat) (o : Nat × Nat) : State :=
  let c := s.cell o.1 o.2
  s.setCell o.1 o.2 { c with gate := c.gate.map (fun e =>
    if e.group = g ∧ e.tile = tile ∧ e.role = .owner then { e with lines := [] } else e) }

/-- A gate skip: counted, and the tile counts as clean (R252, R253). -/
def State.gateSkip (s : State) (g tile : Nat) : State :=
  let owner := (s.group g).items.findSome? (fun i => if i.tile = tile then (s.claimRec g).map (·.set.at i.owner) else none)
  let s := match owner with
    | some o => s.releaseLines g tile o
    | none => s
  (s.modGroup g (fun q => { q with items := q.items.map (fun i => if i.tile = tile then { i with st := .skipped } else i) })).inc
    (JOB_CNT_COUNT 9) 1

/-- A sampled tile is handed out: it enters the gate and its check is assigned, or it is a gate skip (R250, R252). -/
def State.sampleTile (s : State) (g : Nat) (c : ClaimRec) (rank tile : Nat) : State :=
  let n := c.set.size
  let s1 := s.inc (JOB_CNT_COUNT 6) 1
  let item (k : Option Nat) : GateItem := ⟨tile, rank, k, [], none, none, [], .checking, false⟩
  let add (s : State) (k : Option Nat) : State :=
    s.modGroup g (fun q => { q with items := q.items.filter (fun i => i.tile != tile) ++ [item k] })
  match s.passRank g c [rank] n (rank + n / 2) with
  | none => (add s1 none).gateSkip g tile
  | some k =>
    let (x, y) := c.set.at k
    let (ox, oy) := c.set.at rank
    (add s1 (some k)).reply c (x, y) ⟨ox, oy, tile, false, true, false, false⟩

/-- The rank a replayed recording hands claim v of a group to (R439). -/
def State.recordedRank (s : State) (g phase step v : Nat) : Option Nat :=
  (s.journal.replay.find? (fun r => r.kind == 6 && decide (rd r.body 0 2 = g) && decide (rd r.body 2 1 = phase) &&
    decide (rd r.body 4 4 = step) && decide (v < rd r.body 8 4))).map (fun r => rd r.body (16 + 4 * v) 4 % 2 ^ 20)

/-- The first message of an inbox when it is one of two words. -/
def Cell.pairAt (c : Cell) (k : Nat) : Option (Nat × Nat) :=
  match c.inbox .s k with
  | a :: b :: _ => some (a.data, b.data)
  | _ => none

/-- The CLAIM of a claimant leaves the counter cell's inbox where it stands at its head (R247; log 42). -/
def Cell.takeClaim (c : Cell) (x y : Nat) : Cell :=
  match c.pairAt 5 with
  | some (_, w1) => if fld w1 0 11 = x ∧ fld w1 11 10 = y then c.dropInbox .s 5 2 else c
  | none => c

/-- The phase code claims are recorded under: WORK or MAKEUP. -/
def Phase.claims (p : Phase) : Bool := decide (p = .work) || decide (p = .makeup)

/-- CLAIM: the counter at (cx, cy) answers a claim of (x, y) with its next tile, with EXHAUSTED, or with OVERFLOW/COUNTER (R246). In
Coppice mode no counter is used (R248); a rank that claims no more is not answered; under replay a claimant waits for its turn
(R439). -/
def execClaim (cx cy x y : Nat) (s : State) : Res :=
  s.withCell cx cy (fun s =>
    match s.running, s.groupAt cx cy with
    | some j, some g =>
      match s.claimRec g with
      | none => s
      | some c =>
        match c.set.rank x y with
        | none => s
        | some rank =>
          let q := s.group g
          let turn : Bool := match (if s.journal.replaying then s.recordedRank g j.phase.code j.step q.v else none) with
            | some r => r == rank
            | none => true
          if ! j.phase.claims || j.coppice s.reenacts || q.stopped.contains rank || s.rankOut g c rank || ! turn then s
          else
            let (p, s) := s.fireCell cx cy 3 (fun p => decide (p % 64 = c.counter))
            let s := s.setCell cx cy ((s.cell cx cy).takeClaim x y)
            let n := c.set.size
            let log (e : Nat) (s : State) : State := s.modGroup g (fun q => { q with v := q.v + 1, log := q.log ++ [(rank, e)] })
            if p.isSome ∨ c.tiles + n ≤ q.v then s.cellEvent cx cy p.isSome (.fault ⟨.overflow, 3⟩ 0 true)
            else if q.v < c.tiles then
              let (tr, tc) := s.tileGrid c
              let tile := tileOf c.order tr tc q.v
              let hit := tileSampled j.desc g j.step tile
              let s1 := (log (2 ^ 28 * bit hit) s).reply c (x, y) ⟨0, 0, tile, hit, false, false, false⟩
              if hit then s1.sampleTile g c rank tile else s1
            else (log (2 ^ 31) s).reply c (x, y) ⟨0, 0, 0, false, false, false, true⟩
    | _, _ => s)

/-- A cell takes a work item: it starts when the cell is idle, else it waits its turn (R252). -/
def Cell.takeWork (c : Cell) (w : TileWork) : Cell :=
  if c.comp.tile.work.isNone ∧ c.comp.queueWork = [] then { c with comp := { c.comp with tile := TileRun.fresh (some w) } }
  else { c with comp := { c.comp with queueWork := c.comp.queueWork ++ [w] } }

/-- A vote that cannot be held: the tile stays unresolved and DUP_MISMATCH/NO_MAJORITY is raised (R252). -/
def State.noMajority (s : State) (g tile ox oy : Nat) (inj : Bool) : State :=
  (s.modGroup g (fun q => { q with items := q.items.map (fun i => if i.tile = tile then { i with st := .unresolved } else i) })).raise
    ⟨.dupMismatch, 2⟩ (.cell ox oy) 0 true .during inj

/-- A sampled tile's place in a cell's gate table; a full table makes a gate skip, or leaves a vote unheld (R252, R253). -/
def State.acceptWork (s : State) (x y : Nat) (w : TileWork) (ox oy : Nat) : State :=
  let c := s.cell x y
  let put (s : State) (c : Cell) : State := s.setCell x y (c.takeWork w)
  let gated : Cell := { c with gate := c.gate ++ [⟨w.group, w.tile, w.role, none, []⟩] }
  let dropped : Bool := (s.group w.group).items.any (fun i => i.tile == w.tile && decide (i.st = .skipped))
  match w.role with
  | .owner =>
    if ! w.sampled then put s c
    else if c.gate.length < 64 then put s gated
    else put (s.gateSkip w.group w.tile) c
  | .check _ _ =>
    if dropped then s
    else if c.gate.length < 64 then put s gated
    else s.gateSkip w.group w.tile
  | .vote _ _ => if c.gate.length < 64 then put s gated else s.noMajority w.group w.tile ox oy false

/-- The claim group of a claimant: the first whose set holds it (R214, R463: a cell knows one counter; log 43). -/
def State.groupOf (s : State) (x y : Nat) : Option Nat :=
  match s.graft.active with
  | some a => a.claims.findIdx? (fun c => c.set.has x y)
  | none => none

/-- CLAIM_REPLY: the next reply at a claimant gives it a tile, a check or a vote, or tells it to claim no more in the phase (R246, R247,
R252, R253). -/
def execClaimReply (x y : Nat) (s : State) : Res :=
  s.onLive x y (fun s =>
    let c := s.cell x y
    match c.pairAt 6, s.groupOf x y with
    | some (w0, w1), some g =>
      let r := claimReplyOf w0 w1
      let s1 := s.setCell x y (c.dropInbox .s 6 2)
      if r.exhausted then
        match (s.claimRec g).bind (fun c => c.set.rank x y) with
        | some k => s1.modGroup g (fun q => { q with stopped := q.stopped ++ [k] })
        | none => s1
      else
        let role : TileRole := if r.check then .check r.ox r.oy else if r.vote then .vote r.ox r.oy else .owner
        s1.acceptWork x y ⟨g, r.tile, r.sampled || r.check || r.vote, role⟩ r.ox r.oy
    | _, _ => s)

/-- The item of a sampled tile. -/
def State.gateItem (s : State) (g tile : Nat) : Option GateItem := (s.group g).items.find? (fun i => i.tile == tile)

/-- Changes the item of a sampled tile. -/
def State.setItem (s : State) (g : Nat) (i : GateItem) : State :=
  s.modGroup g (fun q => { q with items := q.items.map (fun k => if k.tile = i.tile then i else k) })

/-- HASH_COMPARE: equal hashes make the tile clean; different ones raise SUSPECT, stop the owner's claims and call two vote checkers,
without which the vote cannot be held (R252). -/
def execHashCompare (g tile : Nat) (s : State) : Res :=
  .next <|
    match s.gateItem g tile, s.claimRec g with
    | some i, some c =>
      match i.st, i.ownerHash, i.checkHash with
      | .checking, some a, some b =>
        if a = b then (s.setItem g { i with st := .clean }).releaseLines g tile (c.set.at i.owner)
        else
          let n := c.set.size
          let (ox, oy) := c.set.at i.owner
          let s1 := ((s.modGroup g (fun q => { q with stopped := q.stopped ++ [i.owner] })).raise ⟨.dupMismatch, 1⟩ (.cell ox oy) 0
            false .during i.injected).inc (JOB_CNT_COUNT 7) 1
          let used := i.owner :: i.checker.toList
          match s1.passRank g c used n (i.owner + n / 4) with
          | none => (s1.releaseLines g tile (ox, oy)).noMajority g tile ox oy i.injected
          | some v1 =>
            match s1.passRank g c (v1 :: used) n (i.owner + 3 * n / 4) with
            | none => (s1.releaseLines g tile (ox, oy)).noMajority g tile ox oy i.injected
            | some v2 =>
              let send (s : State) (k : Nat) : State :=
                s.reply c (c.set.at k) ⟨ox, oy, tile, false, false, true, false⟩
              send (send (s1.setItem g { i with st := .suspect, votes := [v1, v2] }) v1) v2
      | _, _, _ => s
    | _, _ => s

/-- Ranks withdrawn for the rest of the job, each counted (R252). -/
def State.withdraw (s : State) (g : Nat) (rs : List Nat) : State :=
  let new := rs.filter (fun r => ! (s.group g).withdrawn.contains r)
  (s.modGroup g (fun q => { q with withdrawn := q.withdrawn ++ new })).inc (JOB_CNT_COUNT 8) new.length

/-- VOTE_RESOLVE: with both vote hashes in, the majority decides: the tile is resolved and those outvoted are withdrawn; or the owner
is CELL_DEAD; or there is no majority (R252). -/
def execVoteResolve (g tile : Nat) (s : State) : Res :=
  .next <|
    match s.gateItem g tile, s.claimRec g with
    | some i, some c =>
      match i.st, i.ownerHash, i.votes, i.voteHashes with
      | .suspect, some a, [_, _], [(r1, h1), (r2, h2)] =>
        let (ox, oy) := c.set.at i.owner
        let s := s.releaseLines g tile (ox, oy)
        if a = h1 ∨ a = h2 then
          let out := i.checker.toList ++ (if a = h1 then [] else [r1]) ++ (if a = h2 then [] else [r2])
          (s.setItem g { i with st := .resolved }).withdraw g out
        else if h1 = h2 then
          let cause := (s.ras.log.find? (fun r => decide (r.cls = .dupMismatch) && r.src == .cell ox oy)).map (·.num)
          (s.setItem g { i with st := .resolved }).declareDead ox oy 3 cause .during i.injected
        else s.noMajority g tile ox oy i.injected
      | _, _, _, _ => s
    | _, _ => s

/-! ## Steps under the gate -/

/-- DIGEST of a step: CRC-64 over the owner hashes of its sampled tiles, by claim group and tile (R437). -/
def State.digest (s : State) : Nat :=
  let byTile (l : List GateItem) : List GateItem :=
    l.foldl (fun acc i => acc.filter (fun k => decide (k.tile < i.tile)) ++ [i] ++ acc.filter (fun k => decide (i.tile ≤ k.tile))) []
  crc64 (s.job.groups.flatMap (fun p => (byTile p.2.items).flatMap (fun i => match i.ownerHash with
    | some h => leBytes 8 h
    | none => [])))

/-- Claims recorded for the journal and forgotten: one CLAIM record a group and phase (R246, R436). -/
def State.recordClaims (s : State) (phase step : Nat) : State :=
  s.job.groups.foldl (fun s p =>
    if p.2.log.isEmpty then s
    else
      (s.record 6 false (leBytes 2 p.1 ++ leBytes 1 phase ++ [0] ++ leBytes 4 step ++ leBytes 4 p.2.log.length ++ [0, 0, 0, 0]
        ++ p.2.log.flatMap (fun e => leBytes 4 (e.1 % 2 ^ 20 + e.2)))).modGroup p.1 (fun q => { q with log := [] })) s

/-- The cells whose claims share a band, in ascending y and then x (R431). -/
def State.bandClaimants (s : State) (n : Nat) : List (Nat × Nat) :=
  match s.graft.active with
  | none => []
  | some a =>
    let (x0, _, y0, _) := s.dieRect (n / 9)
    (List.range 2048).filterMap (fun k =>
      let x := x0 + 16 * (n % 9) + k % 16
      let y := y0 + k / 16
      if a.claims.any (fun c => c.set.has x y) then some (x, y) else none)

/-- One claimant a band is withdrawn for self-test, the next round-robin from step to step, unless shedding suspends
self-test (R431, Table 14.3). -/
def State.selfTestStep (s : State) (claimMode : Bool) : State :=
  if s.f RAS_CTRL_SELFTEST_EN = 0 ∨ claimMode = false ∨ 2 ≤ s.power.memShed then
    { s with ras := { s.ras with selftest := { s.ras.selftest with withdrawn := [] } } }
  else
    let r := (List.range 432).foldl (fun (p : SMap Nat × List (Nat × Nat)) n =>
      if ! s.dieEnabled (n / 9) then p
      else
        let l := s.bandClaimants n
        if l.isEmpty then p
        else
          let k := sget 0 p.1 n
          (sset 0 p.1 n (k + 1), p.2 ++ [l.getD (k % l.length) (0, 0)])) (s.ras.selftest.stepAt, [])
    { s with ras := { s.ras with selftest := { s.ras.selftest with stepAt := r.1, withdrawn := r.2 } } }

/-- In Coppice mode every claimant takes its tiles at once, in ascending v; sampled ones are checked as in claim mode (R248). -/
def State.coppiceGroup (s : State) (j : Job) (g : Nat) (c : ClaimRec) : State :=
  let (tr, tc) := s.tileGrid c
  let nx := (c.set.x1 - c.set.x0) / max 1 c.set.xs + 1
  let ny := c.set.size / nx
  (List.range c.tiles).foldl (fun s v =>
    let tile := tileOf c.order tr tc v
    let rank := tile / max 1 tc % max 1 ny * nx + tile % max 1 tc % nx
    let (x, y) := c.set.at rank
    let hit := tileSampled j.desc g j.step tile
    let s1 := if hit then s.sampleTile g c rank tile else s
    s1.acceptWork x y ⟨g, tile, hit, .owner⟩ 0 0) s

end Sys2Proof.Machine
end

