-- ==== Sys2Proof/Machine/Inject.lean ====
section
/-!
DEFINITION. Writes of the INJ registers (R353, R422, R442).
-/
namespace Sys2Proof.Machine

/-- Whether a write of the INJ block acts: a grant with INJECT is active and does not end in this ring (R353). -/
def State.mayInject (s : State) : Bool :=
  match s.grantNow with
  | some g => g.inject && decide (g.last ≠ s.now)
  | none => false

/-- The ring an injection armed now waits for: INJ_AT.RING, or the next ring edge (R422, R442). -/
def State.armRing (s : State) : Nat := if s.f INJ_AT_RING = 0 then ringAdd s.now 1 else s.f INJ_AT_RING

/-- A write that names a compute die wakes it when it is OFF (R393). -/
def State.wakeNamed (s : State) (d : Nat) : State :=
  if s.dieEnabled d = true ∧ s.domain d = .off ∧ s.modl.mains = true then s.setDomain d .waking else s

/-- What every INJ write shares: without the grant it is ignored and counted; GO on an armed register or with a DET of another register
is ignored and counted; else its fields are stored and GO arms (R353, R422). -/
def State.injWrite (s : State) (go det lo hi : Nat) (armed : Bool) (fields : List Fld) (w : Word64) (arm : State → State) : State :=
  if ! s.mayInject then s.inc (BARK_CNT_COUNT 10) 1
  else if go = 1 ∧ (armed = true ∨ det < lo ∨ hi < det) then s.incSat INJ_COUNT_IGNORED 1
  else
    let s1 := fields.foldl (fun s F => s.put F w) s
    if go = 1 then arm s1 else s1

/-- INJ_CELL: detectors 1 to 12 (R422). -/
def execInjCell (w : Word64) (s : State) : Res :=
  .next <|
    let x := INJ_CELL_X.of w
    let y := INJ_CELL_Y.of w
    s.injWrite (INJ_CELL_GO.of w) (INJ_CELL_DET.of w) 1 12 s.ras.inj.cell.isSome [INJ_CELL_DET, INJ_CELL_PARAM, INJ_CELL_X, INJ_CELL_Y] w
      (fun s =>
        let a : Armed := ⟨INJ_CELL_DET.of w, INJ_CELL_PARAM.of w, 2 ^ 10 * x + y, s.armRing⟩
        let s1 : State := { s with ras := { s.ras with inj := { s.ras.inj with cell := some a } } }
        if s.inGrid x y then s1.wakeNamed (s.dieOf x y) else s1)

/-- INJ_NET: detectors 13 to 16 (R422). -/
def execInjNet (w : Word64) (s : State) : Res :=
  .next <|
    let x := INJ_NET_X.of w
    let y := INJ_NET_Y.of w
    s.injWrite (INJ_NET_GO.of w) (INJ_NET_DET.of w) 13 16 s.ras.inj.net.isSome
      [INJ_NET_DET, INJ_NET_BITS, INJ_NET_PORT, INJ_NET_NET, INJ_NET_X, INJ_NET_Y] w
      (fun s =>
        let a : Armed := ⟨INJ_NET_DET.of w, INJ_NET_BITS.of w,
          2 ^ 34 * INJ_NET_PORT.of w + 2 ^ 32 * INJ_NET_NET.of w + 2 ^ 10 * x + y, s.armRing⟩
        let s1 : State := { s with ras := { s.ras with inj := { s.ras.inj with net := some a } } }
        if s.inGrid x y then s1.wakeNamed (s.dieOf x y) else s1)

/-- INJ_EDGE: detectors 17 to 26 (R422). -/
def execInjEdge (w : Word64) (s : State) : Res :=
  .next <|
    s.injWrite (INJ_EDGE_GO.of w) (INJ_EDGE_DET.of w) 17 26 s.ras.inj.edge.isSome
      [INJ_EDGE_DET, INJ_EDGE_PARAM, INJ_EDGE_SESSION, INJ_EDGE_HALF, INJ_EDGE_PORT] w
      (fun s =>
        let a : Armed := ⟨INJ_EDGE_DET.of w, INJ_EDGE_PARAM.of w,
          2 ^ 16 * INJ_EDGE_SESSION.of w + 128 * INJ_EDGE_HALF.of w + INJ_EDGE_PORT.of w, s.armRing⟩
        { s with ras := { s.ras with inj := { s.ras.inj with edge := some a } } })

/-- Detectors of the root die that name a compute die: PLL lock, frequency measurement, temperature, sensors, droop, rail, wake. -/
def rootDie (det : Nat) : Bool := [29, 30, 31, 32, 35, 36, 39].contains det

/-- INJ_ROOT: detectors 27 to 46 (R422). -/
def execInjRoot (w : Word64) (s : State) : Res :=
  .next <|
    s.injWrite (INJ_ROOT_GO.of w) (INJ_ROOT_DET.of w) 27 46 s.ras.inj.root.isSome [INJ_ROOT_DET, INJ_ROOT_PARAM, INJ_ROOT_DIE] w
      (fun s =>
        let d := INJ_ROOT_DIE.of w
        let a : Armed := ⟨INJ_ROOT_DET.of w, INJ_ROOT_PARAM.of w, d, s.armRing⟩
        let s1 : State := { s with ras := { s.ras with inj := { s.ras.inj with root := some a } } }
        if rootDie (INJ_ROOT_DET.of w) then s1.wakeNamed d else s1)

end Sys2Proof.Machine
end

