-- ==== Sys2Proof/Machine/JobExec.lean ====
section
/-!
DEFINITION. Commands of the job unit: the post area, admission, preparation, steps, the commit decision and the end of a job
(chapter 8), with the replay of a recorded journal (R439, R440).
-/
namespace Sys2Proof.Machine

/-! ## Admission (R240 to R242) -/

/-- A descriptor that replays a recording: steps, phase lengths, sampling, checkpoints and COMMIT come from the recorded one (R439). -/
def Desc.replayed (d r : Desc) : Desc :=
  { d with steps := r.steps, workStrides := r.workStrides, updateStrides := r.updateStrides, gateRings := r.gateRings,
           sampleExp := r.sampleExp, seed := r.seed, ckptSteps := r.ckptSteps, recover := r.recover }

/-- Check 2: the active graft, or a SHADOW graft in state LOADED, that a descriptor names; one marked unusable is refused (R240,
R425). The flag says SHADOW. -/
def State.namedGraft (s : State) (d : Desc) : Option (Graft × Bool) :=
  match s.graft.active with
  | some g => if d.names g then (if g.unusable then none else some (g, false)) else shadow
  | none => shadow
where
  /-- The SHADOW graft when it is LOADED and named. -/
  shadow : Option (Graft × Bool) :=
    match s.graft.shadow with
    | some g => if s.graft.load = .loaded ∧ d.names g = true ∧ g.unusable = false then some (g, true) else none
    | none => none

/-- The records of a journal's plain bytes: the stream ends at the first header with KIND 0, or where no whole header follows (R436,
R437). -/
def parseJournal : Nat → List Byte → List JournalRec
  | 0, _ => []
  | n + 1, bs =>
    if bs.length < 16 ∨ rd bs 0 1 = 0 then []
    else
      let len := rd bs 2 2
      ⟨rd bs 0 1, (rd bs 1 1).testBit 0, rd bs 4 6, rd bs 10 2, rd bs 12 4, cut bs 16 len⟩ :: parseJournal n (bs.drop (16 + up16 len))

/-- The recorded descriptor and S: the START record (Table 15.11). -/
def startOf (l : List JournalRec) : Option (List Byte × Nat) :=
  (l.find? (fun r => r.kind == 1)).map (fun r => (cut r.body 0 128, rd r.body 128 8 % ringMod))

/-- The records with their rings on the schedule of the START record: what follows a RECOVER record ran on the schedule of its S' (R429,
R439). The first argument is the S in force. -/
def rebase (s0 : Nat) : Nat → List JournalRec → List JournalRec
  | _, [] => []
  | cur, r :: l =>
    { r with ring := (r.ring + ringMod - cur % ringMod + s0) % ringMod } :: rebase s0 (if r.kind = 10 then rd r.body 8 8 % ringMod else cur) l

/-- The records of a recording without those of abandoned steps: a RECOVER record takes back everything from its dead step on (R439). -/
def dropAbandoned (l : List JournalRec) : List JournalRec :=
  l.foldl (fun acc r =>
    if r.kind = 10 then
      let dead := rd r.body 0 4
      let cut (q : JournalRec) : Bool := ! (q.kind == 1 || (q.kind == 9 && decide (rd q.body 0 4 + 1 = dead)))
      if acc.any (fun q => ! cut q) then ((acc.reverse).dropWhile cut).reverse else []
    else acc ++ [r]) []

/-- What a journal's bytes say to a replay: the START record's descriptor and S, and the records on its schedule without abandoned
steps (R437 to R439). -/
def recordingOf (bs : List Byte) : Option (List Byte × Nat × List JournalRec) :=
  let l := parseJournal (bs.length / 16 + 1) bs
  (startOf l).map (fun p => (p.1, p.2, dropAbandoned (rebase p.2 p.2 l)))

/-- Input bindings of a descriptor. -/
def Desc.inputs (d : Desc) : List Binding := d.bindings.filter (fun b => ! b.output)

/-- Whether a journal target is held (check 6): one for recording; a store and a replay source for REPLAY (R240, R439). -/
def State.journalTarget (s : State) (mode : Nat) : Bool :=
  let t := s.f JOURNAL_CTRL_TARGET
  if mode = 0 then true
  else if mode = 3 then decide (t = 2) && decide (s.f JOURNAL_REPLAY_LEN_CHUNKS ≠ 0)
  else decide (t = 1) || decide (t = 2)

/-- Check 1 (R237 to R240, R290, R304, R427, R439). -/
def State.badDesc (s : State) (sl : SlotRead) (d : Desc) : Bool :=
  let own := descOf sl.raw
  let store := d.bindings.filter (fun b => b.kind == 1 || b.kind == 3)
  s.gmac own.seq 1 (cut sl.raw 0 0x70) != cut sl.raw 0x70 16 || decide (own.seq ≠ s.job.m) || ! descOk sl.raw ||
  store.any (fun b => decide (s.extent < b.addr / 4096 + s.f (STREAM_LABEL_LEN_CHUNKS b.label))) ||
  (decide (d.ckptSteps ≠ 0) && (match d.binding 3, s.namedGraft d with
    | none, _ => true
    | some b, some (_, sh) => decide (s.f (STREAM_LABEL_LEN_CHUNKS b.label) < 2 * (s.ckptChunks sh + 1))
    | some _, none => false)) ||
  (own.recover && decide (own.journal ≠ 3) && ! (decide (own.journal = 2) && decide (s.f JOURNAL_CTRL_TARGET = 2) &&
    decide (d.ckptSteps ≠ 0) && (d.binding 3).isSome && decide (s.f RAS_RELOAD_VALID = 1) && d.bound (s.f RAS_RELOAD_LABEL) false)) ||
  (decide (own.journal = 3) && s.journalTarget 3 && (match recordingOf sl.source with
    | none => true
    | some r =>
      let o := descOf r.1
      decide (o.graftId ≠ own.graftId) || decide (o.epoch ≠ own.epoch) || decide (o.inputs ≠ own.inputs)))

/-- The later of two rings. -/
def ringMax (a b : Nat) : Nat := if ringBefore a b then b else a

/-- Check 3 and the schedule of a job that passes it (R240 to R242). -/
def State.schedule (s : State) (d : Desc) (g : Graft) (sh : Bool) : Option Job :=
  let z := s.zeroRings s.clk.code
  let x := g.sched.xposeRings
  let k := g.sched.stride
  let m := g.makeup
  let l := (d.workStrides + d.updateStrides) * k + m + d.gateRings
  let a2 := ringAdd s.now 2
  let p1 := match s.job.lastPlanned with
    | some e => ringMax a2 (ringAdd e 1)
    | none => a2
  let p0 := if sh then ringMax p1 (ringAdd s.now s.lead) else p1
  let st := if d.asap then ringAdd p0 (z + x) else d.start
  let p := (st + ringMod - (z + x) % ringMod) % ringMod
  if ringBefore p p0 then none
  else
    some { desc := d, fetchRing := s.now, s := st, p := p, z := z, x := x, k := k, m := m, l := l, stage := .preparing, step := 0,
           phase := .work, stepCommitted := false, blocked := false, deadDeclared := false, committed := 0, faultCount := 0,
           first := none, firstRing := p, energyStart := 0, abort := none, misses := [], building := false,
           zCode := s.clk.code, origS := 0, records := [] }

/-- A job ends REFUSED: its record waits to be written (R240). -/
def State.refuse (s : State) (seq jobId reason : Nat) : State :=
  let c : Completion := ⟨seq, jobId, 4, reason, 0, 0, 0, 0, 0, 0, 0⟩
  let s1 := ({ s with job := { s.job with outbox := s.job.outbox ++ [c] } } : State).countEnd 4
  if reason = 1 then (s1.flag JOB_STATUS_BAD_DESC).event 7 else s1

/-- The recording a slot's job replays; only a JOURNAL = 3 job reads one (R439). -/
def SlotRead.recording (sl : SlotRead) : Option (List Byte × Nat × List JournalRec) :=
  if (descOf sl.raw).journal = 3 then recordingOf sl.source else none

/-- The descriptor a slot names: for a JOURNAL = 3 job, the recorded one with the slot's own identity (R439). -/
def SlotRead.desc (sl : SlotRead) : Desc :=
  match sl.recording with
  | some r => (descOf sl.raw).replayed (descOf r.1)
  | none => descOf sl.raw

/-- Admission of a fetched slot: the job it makes, or the reason it is refused with (R240). -/
def State.judgeSlot (s : State) (sl : SlotRead) : Except Nat Job :=
  if s.badDesc sl sl.desc then .error 1
  else
    match s.namedGraft sl.desc with
    | none => .error 2
    | some (g, sh) =>
      match s.schedule sl.desc g sh with
      | none => .error 3
      | some j =>
        if ! s.journalTarget sl.desc.journal then .error 6
        else
          let r := sl.recording.getD ([], 0, [])
          .ok { j with records := r.2.2, origS := r.2.1 }

/-- A job is admitted: the first admission seals Bark (R354), and one outside RUN wakes the engine (R391). -/
def State.admitJob (s : State) (j : Job) : State :=
  let s1 : State := { s with
    job := { s.job with queue := s.job.queue ++ [j], lastPlanned := some j.plannedLast }
    bark := { s.bark with sealed := true } }
  if ! s.inRun ∧ s.f PWR_CTRL_AUTO_WAKE = 1 then s1.wakeEvent else s1

/-- One slot is fetched: the next sequence number is taken, and its job is admitted or refused (R240). -/
def State.fetchSlot (s : State) (sl : SlotRead) : State :=
  let s1 := ({ s with job := { s.job with m := s.job.m + 1 } } : State).inc (JOB_CNT_COUNT 0) 1
  match s.judgeSlot sl with
  | .error reason => s1.refuse s.job.m (descOf sl.raw).jobId reason
  | .ok j => s1.admitJob j

/-- Writes one completion record, then COMPLETED, then signals (R235). -/
def State.writeCompletion (s : State) (c : Completion) : State :=
  let base := 2 ^ 16 * s.f JOB_POST_BASE_ADDR
  let k := s.job.k
  let s1 := (s.send (.hostWrite (base + 0x9000 + 64 * (k % 256)) (c.bytes ++ s.gmac c.seq 2 c.bytes))).send
    (.hostWrite (base + 0x20) (leBytes 8 (k + 1)))
  (({ s1 with job := { s1.job with k := k + 1 } } : State).setF JOB_COMPLETED_COUNT (k + 1)).event 0

/-- Held records are written, each under the key in force (R318). -/
def State.writeHeld (s : State) : State :=
  s.job.held.foldl (fun s c => s.writeCompletion c) { s with job := { s.job with held := [] } }

/-- POST_POLL: at a poll edge held records are written, the header is read and checked, and published slots are fetched while fewer
than 16 admitted jobs wait (R234, R239, R318, R389, R453). With no header the read ended at a HOSTPORT reset: the poll is skipped. -/
def execPostPoll (h : Option PostHeader) (slots : List SlotRead) (s : State) : Res :=
  .next <|
    if s.f JOB_CTRL_ENABLE = 0 ∨ s.now % s.f JOB_CTRL_POLL_INTERVAL ≠ 0 ∨ s.boot.stage ≠ 31 ∨ s.power.state = .off then s
    else
      match h with
      | none => s.inc (ID_HOST_CNT_COUNT 1) 1
      | some h =>
        if ! s.canMaster then s
        else
          let s := s.writeHeld
          if s.power.fetchStop || s.modl.hold then s
          else if h.magic ≠ 0x54534F50 ∨ h.version ≠ 1 ∨ h.publish < s.job.m ∨ s.job.k < h.reaped then
            (s.flag JOB_STATUS_POST_ERR).event 7
          else
            let n := min h.publish (h.reaped + 256) - s.job.m
            let s1 := (slots.take n).foldl (fun s sl => if s.job.queue.length < 16 then s.fetchSlot sl else s) s
            if s1.job.m = s.job.m then s1
            else (s1.send (.hostWrite (2 ^ 16 * s.f JOB_POST_BASE_ADDR + 0x18) (leBytes 8 s1.job.m))).setF JOB_FETCHED_COUNT s1.job.m

/-- The next completion record is written, or held on the wafer while the engine may not master host memory or earlier records are
held (R235, R318). -/
def State.completeNext (s : State) : State :=
  match s.job.outbox with
  | [] => s
  | c :: rest =>
    let s1 : State := { s with job := { s.job with outbox := rest } }
    if s.canMaster ∧ s.job.held = [] then s1.writeCompletion c
    else if s.job.held.length < 256 then
      (({ s1 with job := { s1.job with held := s1.job.held ++ [c] } } : State).inc (ID_HOST_CNT_COUNT 3) 1).event 7
    else s

/-- COMPLETION_WRITE: the next completion record is written or held (R235, R318). -/
def execCompletionWrite (s : State) : Res := .next s.completeNext

/-- JOB_ENABLE_WRITE: 0 to 1 restarts the job and completion counts and clears POST_ERR; 1 to 0 discards held records (R260, R318). -/
def execJobEnableWrite (b : Bool) (s : State) : Res :=
  .next <|
    let on := s.f JOB_CTRL_ENABLE = 1
    if b = true ∧ ¬ on then
      (({ s with job := { s.job with m := 0, k := 0 } } : State).setF JOB_CTRL_ENABLE 1).setF JOB_STATUS_POST_ERR 0
    else if b = false ∧ on then
      (({ s with job := { s.job with held := [] } } : State).setF JOB_CTRL_ENABLE 0).inc (ID_HOST_CNT_COUNT 4) s.job.held.length
    else s

/-- JOB_ABORT: GO registers an abort of the named job with REASON 1 in the ring in force (R256). -/
def execJobAbort (jobId : Nat) (s : State) : Res :=
  .next ((s.setF JOB_ABORT_JOB_ID jobId).registerAbort (jobId % 2 ^ 32) 1 s.now)

/-- JOB_CLR_COUNTERS (R260). -/
def execJobClrCounters (s : State) : Res := .next (s.clearArr JOB_CNT_COUNT 12)

/-! ## Preparation (R127, R160, R241, R243, R298) -/

/-- A cell at a job's preparation edge: everything outside RESIDENT windows zeroed, errors of the last job forgotten, windows open
anew (R114, R125, R127, R177). -/
def Cell.prepare (c : Cell) (epoch : Nat → Nat) : Cell :=
  let m0 := c.mem.zero (residentIn c.active c.active)
  let m1 : MemUnit := { m0 with words := smap WordCode.good (fun _ w => { w with failed := false, rewritten := false }) m0.words }
  let m2 := (List.range 16).foldl (fun m id =>
    match c.active.window id with
    | some d => if ! d.resident && decide ((m.win id).st = .opened) then m.reopenWin c.active id else m.openWin c.active epoch id
    | none => m) m1
  { c with mem := m2, box := { c.box with linkUE := [] } }

/-- The STREAM_OPENs of a job: one for each bound STREAM or CKPT label, limb die and mapped session; none while the tree is invalid
(R298, R367). -/
def State.sendOpens (s : State) (j : Job) : State :=
  if ! s.tree.valid then s
  else
    let all := (j.desc.bindings.filter (fun b => b.kind == 1 || b.kind == 3)).flatMap (fun b =>
      (List.range 12).flatMap (fun k => ((s.mapSessions k b.label).eraseDups).map (fun i => (b, i))))
    all.foldl (fun s p =>
      let b := p.1
      let i := p.2
      let s1 : State := { s with stream := { s.stream with opens := s.stream.opens ++ [(i, b.label, false)] } }
      let mode := if b.kind = 3 ∨ b.output = true then 1 else 0
      let q := { PendReq.blank .streamOpen i with
        label := b.label, frame := dataFrame 3 0 0 (openFields b.addr (4096 * s.f (STREAM_LABEL_LEN_CHUNKS b.label)) b.label mode) [] }
      if s.isOpen i then (s1.request (limbOfPort (s.ses i).port) q).getD s1 else s1) s

/-- The journal of a job begins: recording for HASH and FULL, replaying for REPLAY (R434, R439, R443). -/
def State.startJournal (s : State) (j : Job) : State :=
  let g := s.graft.active.getD default
  let jn : Journal := { s.journal with
    recording := decide (j.desc.journal = 1) || decide (j.desc.journal = 2), replaying := decide (j.desc.journal = 3),
    replay := j.records, nextSeq := 0, pos := 0, used := 0, buffer := [], fill := 0, stopped := false, tail := [] }
  let s1 : State := { s with journal := jn, job := { s.job with delta := (j.s : Int) - (j.origS : Int) } }
  s1.record 1 false (j.desc.raw ++ leBytes 8 j.s ++ leBytes 4 g.id ++ leBytes 2 g.epoch ++ [0, 0])

/-- Checks 4, 5, 7 and 8 of Table 8.6 at edge p, in order: the reason of the first that fails, and whether the job's graft is to be
activated. -/
def State.edgeRefusal (s : State) (j : Job) : Option Nat × Bool :=
  let act := match s.graft.active with
    | some g => j.desc.names g
    | none => false
  let named : Option Graft := if act then s.graft.active else s.graft.shadow
  let stop : Option Nat := if act then (if (s.graft.active.map (·.unusable)).getD false then some 4 else none)
    else match s.graft.shadow with
      | some g => if j.desc.names g = true ∧ s.swapStop = none then none else some 4
      | none => some 4
  let fits := match named with
    | some g => s.fitsMax s.ring.period g.sched.cNeed
    | none => true
  let r :=
    if stop.isSome then stop
    else if ¬ (s.ring.lock = .locked ∨ s.ring.lock = .holdover) ∨ s.ring.emergHold = true ∨ fits = false ∨ s.now ≠ j.p then some 5
    else if s.job.cur.isSome then some 7
    else if ! s.inRun then some 8
    else none
  (r, ! act)

/-- PREPARATION_EDGE: at edge p of the first admitted job it is refused, or takes the engine: the swap if it needs one, zeroing, the
stream opens, the transpose build (R240, R241, R243); bands that wait are shifted first (R426). An edge p that passed with no edge
at it is refused with CLOCK. -/
def execPreparationEdge (s : State) : Res :=
  .next <|
    match s.job.queue with
    | [] => s
    | j :: rest =>
      if ringBefore s.now j.p then s
      else
        let s := if s.jobOn then s else s.shiftBands
        let s0 : State := { s with job := { s.job with queue := rest } }
        match s.edgeRefusal j with
        | (some r, sw) =>
          let s1 := if r = 4 ∧ sw = true ∧ s.graft.swapAt ≠ some s.now then
              match s.swapStop with
              | some code => s0.swapFails code
              | none => s0
            else s0
          let s2 := if r = 8 then s1.inc (PWR_CNT_COUNT 7) 1 else s1
          s2.refuse j.desc.seq j.desc.jobId r
        | (none, sw) =>
          let s1 := if sw then s0.swapNow else s0
          let building := match s1.graft.active with
            | some g => ! g.sched.xposes.isEmpty
            | none => false
          let j1 := { j with stage := .preparing, energyStart := s.power.energy, building := building }
          let s2 : State := { s1 with
            job := { s1.job with cur := some j1, groups := [] }
            cells := smap Cell.init (fun _ c => c.prepare s1.sesEpoch) s1.cells
            power := { s1.power with lostDies := [] }
            ras := { s1.ras with overflowDies := [] } }
          (((s2.startJournal j1).sendOpens j1).abandonM7).setF SPARSE_STATUS_XPOSE_STATE (bit building)

/-- Rings a transpose build has used by a ring: it begins when zeroing ends, in ring p + Z (R160, R241). -/
def Job.buildRings (j : Job) (now : Nat) : Nat :=
  let start := ringAdd j.p j.z
  if ringBefore now start then 0 else ringsTo start now + 1

/-- The fault of a build that stops in a cell: its code and DETAIL (R160, Table 5.5). -/
def Cell.buildFault (c : Cell) (wWin : Nat) : BuildStop → FaultCode × Nat
  | .bad row (.bad e header block g n codes) =>
    (⟨.sparseMeta, e.code⟩, metaDetail header 0xFFFFFFFF row block g n codes c.cfg.extent 0xFF wWin)
  | .bad _ .short => (⟨.overflow, 1⟩, wWin)
  | .window w => (⟨.overflow, 1⟩, w)
  | .mx => (⟨.graft, 0xB⟩, 0)

/-- Builds the copies of one XPOSE record in every cell of its set, cell after cell: the blocks written, and the first cell's stop
(R160). -/
def State.buildXpose (x : Xpose) : List (Nat × Nat) → State → State × Nat × Option (Nat × Nat × FaultCode × Nat)
  | [], s => (s, 0, none)
  | p :: r, s =>
    let c := s.cell p.1 p.2
    match c.buildTranspose (cellKey p.1 p.2) x.wWin x.wtWin x.mapWin with
    | (c1, ev, .error e) => (s.cellStep p.1 p.2 false (c1, ev), 0, some (p.1, p.2, c.buildFault x.wWin e))
    | (c1, ev, .ok n) =>
      let (s2, m, e) := State.buildXpose x r (s.cellStep p.1 p.2 false (c1, ev))
      (s2, n + m, e)

/-- Builds the copies of every XPOSE record (R160). -/
def State.buildAll : List Xpose → State → State × Nat × Option (Nat × Nat × FaultCode × Nat)
  | [], s => (s, 0, none)
  | x :: r, s =>
    match State.buildXpose x x.set.cells s with
    | (s1, n, some e) => (s1, n, some e)
    | (s1, n, none) =>
      let (s2, m, e) := State.buildAll r s1
      (s2, n + m, e)

/-- TRANSPOSE_BUILD_DONE: the build of Wᵀ completes; a SPARSE_META fault of W, a block that overflows its window or a W it cannot build ends
the job FAULTED (R160, R243). Table 5.11 counts its rings and its blocks. -/
def execTransposeBuildDone (s : State) : Res :=
  .next <|
    match s.job.cur with
    | some j =>
      if j.stage ≠ .preparing ∨ j.building = false ∨ ringBefore s.now (ringAdd j.p j.z) = true then s
      else
        match State.buildAll ((s.graft.active.map (·.sched.xposes)).getD []) s with
        | (s1, _, some (x, y, fc, detail)) => (s1.raiseEnd fc (.cell x y) detail .during false).setF SPARSE_STATUS_XPOSE_STATE 3
        | (s1, n, none) =>
          (((s1.setJob (fun j => { j with building := false })).setF SPARSE_STATUS_XPOSE_STATE 2).setF (SPARSE_CNT_COUNT 10)
            (j.buildRings s.now)).setF (SPARSE_CNT_COUNT 11) n
    | none => s

/-- The windows of W, Wᵀ and value map that a cell refreshes: of the XPOSE records that name it, and of a supplied copy with a map
(R161). -/
def State.refreshWins (s : State) (x y : Nat) : List (Nat × Nat × Nat) :=
  match s.graft.active with
  | none => []
  | some g =>
    ((g.sched.xposes.filter (fun q => q.set.has x y)).map (fun q => (q.wWin, q.wtWin, q.mapWin)))
      ++ (if g.configures x y then (s.cell x y).cfg.refresh.toList else [])

/-- Every transposed copy takes its values from W anew: the last mutation of an UPDATE phase (R161, R254). -/
def State.refreshCopies (s : State) : State :=
  (s.cells.map (·.1)).foldl (fun s k =>
    let (x, y) := keyXY k
    (s.refreshWins x y).foldl (fun s w => s.cellStep x y false ((s.cell x y).refreshTranspose k w.1 w.2.1 w.2.2)) s) s

/-! ## Steps (R242, R243) -/

/-- Work of a step begins: claim counters and gate at their start, the self-test withdrawals made, Coppice tiles handed out (R246,
R248, R249, R431). -/
def State.beginWork (s : State) (n : Nat) (blocked : Bool) : State :=
  let s1 := (s.settleStep).setJob (fun j => { j with
    step := n, phase := .work, stage := if s.reenacts then .recovering else .running, stepCommitted := false, blocked := blocked
    misses := [] })
  let s2 : State := { s1 with
    job := { s1.job with groups := smap GroupRun.fresh (fun _ g => { GroupRun.fresh with withdrawn := g.withdrawn }) s1.job.groups },
    cells := smap Cell.init (fun _ c => { c with gate := [] }) s1.cells,
    ras := { s1.ras with overflowDies := [] } }
  match s2.job.cur, s2.graft.active with
  | some j, some a =>
    let s3 := s2.selfTestStep (! j.coppice s.reenacts)
    if j.coppice s.reenacts then a.claims.zipIdx.foldl (fun s p => s.coppiceGroup j p.2 p.1) s3 else s3
  | _, _ => s2

/-- A store key that a job needs and the key record does not hold (R363, R364): SMK for any store binding, a label's key for its
input. -/
def State.keyMissing (s : State) (d : Desc) : Bool :=
  d.bindings.any (fun b => (b.kind == 1 || b.kind == 3) &&
    (s.bark.smk.isNone || (b.kind == 1 && ! b.output && (sget [] s.bark.labels b.label).isEmpty)))

/-- Whether a job binds a store. -/
def Desc.stores (d : Desc) : Bool := d.bindings.any (fun b => b.kind == 1 || b.kind == 3)

/-- Whether the ring unit lets a step start: LOCKED or HOLDOVER, no EMERG standing, and an active graft that fits (R48, R52, R63). -/
def State.stepAllowed (s : State) : Bool :=
  (decide (s.ring.lock = .locked) || decide (s.ring.lock = .holdover)) && ! s.ring.emergHold &&
    s.activeNeed.all (s.fitsMax s.ring.period)

/-- STEP_START: at edge S step 0 starts, unless the tree is invalid, a key is absent, an open is not SERVED, a build is not done, or
a reset die waits for its load; each of these ends the job FAULTED (R160, R223, R243, R298, R363, R367). -/
def execStepStart (s : State) : Res :=
  .next <|
    match s.job.cur with
    | some j =>
      if j.stage ≠ .preparing ∨ ringBefore s.now j.s = true then s
      else if s.now ≠ j.s ∨ s.stepAllowed = false then s.endJob 3 0 s.prevRing
      else if j.building then (s.raiseEnd ⟨.ringOverrun, 1⟩ .engine 0 .start false).setF SPARSE_STATUS_XPOSE_STATE 3
      else if j.desc.stores = true ∧ s.tree.valid = false then s.raiseEnd ⟨.security, 0xB⟩ .engine 0 .start false
      else if s.keyMissing j.desc then s.raiseEnd ⟨.security, 0xC⟩ .engine 0 .start false
      else
        match s.stream.opens.find? (fun o => ! o.2.2) with
        | some (i, _, _) => s.raiseEnd ⟨.peer, 6⟩ (.session i) 0 .start false
        | none =>
          if ! s.resetDies.isEmpty then s.endJob 3 0 s.prevRing
          else
            (s.setGraft (fun g => { g with staleBlock := false })).beginWork 0 s.graft.staleBlock
    | none => s

/-- The step record of the journal, and under replay the comparison with the recording (R436, R437, R440); a difference in recovery
replay ends the job FAULTED (R438). -/
def State.stepRecord (s : State) (step outcome : Nat) : State :=
  let d := s.digest
  let s1 := s.record 9 false (leBytes 4 step ++ leBytes 1 outcome ++ [0, 0, 0] ++ leBytes 8 d)
  if ! (s.journal.replaying || s.reenacts) then s1
  else
    match s1.journal.replay.find? (fun r => r.kind == 9 && decide (rd r.body 0 4 = step)) with
    | none => s1
    | some r =>
      let s2 := ({ s1 with journal := { s1.journal with replay := s1.journal.replay.erase r, pos := s1.journal.pos + journalSize r.body } } :
        State).inc (JOURNAL_CNT_COUNT 3) 1
      if rd r.body 4 1 = outcome ∧ rd r.body 8 8 = d then s2
      else if s.reenacts then s2.recoveryFault 0x103 4
      else
        let s3 := s2.incSat JOURNAL_DIVERGE_COUNT 1
        if s.f JOURNAL_STATUS_DIVERGED = 1 then s3
        else ((s3.setF JOURNAL_DIVERGE_FIRST_STEP step).flag JOURNAL_STATUS_DIVERGED).event 9

/-- The checkpoint that a committed step calls for after its UPDATE phase (R259, R304). -/
def State.startCkpt (s : State) (j : Job) (final : Bool) : State :=
  let q := j.desc.ckptSteps
  match j.desc.binding 3 with
  | some b =>
    if q ≠ 0 ∧ (j.step + 1) % q = 0 then
      { s with job := { s.job with ckpt := some ⟨j.step, (j.step + 1) / q % 2, j.commitRing, j.desc.jobId, b.label, b.addr, false,
        false, final, j.energyStart⟩ } }
    else s
  | none => s

/-- Audit misses when a step's planned rings end, WORK being over: STRICT layers, and REPORT layers under STRICT_FLOOR, raise
PREDICTOR/AUDIT_MISS at the first missed output's cell (R170, R171). -/
def State.auditGate (s : State) (j : Job) : State :=
  let floor := decide (s.f SPARSE_CTRL_STRICT_FLOOR = 1)
  match j.misses.find? (fun q => q.policy == 2 || (floor && q.policy == 0)) with
  | some q => s.raise ⟨.predictor, 1⟩ (.cell q.x q.y) q.detail true .start false
  | none => s

/-- The first claim group that makeup recomputes: that of the earliest layer that missed under MAKEUP (R170; DEDUCED, log 41). -/
def Job.makeupFrom (j : Job) : Option Nat :=
  (j.misses.filter (fun q => q.policy == 1)).foldl (fun m q => match m with
    | none => some q.group
    | some g => some (min g q.group)) none

/-- MAKEUP begins: the claim groups from `g0` on start again, in Coppice mode by handing out their tiles (R170, R246, R248). What the gate
knew of their tiles is forgotten with them. -/
def State.beginMakeup (s : State) (j : Job) (g0 : Nat) : State :=
  let s1 : State := { s with
    job := { s.job with groups := smap GroupRun.fresh (fun g q =>
      if g < g0 then q else { q with v := 0, stopped := [], items := [] }) s.job.groups }
    cells := smap Cell.init (fun _ c => { c with gate := c.gate.filter (fun e => decide (e.group < g0)) }) s.cells }
  match s1.graft.active with
  | some a =>
    if j.coppice s.reenacts then
      (a.claims.zipIdx.filter (fun p => decide (g0 ≤ p.2))).foldl (fun s p => s.coppiceGroup j p.2 p.1) s1
    else s1
  | none => s1

/-- The condensation hold drops main rails (R26): a job that has started ends FAULTED, admitted jobs that have not, a preparing one among
them, are refused with POWER, every completion record is written, then the rails go. -/
def State.holdDrop (s : State) : State :=
  let s1 := if s.job.cur.any (fun j => decide (j.stage = .preparing)) then (s.inc (PWR_CNT_COUNT 7) 1).endJob 4 8 s.prevRing
    else s.endJob 3 0 s.prevRing
  let s2 := s1.job.queue.foldl (fun s j => (s.inc (PWR_CNT_COUNT 7) 1).refuse j.desc.seq j.desc.jobId 8)
    { s1 with job := { s1.job with queue := [], ckpt := none } }
  let s3 : State := { s2 with job := { s2.job with outbox := s2.job.outbox ++ s2.job.finalWait.toList, finalWait := none } }
  let s4 := (List.range s3.job.outbox.length).foldl (fun s _ => s.completeNext) s3
  ({ s4 with modl := { s4.modl with holdDropped := true } } : State).dropRails

/-- The phase that begins at the ring in force, if one does (Table 8.7). -/
def Job.nextPhase (j : Job) (now : Nat) : Option Phase :=
  match j.phase with
  | .work => if j.hasPhase .makeup then (if now = j.phaseRing .makeup then some .makeup else none)
      else if now = j.phaseRing .gate then some .gate else none
  | .makeup => if now = j.phaseRing .gate then some .gate else none
  | .gate => if ! j.stepCommitted then none
      else if j.hasPhase .update then (if now = j.phaseRing .update then some .update else none)
      else if j.finalStep = false ∧ now = ringAdd j.stepRing j.l then some .work else none
  | .update => if j.stepCommitted = true ∧ j.finalStep = false ∧ now = ringAdd j.stepRing j.l then some .work else none

/-- PHASE_START: the phase whose first ring begins (R170, R171, R242, R246, R254, R259). A job whose last step
has committed goes no further after an abort, or under a condensation hold (R26, R257). -/
def execPhaseStart (s : State) : Res :=
  .next <|
    match s.running with
    | none => s
    | some j =>
      match j.nextPhase s.now with
      | none => s
      | some .makeup =>
        let s1 := ((s.recordClaims 0 j.step).auditGate j).setJob (fun j => { j with phase := .makeup })
        (match j.makeupFrom with
         | some g => (s1.beginMakeup j g).atStep (SPARSE_CNT_COUNT 9) 1
         | none => s1)
      | some .gate =>
        let s1 := s.recordClaims j.phase.code j.step
        (if j.phase = .work then s1.auditGate j else s1).setJob (fun j => { j with phase := .gate })
      | some .update => (s.abandonCkpt).setJob (fun j => { j with phase := .update })
      | some .work =>
        if s.reenacts ∧ j.step + 1 = s.ras.recov.resumeAt then s
        else
        let s := if j.phase = .update then s.refreshCopies else s
        if s.modl.hold = true ∧ s.modl.mains = true then s.holdDrop
        else if j.abort.any (fun a => ringBefore a.2 s.now) then
          s.endJob 2 ((j.abort.map (·.1)).getD 0) s.prevRing
        else if s.stepAllowed = false then s.endJob 3 0 s.prevRing
        else
        let s1 := if j.hasPhase .update then s else s.abandonCkpt
        (if s.reenacts then s1 else s1.startCkpt j false).beginWork (j.step + 1) false

/-- COMMIT_DECISION: once the edge that ends the commit ring has come, the step commits when every check and vote has finished, no
tile is unresolved and nothing stops its commit; peers are told (R253, R257, R310). A step with a dead cell under RECOVER is left to
recovery (R426). A step that recovery replays was counted when it first committed (R438). -/
def execCommitDecision (s : State) : Res :=
  .next <|
    match s.running with
    | none => s
    | some j =>
      let c := j.commitRing
      if s.now ≠ ringAdd c 1 ∨ j.stepCommitted = true ∨ j.phase ≠ .gate ∨ j.deadDeclared = true then s
      else
        let items := s.job.groups.flatMap (fun p => p.2.items)
        let (p, s) := s.fireRoot none 46 (fun _ => true)
        let late := items.any (fun i => decide (i.st = .checking) || decide (i.st = .suspect)) || p.isSome
        let s1 := if late then s.raise ⟨.dupMismatch, 3⟩ .engine 0 true (.ended c) p.isSome else s
        let blocked := (s1.job.cur.map (·.blocked)).getD false || late || items.any (fun i => decide (i.st = .unresolved))
        if blocked then
          ((s1.syncPeers 2 c j.desc.jobId j.step).stepRecord j.step 2).endJob 3 0 c
        else
          let n := bit (! s.reenacts)
          ((s1.setJob (fun j => { j with stepCommitted := true, committed := j.committed + n })).inc (JOB_CNT_COUNT 5) n |>.syncPeers 1
            c j.desc.jobId j.step).stepRecord j.step 1

/-- A job completes in ring `e` after its final step, late if an abort was registered; its record waits for the checkpoint of that step
(R257 to R259). -/
def State.finishJob (s : State) (j : Job) (e : Nat) : State :=
  let s1 := s.startCkpt j true
  let s2 := s1.endJob (bit j.abort.isSome) ((j.abort.map (·.1)).getD 0) e
  match s2.job.ckpt, s2.job.outbox.getLast? with
  | some c, some q =>
    if c.final ∧ c.jobId = j.desc.jobId ∧ c.step = j.step then
      { s2 with job := { s2.job with outbox := s2.job.outbox.dropLast, finalWait := some q } }
    else s2
  | _, _ => s2

/-- JOB_END: the edge that ends the last ring of the final step has come; the job completes, late if an abort was registered. The
record of a job whose final step is checkpointed waits for the checkpoint (R243, R257 to R259). A condensation hold that stands with
main rails up ends it FAULTED and drops them (R26; DEDUCED, log 75). -/
def execJobEnd (s : State) : Res :=
  .next <|
    match s.running with
    | none => s
    | some j =>
      let e := j.plannedLast
      if s.now ≠ ringAdd e 1 ∨ j.finalStep = false ∨ j.stepCommitted = false ∨ s.reenacts = true then s
      else
        let s := if j.phase = .update then s.refreshCopies else s
        if s.modl.hold = true ∧ s.modl.mains = true then s.holdDrop
        else
        (if j.hasPhase .update then s else s.abandonCkpt).finishJob j e

end Sys2Proof.Machine
end

