-- ==== Sys2Proof/Machine/JournalExec.lean ====
section
/-!
DEFINITION. The replay journal's way out of the root die (R434 to R436, R443).
-/
namespace Sys2Proof.Machine

/-- Changes the journal unit. -/
def State.setJournal (s : State) (f : Journal → Journal) : State := { s with journal := f s.journal }

/-- A record as it stands in the stream: a 16-byte header and the body padded to a multiple of 16 bytes (R436, Table 15.10). -/
def JournalRec.bytes (r : JournalRec) : List Byte :=
  leBytes 1 r.kind ++ leBytes 1 (bit r.injected) ++ leBytes 2 r.body.length ++ leBytes 6 r.ring ++ leBytes 2 r.cycle ++ leBytes 4 r.seq
    ++ r.body ++ List.replicate ((16 - r.body.length % 16) % 16) 0

/-- Bytes of the stream not yet written out. -/
def Journal.waiting (j : Journal) : List Byte := j.tail ++ j.buffer.flatMap JournalRec.bytes

/-- The first block's bytes leave the buffer. -/
def Journal.shift (j : Journal) : Journal :=
  let rest := j.waiting.drop 4096
  { j with tail := rest, buffer := [], fill := rest.length, used := j.used + 1 }

/-- The target is full, and the journal stops once (R435). -/
def State.journalFull (s : State) : State := if s.journal.stopped then s else s.journalStop

/-- Writes a block of a host journal under K_host with IV suffix 0x12 (R361, R434). -/
def State.journalToHost (s : State) : State :=
  if 64 * s.f JOURNAL_LEN_SIZE ≤ s.journal.used then s.journalFull
  else if ! s.canMaster then s
  else
    let s1 := (s.hostBlock (4096 * s.f JOURNAL_BASE_ADDR) s.journal.used 0x12 (s.journal.waiting.take 4096)).setJournal Journal.shift
    if s1.journal.waiting.isEmpty ∧ s1.journal.recording = false then s1.endTags true else s1

/-- Writes a chunk of a store journal through limb die LIMB, with the tree chunks it changes; the next one follows once it is acknowledged
and promoted (R291, R369, R434). A chunk outside the extent, or one whose counter is at its end, is no target. -/
def State.journalToStore (s : State) : State :=
  let n := s.journal.used
  let k := s.f JOURNAL_CTRL_LIMB
  let c := s.f JOURNAL_BASE_ADDR % 2 ^ 40 + n
  if s.f JOURNAL_LEN_SIZE ≤ n ∨ s.extent ≤ c then s.journalFull
  else if s.stream.writes.any (fun w => w.group == 2) then s
  else
    match s.mapped k (s.f JOURNAL_CTRL_LABEL) n, s.nextVersion c with
    | some i, .ok v =>
      if 2 ^ 56 ≤ v then (s.raise ⟨.security, 0xA⟩ (.session i) 0 false .during false).journalFull
      else
        match s.sendWrite k i 2 1 (4096 * c) v none (padTo 4096 (s.journal.waiting.take 4096)) with
        | some s1 => ((s1.pend c v).writeTree 2).setJournal Journal.shift
        | none => s
    | some _, .error (l, j) => s.readTree { PendReq.blank .gather 0 with cls := 1 } (treeChunk s.extent l j)
    | none, _ => s

/-- JOURNAL_WRITE: one block of the stream goes to the target once it is full, or when the recording has ended (R434 to R436). -/
def execJournalWrite (s : State) : Res :=
  .next <|
    let n := s.journal.waiting.length
    if n = 0 ∨ (n < 4096 ∧ s.journal.recording = true) then s
    else if s.f JOURNAL_CTRL_TARGET = 1 then s.journalToHost
    else if s.f JOURNAL_CTRL_TARGET = 2 then s.journalToStore
    else s

/-- JOURNAL_CLR_COUNTERS (R443). -/
def execJournalClrCounters (s : State) : Res := .next (s.clearArr JOURNAL_CNT_COUNT 4)

end Sys2Proof.Machine
end

