-- ==== Sys2Proof/Machine/ModuleIO.lean ====
section
/-!
DEFINITION. Events of the module: main input, standby, the reset pin, tilt and the condensation hold (R20 to R28).
-/
namespace Sys2Proof.Machine

/-- Changes the module's pins and conditions. -/
def State.setModl (s : State) (f : Module → Module) : State := { s with modl := f s.modl }

/-- R23: POWER/INPUT_FAIL, LAST_GASP, PWR_GOOD low, FAULT_N, main rails down; the running step does not commit. -/
def State.inputFails (s : State) (inj : Bool) : State :=
  let s1 := ((s.raiseEnd ⟨.power, 1⟩ .engine 0 .during inj).lastGasp 0x0E 1).faultN
  (s1.setModl (fun m => { m with inputFailed := true })).dropRails

/-- INPUT_FAIL: the main input leaves its range, and R23 acts, whether or not main rails are up. -/
def execInputFail (s : State) : Res :=
  .next <|
    if s.modl.standby = false ∨ s.modl.inputOk = false then s
    else (s.setModl (fun m => { m with inputOk := false })).inputFails false

/-- INPUT_RETURN: the input has stayed in range for 100 ms; after an input failure the engine is reset and boots (R23). -/
def execInputReturn (s : State) : Res :=
  .next <|
    if s.modl.standby = false then s
    else
      let s1 := s.setModl (fun m => { m with inputOk := true })
      if s.modl.inputFailed then s1.engineReset else s1

/-- A heartwood write that a power loss interrupts leaves the old value or the new one: which is a free value (R376, log 1). -/
def State.cutWrite (s : State) (w : HwWrite) : State :=
  let s1 : State := { s with free := s.free + 1 }
  if Config.freeBit s.free then s1.hwPersist w.reg w.value w.refresh none none else s1

/-- STANDBY_LOSS: the root die and the main stage lose power (R22); heartwood and flash stay (R445). -/
def execStandbyLoss (s : State) : Res :=
  .next <|
    if s.modl.standby = false then s
    else ((s.hw.busy.foldl State.cutWrite s).powerOnReset s.modl.slotId).setModl (fun m => { m with standby := false })

/-- POWER_ON: standby rises into range: a power-on reset, SLOT_ID sampled (R27, R445). -/
def execPowerOn (slot : Nat) (s : State) : Res := .next (if s.modl.standby then s else s.powerOnReset slot)

/-- RESET_N: a low pulse that passes the filter is an ENGINE reset (R28, R446). -/
def execResetN (ns : Nat) (s : State) : Res :=
  .next <|
    let (hit, s1) := s.pulse ns
    if hit = true ∧ s1.modl.standby = true then s1.engineReset else s1

/-- TILT_WARNING: reported over the management port; main rails stay (R20). The rule names no end of the warning: it stands until
standby is lost (DESIGN CHOICE, log 63). -/
def execTiltWarning (s : State) : Res := .next (s.setModl (fun m => { m with tilt := true }))

/-- CONDENSATION_HOLD: the hold begins; with main rails up it is a fault, fetching stops, and the next step boundary or ring edge drops
them (R26). -/
def execCondensationHold (s : State) : Res :=
  .next <|
    if s.modl.hold then s
    else
      let s1 := s.setModl (fun m => { m with hold := true })
      if s.modl.mains then s1.raise ⟨.thermal, 6⟩ .engine 0 false .during false else s1

/-- CONDENSATION_CLEAR: the hold ends: an ENGINE reset if it dropped main rails, else boot goes on (R26). -/
def execCondensationClear (s : State) : Res :=
  .next <|
    if s.modl.hold = false then s
    else
      let s1 := s.setModl (fun m => { m with hold := false })
      if s.modl.holdDropped then s1.engineReset else s1

end Sys2Proof.Machine
end

