-- ==== Sys2Proof/Machine/RecoveryExec.lean ====
section
/-!
DEFINITION. Recovery from dead cells, band shifts and field self-test (R424 to R432, R441).
-/
namespace Sys2Proof.Machine

/-- BAND_SHIFT: under STOP after the job's end, or with no job present, the bands that wait are shifted (R189, R426, R430). -/
def execBandShift (s : State) : Res := .next (if s.jobOn then s else s.shiftBands)

/-- The running step is abandoned (R426): NOT_COMMITTED to peers, or DISCARD to stores for an UPDATE phase; every cell stops. -/
def State.abandonStep (s : State) (j : Job) : State :=
  let s1 := if j.pastCommit then s.syncStores false 0
    else (s.syncPeers 2 s.now j.desc.jobId j.step).stepRecord j.step 3
  { s1 with
    cells := smap Cell.init (fun _ c => { c with comp := Compute.idle, gate := [] }) s1.cells
    job := { s1.job with groups := [] } }

/-- The step a recovery resumes at: the dead step, or the one after it when the fault struck in its UPDATE phase, which replay makes in
full (R429, R438; log 37). -/
def State.deadStep (s : State) (j : Job) : Nat := if s.ras.recov.inUpdate then j.step + 1 else j.step

/-- A recovery begins: the running step is abandoned, with the checkpoint that was being written (R426; log 99). -/
def State.beginRecovery (s : State) (j : Job) : State :=
  let s1 := (s.abandonStep j).setRecov (fun q => { q with beganAt := s.now, resumeAt := s.deadStep j })
  let s2 := if s1.job.ckpt.any (fun c => ! c.final) then s1.abandonCkpt else s1
  ((s2.inc (RAS_CNT_COUNT 2) 1).setF RAS_STATUS_LAST_RING_LO (s.now % 2 ^ 32)).event 15

/-- A recovery under way begins again at SHIFT: what was being replayed stops (R430). -/
def State.restartRecovery (s : State) : State :=
  if s.reenacts then
    { s with
      cells := smap Cell.init (fun _ c => { c with comp := Compute.idle, gate := [] }) s.cells
      job := { s.job with groups := [] }
      journal := { s.journal with replay := [] } }
  else s

/-- RECOVERY_START: at the first ring edge after a declaration under RECOVER the step is abandoned and SHIFT begins; with an abort in
the same ring the job ends FAULTED and only the shift follows (R257, R426, R430). -/
def execRecoveryStart (s : State) : Res :=
  .next <|
    match s.job.cur, s.ras.recov.declared with
    | some j, some r =>
      if ringBefore r s.now = false ∨ j.stage = .preparing then s
      else if j.abort.any (fun a => a.2 == r) then s.endJob 3 0 s.prevRing
      else
        let (x, y) := s.recoverySource
        let s1 := if s.ras.recov.stage = .idle then s.beginRecovery j else s.restartRecovery
        let s2 := s1.setJob (fun j => { j with stage := .recovering, blocked := false, deadDeclared := false })
        let s3 := s2.setRecov (fun q => { q with stage := .shift, declared := none })
        let s4 := (s3.setF RAS_LAST_RECOVERY_BAND (s.bandNo x y)).setF RAS_LAST_RECOVERY_JOB_ID j.desc.jobId
        let (s5, noSpare, refused) := s4.shiftAll
        if ! noSpare.isEmpty then s5.recoveryFault 0x101 2
        else if refused then (s5.endJob 3 0 s.now).recoveryFails (s.f RAS_STATUS_LAST_RESULT)
        else s5
    | some _, none => s
    | none, _ => s

/-- Whether a band's entry write is still to become persistent. -/
def State.shiftBusy (s : State) (n : Nat) : Bool :=
  (s.hw.busy ++ s.hw.engineQ).any (fun w => w.reg == 0x0D0 + n / 2 && ! w.refresh)

/-- SHIFT_COMPLETE: every entry is persistent and COPY begins (Table 15.7); where a write failed, recovery fails. -/
def execShiftComplete (s : State) : Res :=
  .next <|
    if s.ras.recov.stage ≠ .shift ∨ s.ras.recov.bands.any s.shiftBusy = true then s
    else if s.ras.recov.cells.any (fun p => (s.cell p.1 p.2).dead) then
      (s.endJob 3 0 s.now).recoveryFails (s.f RAS_STATUS_LAST_RESULT)
    else s.setRecov (fun r => { r with stage := .copy })

/-- COPY_COMPLETE: every live moved cell is in place; RELOAD and RESTORE begin (Table 15.7). -/
def execCopyComplete (s : State) : Res :=
  .next (if s.ras.recov.stage = .copy then s.setRecov (fun r => { r with stage := .restore }) else s)

/-- Writes whole beats of a cell's scratchpad from a beat boundary on. -/
def MemUnit.writeBeats (m : MemUnit) (a : Nat) (bs : List Byte) : MemUnit :=
  (List.range ((bs.length + 15) / 16)).foldl (fun m k =>
    m.writeBeat (a / 16 * 16 + 16 * k) (cut (bs ++ List.replicate 16 0) (16 * k) 16) false) m

/-- Fills spans of a cell's scratchpad, one after another, from packed bytes. -/
def MemUnit.fillSpans : MemUnit → List (Nat × Nat) → List Byte → MemUnit
  | m, [], _ => m
  | m, q :: l, bs => (m.writeBeats q.1 (bs.take q.2)).fillSpans l (bs.drop q.2)

/-- Places a checkpoint: by ascending y, x and window, packed (R304, R428). -/
def State.restoreCkpt (s : State) (data : List Byte) : State :=
  (s.cells.foldl (fun (p : SMap Cell × List Byte) q =>
    let l := q.2.active.spans true
    (sset Cell.init p.1 q.1 { q.2 with mem := q.2.mem.fillSpans l p.2 }, p.2.drop (q.2.active.spanLen true))) (s.cells, data)).1
  |> fun cs => { s with cells := cs }

/-- Reloads the dead cells from the reload image, in which each cell's data begins at a chunk boundary (R428). -/
def State.reload (s : State) (image : List Byte) : State :=
  (s.cells.foldl (fun (p : SMap Cell × List Byte) q =>
    let n := q.2.active.spanLen false
    (if s.ras.recov.cells.contains (keyXY q.1) then sset Cell.init p.1 q.1 { q.2 with mem := q.2.mem.fillSpans (q.2.active.spans false) p.2 }
      else p.1, p.2.drop (4096 * ((n + 4095) / 4096)))) (s.cells, image)).1
  |> fun cs => { s with cells := cs }

/-- Whether a byte lies in a non-RESIDENT window. -/
def Plane.transient (p : Plane) (a : Nat) : Bool :=
  (List.range 16).any (fun w => match p.window w with
    | some d => ! d.resident && decide (d.base ≤ a) && decide (a < d.base + d.len)
    | none => false)

/-- Whether a byte lies in a RESIDENT window with LW. -/
def Plane.checkpointed (p : Plane) (a : Nat) : Bool :=
  (p.spans true).any (fun q => decide (q.1 ≤ a) && decide (a < q.1 + q.2))

/-- RELOAD and RESTORE: non-RESIDENT windows are zeroed, and checkpointed ones where there is no checkpoint; then both images are placed
(R428, Table 15.7). -/
def State.restore (s : State) (r : Restore) (noHalf : Bool) : State :=
  let wipe (p : Plane) (a : Nat) : Bool := p.transient a || (noHalf && p.checkpointed a)
  let s1 : State := { s with
    cells := smap Cell.init (fun _ c => { c with mem := c.mem.zero (fun a => ! wipe c.active a) }) s.cells }
  (if noHalf then s1 else s1.restoreCkpt r.ckpt).reload r.reload

/-- What a recovery replays: S of the recording and its records from a step on. A REPLAY job's recording is the one it replays (R438;
DEDUCED, log 100). -/
def Job.recording (j : Job) (own : List Byte) : Nat × List JournalRec :=
  if j.desc.journal = 3 then (j.origS, j.records)
  else ((recordingOf own).map (fun p => p.2)).getD (0, [])

/-- The records of the rings from a step on. -/
def Job.recordsFrom (j : Job) (s0 n : Nat) (l : List JournalRec) : List JournalRec :=
  l.filter (fun r => ! ringBefore r.ring (ringAdd s0 (n * j.l)))

/-- The step after the newer valid checkpoint's, or step 0 (R426). -/
def JobUnit.firstReplayed (u : JobUnit) : Nat := max (u.valid0.elim 0 (· + 1)) (u.valid1.elim 0 (· + 1))

/-- REPLAY begins: the committed steps after the checkpoint's execute again, in Coppice mode, from the ring in force on (Table 15.7,
R438). -/
def State.beginReplay (s : State) (j : Job) (own : List Byte) : State :=
  let n := s.job.firstReplayed
  let (s0, l) := j.recording own
  let start := (s.now + ringMod - n * j.l % ringMod) % ringMod
  let s1 := (s.setRecov (fun q => { q with stage := .replay })).setJob (fun j => { j with s := start, step := n, phase := .work })
  let s2 : State := { s1 with
    journal := { s1.journal with replay := j.recordsFrom s0 n l }
    job := { s1.job with delta := (start : Int) - (s0 : Int) } }
  if s.ras.recov.resumeAt ≤ n then s2.setJob (fun j => { j with step := s.ras.recov.resumeAt }) else s2.beginWork n false

/-- RESTORE_COMPLETE: every chunk is verified and placed, every non-RESIDENT window zeroed, and REPLAY begins; with no valid half and no
committed step the checkpointed windows are zeroed; a chunk that fails, or no valid half after a committed step, ends the job FAULTED
(R428). -/
def execRestoreComplete (r : Restore) (s : State) : Res :=
  .next <|
    match s.job.cur with
    | none => s
    | some j =>
      if s.ras.recov.stage ≠ .restore then s
      else
        match r.chunkFault with
        | some c => (s.raise ⟨.security, c⟩ .engine 0 false .during false).recoveryFault 0x102 3
        | none =>
          let noHalf := s.job.valid0.isNone && s.job.valid1.isNone
          if noHalf = true ∧ j.committed ≠ 0 then s.recoveryFault 0x102 3
          else (s.restore r noHalf).beginReplay j r.journal

/-- The recovery unit goes idle and shows its result: resumed (R441, Table 15.12). -/
def State.recoveryEnds (s : State) : State :=
  let took := min 65535 (ringsTo s.ras.recov.beganAt s.now)
  (((s.setF RAS_LAST_RECOVERY_RINGS took).setF RAS_STATUS_LAST_RESULT 1).inc (RAS_CNT_COUNT 3) 1).setRecov (fun q =>
    { q with stage := .idle, cells := [], bands := [], inUpdate := false, cause := none, declared := none })

/-- The job resumes at a step in the ring in force: its start ring moves, its journal takes a RECOVER record, and a replay goes on with its
recording from that step on (R429, R438, R439). -/
def State.resumeJob (s : State) (step : Nat) : State :=
  match s.job.cur with
  | none => s
  | some j =>
    let start := (s.now + ringMod - step * j.l % ringMod) % ringMod
    let (x, y) := s.recoverySource
    let late := s.ras.recov.inUpdate
    let s1 := (s.recoveryEnds.record 10 false (leBytes 4 step ++ leBytes 2 (s.bandNo x y) ++ [0, 0] ++ leBytes 8 start)).event 15
    let s2 := s1.setJob (fun j => { j with s := start })
    let s3 : State := { s2 with
      job := { s2.job with
        lastPlanned := if s.job.queue.isEmpty then some { j with s := start }.plannedLast else s2.job.lastPlanned
        delta := (start : Int) - (j.origS : Int) }
      journal := { s2.journal with replay := if s.journal.replaying then j.recordsFrom j.origS step j.records else [] } }
    (if late then s3.startCkpt j false else s3).beginWork step false

/-- Whether recovery replay has come to its end: nothing was left to replay, or the last replayed step's rings are over (Table 15.7). -/
def State.replayOver (s : State) (j : Job) : Bool :=
  decide (j.step = s.ras.recov.resumeAt) ||
    (j.stepCommitted && decide (j.step + 1 = s.ras.recov.resumeAt) && decide (s.now = ringAdd j.stepRing j.l))

/-- REPLAY_COMPLETE: the job resumes at the dead step at the ring edge in force, or ends when no step is left (R429, R438). -/
def execReplayComplete (s : State) : Res :=
  .next <|
    match s.job.cur with
    | none => s
    | some j =>
      if s.ras.recov.stage ≠ .replay ∨ s.replayOver j = false then s
      else
        let s1 := if j.phase = .update then s.refreshCopies else s
        let n := s.ras.recov.resumeAt
        if j.desc.steps ≤ n then s1.recoveryEnds.finishJob j s.prevRing else s1.resumeJob n

/-- Whether a physical cell is the one under test: withdrawn for the running step, or next in its band's idle order (R431). -/
def State.underTest (s : State) (d col row : Nat) : Bool :=
  let n := 9 * d + col / 16
  if s.jobOn then
    match s.running, s.logicalAt d row col with
    | some j, some xy => (decide (j.phase = .work) || decide (j.phase = .makeup)) && s.ras.selftest.withdrawn.contains xy
    | _, _ => false
  else
    s.inRun && decide (s.domain d = .on) && ! s.bandUnusable n && decide (s.f RAS_CTRL_SELFTEST_EN = 1) && decide (s.power.memShed < 2) &&
      decide (16 * row + col % 16 = sget 0 s.ras.selftest.position n % 2112)

/-- The test of a physical cell failed: CELL_DEAD/SELF_TEST for a logical cell; a spare row that is not retired yet is (R432, R464). -/
def State.selfTestFails (s : State) (d col row : Nat) (inj : Bool) : State :=
  let n := 9 * d + col / 16
  match s.logicalAt d row col with
  | some (x, y) => if (s.cell x y).dead then s else s.declareDead x y 5 none .during inj
  | none =>
    if (entryRows (s.bandEntry n) ++ spareRows (s.bandEntry n) (s.spareMask n)).contains row then s
    else
      (((s.raise ⟨.cellDead, 5⟩ (.die d) (s.deadDetail n none) false .during inj).later (RAS_DIE_ERR_DEAD d) 1).retireRows n [row]).1

/-- SELF_TEST_DONE: the test of one physical cell ends (R431, R432). -/
def execSelfTestDone (px py : Nat) (pass : Bool) (s : State) : Res :=
  .next <|
    let d := 8 * (py / 132) + px / 144
    let col := px % 144
    let row := py % 132
    let n := 9 * d + col / 16
    if 1152 ≤ px ∨ 792 ≤ py ∨ s.dieEnabled d = false ∨ s.underTest d col row = false then s
    else
      let (p, s1) := match s.logicalAt d row col with
        | some (x, y) => s.fireCell x y 11 (fun _ => true)
        | none => (none, s)
      let s2 := if s.jobOn then s1
        else { s1 with ras := { s1.ras with selftest := { s1.ras.selftest with
          position := sset 0 s1.ras.selftest.position n (sget 0 s1.ras.selftest.position n % 2112 + 1) } } }
      let s3 := s2.inc (RAS_CNT_COUNT 6) 1
      if pass = true ∧ p.isNone = true then s3
      else (s3.inc (RAS_CNT_COUNT 7) 1).selfTestFails d col row p.isSome

/-- RAS_CLR_COUNTERS: clears RAS_CNT and RAS_DIE_ERR (R441). -/
def execRasClrCounters (s : State) : Res :=
  .next ((((s.clearArr RAS_CNT_COUNT 10).clearArr RAS_DIE_ERR_CORRECTED 48).clearArr RAS_DIE_ERR_UNCORRECTABLE 48).clearArr
    RAS_DIE_ERR_DEAD 48)

end Sys2Proof.Machine
end

