-- ==== Sys2Proof/Machine/RegWrite.lean ====
section
/-!
DEFINITION. REGISTER_WRITE: writes of register fields that have no row of their own, block by block (R10, R11, R321).
-/
namespace Sys2Proof.Machine

/-- Writes several fields from one word. -/
def State.puts (s : State) (l : List Fld) (w : Word64) : State := l.foldl (fun s F => s.put F w) s

/-- Clears the W1C bits of a list where the word holds 1 (R10). -/
def State.w1cs (s : State) (l : List Fld) (w : Word64) : State := l.foldl (fun s F => s.w1c F w) s

/-- Writes fields unless a condition forbids it. -/
def State.putsUnless (s : State) (no : Bool) (l : List Fld) (w : Word64) : State := if no then s else s.puts l w

/-- Writes fields, or ignores the write whole and sets a CFG_REJECT bit. -/
def State.putsIf (s : State) (ok : Bool) (reject : Fld) (l : List Fld) (w : Word64) : State := if ok then s.puts l w else s.flag reject

/-! ## ID, RING, CLK (R76, R77, R324, R325, R336) -/

/-- A write of the MSI-X table: one word at a 4-byte offset, two at an 8-byte one; the vector control word is kept with its mask bit
inverted, so that an unlisted word is a masked vector. Messages that waited for a mask leave (R322, R324, R325). -/
def State.msixWrite (s : State) (addr : Nat) (w : Word64) : State :=
  let k := (addr - 0x8000) / 4
  let put (m : SMap Word32) (k : Nat) (v : Word32) : SMap Word32 := sset 0 m k (if k % 4 = 3 then v ^^^ 1 else v)
  let lo := put s.host.msix k (w.setWidth 32)
  let m := if addr % 8 = 0 then put lo (k + 1) ((w >>> 32).setWidth 32) else lo
  ({ s with host := { s.host with msix := m } } : State).flushPending

/-- The ID block. -/
def State.writeId (s : State) (addr : Nat) (w : Word64) : State :=
  if addr = 0x10 then s.putsUnless (ID_HOST_CTRL_CPL_TIMEOUT.of w == 0) [ID_HOST_CTRL_CPL_TIMEOUT] w
  else if addr = 0x18 then s.w1cs [ID_HOST_STATUS_ACCESS_ERR] w
  else if 0x8000 ≤ addr ∧ addr < 0x8200 ∧ addr % 4 = 0 then s.msixWrite addr w
  else s

/-- The RING block: PTP_PERIOD and ORIGIN are ignored while a job is running (R54, R76). -/
def State.writeRing (s : State) (addr : Nat) (w : Word64) : State :=
  if addr = 0x10000 then
    if s.busyJob then s
    else
      let s1 := s.puts [RING_CTRL_PTP_PERIOD] w
      if s.ptpOn then s1.ptpPeriod (RING_CTRL_PTP_PERIOD.of w) else s1
  else if addr = 0x10010 then s.w1cs [RING_STATUS_CFG_REJECT] w
  else if addr = 0x10048 then s.putsUnless s.busyJob [RING_PTP_ORIGIN_ORIGIN] w
  else s

/-- The CLK block: clearing LOSS with the crystal good lets FAULT_N deassert (R73, R77). -/
def State.writeClk (s : State) (addr : Nat) (w : Word64) : State :=
  if addr = 0x20000 then
    let s1 := s.w1cs [CLK_SRC_CFG_REJECT, CLK_SRC_FREQ_ERR, CLK_SRC_PLL_UNLOCK, CLK_SRC_LOSS] w
    if CLK_SRC_LOSS.of w = 1 then s1.settleFaultN else s1
  else s

/-! ## PWR, THM (R415, R416) -/

/-- PWR_CLASS: PRIO is a permutation of the three classes and the floors sum to at most 240 (R398, R415). -/
def classOk (w : Word64) : Bool :=
  let p := PWR_CLASS_PRIO.of w
  let a := p % 4
  let b := p / 4 % 4
  let c := p / 16
  decide (a ≠ 3) && decide (b ≠ 3) && decide (c ≠ 3) && decide (a ≠ b) && decide (a ≠ c) && decide (b ≠ c) &&
    decide (PWR_CLASS_FLOOR_COMPUTE.of w + PWR_CLASS_FLOOR_MEMORY.of w + PWR_CLASS_FLOOR_LINKS.of w ≤ 240)

/-- The PWR block. -/
def State.writePwr (s : State) (addr : Nat) (w : Word64) : State :=
  if addr = 0x30008 then s.w1cs [PWR_STATUS_CFG_REJECT, PWR_STATUS_EXCURSION_SPENT] w
  else if addr = 0x30010 then
    let n := PWR_CAP_ENGINE_CAP.of w
    s.putsIf (decide (240 ≤ n) && decide (n ≤ 920)) PWR_STATUS_CFG_REJECT [PWR_CAP_ENGINE_CAP] w
  else if addr = 0x30018 then
    s.putsIf (classOk w) PWR_STATUS_CFG_REJECT [PWR_CLASS_PRIO, PWR_CLASS_FLOOR_COMPUTE, PWR_CLASS_FLOOR_MEMORY, PWR_CLASS_FLOOR_LINKS] w
  else if addr = 0x30020 then
    s.putsIf (decide (PWR_EXCURSION_REFILL_W.of w ≤ 2000)) PWR_STATUS_CFG_REJECT [PWR_EXCURSION_REFILL_W] w
  else if addr = 0x30048 then
    let t := PWR_DROOP_THRESH_MV.of w
    s.putsIf (decide (1 ≤ PWR_DROOP_LIMIT.of w) && decide (30 ≤ t) && decide (t ≤ 90)) PWR_STATUS_CFG_REJECT
      [PWR_DROOP_LIMIT, PWR_DROOP_THRESH_MV] w
  else s

/-- The THM block; THM_STATUS.TRIP has a row of its own. -/
def State.writeThm (s : State) (addr : Nat) (w : Word64) : State :=
  if addr = 0x40000 then
    let st := THM_CONFIG_STEP.of w
    let h := THM_CONFIG_HYST.of w
    let t := THM_CONFIG_THROTTLE.of w
    s.putsIf (decide (1 ≤ st) && decide (st ≤ 8) && decide (1 ≤ h) && decide (h ≤ 10) && decide (70 ≤ t) && decide (t ≤ 105))
      THM_STATUS_CFG_REJECT [THM_CONFIG_STEP, THM_CONFIG_HYST, THM_CONFIG_THROTTLE] w
  else if addr = 0x40008 then s.w1cs [THM_STATUS_SENSOR_FAULT, THM_STATUS_CFG_REJECT] w
  else s

/-! ## JOB, GRAFT, SPARSE, FAB (R173, R202, R231, R260) -/

/-- The JOB block: POST_BASE is ignored while ENABLE = 1, and a POLL_INTERVAL of 0 always. -/
def State.writeJob (s : State) (addr : Nat) (w : Word64) : State :=
  if addr = 0x50000 then s.putsUnless (JOB_CTRL_POLL_INTERVAL.of w == 0) [JOB_CTRL_POLL_INTERVAL] w
  else if addr = 0x50008 then s.putsUnless (s.f JOB_CTRL_ENABLE == 1) [JOB_POST_BASE_ADDR] w
  else if addr = 0x50020 then s.w1cs [JOB_STATUS_BAD_DESC, JOB_STATUS_POST_ERR] w
  else if addr = 0x50038 then s.puts [JOB_ABORT_JOB_ID] w
  else s

/-- The GRAFT block: the source is fixed during a load. -/
def State.writeGraft (s : State) (addr : Nat) (w : Word64) : State :=
  if addr = 0x60008 then s.putsUnless s.loading [GRAFT_SRC_ADDR] w
  else if addr = 0x60010 then s.putsUnless s.loading [GRAFT_SRC_LEN_LEN] w
  else if addr = 0x60018 then
    s.w1cs [GRAFT_STATUS_SWAP_FAIL, GRAFT_STATUS_REFUSED_BUSY, GRAFT_STATUS_LOAD_FAIL, GRAFT_STATUS_LOAD_DONE] w
  else s

/-- The SPARSE and FAB blocks. -/
def State.writeFab (s : State) (addr : Nat) (w : Word64) : State :=
  if addr = 0x70000 then s.putsUnless s.busyJob [SPARSE_CTRL_STRICT_FLOOR] w
  else if addr = 0x80000 then s.puts [FAB_CTRL_PROBE_EN] w
  else if addr = 0x80008 then s.w1cs [FAB_STATUS_CFG_REJECT] w
  else s

/-! ## EDGE, SAP, STREAM (R287, R288, R312) -/

/-- The EDGE block: an invalid MEDIA code leaves the port's fields as they are. -/
def State.writeEdge (s : State) (addr : Nat) (w : Word64) : State :=
  if addr = 0x90000 then s.putsUnless s.busyJob [EDGE_CTRL_PCP, EDGE_CTRL_VLAN_EN, EDGE_CTRL_VLAN_ID, EDGE_CTRL_ETHERTYPE] w
  else if 0x90100 ≤ addr ∧ addr < 0x90100 + 8 * 72 ∧ addr % 8 = 0 then
    let p := (addr - 0x90100) / 8
    if 2 ≤ (EDGE_PORT_CTRL_MEDIA p).of w then s
    else
      let s1 := s.puts [EDGE_PORT_CTRL_MEDIA p, EDGE_PORT_CTRL_AN_EN p, EDGE_PORT_CTRL_AUX_EN p] w
      let on := decide ((EDGE_PORT_CTRL_AUX_EN p).of w = 1)
      s1.modPort p (fun q => { q with auxOn := on && (q.auxOn || (q.present && ! q.auxOff &&
        (decide (q.link0 ≠ .disabled) || decide (q.link1 ≠ .disabled)))) })
  else s

/-- The SAP block: a SAP_SESSION_CMD without GO only stores its fields, and one with an invalid OP returns RESULT 4, or 5 while a command
is under way (R288). -/
def State.writeSap (s : State) (addr : Nat) (w : Word64) : State :=
  if addr = 0xA0010 then s.w1cs [SAP_STATUS_CFG_REJECT] w
  else if addr = 0xA0018 then
    let op := SAP_SESSION_CMD_OP.of w
    if SAP_SESSION_CMD_GO.of w = 0 then s.putCmd w
    else if 1 ≤ op ∧ op ≤ 3 then s
    else if s.sessCmd.busy.isSome then { s with sessCmd := { s.sessCmd with result := 5 } }
    else (s.putCmd w).result 4
  else if addr = 0xA0020 then s.puts [SAP_SESSION_PEER_MAC] w
  else s

/-- A STREAM write that a running job forbids: rejected, with the STREAM cause (R312, Table 11.3). -/
def State.streamPut (s : State) (l : List Fld) (w : Word64) : State :=
  if s.busyJob then (s.flag STREAM_STATUS_CFG_REJECT).event 12 else s.puts l w

/-- The STREAM block. -/
def State.writeStream (s : State) (addr : Nat) (w : Word64) : State :=
  if addr = 0xB0000 then s.putsUnless s.busyJob [STREAM_CTRL_HALT_ON_PEER] w
  else if addr = 0xB0010 then s.streamPut [STREAM_U_ALLOW_UNITS, STREAM_U_ALLOW_DEFER_MAX] w
  else if addr = 0xB0018 then
    let s1 := s.w1cs [STREAM_STATUS_CFG_REJECT] w
    if s1.f STREAM_STATUS_CFG_REJECT = s.f STREAM_STATUS_CFG_REJECT then s1 else s1.event 12
  else if 0xB0100 ≤ addr ∧ addr < 0xB0100 + 8 * 16 ∧ addr % 8 = 0 then s.streamPut [STREAM_LABEL_LEN_CHUNKS ((addr - 0xB0100) / 8)] w
  else if 0xB0200 ≤ addr ∧ addr < 0xB0200 + 8 * 192 ∧ addr % 8 = 0 then
    let i := (addr - 0xB0200) / 8
    s.streamPut [STREAM_LABEL_MAP_STRIPE_EXP i, STREAM_LABEL_MAP_WIDTH i, STREAM_LABEL_MAP_FIRST i] w
  else s

/-! ## BARK, HW (R354, R373, R387) -/

/-- BARK_CMD: without GO its fields are stored; GO with an OP that Table 12.13 does not list returns INVALID. -/
def State.writeBarkCmd (s : State) (w : Word64) : State :=
  let op := BARK_CMD_OP.of w
  if BARK_CMD_GO.of w = 0 then s.puts [BARK_CMD_OP, BARK_CMD_LEN] w
  else if 1 ≤ op ∧ op ≤ 19 then s
  else s.barkRun op (BARK_CMD_LEN.of w) (fun s => s.barkEnd 2 0)

/-- The BARK block: RWS fields until Bark seals, later writes counted; the mailbox but for a command under way. -/
def State.writeBark (s : State) (addr : Nat) (w : Word64) : State :=
  if addr = 0xC0008 then s.w1cs [BARK_STATUS_EVENT] w
  else if addr = 0xC0010 then s.writeBarkCmd w
  else if addr = 0xC0040 then
    if s.bark.sealed then s.inc (BARK_CNT_COUNT 9) 1 else s.puts [BARK_POLICY_ACCEPT_DEBUG_PEERS, BARK_POLICY_GRANTS_ALLOWED] w
  else if addr = 0xC0050 then s.putsUnless s.busyJob [BARK_TREE_CFG_WIDTH, BARK_TREE_CFG_FIRST] w
  else if 0xC8000 ≤ addr ∧ addr < 0xCC000 ∧ addr % 8 = 0 then
    if s.barkBusy then s else s.setBark (fun b => { b with mbox := b.mbox.writeBytes (addr - 0xC8000) (leBytes 8 w.toNat) })
  else s

/-! ## TEL, RAS, INJ, JOURNAL (R417, R441 to R443) -/

/-- The TEL block: the region and the interval stand while ENABLE = 1; an INTERVAL below 16 is out of its range. -/
def State.writeTel (s : State) (addr : Nat) (w : Word64) : State :=
  let on := s.f TEL_CTRL_ENABLE == 1
  if addr = 0x100000 then s.putsUnless (on || decide (TEL_CTRL_INTERVAL.of w < 16)) [TEL_CTRL_INTERVAL] w
  else if addr = 0x100008 then s.putsUnless on [TEL_BASE_ADDR] w
  else if addr = 0x100010 then s.putsUnless on [TEL_LEN_GROUPS] w
  else s

/-- The RAS block and INJ_AT. Without an INJECT grant a write of the INJ block is ignored and counted (R353). -/
def State.writeRas (s : State) (addr : Nat) (w : Word64) : State :=
  if addr = 0xE0000 then s.puts [RAS_CTRL_SELFTEST_EN] w
  else if addr = 0xE0018 then s.putsUnless s.jobPresent [RAS_RELOAD_VALID, RAS_RELOAD_LABEL] w
  else if addr = 0xF0000 then if s.mayInject then s.puts [INJ_AT_RING] w else s.inc (BARK_CNT_COUNT 10) 1
  else s

/-- Whether a job with a journal is admitted, preparing, running or recovering (R443). -/
def State.journalJob (s : State) : Bool := (s.job.queue ++ s.job.cur.toList).any (fun j => j.desc.journal != 0)

/-- The JOURNAL block. -/
def State.writeJournal (s : State) (addr : Nat) (w : Word64) : State :=
  let no := s.journalJob
  if addr = 0x110000 then s.putsUnless no [JOURNAL_CTRL_LABEL, JOURNAL_CTRL_LIMB, JOURNAL_CTRL_TARGET] w
  else if addr = 0x110008 then s.putsUnless no [JOURNAL_BASE_ADDR] w
  else if addr = 0x110010 then s.putsUnless no [JOURNAL_LEN_SIZE] w
  else if addr = 0x110018 then s.putsUnless no [JOURNAL_REPLAY_ADDR] w
  else if addr = 0x110020 then s.putsUnless no [JOURNAL_REPLAY_LEN_CHUNKS] w
  else if addr = 0x110028 then s.w1cs [JOURNAL_STATUS_DIVERGED, JOURNAL_STATUS_STOPPED, JOURNAL_STATUS_HWM] w
  else s

/-- REGISTER_WRITE: a write of a register's fields that have no row of their own; read-only and reserved ones ignore it (R10, R11, R321). -/
def execRegisterWrite (addr : Nat) (w : Word64) (s : State) : Res :=
  .next <|
    match addr / 0x10000 with
    | 0x0 => s.writeId addr w
    | 0x1 => s.writeRing addr w
    | 0x2 => s.writeClk addr w
    | 0x3 => s.writePwr addr w
    | 0x4 => s.writeThm addr w
    | 0x5 => s.writeJob addr w
    | 0x6 => s.writeGraft addr w
    | 0x7 | 0x8 => s.writeFab addr w
    | 0x9 => s.writeEdge addr w
    | 0xA => s.writeSap addr w
    | 0xB => s.writeStream addr w
    | 0xC => s.writeBark addr w
    | 0xD => if addr = 0xD0008 then s.w1cs [HW_STATUS_READ_FAIL, HW_STATUS_WEAR_LIMIT, HW_STATUS_WEAR_WARN] w else s
    | 0xE | 0xF => s.writeRas addr w
    | 0x10 => s.writeTel addr w
    | 0x11 => s.writeJournal addr w
    | _ => s

end Sys2Proof.Machine
end

