-- ==== Sys2Proof/Machine/Telemetry.lean ====
section
/-!
DEFINITION. Telemetry (R411 to R413, R417): what an interval accumulates, the record at its end, and writing it.
-/
namespace Sys2Proof.Machine

/-- Changes the telemetry unit. -/
def State.setTel (s : State) (f : Tel → Tel) : State := { s with tel := f s.tel }

/-- The planned slack, B − C_NEED; 0 with no graft active (R400, R415). -/
def State.slack (s : State) : Nat :=
  match s.activeNeed with
  | some need => s.ring.budget - need
  | none => 0

/-- What one ring adds to the interval: powers of the ring, the code and cap in force, slack and margin at its edge (R413). -/
def State.telAdd (s : State) (o : EdgeObs) : State :=
  let k := s.clk.code
  s.setTel (fun t => { t with
    rings := t.rings + 1, lastRing := s.now, codeMin := min t.codeMin k, codeMax := max t.codeMax k
    pSum := t.pSum + o.compute + o.memory + o.links, computeSum := t.computeSum + o.compute, memorySum := t.memorySum + o.memory
    linksSum := t.linksSum + o.links, inputSum := t.inputSum + o.input, peak := max t.peak s.power.measW
    capMin := min t.capMin (50 * s.power.capInForce), coolMin := min t.coolMin s.modl.pCool, slackMin := min t.slackMin s.slack
    marginMin := min t.marginMin o.margin, marginDie := if o.margin < t.marginMin then o.marginDie else t.marginDie
    seamSlips := t.seamSlips + o.seamSlips, capUnmet := t.capUnmet || s.power.capUnmet
    throttled := t.throttled || decide (s.thermal.ceil < 120), hold := t.hold || s.thermal.hold
    floor := t.floor || s.power.linksFloor })

/-- The FLAGS of a record but for bit 3, which is set when it is written (Table 14.4). -/
def Tel.flags (t : Tel) : Nat :=
  bit t.capUnmet + 2 * bit t.throttled + 4 * bit t.hold + 16 * bit t.injected + 32 * bit t.floor

/-- A die's temperature in a record: 0x8000 for a die that is OFF or UNAVAILABLE (R413). -/
def State.telTemp (s : State) (d : Nat) : Nat :=
  if d < 48 ∧ (s.domain d = .off ∨ s.domain d = .unavailable) then 0x8000 else s.f (THM_DIE_TEMP d)

/-- The bytes of the record of an interval from offset 0x10 on (Table 14.4). -/
def State.telRecord (s : State) : List Byte :=
  let t := s.tel
  let mean (n : Nat) : List Byte := leBytes 4 (n / max 1 t.rings)
  let job := s.running
  leBytes 8 t.lastRing ++ leBytes 4 t.rings ++ leBytes 1 s.power.state.code ++ leBytes 1 s.clk.code ++ leBytes 1 t.codeMin
    ++ leBytes 1 t.codeMax ++ leBytes 8 ((s.power.energy - t.energyStart) / 10 ^ 6) ++ mean t.pSum ++ mean t.computeSum
    ++ mean t.memorySum ++ mean t.linksSum ++ mean t.inputSum ++ leBytes 4 t.peak ++ leBytes 4 t.capMin ++ leBytes 4 t.coolMin
    ++ leBytes 4 (s.power.allow / 10 ^ 6) ++ leBytes 2 t.slackMin ++ leBytes 2 t.marginMin ++ leBytes 1 t.marginDie
    ++ leBytes 1 s.thermal.ceil ++ [0, 0] ++ leBytes 4 ((job.map (·.desc.jobId)).getD 0) ++ leBytes 4 ((job.map (·.step)).getD 0)
    ++ leBytes 4 t.faults ++ leBytes 4 t.droops ++ leBytes 4 t.seamSlips ++ leBytes 4 t.scrubs ++ leBytes 2 (temp16 s.modl.inlet)
    ++ leBytes 2 (temp16 s.modl.outlet) ++ leBytes 2 s.modl.flow ++ leBytes 2 (temp16 s.modl.dew) ++ List.replicate 12 0
    ++ (List.range 61).flatMap (fun d => leBytes 2 (s.telTemp d)) ++ List.replicate 6 0
    ++ (List.range 60).flatMap (fun d => leBytes 2 (s.f (PWR_DIE_POWER_W d)))
    ++ leBytes 8 ((List.range 48).foldl (fun n d => if s.domain d = .on then n + 2 ^ d else n) 0)
    ++ (List.range 48).flatMap (fun d => leBytes 1 (min 255 (sget 0 t.droopCd d)))
    ++ leBytes 8 ((List.range 48).foldl (fun n d => if sget false t.hot d then n + 2 ^ d else n) 0) ++ List.replicate 72 0

/-- A record dropped: counted, and the next one written says so (R326, R412). -/
def State.telDrop (s : State) : State :=
  ((s.inc (TEL_CNT_COUNT 1) 1).inc (ID_HOST_CNT_COUNT 5) 1).setTel (fun t => { t with dropped := true })

/-- The ring just ended joins its interval, and an interval that ends with it leaves a record to be written; one that still waits is
dropped (R411). `ended` is the ring's number. -/
def State.telStep (s : State) (o : EdgeObs) (ended : Nat) : State :=
  if s.f TEL_CTRL_ENABLE = 0 then s
  else
    let s1 := (s.telAdd o).setTel (fun t => { t with lastRing := ended })
    if (ended + 1) % s.f TEL_CTRL_INTERVAL ≠ 0 then s1
    else
      let s2 := if s1.tel.due.isSome then s1.telDrop else s1
      s2.setTel (fun t => { Tel.reset with
        dropped := t.dropped, block := t.block, energyStart := s2.power.energy, due := some (t.flags, s2.telRecord) })

/-- TELEMETRY_RECORD: the waiting record is written into its data block under K_host, or dropped (R361, R412). -/
def execTelemetryRecord (s : State) : Res :=
  .next <|
    match s.tel.due with
    | none => s
    | some (flags, body) =>
      let s0 := s.setTel (fun t => { t with due := none })
      if ! s.canMaster then s0.telDrop
      else
        let n := s.f TEL_SEQ_SEQ
        let r := leBytes 4 0x454C4554 ++ leBytes 2 1 ++ leBytes 2 (flags + 8 * bit s.tel.dropped) ++ leBytes 8 n ++ body
        let block := (if n % 8 = 0 then [] else s.tel.block) ++ [r]
        let i := n / 8 % (64 * s.f TEL_LEN_GROUPS)
        let s1 := s0.rewriteBlock (2 ^ 12 * s.f TEL_BASE_ADDR) i 0x11 (block.flatMap id)
        (((s1.setTel (fun t => { t with block := block, dropped := false })).setF TEL_SEQ_SEQ (n + 1)).inc (TEL_CNT_COUNT 0) 1).event 8

/-- TEL_ENABLE_WRITE: 0 to 1 begins an interval at the ring in force and numbers records from 0; with no groups it is ignored
(R411, R417). -/
def execTelEnableWrite (b : Bool) (s : State) : Res :=
  .next <|
    if ! b then s.setF TEL_CTRL_ENABLE 0
    else if s.f TEL_CTRL_ENABLE = 1 ∨ s.f TEL_LEN_GROUPS = 0 then s
    else ((s.setF TEL_CTRL_ENABLE 1).setF TEL_SEQ_SEQ 0).setTel (fun _ => { Tel.reset with energyStart := s.power.energy })

/-- TEL_CLR_COUNTERS: clears every TEL_CNT (R417). -/
def execTelClrCounters (s : State) : Res := .next (s.clearArr TEL_CNT_COUNT 2)

end Sys2Proof.Machine
end

