-- ==== Sys2Proof/Machine/RingEdge.lean ====
section
/-!
DEFINITION. RING_EDGE (R45): everything the engine does at an internal ring edge, in the order of the functions below.
-/
namespace Sys2Proof.Machine

/-! ## Markers and watchdog of the ring that ends (R59, R60, R421) -/

/-- The cell of an armed cell injection for a detector that acts at an edge, when it fires: it must be configured (R422). -/
def State.fireMarker (s : State) (det : Nat) : Option (Nat × Nat) × State :=
  match s.ras.inj.cell with
  | some a =>
    let x := a.loc / 2 ^ 10
    let y := a.loc % 2 ^ 10
    if s.inGrid x y = true ∧ (s.cell x y).active.configured = true then
      let (p, s1) := s.fireCell x y det (fun _ => true)
      (p.map (fun _ => (x, y)), s1)
    else (none, s)
  | none => (none, s)

/-- A queue identifier (Table 6.10). -/
def queueId (kind net port unit index : Nat) : Nat := kind * 2 ^ 12 + net * 2 ^ 10 + port * 2 ^ 7 + unit * 2 ^ 5 + index

/-- The accumulator row of a cell that holds an output whose term list is not complete (R92). -/
def Cell.openRow (c : Cell) : Option Nat := c.comp.rows.findIdx? (fun r => r.any (fun o => ! o.ready))

/-- What a cell's pack waits on: credit for a whole message, or room in a local input (R81, R131). -/
def Cell.packWaits (c : Cell) : Option Nat :=
  match c.cfg.dest, c.comp.netOut with
  | _, (n, u) :: _ => some (inputId n .lPack u.route)
  | .remote _ win _ _ _ _ _, [] => if c.cfg.msgBeats ≤ c.comp.message.length then some (queueId 7 0 0 0 win) else none
  | _, [] => none

/-- What a steering unit of a cell waits on: its token while data stands at an input, or data while it holds what it needs (R195). -/
def Cell.steerWaits (c : Cell) (second : Bool) : Option Nat :=
  let n := bit second
  let st := c.steer second
  let cfg := c.steerCfg n
  let wants := decide (cfg.mode ≠ .off) && decide (cfg.mode ≠ .pass)
  match st.outgoing, st.act with
  | (net, u) :: _, _ => some (inputId net (steerPort second) u.route)
  | [], some a => if (c.steerOn n a.inp a.net).isNone then some (queueId 3 a.net.idx 0 n 0) else none
  | [], none =>
    if wants && st.tokens.isEmpty && (List.range 4).any (fun k => (c.steerSource n k).isSome) then some (queueId 4 2 0 n 0)
    else if wants && ! st.tokens.isEmpty then some (queueId 3 0 0 n 0)
    else none

/-- What a cell's compute unit waits on, with nothing to multiply: the data of its weight generator, or the terms of a row (R81, R92). -/
def Cell.computeWaits (c : Cell) : Option Nat :=
  if ! c.comp.lanes.all List.isEmpty || ! c.comp.flight.isEmpty || ! c.comp.tile.begun || c.comp.tile.faulted then none
  else if c.comp.tile.pRow < c.cfg.rows ∧ c.comp.tile.pCol < c.cfg.passes then
    (if c.parses then none else some (queueId 6 0 0 0 (c.cfg.weightAg % 4)))
  else c.openRow.map (queueId 5 0 0 0)

/-- What stands in a cell's spill queues or box inputs. -/
def Cell.boxWaits (c : Cell) : Option Nat :=
  ((List.range 4).findSome? (fun k => (c.box.spill (k + 1)).head?.map (fun h => queueId 2 h.net.idx 0 0 h.u.route))).orElse fun _ =>
    ([Net.v, .s].findSome? (fun n => (c.box.queue n .t).head?.map (fun u => queueId 8 n.idx InPort.t.qid 0 u.route))).orElse fun _ =>
    [Net.v, .s, .c].findSome? (fun n => allIn.findSome? (fun p => (c.box.queue n p).head?.map (fun u => inputId n p u.route)))

/-- The queue a cell waits on, 0 for none (R59, R200). Of several, the first of pack's, the steering units', the compute unit's, the memory
unit's and the box's is named (DESIGN CHOICE, log 40). -/
def Cell.waitsOn (c : Cell) : Nat :=
  ((c.packWaits.orElse fun _ => (c.steerWaits false).orElse fun _ => (c.steerWaits true).orElse fun _ => c.computeWaits.orElse fun _ =>
    (c.mem.out.head?.map (fun q => inputId q.1 .lMemory q.2.route)).orElse fun _ => c.boxWaits).getD 0) % 2 ^ 16

/-- A working cell whose own tile holds an incomplete output in the last ring of its stride (R92). A check or vote is not bound to the
stride (DEDUCED, log 40). -/
def State.incomplete (s : State) (ended : Nat) (x y : Nat) : Bool :=
  match s.running with
  | some j =>
    let c := s.cell x y
    j.boundary s.now && decide (j.phaseAt ended ≠ .gate) && s.live x y && c.comp.tile.places && ! c.comp.tile.faulted && c.openRow.isSome
  | none => false

/-- The queue an overrunning cell's record names: the accumulator row of an output not complete, else what the cell waits on (R59, R92). -/
def State.overrunQueue (s : State) (ended : Nat) (x y : Nat) : Nat :=
  let c := s.cell x y
  if s.incomplete ended x y then queueId 5 0 0 0 (c.openRow.getD 0) else c.waitsOn

/-- RING_OVERRUN of one die: one record, naming the overrunning cell of lowest y, then lowest x, its queue and the count (R59, log 40). -/
def State.overrunDie (s : State) (ended d : Nat) (l : List (Nat × Nat)) (inj : Option (Nat × Nat)) : State :=
  match l.filter (fun o => s.dieOf o.1 o.2 == d) with
  | [] => s
  | o :: os =>
    let q := os.foldl (fun b c => if c.2 < b.2 ∨ (c.2 = b.2 ∧ c.1 < b.1) then c else b) o
    let hit := (o :: os).any (fun c => inj == some c)
    s.raise ⟨.ringOverrun, 1⟩ (.cell q.1 q.2) (s.overrunQueue ended q.1 q.2 + 2 ^ 16 * (os.length + 1)) true (.ended ended) hit

/-- Every overrunning cell of the ring that ended: those that have not reached their marker, those with an incomplete output, and an
injected one (R59, R92, DET 5). -/
def State.overruns (s : State) (ended : Nat) (l : List (Nat × Nat)) (inj : Option (Nat × Nat)) : State :=
  let own := (l.filter (fun o => s.inGrid o.1 o.2)) ++
    ((s.cells.map (fun p => keyXY p.1)).filter (fun p => s.incomplete ended p.1 p.2)) ++ inj.toList
  s.dies.foldl (fun s d => s.overrunDie ended d own.eraseDups inj) s

/-- A cell whose echo an injection suppresses is dead after the second ring (R421, DET 10). -/
def State.watchdogInject (s : State) (ended : Nat) : State :=
  let late := (s.cells.filter (fun p => p.2.watchMiss != 0)).map (fun p => keyXY p.1)
  let s1 := late.foldl (fun s p =>
    (s.setCell p.1 p.2 { s.cell p.1 p.2 with watchMiss := 0 }).declareDead p.1 p.2 1 none (.ended ended) true) s
  match s1.fireMarker 10 with
  | (some (x, y), s2) => s2.setCell x y { s2.cell x y with watchMiss := 1 }
  | (none, s2) => s2

/-! ## The new ring (R45, R57, R67, R202, R433) -/

/-- RING_NUMBER advances, and settings written since the last edge come into force (R45, R67, R76). -/
def State.turn (s : State) : State :=
  let s1 := s.setRing (fun r => { r with
    number := ringAdd r.number 1, edgeDue := false, guard := s.f RING_CONFIG_GUARD, edgeDelay := s.f RING_CONFIG_EDGE_DELAY })
  s1.setClk (fun k => { k with sscDepth := s.f CLK_SSC_DEPTH, sscOn := decide (s.f CLK_SSC_ENABLE = 1) })

/-- Records logged and bytes sent are counted anew in each ring (R306, R411). -/
def State.freshRing (s : State) : State :=
  { s with
    ras := { s.ras with ringCount := 0 }
    ports := smap EdgePort.reset (fun _ p => { p with usedS := 0, usedU := 0, usedS1 := 0, usedU1 := 0 }) s.ports }

/-- A new ring: its number, its settings, the probe's cell, and the counts that waited for the edge (R45, R202, R433). -/
def State.newRing (s : State) : State := s.turn.probeSelect.settleRing.freshRing

/-- The margin of the ring that ended, seam slips, and the crystal's offset (R60, R76). -/
def State.ringStats (s : State) (o : EdgeObs) (ended : Nat) : State :=
  let s1 := (s.incSat RING_ERRORS_SEAM_SLIPS o.seamSlips).setF RING_PERIOD_MEAS_OFFSET_PPB (o.ppb % 2 ^ 32).toNat
  if o.margin < s1.f RING_MARGIN_MIN_MARGIN then
    ((s1.setF RING_MARGIN_MIN_MARGIN o.margin).setF RING_MARGIN_RING_LO (ended % 2 ^ 32)).setF RING_MARGIN_DIE o.marginDie
  else s1

/-! ## Aborts that take effect at the edge (R256, R257) -/

/-- An abort registered before this ring ends the job, unless the running step has passed its commit ring: then the step's UPDATE phase
runs to its end first, and the final step completes (R257). -/
def State.edgeAbort (s : State) (ended : Nat) : State :=
  match s.job.cur with
  | none => s
  | some j =>
    match j.abort with
    | none => s
    | some (reason, a) =>
      if ringBefore a s.now = false then s
      else
        match j.stage with
        | .preparing => s.endJob 2 reason a
        | .recovering => (s.setF RAS_STATUS_LAST_RESULT 6).endJob 2 reason ended
        | .running =>
          if j.stepCommitted then
            if j.finalStep = false ∧ s.now = ringAdd j.stepRing j.l then
              (if j.phase = .update then s.refreshCopies else s).endJob 2 reason ended
            else s
          else if ringBefore a j.commitRing then
            let s1 := (s.syncPeers 2 s.now j.desc.jobId j.step).stepRecord j.step 2
            if j.blocked then s1.endJob 3 0 a else s1.endJob 2 reason a
          else s

/-! ## Measurements (R25, R395, R400, R402, R403, R410, R415, R416) -/

/-- The coolant and input readings; DET 34 sets the flow. -/
def State.takeReadings (s : State) (o : EdgeObs) : State :=
  let (p, s0) := s.fireRoot none 34 (fun _ => true)
  let flow := match p with
    | some v => 10 * v
    | none => o.flow
  let s1 := s0.setModl (fun m => { m with flow := flow, inlet := o.inlet, outlet := o.outlet, dew := o.dew, ambient := o.ambient })
  (((s1.setF THM_COOLANT_FLOW flow).setF THM_COOLANT_INLET (temp16 o.inlet)).setF THM_COOLANT_OUTLET (temp16 o.outlet)).setF
    THM_COOLANT_DEW (temp16 o.dew)

/-- The power readings; DET 37 raises P_1ms for one decision interval. C is evaluated and engine energy accumulates (R395, R410). -/
def State.takePower (s : State) (o : EdgeObs) : State :=
  let (p, s0) := s.fireRoot none 37 (fun _ => true)
  let s1 := match p with
    | some v => s0.setPower (fun q => { q with boostW := 50 * v, boostLeft := decisionRings s.ring.period })
    | none => s0
  let w := o.p1ms + (if 0 < s1.power.boostLeft then s1.power.boostW else 0)
  let s2 := s1.setPower (fun q => { q with
    measW := w, boostLeft := q.boostLeft - 1, capInForce := s1.capUnits
    energy := q.energy + (o.compute + o.memory + o.links) * periodNs s1.ring.period })
  let s3 := [(PWR_MEAS_ENGINE_W, w), (PWR_MEAS_INPUT_W, o.input), (PWR_MEAS_COMPUTE_W, o.compute), (PWR_MEAS_MEMORY_W, o.memory),
    (PWR_MEAS2_LINKS_W, o.links), (PWR_MEAS2_INPUT_10MV, o.inputMv), (PWR_SLACK_MIN_MARGIN, o.margin),
    (PWR_SLACK_PLANNED_SLACK, s2.slack), (PWR_SLACK_FIT_CODE, s2.fit),
    (PWR_SLACK_HEADROOM, ((((50 * s2.power.capInForce : Nat) : Int) - w) / 10 % 2 ^ 16).toNat)].foldl (fun s q => s.setF q.1 q.2) s2
  (o.diePower.zipIdx.take 60).foldl (fun s q => s.setF (PWR_DIE_POWER_W q.2) q.1) s3

/-- The excursion allowance (R402): A falls by what lies above C, refills from what lies below it; at 0 above the cap during a step
POWER/EXCURSION_SPENT stops the commit. -/
def State.excursion (s : State) (inj : Bool) : State :=
  let c := 50 * s.power.capInForce
  let p := s.power.measW
  let ns := periodNs s.ring.period
  let spent := s.power.allow - (p - c) * ns
  let left := min (10 ^ 9 * s.f PWR_EXCURSION_ALLOW_J) (spent + min (s.f PWR_EXCURSION_REFILL_W) (c - p) * ns)
  let s1 := s.setPower (fun q => { q with allow := left })
  if spent = 0 ∧ c < p ∧ s.running.isSome = true then s1.raise ⟨.power, 3⟩ .engine 0 true .start inj else s1

/-- Whether a mean over 100 µs lies above 46.0 kW of engine power or 48.5 kW of input power (R403). -/
def EdgeObs.overLimits (o : EdgeObs) : Bool := decide (46000 < o.mean100) || decide (48500 < o.input100)

/-- POWER/OVERLIMIT (R403): once at the start of an episode and once for each later step that begins in it; the code is held at 0 until the
next step starts. -/
def State.overlimit (s : State) (above : Bool) : State :=
  let cur := s.running.map (·.stepRing)
  let later := decide (cur.isSome = true ∧ cur ≠ s.power.overStep)
  if above then
    if s.power.overOn = false ∨ later = true then
      (s.setPower (fun p => { p with overOn := true, overStep := cur, codeHeld := true })).raise ⟨.power, 4⟩ .engine 0 true .start false
    else s
  else s.setPower (fun p => { p with overOn := false, codeHeld := p.codeHeld && ! later })

/-! ## Injections that act at an edge (R422) -/

/-- DET 17, 19 and 23: PCS lock, auxiliary power and session liveness. -/
def State.edgeInject (s : State) : State :=
  match s.ras.inj.edge with
  | none => s
  | some a =>
    let p := a.loc % 128
    let h := decide (a.loc / 128 % 2 = 1)
    let i := a.loc / 2 ^ 16
    if a.det = 17 ∧ (s.port p).link h = .up then
      match s.fireEdge (a.loc % 256) 17 with
      | (some _, s1) => s1.leaveUp p h .train .lock true
      | (none, s1) => s1
    else if a.det = 19 ∧ (s.port p).auxOn = true then
      match s.fireEdge (a.loc % 256) 19 with
      | (some _, s1) => s1.auxOver p true
      | (none, s1) => s1
    else if a.det = 23 ∧ s.isLive i = true then
      match s.fireEdge i 23 with
      | (some _, s1) => s1.loseSes i 3 0 true
      | (none, s1) => s1
    else s

/-- Whether a root-die injection that acts at an edge meets its event: the unit it names is there. -/
def State.rootMeets (s : State) (det d : Nat) : Bool :=
  if det = 28 then s.clk.xtal
  else if det = 29 then decide (d ≤ 60) && decide (s.pll d = .locked)
  else if det = 33 ∨ det = 38 then s.modl.mains
  else if det = 35 then decide (s.domain d = .on)
  else if det = 36 then s.modl.mains && (decide (48 ≤ d) || decide (s.domain d = .on))
  else if det = 44 then s.host.up && s.host.ideSecure
  else false

/-- DET 28, 29, 33, 35, 36, 38 and 44: the crystal, a PLL, the hard trip, droop, a rail, the main input and IDE. -/
def State.rootInject (s : State) : State :=
  match s.ras.inj.root with
  | none => s
  | some a =>
    if s.rootMeets a.det a.loc = false then s
    else
      match s.fireRoot none a.det (fun _ => true) with
      | (none, s1) => s1
      | (some v, s1) =>
        if a.det = 28 ∨ (a.det = 29 ∧ a.loc = 60) then s1.sourceLoss true
        else if a.det = 29 then s1.pllLoss a.loc 2 true
        else if a.det = 33 then s1.hardTripNow a.loc true
        else if a.det = 35 then (List.range v).foldl (fun s _ => s.droop a.loc true) s1
        else if a.det = 36 then s1.railFault a.loc true
        else if a.det = 38 then s1.inputFails true
        else s1.ideFails true

/-! ## Trips, coolant and condensation (R25, R26, R408) -/

/-- Flow below 20 L/min or an inlet above 45 °C: the running step aborts, THERM_TRIP_N asserts, main rails drop (R25). -/
def State.coolantTrip (s : State) (inj : Bool) : State :=
  if s.modl.mains = true ∧ (s.modl.flow < 2000 ∨ 4500 < s.modl.inlet) then
    (s.raiseEnd ⟨.thermal, 2⟩ .engine 0 .start inj).thermTrip.dropRails
  else s

/-- With a condensation hold and no running job, main rails drop at the edge (R26). -/
def State.condensationEdge (s : State) : State :=
  if s.modl.hold = true ∧ s.modl.mains = true ∧ s.running = none then s.holdDrop else s

/-! ## The end of pending things -/

/-- An armed SWAP_RING that the counter has passed without an edge at it fails (R225, R226). -/
def State.swapPassed (s : State) : State :=
  match s.graft.armed with
  | some n => if ringBefore n s.now then s.swapFails 9 else s
  | none => s

/-- A pending power request begins with no job present (Table 14.2). -/
def State.beginEntry (s : State) : State :=
  match s.power.pending with
  | some st =>
    if s.power.state = .run ∧ s.power.transit = .none ∧ s.jobPresent = false then
      s.setPower (fun p => { p with transit := .entering st, pending := none, fetchStop := true })
    else s
  | none => s

/-- Compute dies that neither plane uses power off, and lose what they held (R392). -/
def State.powerOffDies (s : State) : State :=
  if s.boot.stage = 31 ∧ s.inRun = true then
    (s.dies.filter (fun d => decide (s.domain d = .on) && ! s.dieUsed d)).foldl (fun s d => (s.loseDie d).setDomain d .off) s
  else s

/-! ## Frequency choice (R58, R62, R63, R225, R241, R399) -/

/-- The lowest code for a graft that becomes active at ring n, once a change decided now could take effect no later than n: under its own
PERIOD_CODE where the period changes there (R63, R225). -/
def State.comingFit (s : State) (n : Nat) (g : Graft) : Nat :=
  if ringBefore n s.now = false ∧ ringsTo s.now n ≤ s.lead then
    let period := if s.ring.changePending = true ∧ s.ring.changeAt = n then g.sched.period else s.ring.period
    (s.fitOf period g.sched.cNeed).getD s.maxCode
  else 0

/-- The ring at which the SHADOW graft is to become active: an armed SWAP_RING, or p of the first admitted job that names it. -/
def State.comingSwap (s : State) : Option (Nat × Graft) :=
  match s.graft.shadow with
  | none => none
  | some g =>
    match s.graft.armed with
    | some n => some (n, g)
    | none =>
      match s.job.queue with
      | j :: _ =>
        if j.desc.names g = true ∧ (s.graft.active.any (fun a => j.desc.names a)) = false then some (j.p, g) else none
      | [] => none

/-- fit of R399 as the engine plans it: for both planes around a swap, and the highest code before a period change of unknown size. -/
def State.plannedFit (s : State) : Nat :=
  let swap := match s.comingSwap with
    | some (n, g) => s.comingFit n g
    | none => 0
  let named := (s.comingSwap.map (·.1)) = some s.ring.changeAt
  let change := if s.ring.changePending = true ∧ named = false ∧ ringBefore s.now s.ring.changeAt = true ∧
      ringsTo s.now s.ring.changeAt ≤ s.lead then s.maxCode else 0
  max s.fit (max swap change)

/-- The codes that Z of a waiting or preparing job was computed at, held until its S (R241). -/
def State.heldCode (s : State) : Nat :=
  let q := s.job.queue.foldl (fun m j => max m j.zCode) 0
  match s.job.cur with
  | some j => if j.stage = .preparing then max q j.zCode else q
  | none => q

/-- The code the engine selects (R399), never above MAX_CODE (R58); 0 while OVERLIMIT holds it (R403). -/
def State.chooseCode (s : State) : Nat :=
  let ceil := min s.maxCode (min s.power.capCeil s.thermal.ceil)
  if s.power.codeHeld then 0
  else min s.maxCode (max s.heldCode (max s.plannedFit (min (s.f CLK_FREQ_MIN_CODE) ceil)))

/-- A code that differs from the one in force or decided last becomes a pending change, at the first edge at least 24 µs ahead; it
replaces pending changes at its own edge or later (R62). Through boot stage 14 the CPLLs stay at code 48 (R66, Table 16.2; DEDUCED,
log 74). -/
def State.decideCode (s : State) : State :=
  let k := s.chooseCode
  let last := (s.clk.pending.getLast?.map (·.1)).getD s.clk.code
  if s.clk.xtal = false ∨ s.boot.stage < 15 ∨ k = last then s
  else
    let e := ringAdd s.now s.lead
    s.setClk (fun c => { c with pending := c.pending.filter (fun p => ringBefore p.2 e) ++ [(k, e)] })

/-! ## Sessions, droop windows, replay -/

/-- Sessions that wait for a step boundary take it (R281). -/
def State.edgeSessions (s : State) : State :=
  match s.running with
  | none => s.sessionBoundary
  | some j => if ringsTo j.s s.now % max 1 j.l = 0 then s.sessionBoundary else s

/-- The droop counts of R404 begin anew each millisecond. -/
def State.droopWindow (s : State) : State :=
  if ringsIn 1000000 s.ring.period ≤ ringsTo s.power.droopSince s.now then
    s.setPower (fun p => { p with droops := [], droopSince := s.now })
  else s

/-- The injection of a recorded INJECT event is armed again in its register (R439). -/
def State.replayInject (s : State) (off word : Nat) : State :=
  let w := BitVec.ofNat 64 word
  let q := s.ras.inj
  let put (q : Inject) : State := { s with ras := { s.ras with inj := q } }
  if off = 0xF0008 then
    put { q with cell := some ⟨INJ_CELL_DET.of w, INJ_CELL_PARAM.of w, 2 ^ 10 * INJ_CELL_X.of w + INJ_CELL_Y.of w, s.now⟩ }
  else if off = 0xF0010 then
    put { q with net := some ⟨INJ_NET_DET.of w, INJ_NET_BITS.of w,
      2 ^ 34 * INJ_NET_PORT.of w + 2 ^ 32 * INJ_NET_NET.of w + 2 ^ 10 * INJ_NET_X.of w + INJ_NET_Y.of w, s.now⟩ }
  else if off = 0xF0018 then
    put { q with edge := some ⟨INJ_EDGE_DET.of w, INJ_EDGE_PARAM.of w,
      2 ^ 16 * INJ_EDGE_SESSION.of w + 128 * INJ_EDGE_HALF.of w + INJ_EDGE_PORT.of w, s.now⟩ }
  else if off = 0xF0020 then
    put { q with root := some ⟨INJ_ROOT_DET.of w, INJ_ROOT_PARAM.of w, INJ_ROOT_DIE.of w, s.now⟩ }
  else s

/-- The WRITE a PEER record stands for (Table 15.11), under the session's epoch and the generation of the target window now in
force: those of the recorded run are past (DESIGN CHOICE, log 98). -/
def State.peerWrite (s : State) (r : JournalRec) : Frame :=
  let i := rd r.body 0 2
  let gen := ((s.cell (rd r.body 24 2) (rd r.body 26 2)).mem.win (rd r.body 19 1 % 16)).gen
  { Frame.blank 1 with
    session := i, epoch := s.sesEpoch i, seq := rd r.body 4 8 % 2 ^ 32
    fields := cut r.body 16 4 ++ leBytes 2 gen ++ cut r.body 22 6 ++ [0, 0, 0, 0], data := r.body.drop 32 }

/-- The target cell of a replayed WRITE holds credit for it: how much the peer had been granted is not in the recording (DESIGN CHOICE, log
98). -/
def State.peerCredit (s : State) (r : JournalRec) : State :=
  let (x, y) := (rd r.body 24 2, rd r.body 26 2)
  let i := rd r.body 0 2
  let w := rd r.body 19 1 % 16
  let c := s.cell x y
  let n := rd r.body 28 4
  let q : Credit := ⟨.session i (s.sesEpoch i), w, (c.mem.win w).gen, n, none⟩
  if ! s.inGrid x y || c.mem.credits.any (fun p => p.writer == q.writer && p.window == w && p.gen == q.gen && decide (n ≤ p.bytes)) then s
  else s.setCell x y { c with mem := { c.mem with credits := c.mem.credits ++ [q] } }

/-- A recorded response answers the oldest READ of its session that waits; one with no payload deferred or refused it, and answers nothing
(R438, R439; DESIGN CHOICE, log 98). -/
def State.peerAnswer (s : State) (r : JournalRec) : State :=
  if rd r.body 28 4 = 0 then s
  else
  match (List.range 12).findSome? (fun k => ((s.limb k).pending.find? (fun q =>
      q.kind == .read && ! q.inward && q.seq.isNone && q.session == rd r.body 0 2)).map (fun q => (k, q))) with
  | some (k, q) => (s.dropPend k q.tag).answerRead q q.gen false (r.body.drop 32)
  | none => s

/-- A recorded PEER payload is supplied: a WRITE is placed, a READ's answer returned; a peer's own requests need no answer now. -/
def State.peerEvent (s : State) (r : JournalRec) : State :=
  if rd r.body 12 1 = 1 then (s.peerCredit r).placeWrite (rd r.body 0 2) (s.peerWrite r)
  else if rd r.body 12 1 = 2 then s.peerAnswer r
  else s

/-- Whether a record is an event that replay applies at an edge: ABORT, EMERG, INJECT, and PEER where inputs come from the recording alone
(R439); recovery replay takes PEER and INJECT (R438). -/
def State.replayable (s : State) (r : JournalRec) : Bool :=
  (! s.reenacts && (decide (r.kind = 3) || (decide (r.kind = 2) && decide (rd r.body 0 1 = 5) && (rd r.body 2 1).testBit 4))) ||
    decide (r.kind = 7) || (decide (r.kind = 4) && s.alone)

/-- One recorded event is applied (R439). -/
def State.replayEvent (s : State) (r : JournalRec) : State :=
  let j := s.journal
  let s1 := ({ s with journal := { j with replay := j.replay.erase r, pos := j.pos + journalSize r.body } } : State).inc
    (JOURNAL_CNT_COUNT 3) 1
  if r.kind = 3 then s1.registerAbort s.jobId (rd r.body 0 1) s.now
  else if r.kind = 2 then s1.registerAbort s.jobId 2 s.now
  else if r.kind = 7 then s1.replayInject (rd r.body 0 4) (rd r.body 8 8)
  else s1.peerEvent r

/-- The recorded events whose ring plus Δ is the ring in force (R439). -/
def State.replayRing (s : State) : State :=
  if s.journal.replaying = false ∧ s.reenacts = false then s
  else
    let due (r : JournalRec) : Bool := s.replayable r && decide ((((r.ring : Int) + s.job.delta) % (ringMod : Int)).toNat = s.now)
    (s.journal.replay.filter due).foldl State.replayEvent s

/-! ## The edge -/

/-- Whether an edge is due: the receiver took or predicted one, or the engine counts its ring by PTP (R45, R53, R54). -/
def State.edgeComes (s : State) : Bool :=
  decide (s.power.state ≠ .off) && (s.ring.edgeDue || (s.ptpOn && (decide (s.ring.lock = .locked) || decide (s.ring.lock = .holdover))))

/-- What ends with the ring: markers, watchdog, counts, measurements, aborts (R59, R60, R202, R257, R410, R411, R421, R433). -/
def State.closeRing (s : State) (o : EdgeObs) : State :=
  let ended := s.now
  let (m, s1) := s.fireMarker 5
  let s2 := ((s1.watchdogInject ended).newRing.newBudget).ringStats o ended
  let s3 := (((s2.takeReadings o).takePower o).telStep o ended)
  (s3.overruns ended o.overruns m).edgeAbort ended

/-- What the engine protects at the edge (R25, R26, R402, R403, R408, R422). -/
def State.protect (s : State) (o : EdgeObs) : State :=
  let s1 := (s.excursion (decide (s.power.measW ≠ o.p1ms))).overlimit o.overLimits
  let s2 := s1.edgeInject.rootInject
  ((s2.trips false s2.hotDies).coolantTrip (decide (s.modl.flow ≠ o.flow))).condensationEdge

/-- What begins with the ring: the swap that was missed, power entry, domains, the frequency decision, sessions, replay (R62, R225, R281,
R392, R399, R439). At the edge of ring c the code is chosen by PERIOD_CHANGE, for the new budget (R63). -/
def State.openRing (s : State) : State :=
  let s1 := s.swapPassed.beginEntry.powerOffDies
  let s2 := if s.ring.changePending = true ∧ s.now = s.ring.changeAt then s1 else s1.decideCode
  (s2.edgeSessions.droopWindow.replayRing).send .ringPulse

/-- The edge of a pending change once the period changes at ring c: the first at least 24 µs after its decision, which was made `since`
rings before c (R62). -/
def reEdge (old new c e : Nat) : Nat :=
  if ringBefore e c then e
  else
    let since := ringsIn 24000 old - ringsTo c e
    ringAdd c ((24000 - since * periodNs old + periodNs new - 1) / periodNs new)

/-- PERIOD_CHANGE: at ring c the period of that ring's frame is in force, CHANGE_PENDING clears, the budget is recomputed, and the code for
it is chosen; a graft that fits no more aborts the running step (R51, R62, R63). -/
def execPeriodChange (s : State) : Res :=
  .next <|
    if s.ring.changePending ∧ s.now = s.ring.changeAt then
      let p := s.ring.prevPeriod
      let old := s.ring.period
      let s1 := if p = old then s else s.timeRecord 6 0 s.now
      let s2 := (s1.setRing (fun r =>
        match r.changeNext with
        | some c => { r with period := p, changeAt := c, changeNext := none }
        | none => { r with period := p, changePending := false })).event 2
      let s3 := (s2.setClk (fun k => { k with pending := k.pending.map (fun q => (q.1, reEdge old p s.now q.2)) })).newBudget
      let s4 := match s3.activeNeed with
        | some need => if s3.fitsMax p need then s3 else s3.raiseAbort ⟨.graft, 8⟩ .engine 0 .start false
        | none => s3
      s4.decideCode
    else s

/-- RING_EDGE: the internal ring edge ends a ring and begins the next (R45). Phases, steps, swaps, decision edges and frequency changes of
the new ring are commands that follow it. -/
def execRingEdge (o : EdgeObs) (s : State) : Res :=
  .next (if s.edgeComes then ((s.closeRing o).protect o).openRing else s)

end Sys2Proof.Machine
end

