-- ==== Sys2Proof/Machine/Dispatch.lean ====
section
/-!
DEFINITION. The dispatch: one arm per command, each a direct call of its meaning.
-/
namespace Sys2Proof.Machine

/-- The effect of a command on everything but the queue. -/
def exec (i : Instr) (s : State) : Host.Outcome State Fault Refusal :=
  match i with
  | .timecodeFrame f => Sys2Proof.Machine.execTimecodeFrame f s
  | .delimiterMissing => Sys2Proof.Machine.execDelimiterMissing s
  | .periodChange => Sys2Proof.Machine.execPeriodChange s
  | .ringEdge o => Sys2Proof.Machine.execRingEdge o s
  | .freqChange => Sys2Proof.Machine.execFreqChange s
  | .ptpSync o => Sys2Proof.Machine.execPtpSync o s
  | .crystalLoss => Sys2Proof.Machine.execCrystalLoss s
  | .crystalGood => Sys2Proof.Machine.execCrystalGood s
  | .clockHandover => Sys2Proof.Machine.execClockHandover s
  | .pllUnlock pll => Sys2Proof.Machine.execPllUnlock pll s
  | .pllRelock pll => Sys2Proof.Machine.execPllRelock pll s
  | .relockTimeout pll => Sys2Proof.Machine.execRelockTimeout pll s
  | .clkMeasWindow pll khz => Sys2Proof.Machine.execClkMeasWindow pll khz s
  | .ringConfigWrite w => Sys2Proof.Machine.execRingConfigWrite w s
  | .ringEnableWrite b => Sys2Proof.Machine.execRingEnableWrite b s
  | .ringSourceWrite b => Sys2Proof.Machine.execRingSourceWrite b s
  | .clrStats => Sys2Proof.Machine.execClrStats s
  | .clkFreqWrite w => Sys2Proof.Machine.execClkFreqWrite w s
  | .clkSscWrite w => Sys2Proof.Machine.execClkSscWrite w s
  | .clkGateReq w => Sys2Proof.Machine.execClkGateReq w s
  | .gateRequestDone => Sys2Proof.Machine.execGateRequestDone s
  | .blockParse x y => Sys2Proof.Machine.execBlockParse x y s
  | .groupIssue x y lane => Sys2Proof.Machine.execGroupIssue x y lane s
  | .groupSteal x y lane => Sys2Proof.Machine.execGroupSteal x y lane s
  | .spanLoad x y => Sys2Proof.Machine.execSpanLoad x y s
  | .predictScore x y => Sys2Proof.Machine.execPredictScore x y s
  | .termAccept x y row net => Sys2Proof.Machine.execTermAccept x y row net s
  | .outputComplete x y row => Sys2Proof.Machine.execOutputComplete x y row s
  | .outputSetActivate x y => Sys2Proof.Machine.execOutputSetActivate x y s
  | .pack x y => Sys2Proof.Machine.execPack x y s
  | .bankAccess x y clients upsets => Sys2Proof.Machine.execBankAccess x y clients upsets s
  | .scrubAccess x y cycle ended upsets => Sys2Proof.Machine.execScrubAccess x y cycle ended upsets s
  | .remoteWriteHeader x y cycle => Sys2Proof.Machine.execRemoteWriteHeader x y cycle s
  | .remoteWriteBeat x y => Sys2Proof.Machine.execRemoteWriteBeat x y s
  | .creditReq x y => Sys2Proof.Machine.execCreditReq x y s
  | .creditGrant x y => Sys2Proof.Machine.execCreditGrant x y s
  | .nackReceive x y => Sys2Proof.Machine.execNackReceive x y s
  | .creditRelease x y window units => Sys2Proof.Machine.execCreditRelease x y window units s
  | .creditRefresh x y => Sys2Proof.Machine.execCreditRefresh x y s
  | .windowClose x y window cycle => Sys2Proof.Machine.execWindowClose x y window cycle s
  | .windowOpen x y window => Sys2Proof.Machine.execWindowOpen x y window s
  | .windowReopen x y window cycle => Sys2Proof.Machine.execWindowReopen x y window cycle s
  | .windowClosed x y window => Sys2Proof.Machine.execWindowClosed x y window s
  | .readReq x y => Sys2Proof.Machine.execReadReq x y s
  | .readData x y => Sys2Proof.Machine.execReadData x y s
  | .unitArrive x y net port errs => Sys2Proof.Machine.execUnitArrive x y net port errs s
  | .tokenArrive x y port err => Sys2Proof.Machine.execTokenArrive x y port err s
  | .portGrant x y net out => Sys2Proof.Machine.execPortGrant x y net out s
  | .steerAct x y unit => Sys2Proof.Machine.execSteerAct x y unit s
  | .tapChannelDeliver tap net toCell errs => Sys2Proof.Machine.execTapChannelDeliver tap net toCell errs s
  | .watchdog x y => Sys2Proof.Machine.execWatchdog x y s
  | .loaderWrite tap => Sys2Proof.Machine.execLoaderWrite tap s
  | .graftLoad => Sys2Proof.Machine.execGraftLoad s
  | .abortLoad => Sys2Proof.Machine.execAbortLoad s
  | .graftClrCounters => Sys2Proof.Machine.execGraftClrCounters s
  | .stagingDone bytes => Sys2Proof.Machine.execStagingDone bytes s
  | .stagingReadError => Sys2Proof.Machine.execStagingReadError s
  | .verifyDone => Sys2Proof.Machine.execVerifyDone s
  | .broadcastDone late => Sys2Proof.Machine.execBroadcastDone late s
  | .swap => Sys2Proof.Machine.execSwap s
  | .postPoll h slots => Sys2Proof.Machine.execPostPoll h slots s
  | .completionWrite => Sys2Proof.Machine.execCompletionWrite s
  | .preparationEdge => Sys2Proof.Machine.execPreparationEdge s
  | .transposeBuildDone => Sys2Proof.Machine.execTransposeBuildDone s
  | .stepStart => Sys2Proof.Machine.execStepStart s
  | .phaseStart => Sys2Proof.Machine.execPhaseStart s
  | .commitDecision => Sys2Proof.Machine.execCommitDecision s
  | .jobEnd => Sys2Proof.Machine.execJobEnd s
  | .claim cx cy x y => Sys2Proof.Machine.execClaim cx cy x y s
  | .claimReply x y => Sys2Proof.Machine.execClaimReply x y s
  | .hashCompare g tile => Sys2Proof.Machine.execHashCompare g tile s
  | .voteResolve g tile => Sys2Proof.Machine.execVoteResolve g tile s
  | .jobAbort jobId => Sys2Proof.Machine.execJobAbort jobId s
  | .jobEnableWrite b => Sys2Proof.Machine.execJobEnableWrite b s
  | .jobClrCounters => Sys2Proof.Machine.execJobClrCounters s
  | .checkpointWrite => Sys2Proof.Machine.execCheckpointWrite s
  | .adminEnWrite port b => Sys2Proof.Machine.execAdminEnWrite port b s
  | .presenceChange port b => Sys2Proof.Machine.execPresenceChange port b s
  | .negotiationDone port half split => Sys2Proof.Machine.execNegotiationDone port half split s
  | .negotiationTimeout port half => Sys2Proof.Machine.execNegotiationTimeout port half s
  | .trainDone port half => Sys2Proof.Machine.execTrainDone port half s
  | .trainTimeout port half => Sys2Proof.Machine.execTrainTimeout port half s
  | .linkDown port half codewords => Sys2Proof.Machine.execLinkDown port half codewords s
  | .retrain port => Sys2Proof.Machine.execRetrain port s
  | .portReset port => Sys2Proof.Machine.execPortReset port s
  | .auxOvercurrent port => Sys2Proof.Machine.execAuxOvercurrent port s
  | .edgeClrCounters => Sys2Proof.Machine.execEdgeClrCounters s
  | .frameReceive port half bytes => Sys2Proof.Machine.execFrameReceive port half bytes s
  | .frameTransmit port half => Sys2Proof.Machine.execFrameTransmit port half s
  | .ackFrameSend n => Sys2Proof.Machine.execAckFrameSend n s
  | .ackReceive k => Sys2Proof.Machine.execAckReceive k s
  | .rtoExpiry n => Sys2Proof.Machine.execRtoExpiry n s
  | .deadlineUnacked n count => Sys2Proof.Machine.execDeadlineUnacked n count s
  | .sapEgress tap net => Sys2Proof.Machine.execSapEgress tap net s
  | .writeReceive n => Sys2Proof.Machine.execWriteReceive n s
  | .readReceive n => Sys2Proof.Machine.execReadReceive n s
  | .creditReceive n => Sys2Proof.Machine.execCreditReceive n s
  | .responseReceive n => Sys2Proof.Machine.execResponseReceive n s
  | .noticeReceive n => Sys2Proof.Machine.execNoticeReceive n s
  | .syncReceive n => Sys2Proof.Machine.execSyncReceive n s
  | .sessionOpen w => Sys2Proof.Machine.execSessionOpen w s
  | .sessionListen w => Sys2Proof.Machine.execSessionListen w s
  | .sessionClose w => Sys2Proof.Machine.execSessionClose w s
  | .controlOpen port half => Sys2Proof.Machine.execControlOpen port half s
  | .openAck k => Sys2Proof.Machine.execOpenAck k s
  | .openRefuse k => Sys2Proof.Machine.execOpenRefuse k s
  | .handshakeTimeout n => Sys2Proof.Machine.execHandshakeTimeout n s
  | .controlEpoch n => Sys2Proof.Machine.execControlEpoch n s
  | .epochAck n => Sys2Proof.Machine.execEpochAck n s
  | .controlClose n => Sys2Proof.Machine.execControlClose n s
  | .closingDone n => Sys2Proof.Machine.execClosingDone n s
  | .keepalive n => Sys2Proof.Machine.execKeepalive n s
  | .holdExpiry n => Sys2Proof.Machine.execHoldExpiry n s
  | .graceExpiry n => Sys2Proof.Machine.execGraceExpiry n s
  | .sapConfigWrite w => Sys2Proof.Machine.execSapConfigWrite w s
  | .sapClrCounters => Sys2Proof.Machine.execSapClrCounters s
  | .streamRequest tap => Sys2Proof.Machine.execStreamRequest tap s
  | .streamDataReceive k => Sys2Proof.Machine.execStreamDataReceive k s
  | .streamWrite limb => Sys2Proof.Machine.execStreamWrite limb s
  | .streamResponse n => Sys2Proof.Machine.execStreamResponse n s
  | .deferredReissue limb tag => Sys2Proof.Machine.execDeferredReissue limb tag s
  | .cacheUnpin limb addr => Sys2Proof.Machine.execCacheUnpin limb addr s
  | .rootAdvance => Sys2Proof.Machine.execRootAdvance s
  | .treeWrite => Sys2Proof.Machine.execTreeWrite s
  | .streamFlush => Sys2Proof.Machine.execStreamFlush s
  | .streamExtentWrite w => Sys2Proof.Machine.execStreamExtentWrite w s
  | .streamClrCounters => Sys2Proof.Machine.execStreamClrCounters s
  | .hostportReset cause => Sys2Proof.Machine.execHostportReset cause s
  | .hostportUp speed width perstLow => Sys2Proof.Machine.execHostportUp speed width perstLow s
  | .busMasterEnable b => Sys2Proof.Machine.execBusMasterEnable b s
  | .dstateChange d => Sys2Proof.Machine.execDstateChange d s
  | .ideFail => Sys2Proof.Machine.execIdeFail s
  | .completionTimeout r => Sys2Proof.Machine.execCompletionTimeout r s
  | .bar0BadAccess => Sys2Proof.Machine.execBar0BadAccess s
  | .registerWrite addr w => Sys2Proof.Machine.execRegisterWrite addr w s
  | .intCauseClear w => Sys2Proof.Machine.execIntCauseClear w s
  | .intEnableWrite w => Sys2Proof.Machine.execIntEnableWrite w s
  | .idClrCounters => Sys2Proof.Machine.execIdClrCounters s
  | .dynamicAddress addr => Sys2Proof.Machine.execDynamicAddress addr s
  | .getId => Sys2Proof.Machine.execGetId s
  | .getStatus => Sys2Proof.Machine.execGetStatus s
  | .getEnv => Sys2Proof.Machine.execGetEnv s
  | .getFault n => Sys2Proof.Machine.execGetFault n s
  | .setPower st => Sys2Proof.Machine.execSetPower st s
  | .setCap n => Sys2Proof.Machine.execSetCap n s
  | .abort jobId => Sys2Proof.Machine.execAbort jobId s
  | .reset kind => Sys2Proof.Machine.execReset kind s
  | .clearLoss => Sys2Proof.Machine.execClearLoss s
  | .recoveryEnter => Sys2Proof.Machine.execRecoveryEnter s
  | .recoveryWrite off data => Sys2Proof.Machine.execRecoveryWrite off data s
  | .recoveryCommit kind => Sys2Proof.Machine.execRecoveryCommit kind s
  | .recoveryReboot => Sys2Proof.Machine.execRecoveryReboot s
  | .newNonce => Sys2Proof.Machine.execNewNonce s
  | .deviceCert => Sys2Proof.Machine.execDeviceCert s
  | .attest len => Sys2Proof.Machine.execAttest len s
  | .m7MeasurementDone => Sys2Proof.Machine.execM7MeasurementDone s
  | .barkClaim len => Sys2Proof.Machine.execBarkClaim len s
  | .release len => Sys2Proof.Machine.execRelease len s
  | .recover len => Sys2Proof.Machine.execRecover len s
  | .scrubComplete => Sys2Proof.Machine.execScrubComplete s
  | .hostOpen len => Sys2Proof.Machine.execHostOpen len s
  | .grant len => Sys2Proof.Machine.execGrant len s
  | .grantStart => Sys2Proof.Machine.execGrantStart s
  | .grantExpiry => Sys2Proof.Machine.execGrantExpiry s
  | .revoke len => Sys2Proof.Machine.execRevoke len s
  | .keyLoad len => Sys2Proof.Machine.execKeyLoad len s
  | .smkGenerate len => Sys2Proof.Machine.execSmkGenerate len s
  | .smkExport len => Sys2Proof.Machine.execSmkExport len s
  | .treeReset len => Sys2Proof.Machine.execTreeReset len s
  | .rootLoad len top => Sys2Proof.Machine.execRootLoad len top s
  | .rollbackAdvance len => Sys2Proof.Machine.execRollbackAdvance len s
  | .planeRead len => Sys2Proof.Machine.execPlaneRead len s
  | .fwWrite len => Sys2Proof.Machine.execFwWrite len s
  | .fwCommit len => Sys2Proof.Machine.execFwCommit len s
  | .fwActivate len => Sys2Proof.Machine.execFwActivate len s
  | .trunkHandover => Sys2Proof.Machine.execTrunkHandover s
  | .limbDieBoot limb => Sys2Proof.Machine.execLimbDieBoot limb s
  | .barkSeal => Sys2Proof.Machine.execSeal s
  | .barkClrCounters => Sys2Proof.Machine.execBarkClrCounters s
  | .pufHealthCheck percent helperOk => Sys2Proof.Machine.execPufHealthCheck percent helperOk s
  | .heartwoodWrite reg first second => Sys2Proof.Machine.execHeartwoodWrite reg first second s
  | .heartwoodRefresh reg => Sys2Proof.Machine.execHeartwoodRefresh reg s
  | .rwhWrite addr w => Sys2Proof.Machine.execRwhWrite addr w s
  | .hwClrCounters => Sys2Proof.Machine.execHwClrCounters s
  | .powerRequest w => Sys2Proof.Machine.execPowerRequest w s
  | .powerEntryComplete => Sys2Proof.Machine.execPowerEntryComplete s
  | .powerReturnComplete => Sys2Proof.Machine.execPowerReturnComplete s
  | .wakeN ns => Sys2Proof.Machine.execWakeN ns s
  | .decisionEdge => Sys2Proof.Machine.execDecisionEdge s
  | .droopEvent die cycles => Sys2Proof.Machine.execDroopEvent die cycles s
  | .railFault die => Sys2Proof.Machine.execRailFault die s
  | .sensorSample r => Sys2Proof.Machine.execSensorSample r s
  | .hardTrip die => Sys2Proof.Machine.execHardTrip die s
  | .domainWakeDone die => Sys2Proof.Machine.execDomainWakeDone die s
  | .domainWakeTimeout die => Sys2Proof.Machine.execDomainWakeTimeout die s
  | .excursionWrite joules => Sys2Proof.Machine.execExcursionWrite joules s
  | .pwrClrCounters => Sys2Proof.Machine.execPwrClrCounters s
  | .tripClear => Sys2Proof.Machine.execTripClear s
  | .clrPeak => Sys2Proof.Machine.execClrPeak s
  | .thmClrCounters => Sys2Proof.Machine.execThmClrCounters s
  | .telemetryRecord => Sys2Proof.Machine.execTelemetryRecord s
  | .telEnableWrite b => Sys2Proof.Machine.execTelEnableWrite b s
  | .telClrCounters => Sys2Proof.Machine.execTelClrCounters s
  | .condensationHold => Sys2Proof.Machine.execCondensationHold s
  | .condensationClear => Sys2Proof.Machine.execCondensationClear s
  | .tiltWarning => Sys2Proof.Machine.execTiltWarning s
  | .inputFail => Sys2Proof.Machine.execInputFail s
  | .inputReturn => Sys2Proof.Machine.execInputReturn s
  | .standbyLoss => Sys2Proof.Machine.execStandbyLoss s
  | .powerOn slot => Sys2Proof.Machine.execPowerOn slot s
  | .resetN ns => Sys2Proof.Machine.execResetN ns s
  | .injCell w => Sys2Proof.Machine.execInjCell w s
  | .injNet w => Sys2Proof.Machine.execInjNet w s
  | .injEdge w => Sys2Proof.Machine.execInjEdge w s
  | .injRoot w => Sys2Proof.Machine.execInjRoot w s
  | .recoveryStart => Sys2Proof.Machine.execRecoveryStart s
  | .bandShift => Sys2Proof.Machine.execBandShift s
  | .shiftComplete => Sys2Proof.Machine.execShiftComplete s
  | .copyComplete => Sys2Proof.Machine.execCopyComplete s
  | .restoreComplete r => Sys2Proof.Machine.execRestoreComplete r s
  | .replayComplete => Sys2Proof.Machine.execReplayComplete s
  | .selfTestDone px py pass => Sys2Proof.Machine.execSelfTestDone px py pass s
  | .journalWrite => Sys2Proof.Machine.execJournalWrite s
  | .rasClrCounters => Sys2Proof.Machine.execRasClrCounters s
  | .journalClrCounters => Sys2Proof.Machine.execJournalClrCounters s
  | .sparseClrCounters => Sys2Proof.Machine.execSparseClrCounters s
  | .fabClrCounters => Sys2Proof.Machine.execFabClrCounters s
  | .fabProbeSelWrite w => Sys2Proof.Machine.execFabProbeSelWrite w s
  | .bootStage o => Sys2Proof.Machine.execBootStage o s
  | .ready => Sys2Proof.Machine.execReady s
  | .gapNakRepeat n => Sys2Proof.Machine.execGapNakRepeat n s
  | .lifeCounterUpdate => Sys2Proof.Machine.execLifeCounterUpdate s
  | .entropyHealthFail => Sys2Proof.Machine.execEntropyHealthFail s
  | .ideKmRequest secure => Sys2Proof.Machine.execIdeKmRequest secure s

end Sys2Proof.Machine
end

