-- ==== Sys2Proof/Machine/View.lean ====
section
/-!
DEFINITION. What a read of a BAR0 register returns (R10, R11): fields held in the register store read from there; fields that show
other state of the engine are views of it, one register each. No command reads a register: a read changes nothing.
-/
namespace Sys2Proof.Machine

/-- Eight bytes of a string at byte 8 i, as a register shows them. -/
def word8 (bs : List Byte) (i : Nat) : Nat := leNat ((bs.drop (8 * i)).take 8)

/-- The element of an array of registers that begins at `base`, if the address lies in it. -/
def elem (base n addr : Nat) : Option Nat :=
  if base ≤ addr ∧ addr < base + 8 * n ∧ (addr - base) % 8 = 0 then some ((addr - base) / 8) else none

/-- The code of a recovery stage (R441). -/
def RecStage.code : RecStage → Nat
  | .idle => 0 | .shift => 1 | .copy => 2 | .restore => 3 | .replay => 4

/-- RING and CLK (R76, R77). -/
def State.viewTime (s : State) (addr : Nat) : List (Nat × Nat) :=
  let r := s.ring
  match addr with
  | 0x10010 => [(9, r.holdCount), (7, bit r.emerg), (6, bit r.changePending), (3, r.period), (2, bit r.slewing), (0, r.lock.code)]
  | 0x10018 => [(0, r.number)]
  | 0x10020 => [(0, r.changeAt)]
  | 0x10038 => [(48, (s.graft.active.map (·.sched.stride)).getD 0), (32, s.activeNeed.getD 0), (16, s.clk.code), (0, r.budget)]
  | 0x20000 => [(2, bit s.clk.trimValid), (1, bit s.clk.xtalGood), (0, bit s.clk.xtal)]
  | 0x20008 =>
    match s.clk.pending with
    | (c, n) :: _ => [(32, n % 2 ^ 32), (31, 1), (24, c), (16, s.clk.code)]
    | [] => [(32, 0), (31, 0), (24, 0), (16, s.clk.code)]
  | 0x20020 => [(1, s.clk.gateResult), (0, bit s.clk.gateReq.isSome)]
  | _ =>
    match elem 0x20100 62 addr with
    | some i => [(24, if i = 61 then 1 else bit (decide (s.pll i = .locked)))]
    | none => []

/-- FAB, GRAFT and JOB (R202, R231, R260). -/
def State.viewWork (s : State) (addr : Nat) : List (Nat × Nat) :=
  match addr with
  | 0x60018 => [(0, s.graft.load.code)]
  | 0x60028 =>
    match s.graft.active with
    | some g => [(51, bit g.strict), (50, 1), (48, s.graft.tag), (32, g.epoch), (0, g.id)]
    | none => [(48, s.graft.tag)]
  | 0x60030 =>
    match s.graft.shadow with
    | some g => [(51, bit g.strict), (50, bit (decide (s.graft.load = .loaded))), (32, g.epoch), (0, g.id)]
    | none => []
  | 0x60038 =>
    match s.comingSwap with
    | some (n, _) => [(48, 1), (0, n)]
    | none => []
  | 0x50020 =>
    (32, s.job.queue.length) ::
      (match s.job.cur with
       | some j => [(6, if j.stage = .running then j.phase.code else 0), (0, j.stage.code)]
       | none => [])
  | 0x50028 =>
    match s.job.cur with
    | some j => [(32, j.step), (0, j.desc.jobId)]
    | none => []
  | 0x50030 =>
    match s.running with
    | some j => [(0, j.commitRing)]
    | none => []
  | _ =>
    match elem 0x81000 384 addr with
    | some t => [(48, (s.tap t).inHwm), (32, (s.tap t).outHwm), (4, limbOfTap t), (2, (s.tap t).func), (0, bit (s.tapEnabled t))]
    | none => []

/-- EDGE, SAP and STREAM (R287, R288, R312). -/
def State.viewEdge (s : State) (addr : Nat) : List (Nat × Nat) :=
  match addr with
  | 0x90008 => [(0, s.hwVal 0x009 % 2 ^ 48)]
  | 0xA0028 => [(1, s.sessCmd.result), (0, bit s.sessCmd.busy.isSome)]
  | 0xA0030 => [(16, s.host.epoch), (0, s.engineEpoch)]
  | 0xB0018 => [(1, bit (! s.stream.writes.isEmpty))]
  | _ =>
    match elem 0x90400 72 addr, elem 0xA8000 1024 addr, elem 0xB0800 12 addr with
    | some p, _, _ =>
      let q := s.port p
      [(48, q.epoch), (37, q.link1.code), (34, q.link0.code), (32, q.role), (31, bit q.split), (30, bit (s.portEnabled p)),
       (29, bit q.present), (28, bit q.auxOff), (16, q.trainFails), (0, q.downs)]
    | none, some i, _ =>
      let q := s.ses i
      [(56, min 255 q.tagFails), (46, q.remote.getD 0), (44, bit q.store), (43, bit q.half), (36, q.port), (16, s.sesEpoch i),
       (0, q.st.code)]
    | none, none, some k =>
      let l := s.limb k
      [(32, (l.cache.filter (fun e => decide (0 < e.pins))).length), (24, l.stagedMib), (0, l.cache.length)]
    | none, none, none => []

/-- ID (R336). -/
def State.viewId (s : State) (addr : Nat) : List (Nat × Nat) :=
  match addr with
  | 0x0 => [(48, s.vendorId), (32, 0x1152), (16, s.hwVal 0x00A % 256), (8, s.cert.line), (0, s.cert.variant)]
  | 0x8 => [(0, s.hwVal 0x001)]
  | 0x10 => [(16, s.hwVal 0x1C2 % 2)]
  | 0x18 => [(16, s.job.held.length), (15, bit (! s.job.held.isEmpty)), (13, bit s.host.ideSecure), (12, bit s.bark.host.isSome),
      (10, s.host.dstate), (5, s.host.width), (2, s.host.speed)]
  | 0x30 => [(0, 0x58 + s.modl.slotId)]
  | _ => []

/-- BARK (R373). -/
def State.viewBark (s : State) (addr : Nat) : List (Nat × Nat) :=
  let b := s.bark
  match addr with
  | 0xC0008 => [(10, bit b.keyRecOk), (9, bit b.smk.isSome), (8, bit s.grantNow.isSome), (7, bit b.host.isSome), (6, bit b.sealed),
      (5, s.cert.line), (3, bit b.ds.isSome), (0, s.owner)]
  | 0xC0018 => [(0, bit s.barkBusy)]
  | 0xC0048 => [(28, bit b.lmsDone), (24, b.lmsGen), (11, b.lmsTree), (0, b.lmsLeaf)]
  | 0xC0050 => [(31, bit s.tree.valid), (27, s.treeDepth)]
  | 0xC0058 =>
    match s.grantNow with
    | some g => [(49, bit g.planeRead), (48, bit g.inject), (0, g.last)]
    | none => []
  | 0xC0090 => [(0, s.hwVal 0x1BF)]
  | _ =>
    match elem 0xC0020 4 addr, elem 0xC0060 6 addr, elem 0xC0100 8 addr, elem 0xC0200 54 addr, elem 0xC8000 2048 addr with
    | some i, _, _, _, _ => [(0, word8 b.nonce i)]
    | none, some i, _, _, _ => [(0, if s.tree.valid then word8 s.root i else 0)]
    | none, none, some i, _, _ => [(0, s.rollback i)]
    | none, none, none, some i, _ => [(0, word8 (b.meas.getD (i / 6) []) (i % 6))]
    | none, none, none, none, some i => [(0, b.mbox.readNat (8 * i) 8)]
    | none, none, none, none, none => []

/-- The class of a heartwood register: 0 VENDOR, 1 OWNER, 2 DEVICE, 3 reserved (Table 13.3). -/
def hwClass (r : Nat) : Nat :=
  if ! hwAssigned r then 3
  else if r < 0x0D0 ∨ (0x1A8 ≤ r ∧ r ≤ 0x1AA) ∨ r = 0x1B3 then 0
  else if (0x1B4 ≤ r ∧ r ≤ 0x1BD) ∨ 0x200 ≤ r then 1
  else 2

/-- Writes left before the limit of a register (R378). -/
def HwReg.remaining (h : HwReg) : Nat :=
  if h.live.isEmpty then 0 else min (400000 - h.count) (if h.live.length = 1 then 100000 - h.lastSlotTaken else 400000)

/-- The assigned register with the fewest writes left, the lowest index among equals (R387). -/
def State.leastLeft (s : State) : Nat × Nat :=
  (List.range 1024).foldl (fun b r =>
    if hwAssigned r && decide ((s.hwReg r).remaining < b.2) then (r, (s.hwReg r).remaining) else b) (0, (s.hwReg 0).remaining)

/-- HW (R387). -/
def State.viewHw (s : State) (addr : Nat) : List (Nat × Nat) :=
  match addr with
  | 0xD0008 => [(7, bit (s.hw.busy.any (·.refresh))), (3, s.hw.busy.length)]
  | 0xD0010 => [(32, s.leastLeft.1), (0, s.leastLeft.2)]
  | _ =>
    match elem 0xD6000 256 addr, elem 0xD2000 1024 addr, elem 0xD4000 1024 addr with
    | some i, _, _ => [(0, s.hwVal (0x200 + i))]
    | none, some r, _ => [(0, s.hwVal r)]
    | none, none, some r =>
      let h := s.hwReg r
      let since := match h.newest with
        | some c => s.poweredHours - c.hours
        | none => 0
      [(40, since), (28, bit (hwConfig r && hwAssigned r)), (27, bit h.atLimit), (25, hwClass r), (19, 15 - h.retired % 16), (0, h.count)]
    | none, none, none => []

/-- PWR and THM (R415, R416). -/
def State.viewPower (s : State) (addr : Nat) : List (Nat × Nat) :=
  let p := s.power
  match addr with
  | 0x30008 => [(16, (p.pending.map (·.code)).getD 0), (7, bit p.linksFloor), (6, bit p.capUnmet), (5, bit p.wake),
      (4, bit p.pending.isSome), (3, bit (decide (p.transit ≠ .none))), (0, p.state.code)]
  | 0x30010 => [(48, p.capInForce), (32, s.modl.pCool / 50), (16, p.mgmtCap)]
  | 0x30020 => [(32, p.allow / 10 ^ 6)]
  | 0x30038 => [(0, s.energyMj)]
  | 0x40008 => [(27, s.thermal.ceil), (1, bit s.thermal.hold), (0, bit (decide (s.thermal.ceil < 120)))]
  | _ =>
    match elem 0x30100 60 addr with
    | some d => [(2, bit (decide (d < 48) && s.transitDie d)),
        (0, if d < 48 then (s.domain d).code else if s.modl.mains then 2 else 0)]
    | none => []

/-- RAS, INJ, JOURNAL and BURL (R441 to R444). -/
def State.viewRas (s : State) (addr : Nat) : List (Nat × Nat) :=
  let q := s.ras.inj
  match addr with
  | 0xE0008 => [(0, s.ras.recov.stage.code)]
  | 0xE0010 => [(0, s.ras.seq)]
  | 0xF0028 => [(4, bit s.injectOn), (0, bit q.cell.isSome + 2 * bit q.net.isSome + 4 * bit q.edge.isSome + 8 * bit q.root.isSome)]
  | 0x110028 => [(32, s.journal.stopRing % 2 ^ 32), (0, if s.journal.recording then 1 else if s.journal.replaying then 2 else 0)]
  | 0x110030 => [(0, s.journal.pos)]
  | 0x120000 => [(0, s.hwVal 0x1A8 % 2 ^ 48)]
  | 0x120008 => [(0, s.hwVal 0x1A9)]
  | 0x120010 => [(0, s.hwVal 0x1AA % 256)]
  | 0x120018 => [(48, ((List.range 432).filter (fun n => (s.bandEntry n).testBit 31)).length)]
  | _ =>
    match elem 0xE8000 2048 addr, elem 0x121000 432 addr with
    | some w, _ =>
      match s.ras.log.find? (fun r => decide (r.num % 256 = w / 8)) with
      | some r => [(0, word8 r.bytes (w % 8))]
      | none => [(0, 0)]
    | none, some n =>
      let e := s.bandEntry n
      [(35, s.spareMask n), (32, s.bandFree n), (31, bit (e.testBit 31)), (28, entryCount e), (21, entrySkip e 3), (14, entrySkip e 2),
       (7, entrySkip e 1), (0, entrySkip e 0)]
    | none, none => []

/-- The fields of a register that are views, by low bit. -/
def State.views (s : State) (addr : Nat) : List (Nat × Nat) :=
  match addr / 2 ^ 16 with
  | 0x0 => s.viewId addr
  | 0x1 | 0x2 => s.viewTime addr
  | 0x3 | 0x4 => s.viewPower addr
  | 0x5 | 0x6 | 0x8 => s.viewWork addr
  | 0x9 | 0xA | 0xB => s.viewEdge addr
  | 0xC => s.viewBark addr
  | 0xD => s.viewHw addr
  | 0xE | 0xF | 0x11 | 0x12 => s.viewRas addr
  | _ => []

/-- The register row that an address belongs to. -/
def regRow (addr : Nat) : Option RegRow := allRegs.find? (fun r => (elem r.base r.count addr).isSome)

/-- What a 64-bit read of BAR0 returns: reserved bits and WO fields 0, an address with no register 0 (R10, R11). -/
def State.readReg (s : State) (addr : Nat) : Word64 :=
  match regRow addr with
  | none => 0
  | some r =>
    let v := s.views addr
    BitVec.ofNat 64 ((r.fields.map (fun q =>
      if q.acc = .wo then 0
      else
        2 ^ q.lo * (((v.find? (fun p => p.1 == q.lo)).map (·.2)).getD (s.f ⟨addr, q.lo, q.width, q.reset⟩) % 2 ^ q.width))).foldl (· + ·) 0)

end Sys2Proof.Machine
end

