-- ==== Sys2Proof/Safety.lean ====
section
/-!
DEFINITION. Runs and what counts as a safe one; what a command leaves unchanged; the canonical form of the stores.
-/
namespace Sys2Proof.Machine

/-- One step that answers a next state. -/
def Steps (s t : State) : Prop := step s = .next t

/-- The states reached in a number of steps. -/
inductive Reaches : State → State → Prop where
  | refl (s : State) : Reaches s s
  | tail (s t u : State) (h : Reaches s t) (k : Steps t u) : Reaches s u

/-- A safe run: no command of the queue stops the block. -/
def Safe (s : State) : Prop := ∀ t, Reaches s t → ∃ u, Steps t u

/-- The parts of the state a frame speaks of: the fields of State, one each. -/
inductive Part where
  | cert | vendorId | regs | modl | boot | flash | ring | clk
  | power | thermal | tel | hw | bark | tree | graft | job
  | cells | taps | ports | sess | shakes | limbs | stream | sessCmd | host
  | mgmt | ras | journal | pendRing | pendStep | free | sent | pending
  deriving DecidableEq, Repr

/-- Two states agree on a part. -/
def Part.same (p : Part) (s t : State) : Prop :=
  match p with
  | .cert => t.cert = s.cert
  | .vendorId => t.vendorId = s.vendorId
  | .regs => t.regs = s.regs
  | .modl => t.modl = s.modl
  | .boot => t.boot = s.boot
  | .flash => t.flash = s.flash
  | .ring => t.ring = s.ring
  | .clk => t.clk = s.clk
  | .power => t.power = s.power
  | .thermal => t.thermal = s.thermal
  | .tel => t.tel = s.tel
  | .hw => t.hw = s.hw
  | .bark => t.bark = s.bark
  | .tree => t.tree = s.tree
  | .graft => t.graft = s.graft
  | .job => t.job = s.job
  | .cells => t.cells = s.cells
  | .taps => t.taps = s.taps
  | .ports => t.ports = s.ports
  | .sess => t.sess = s.sess
  | .shakes => t.shakes = s.shakes
  | .limbs => t.limbs = s.limbs
  | .stream => t.stream = s.stream
  | .sessCmd => t.sessCmd = s.sessCmd
  | .host => t.host = s.host
  | .mgmt => t.mgmt = s.mgmt
  | .ras => t.ras = s.ras
  | .journal => t.journal = s.journal
  | .pendRing => t.pendRing = s.pendRing
  | .pendStep => t.pendStep = s.pendStep
  | .free => t.free = s.free
  | .sent => t.sent = s.sent
  | .pending => t.pending = s.pending

/-- Every part not listed is unchanged from s to t. -/
def OnlyChanges (changed : List Part) (s t : State) : Prop := ∀ p : Part, p ∉ changed → p.same s t

/-- Every register field not listed reads the same in t as in s. -/
def FieldsKept (written : List Fld) (s t : State) : Prop := ∀ F : Fld, F.key ∉ written.map Fld.key → t.f F = s.f F

/-- The stores of the engine are in their canonical form: keys strictly rise and no entry holds the unlisted value. -/
def State.storesWf (s : State) : Prop :=
  swf 0 s.regs = true ∧ swf Cell.init s.cells = true ∧ swf Tap.reset s.taps = true ∧ swf EdgePort.reset s.ports = true ∧
  swf Session.reset s.sess = true ∧ swf Limb.reset s.limbs = true ∧ swf 0 s.pendRing = true ∧ swf 0 s.pendStep = true

/-- A working cell of the grid: it exists, its die is ON and clocked, it is not dead, and the active plane configures it. -/
def State.works (s : State) (x y : Nat) : Prop := s.inGrid x y = true ∧ s.live x y = true

/-- Every other cell of the grid is as it was. -/
def OtherCells (x y : Nat) (s t : State) : Prop := ∀ a b, s.inGrid a b = true → (a, b) ≠ (x, y) → t.cell a b = s.cell a b

/-- The bytes of a frame pass their port's filter, have a frame's form and name a session that is live on that port or half, in its current
epoch (R264, R266, R269, R270, R282). -/
def State.frameHits (s : State) (p : Nat) (h : Bool) (bs : List Byte) (i : Nat) : Prop :=
  (s.port p).link h = .up ∧ s.limbOn (limbOfPort p) = true ∧ (rawFrame bs).fcsOk = true ∧ s.filtered p h (rawFrame bs) = false ∧
  (rawFrame bs).etherType = s.f EDGE_CTRL_ETHERTYPE ∧ rd (rawFrame bs).body 0 1 = 1 ∧ lengthOk (rawFrame bs).body = true ∧
  1 ≤ rd (rawFrame bs).body 1 1 ∧ rd (rawFrame bs).body 1 1 ≤ 10 ∧ rd (rawFrame bs).body 2 2 / 2 ^ 5 % 4 ≤ 2 ∧
  rd (rawFrame bs).body 4 2 = i ∧ i < 1024 ∧ s.isLive i = true ∧ (s.ses i).port = p ∧ (s.ses i).half = h ∧
  rd (rawFrame bs).body 6 2 = s.sesEpoch i

/-- The state a link takes from DETECT: it waits there with no cable, else it negotiates or trains (Table 9.2). -/
def State.afterDetect (s : State) (p : Nat) (present : Bool) : LinkState :=
  if present = false then .detect
  else if s.f (EDGE_PORT_CTRL_MEDIA p) = 0 ∧ s.f (EDGE_PORT_CTRL_AN_EN p) = 1 then .negotiate else .train

/-- Bytes that reach a live session and that its keys open as a data frame (R270). -/
def State.frameOpens (s : State) (p : Nat) (h : Bool) (bs : List Byte) (i : Nat) (f : Frame) : Prop :=
  s.frameHits p h bs i ∧ (s.ses i).openBody (rawFrame bs).body = some (f, false)

/-- A delivered frame stands first in a session's inbox, and the limb die of its home port is clocked, so that it can be acted on (R74). -/
def State.hasNext (s : State) (i : Nat) (f : Frame) (rest : List Frame) : Prop :=
  (s.ses i).inbox = f :: rest ∧ s.limbOn (limbOfPort (s.ses i).port) = true

/-- A well-formed request of a cell stands first in the buffer of a tap bound STREAM whose limb die is clocked (R292, Table 10.1). -/
def State.streamAsks (s : State) (tap : Nat) (u : NetUnit) (a : StreamFlit) : Prop :=
  (s.tap tap).func = 1 ∧ s.tapEnabled tap = true ∧ s.limbOn (limbOfTap tap) = true ∧
  (∃ d ∈ (s.tap tap).bufV, firstMessage (s.tap tap).bufV = some [u, d] ∧ a = streamFlit d.data) ∧
  (vHead u.data).kind = 0 ∧ (vHead u.data).len = 0 ∧ (vHead u.data).peer = false ∧ (vHead u.data).window = 0 ∧
  (vHead u.data).gen = 0 ∧ (vHead u.data).offset = 0 ∧ a.ok = true

/-- Bark takes the envelope in its mailbox at once: nothing is in progress, the host session is open, the envelope has the length its
header gives, opens under the session's key to plain bytes, and its counter rises (R359, R360, R373). -/
def State.takes (s : State) (len : Nat) (h : HostSess) (plain : List Byte) : Prop :=
  s.barkBusy = false ∧ s.bark.host = some h ∧ len = 32 + rd (s.input len) 8 4 ∧ rd (s.input len) 12 4 = 0 ∧
  openEnvelope h.key (s.input len) = some plain ∧ ∀ c, h.hostCtr = some c → c < rd (s.input len) 0 8

/-- No heartwood write is under way or waiting, and heartwood takes writes. -/
def State.hwIdle (s : State) : Prop := s.hw.busy = [] ∧ s.hw.hostQ = [] ∧ s.hw.engineQ = [] ∧ s.hw.closed = false

/-- Rows of a band that are retired once one more is, in ascending order (R464). -/
def State.rowsWith (s : State) (n row : Nat) : List Nat :=
  sortRows (entryRows (s.bandEntry n) ++ spareRows (s.bandEntry n) (s.spareMask n) ++ [row])

/-- Heartwood is idle and takes the write that retires one more row of a usable band with a spare row left (R424, R430). -/
def State.canRetire (s : State) (n row : Nat) : Prop :=
  n < 432 ∧ s.hwIdle ∧ s.bandUnusable n = false ∧ (s.hwReg (0x0D0 + n / 2)).atLimit = false ∧ (s.rowsWith n row).length ≤ 4

/-- The boot is at a stage: standby power is up, and the boot neither stopped nor went into a recovery mode (Table 16.2). -/
def State.bootsAt (s : State) (n : Nat) : Prop :=
  s.modl.standby = true ∧ s.boot.stopped = false ∧ s.boot.recovery = .none ∧ s.boot.stage = n

/-- No error injection is armed (R421). -/
def State.noInjection (s : State) : Prop :=
  s.ras.inj.cell = none ∧ s.ras.inj.net = none ∧ s.ras.inj.edge = none ∧ s.ras.inj.root = none

/-- The ring unit is sound: RING_NUMBER has 48 bits (R43), an edge is due only with a locked or held ring (Table 2.5), a frame's
PERIOD is one of Table 2.3, and the count that ends EMERG stays within its 16 rings (R52). -/
def State.ringOk (s : State) : Prop :=
  s.ring.number < ringMod ∧ (s.ring.edgeDue = true → s.ring.lock = .locked ∨ s.ring.lock = .holdover) ∧ s.ring.prevPeriod ≤ 5 ∧
  s.ring.emergClear ≤ 16

/-- The cell a command names by its logical coordinates: the one that acts, or the one that holds a claim counter. -/
def namedCell (c : Instr) : Option (Nat × Nat) :=
  match c with
  | .blockParse x y | .groupIssue x y _ | .groupSteal x y _ | .spanLoad x y | .predictScore x y | .termAccept x y _ _
  | .outputComplete x y _ | .outputSetActivate x y | .pack x y | .bankAccess x y _ _ | .scrubAccess x y _ _ _ | .remoteWriteHeader x y _
  | .remoteWriteBeat x y | .creditReq x y | .creditGrant x y | .nackReceive x y | .creditRelease x y _ _ | .creditRefresh x y
  | .windowClose x y _ _ | .windowOpen x y _ | .windowReopen x y _ _ | .windowClosed x y _ | .readReq x y | .readData x y
  | .unitArrive x y _ _ _ | .tokenArrive x y _ _ | .portGrant x y _ _ | .steerAct x y _ | .watchdog x y | .claim x y _ _ | .claimReply x y => some (x, y)
  | .timecodeFrame _ | .delimiterMissing | .periodChange | .ringEdge _ | .freqChange | .ptpSync _ | .crystalLoss | .crystalGood
  | .clockHandover | .pllUnlock _ | .pllRelock _ | .relockTimeout _ | .clkMeasWindow _ _ | .ringConfigWrite _ | .ringEnableWrite _
  | .ringSourceWrite _ | .clrStats | .clkFreqWrite _ | .clkSscWrite _ | .clkGateReq _ | .gateRequestDone | .tapChannelDeliver _ _ _ _
  | .loaderWrite _ | .graftLoad | .abortLoad | .graftClrCounters | .stagingDone _ | .stagingReadError | .verifyDone | .broadcastDone _
  | .swap | .postPoll _ _ | .completionWrite | .preparationEdge | .transposeBuildDone | .stepStart | .phaseStart | .commitDecision
  | .jobEnd | .hashCompare _ _ | .voteResolve _ _ | .jobAbort _ | .jobEnableWrite _ | .jobClrCounters | .checkpointWrite
  | .adminEnWrite _ _ | .presenceChange _ _ | .negotiationDone _ _ _ | .negotiationTimeout _ _ | .trainDone _ _ | .trainTimeout _ _
  | .linkDown _ _ _ | .retrain _ | .portReset _ | .auxOvercurrent _ | .edgeClrCounters | .frameReceive _ _ _ | .frameTransmit _ _
  | .ackFrameSend _ | .ackReceive _ | .rtoExpiry _ | .deadlineUnacked _ _ | .sapEgress _ _ | .writeReceive _ | .readReceive _
  | .creditReceive _ | .responseReceive _ | .noticeReceive _ | .syncReceive _ | .sessionOpen _ | .sessionListen _ | .sessionClose _
  | .controlOpen _ _ | .openAck _ | .openRefuse _ | .handshakeTimeout _ | .controlEpoch _ | .epochAck _ | .controlClose _ | .closingDone _
  | .keepalive _ | .holdExpiry _ | .graceExpiry _ | .sapConfigWrite _ | .sapClrCounters | .streamRequest _ | .streamDataReceive _
  | .streamWrite _ | .streamResponse _ | .deferredReissue _ _ | .cacheUnpin _ _ | .rootAdvance | .treeWrite | .streamFlush
  | .streamExtentWrite _ | .streamClrCounters | .hostportReset _ | .hostportUp _ _ _ | .busMasterEnable _ | .dstateChange _ | .ideFail
  | .completionTimeout _ | .bar0BadAccess | .registerWrite _ _ | .intCauseClear _ | .intEnableWrite _ | .idClrCounters | .dynamicAddress _
  | .getId | .getStatus | .getEnv | .getFault _ | .setPower _ | .setCap _ | .abort _ | .reset _ | .clearLoss | .recoveryEnter
  | .recoveryWrite _ _ | .recoveryCommit _ | .recoveryReboot | .newNonce | .deviceCert | .attest _ | .m7MeasurementDone | .barkClaim _
  | .release _ | .recover _ | .scrubComplete | .hostOpen _ | .grant _ | .grantStart | .grantExpiry | .revoke _ | .keyLoad _
  | .smkGenerate _ | .smkExport _ | .treeReset _ | .rootLoad _ _ | .rollbackAdvance _ | .planeRead _ | .fwWrite _ | .fwCommit _
  | .fwActivate _ | .trunkHandover | .limbDieBoot _ | .barkSeal | .barkClrCounters | .pufHealthCheck _ _ | .heartwoodWrite _ _ _
  | .heartwoodRefresh _ | .rwhWrite _ _ | .hwClrCounters | .powerRequest _ | .powerEntryComplete | .powerReturnComplete | .wakeN _
  | .decisionEdge | .droopEvent _ _ | .railFault _ | .sensorSample _ | .hardTrip _ | .domainWakeDone _ | .domainWakeTimeout _
  | .excursionWrite _ | .pwrClrCounters | .tripClear | .clrPeak | .thmClrCounters | .telemetryRecord | .telEnableWrite _ | .telClrCounters
  | .condensationHold | .condensationClear | .tiltWarning | .inputFail | .inputReturn | .standbyLoss | .powerOn _ | .resetN _ | .injCell _
  | .injNet _ | .injEdge _ | .injRoot _ | .recoveryStart | .bandShift | .shiftComplete | .copyComplete | .restoreComplete _
  | .replayComplete | .selfTestDone _ _ _ | .journalWrite | .rasClrCounters | .journalClrCounters | .sparseClrCounters | .fabClrCounters
  | .fabProbeSelWrite _ | .bootStage _ | .ready | .gapNakRepeat _ | .lifeCounterUpdate | .entropyHealthFail | .ideKmRequest _ => none

/-- The parts a command may change: those of its own effect and, where it can end in a fault record, those a fault reaches
(the log and its counters, interrupt causes and messages, the running job). Every part not listed for a command keeps its
value, whatever the command does. -/
def mayChange (c : Instr) : List Part :=
  match c with
  | .timecodeFrame _ =>
    [.regs, .modl, .ring, .tel, .bark, .tree, .job, .cells, .sess, .limbs, .stream, .host, .ras, .journal, .pendStep,
     .free, .sent]
  | .delimiterMissing =>
    [.regs, .modl, .ring, .tel, .bark, .tree, .job, .cells, .sess, .limbs, .stream, .host, .ras, .journal, .pendStep,
     .free, .sent]
  | .periodChange =>
    [.regs, .modl, .ring, .clk, .tel, .bark, .tree, .job, .cells, .sess, .limbs, .stream, .host, .ras, .journal,
     .pendStep, .free, .sent]
  | .ringEdge _ =>
    [.regs, .modl, .ring, .clk, .power, .thermal, .tel, .hw, .bark, .tree, .graft, .job, .cells, .taps, .ports, .sess,
     .limbs, .stream, .sessCmd, .host, .ras, .journal, .pendRing, .pendStep, .free, .sent]
  | .freqChange => [.ring, .clk]
  | .ptpSync _ =>
    [.regs, .modl, .ring, .tel, .bark, .tree, .job, .cells, .sess, .limbs, .stream, .host, .ras, .journal, .pendStep,
     .free, .sent]
  | .crystalLoss =>
    [.regs, .modl, .ring, .clk, .tel, .bark, .tree, .graft, .job, .cells, .ports, .sess, .limbs, .stream, .host, .ras,
     .journal, .pendStep, .free, .sent]
  | .crystalGood => [.modl, .clk]
  | .clockHandover => [.regs, .modl, .ring, .clk, .host, .sent]
  | .pllUnlock _ =>
    [.regs, .modl, .ring, .clk, .tel, .bark, .tree, .graft, .job, .cells, .ports, .sess, .limbs, .stream, .host, .ras,
     .journal, .pendStep, .free, .sent]
  | .pllRelock _ =>
    [.regs, .modl, .clk, .tel, .bark, .tree, .job, .cells, .taps, .sess, .limbs, .stream, .host, .ras, .journal,
     .pendStep, .free, .sent]
  | .relockTimeout _ => [.clk, .power, .graft]
  | .clkMeasWindow _ _ =>
    [.regs, .modl, .clk, .tel, .bark, .tree, .job, .cells, .sess, .limbs, .stream, .host, .ras, .journal, .pendStep,
     .free, .sent]
  | .ringConfigWrite _ => [.regs]
  | .ringEnableWrite _ =>
    [.regs, .modl, .ring, .tel, .bark, .tree, .job, .cells, .sess, .limbs, .stream, .host, .ras, .journal, .pendStep,
     .free, .sent]
  | .ringSourceWrite _ => [.regs, .ring, .host, .sent]
  | .clrStats => [.regs]
  | .clkFreqWrite _ => [.regs, .host, .sent]
  | .clkSscWrite _ => [.regs, .host, .sent]
  | .clkGateReq _ => [.regs, .clk]
  | .gateRequestDone => [.clk]
  | .blockParse _ _ =>
    [.regs, .modl, .tel, .bark, .tree, .job, .cells, .sess, .limbs, .stream, .host, .ras, .journal, .pendRing, .pendStep,
     .free, .sent]
  | .groupIssue _ _ _ =>
    [.regs, .modl, .tel, .bark, .tree, .job, .cells, .sess, .limbs, .stream, .host, .ras, .journal, .pendRing, .pendStep,
     .free, .sent]
  | .groupSteal _ _ _ =>
    [.regs, .modl, .tel, .bark, .tree, .job, .cells, .sess, .limbs, .stream, .host, .ras, .journal, .pendRing, .pendStep,
     .free, .sent]
  | .spanLoad _ _ => [.cells]
  | .predictScore _ _ =>
    [.regs, .modl, .tel, .bark, .tree, .job, .cells, .sess, .limbs, .stream, .host, .ras, .journal, .pendRing, .pendStep,
     .free, .sent]
  | .termAccept _ _ _ _ =>
    [.regs, .modl, .tel, .bark, .tree, .job, .cells, .sess, .limbs, .stream, .host, .ras, .journal, .pendRing, .pendStep,
     .free, .sent]
  | .outputComplete _ _ _ => [.cells]
  | .outputSetActivate _ _ =>
    [.regs, .modl, .tel, .bark, .tree, .job, .cells, .sess, .limbs, .stream, .host, .ras, .journal, .pendRing, .pendStep,
     .free, .sent]
  | .pack _ _ =>
    [.regs, .modl, .tel, .bark, .tree, .job, .cells, .sess, .limbs, .stream, .host, .ras, .journal, .pendRing, .pendStep,
     .free, .sent]
  | .bankAccess _ _ _ _ =>
    [.regs, .modl, .tel, .bark, .tree, .job, .cells, .sess, .limbs, .stream, .host, .ras, .journal, .pendRing, .pendStep,
     .free, .sent]
  | .scrubAccess _ _ _ _ _ =>
    [.regs, .modl, .tel, .bark, .tree, .job, .cells, .sess, .limbs, .stream, .host, .ras, .journal, .pendRing, .pendStep,
     .free, .sent]
  | .remoteWriteHeader _ _ _ =>
    [.regs, .modl, .tel, .bark, .tree, .job, .cells, .sess, .limbs, .stream, .host, .ras, .journal, .pendRing, .pendStep,
     .free, .sent]
  | .remoteWriteBeat _ _ =>
    [.regs, .modl, .tel, .bark, .tree, .job, .cells, .sess, .limbs, .stream, .host, .ras, .journal, .pendRing, .pendStep,
     .free, .sent]
  | .creditReq _ _ =>
    [.regs, .modl, .tel, .bark, .tree, .job, .cells, .sess, .limbs, .stream, .host, .ras, .journal, .pendRing, .pendStep,
     .free, .sent]
  | .creditGrant _ _ => [.cells, .taps]
  | .nackReceive _ _ => [.cells, .taps]
  | .creditRelease _ _ _ _ => [.cells]
  | .creditRefresh _ _ => [.cells]
  | .windowClose _ _ _ _ =>
    [.regs, .modl, .tel, .bark, .tree, .job, .cells, .sess, .limbs, .stream, .host, .ras, .journal, .pendRing, .pendStep,
     .free, .sent]
  | .windowOpen _ _ _ => [.cells]
  | .windowReopen _ _ _ _ =>
    [.regs, .modl, .tel, .bark, .tree, .job, .cells, .sess, .limbs, .stream, .host, .ras, .journal, .pendRing, .pendStep,
     .free, .sent]
  | .windowClosed _ _ _ => [.cells]
  | .readReq _ _ =>
    [.regs, .modl, .tel, .bark, .tree, .job, .cells, .sess, .limbs, .stream, .host, .ras, .journal, .pendRing, .pendStep,
     .free, .sent]
  | .readData _ _ => [.cells, .taps]
  | .unitArrive _ _ _ _ _ =>
    [.regs, .modl, .tel, .bark, .tree, .graft, .job, .cells, .sess, .limbs, .stream, .host, .ras, .journal, .pendRing,
     .pendStep, .free, .sent]
  | .tokenArrive _ _ _ _ =>
    [.regs, .modl, .tel, .bark, .tree, .graft, .job, .cells, .sess, .limbs, .stream, .host, .ras, .journal, .pendRing,
     .pendStep, .free, .sent]
  | .portGrant _ _ _ _ =>
    [.regs, .modl, .tel, .bark, .tree, .job, .cells, .taps, .sess, .limbs, .stream, .host, .ras, .journal, .pendRing,
     .pendStep, .free, .sent]
  | .steerAct _ _ _ =>
    [.regs, .modl, .tel, .bark, .tree, .job, .cells, .taps, .sess, .limbs, .stream, .host, .ras, .journal, .pendRing,
     .pendStep, .free, .sent]
  | .tapChannelDeliver _ _ _ _ =>
    [.regs, .modl, .tel, .bark, .tree, .graft, .job, .cells, .taps, .sess, .limbs, .stream, .host, .ras, .journal,
     .pendRing, .pendStep, .free, .sent]
  | .watchdog _ _ =>
    [.regs, .modl, .tel, .bark, .tree, .job, .cells, .sess, .limbs, .stream, .host, .ras, .journal, .pendRing, .pendStep,
     .free, .sent]
  | .loaderWrite _ =>
    [.regs, .modl, .power, .tel, .bark, .tree, .graft, .job, .cells, .sess, .limbs, .stream, .host, .ras, .journal,
     .pendStep, .free, .sent]
  | .graftLoad => [.regs, .graft, .limbs, .host, .sent]
  | .abortLoad => [.graft, .cells, .limbs]
  | .graftClrCounters => [.regs]
  | .stagingDone _ => [.graft]
  | .stagingReadError =>
    [.regs, .modl, .tel, .bark, .tree, .graft, .job, .cells, .sess, .limbs, .stream, .host, .ras, .journal, .pendStep,
     .free, .sent]
  | .verifyDone =>
    [.regs, .modl, .tel, .bark, .tree, .graft, .job, .cells, .sess, .limbs, .stream, .host, .ras, .journal, .pendStep,
     .free, .sent]
  | .broadcastDone _ =>
    [.regs, .modl, .tel, .bark, .tree, .graft, .job, .cells, .sess, .limbs, .stream, .host, .ras, .journal, .pendStep,
     .free, .sent]
  | .swap =>
    [.regs, .modl, .clk, .power, .tel, .bark, .tree, .graft, .job, .cells, .taps, .ports, .sess, .limbs, .stream, .host,
     .ras, .journal, .pendStep, .free, .sent]
  | .postPoll _ _ => [.regs, .power, .bark, .job, .host, .sent]
  | .completionWrite => [.regs, .job, .host, .sent]
  | .preparationEdge =>
    [.regs, .modl, .clk, .power, .tel, .hw, .bark, .tree, .graft, .job, .cells, .taps, .ports, .sess, .limbs, .stream,
     .host, .ras, .journal, .pendStep, .free, .sent]
  | .transposeBuildDone =>
    [.regs, .modl, .tel, .bark, .tree, .job, .cells, .sess, .limbs, .stream, .host, .ras, .journal, .pendRing, .pendStep,
     .free, .sent]
  | .stepStart =>
    [.regs, .modl, .tel, .bark, .tree, .graft, .job, .cells, .sess, .limbs, .stream, .host, .ras, .journal, .pendRing,
     .pendStep, .free, .sent]
  | .phaseStart =>
    [.regs, .modl, .power, .tel, .bark, .tree, .graft, .job, .cells, .taps, .ports, .sess, .limbs, .stream, .sessCmd,
     .host, .ras, .journal, .pendRing, .pendStep, .free, .sent]
  | .commitDecision =>
    [.regs, .modl, .tel, .bark, .tree, .job, .cells, .sess, .limbs, .stream, .host, .ras, .journal, .pendStep, .free,
     .sent]
  | .jobEnd =>
    [.regs, .modl, .power, .tel, .bark, .tree, .graft, .job, .cells, .taps, .ports, .sess, .limbs, .stream, .sessCmd,
     .host, .ras, .journal, .pendRing, .pendStep, .free, .sent]
  | .claim _ _ _ _ =>
    [.regs, .modl, .tel, .bark, .tree, .job, .cells, .sess, .limbs, .stream, .host, .ras, .journal, .pendRing, .pendStep,
     .free, .sent]
  | .claimReply _ _ =>
    [.regs, .modl, .tel, .bark, .tree, .job, .cells, .sess, .limbs, .stream, .host, .ras, .journal, .pendStep, .free,
     .sent]
  | .hashCompare _ _ =>
    [.regs, .modl, .tel, .bark, .tree, .job, .cells, .sess, .limbs, .stream, .host, .ras, .journal, .pendRing, .pendStep,
     .free, .sent]
  | .voteResolve _ _ =>
    [.regs, .modl, .tel, .bark, .tree, .job, .cells, .sess, .limbs, .stream, .host, .ras, .journal, .pendRing, .pendStep,
     .free, .sent]
  | .jobAbort _ => [.regs, .job, .host, .journal, .free, .sent]
  | .jobEnableWrite _ => [.regs, .job]
  | .jobClrCounters => [.regs]
  | .checkpointWrite =>
    [.regs, .modl, .tel, .bark, .tree, .job, .cells, .taps, .sess, .limbs, .stream, .host, .ras, .journal, .pendStep,
     .free, .sent]
  | .adminEnWrite _ _ => [.regs, .ports, .host, .sent]
  | .presenceChange _ _ =>
    [.regs, .modl, .tel, .bark, .tree, .job, .cells, .ports, .sess, .limbs, .stream, .host, .ras, .journal, .pendStep,
     .free, .sent]
  | .negotiationDone _ _ _ => [.regs, .ports, .host, .sent]
  | .negotiationTimeout _ _ =>
    [.regs, .modl, .tel, .bark, .tree, .job, .cells, .ports, .sess, .limbs, .stream, .host, .ras, .journal, .pendStep,
     .free, .sent]
  | .trainDone _ _ =>
    [.regs, .modl, .tel, .bark, .tree, .job, .cells, .ports, .sess, .limbs, .stream, .host, .ras, .journal, .pendStep,
     .free, .sent]
  | .trainTimeout _ _ =>
    [.regs, .modl, .tel, .bark, .tree, .job, .cells, .ports, .sess, .limbs, .stream, .host, .ras, .journal, .pendStep,
     .free, .sent]
  | .linkDown _ _ _ =>
    [.regs, .modl, .tel, .bark, .tree, .job, .cells, .ports, .sess, .limbs, .stream, .host, .ras, .journal, .pendStep,
     .free, .sent]
  | .retrain _ =>
    [.regs, .modl, .tel, .bark, .tree, .job, .cells, .ports, .sess, .limbs, .stream, .host, .ras, .journal, .pendStep,
     .free, .sent]
  | .portReset _ =>
    [.regs, .modl, .tel, .bark, .tree, .job, .cells, .taps, .ports, .sess, .limbs, .stream, .host, .ras, .journal,
     .pendStep, .free, .sent]
  | .auxOvercurrent _ =>
    [.regs, .modl, .tel, .bark, .tree, .job, .cells, .ports, .sess, .limbs, .stream, .host, .ras, .journal, .pendStep,
     .free, .sent]
  | .edgeClrCounters => [.regs, .ports]
  | .frameReceive _ _ _ =>
    [.regs, .modl, .tel, .bark, .tree, .job, .cells, .taps, .sess, .shakes, .limbs, .stream, .host, .ras, .journal,
     .pendStep, .free, .sent]
  | .frameTransmit _ _ => [.regs, .ports, .sess, .limbs, .sent]
  | .ackFrameSend _ => [.regs, .sess, .sent]
  | .ackReceive _ =>
    [.regs, .modl, .tel, .bark, .tree, .job, .cells, .sess, .limbs, .stream, .host, .ras, .journal, .pendStep, .free,
     .sent]
  | .rtoExpiry _ =>
    [.regs, .modl, .tel, .bark, .tree, .job, .cells, .taps, .sess, .limbs, .stream, .host, .ras, .journal, .pendStep,
     .free, .sent]
  | .deadlineUnacked _ _ =>
    [.regs, .modl, .tel, .bark, .tree, .job, .cells, .sess, .limbs, .stream, .host, .ras, .journal, .pendStep, .free,
     .sent]
  | .sapEgress _ _ =>
    [.regs, .modl, .tel, .bark, .tree, .job, .cells, .taps, .sess, .limbs, .stream, .host, .ras, .journal, .pendStep,
     .free, .sent]
  | .writeReceive _ =>
    [.regs, .modl, .tel, .bark, .tree, .job, .cells, .taps, .sess, .limbs, .stream, .host, .ras, .journal, .pendStep,
     .free, .sent]
  | .readReceive _ =>
    [.regs, .modl, .tel, .bark, .tree, .job, .cells, .taps, .sess, .limbs, .stream, .host, .ras, .journal, .pendStep,
     .free, .sent]
  | .creditReceive _ =>
    [.regs, .modl, .tel, .bark, .tree, .job, .cells, .taps, .sess, .limbs, .stream, .host, .ras, .journal, .pendStep,
     .free, .sent]
  | .responseReceive _ =>
    [.regs, .modl, .tel, .bark, .tree, .job, .cells, .taps, .sess, .limbs, .stream, .host, .ras, .journal, .pendStep,
     .free, .sent]
  | .noticeReceive _ => [.regs, .cells, .sess]
  | .syncReceive _ =>
    [.regs, .modl, .tel, .bark, .tree, .job, .cells, .sess, .limbs, .stream, .host, .ras, .journal, .pendStep, .free,
     .sent]
  | .sessionOpen _ =>
    [.regs, .modl, .tel, .hw, .bark, .tree, .job, .cells, .sess, .limbs, .stream, .sessCmd, .host, .ras, .journal,
     .pendStep, .free, .sent]
  | .sessionListen _ => [.regs, .sess, .sessCmd, .host, .sent]
  | .sessionClose _ => [.regs, .sess, .sessCmd, .host, .sent]
  | .controlOpen _ _ =>
    [.regs, .modl, .tel, .hw, .bark, .tree, .job, .cells, .sess, .shakes, .limbs, .stream, .sessCmd, .host, .ras,
     .journal, .pendStep, .free, .sent]
  | .openAck _ =>
    [.regs, .modl, .tel, .bark, .tree, .job, .cells, .sess, .shakes, .limbs, .stream, .sessCmd, .host, .ras, .journal,
     .pendStep, .free, .sent]
  | .openRefuse _ => [.regs, .sess, .shakes, .sessCmd, .host, .sent]
  | .handshakeTimeout _ => [.regs, .sess, .sessCmd, .host, .sent]
  | .controlEpoch _ =>
    [.regs, .modl, .tel, .bark, .tree, .job, .cells, .taps, .sess, .limbs, .stream, .host, .ras, .journal, .pendStep,
     .free, .sent]
  | .epochAck _ => [.regs, .sess, .stream]
  | .controlClose _ => [.regs, .sess, .limbs, .host, .sent]
  | .closingDone _ => [.regs, .sess, .limbs, .host, .sent]
  | .keepalive _ => [.sess]
  | .holdExpiry _ =>
    [.regs, .modl, .tel, .bark, .tree, .job, .cells, .taps, .sess, .limbs, .stream, .host, .ras, .journal, .pendStep,
     .free, .sent]
  | .graceExpiry _ => [.sess]
  | .sapConfigWrite _ => [.regs]
  | .sapClrCounters => [.regs]
  | .streamRequest _ =>
    [.regs, .modl, .tel, .bark, .tree, .job, .cells, .taps, .sess, .limbs, .stream, .host, .ras, .journal, .pendStep,
     .free, .sent]
  | .streamDataReceive _ =>
    [.regs, .modl, .tel, .bark, .tree, .job, .cells, .taps, .sess, .limbs, .stream, .host, .ras, .journal, .pendStep,
     .free, .sent]
  | .streamWrite _ =>
    [.regs, .modl, .tel, .bark, .tree, .job, .cells, .taps, .sess, .limbs, .stream, .host, .ras, .journal, .pendStep,
     .free, .sent]
  | .streamResponse _ =>
    [.regs, .modl, .tel, .bark, .tree, .job, .cells, .taps, .sess, .limbs, .stream, .host, .ras, .journal, .pendStep,
     .free, .sent]
  | .deferredReissue _ _ => [.sess, .limbs]
  | .cacheUnpin _ _ =>
    [.regs, .modl, .tel, .bark, .tree, .job, .cells, .taps, .sess, .limbs, .stream, .host, .ras, .journal, .pendStep,
     .free, .sent]
  | .rootAdvance =>
    [.regs, .modl, .tel, .bark, .tree, .job, .cells, .taps, .sess, .limbs, .stream, .host, .ras, .journal, .pendStep,
     .free, .sent]
  | .treeWrite =>
    [.regs, .modl, .tel, .bark, .tree, .job, .cells, .taps, .sess, .limbs, .stream, .host, .ras, .journal, .pendStep,
     .free, .sent]
  | .streamFlush => [.limbs]
  | .streamExtentWrite _ => [.regs, .tree, .host, .sent]
  | .streamClrCounters => [.regs]
  | .hostportReset _ =>
    [.regs, .modl, .tel, .bark, .tree, .graft, .job, .cells, .sess, .limbs, .stream, .host, .ras, .journal, .pendStep,
     .free, .sent]
  | .hostportUp _ _ _ => [.host]
  | .busMasterEnable _ => [.regs, .host, .sent]
  | .dstateChange _ =>
    [.regs, .modl, .tel, .bark, .tree, .graft, .job, .cells, .sess, .limbs, .stream, .host, .ras, .journal, .pendStep,
     .free, .sent]
  | .ideFail =>
    [.regs, .modl, .tel, .bark, .tree, .graft, .job, .cells, .sess, .limbs, .stream, .host, .ras, .journal, .pendStep,
     .free, .sent]
  | .completionTimeout _ =>
    [.regs, .modl, .tel, .bark, .tree, .graft, .job, .cells, .sess, .limbs, .stream, .host, .ras, .journal, .pendStep,
     .free, .sent]
  | .bar0BadAccess => [.regs]
  | .registerWrite _ _ => [.regs, .modl, .ring, .bark, .ports, .sessCmd, .host, .sent]
  | .intCauseClear _ => [.regs]
  | .intEnableWrite _ => [.regs, .host, .sent]
  | .idClrCounters => [.regs]
  | .dynamicAddress _ => [.regs, .mgmt]
  | .getId => [.regs, .mgmt]
  | .getStatus => [.regs, .mgmt]
  | .getEnv => [.regs, .mgmt, .free]
  | .getFault _ => [.regs, .mgmt]
  | .setPower _ => [.regs, .power, .host, .mgmt, .sent]
  | .setCap _ => [.regs, .power, .host, .mgmt, .sent]
  | .abort _ => [.regs, .job, .host, .mgmt, .journal, .free, .sent]
  | .reset _ =>
    [.regs, .modl, .boot, .ring, .clk, .power, .thermal, .tel, .hw, .bark, .tree, .graft, .job, .cells, .taps, .ports,
     .sess, .limbs, .stream, .sessCmd, .host, .mgmt, .ras, .journal, .pendRing, .pendStep, .free, .sent]
  | .clearLoss => [.regs, .modl, .mgmt]
  | .recoveryEnter => [.regs, .boot, .host, .mgmt, .sent]
  | .recoveryWrite _ _ => [.regs, .boot, .mgmt]
  | .recoveryCommit _ =>
    [.regs, .modl, .boot, .flash, .tel, .bark, .tree, .job, .cells, .sess, .limbs, .stream, .host, .mgmt, .ras, .journal,
     .pendStep, .free, .sent]
  | .recoveryReboot =>
    [.regs, .modl, .boot, .ring, .clk, .power, .thermal, .tel, .hw, .bark, .tree, .graft, .job, .cells, .taps, .ports,
     .sess, .limbs, .stream, .sessCmd, .host, .ras, .journal, .pendRing, .pendStep, .sent]
  | .newNonce => [.regs, .tel, .bark, .host, .ras, .journal, .free, .sent]
  | .deviceCert => [.regs, .bark]
  | .attest _ =>
    [.regs, .modl, .tel, .hw, .bark, .tree, .job, .cells, .sess, .limbs, .stream, .host, .ras, .journal, .pendStep,
     .free, .sent]
  | .m7MeasurementDone =>
    [.regs, .modl, .tel, .hw, .bark, .tree, .job, .cells, .sess, .limbs, .stream, .host, .ras, .journal, .pendStep,
     .free, .sent]
  | .barkClaim _ =>
    [.regs, .modl, .tel, .hw, .bark, .tree, .job, .cells, .sess, .limbs, .stream, .host, .ras, .journal, .pendStep,
     .free, .sent]
  | .release _ =>
    [.regs, .modl, .tel, .hw, .bark, .tree, .job, .cells, .sess, .limbs, .stream, .host, .ras, .journal, .pendStep,
     .free, .sent]
  | .recover _ =>
    [.regs, .modl, .flash, .tel, .hw, .bark, .tree, .job, .cells, .sess, .limbs, .stream, .host, .ras, .journal,
     .pendStep, .free, .sent]
  | .scrubComplete => [.regs, .flash, .hw, .bark, .tree, .graft, .cells, .taps, .sess, .limbs, .host, .ras, .sent]
  | .hostOpen _ =>
    [.regs, .modl, .tel, .hw, .bark, .tree, .job, .cells, .sess, .limbs, .stream, .host, .ras, .journal, .pendStep,
     .free, .sent]
  | .grant _ =>
    [.regs, .modl, .tel, .bark, .tree, .job, .cells, .sess, .limbs, .stream, .host, .ras, .journal, .pendStep, .free,
     .sent]
  | .grantStart => [.bark]
  | .grantExpiry => [.bark, .ras]
  | .revoke _ => [.regs, .bark, .ras]
  | .keyLoad _ => [.regs, .flash, .bark]
  | .smkGenerate _ => [.regs, .flash, .tel, .bark, .host, .ras, .journal, .free, .sent]
  | .smkExport _ => [.regs, .bark]
  | .treeReset _ =>
    [.regs, .modl, .tel, .hw, .bark, .tree, .job, .cells, .sess, .limbs, .stream, .host, .ras, .journal, .pendStep,
     .free, .sent]
  | .rootLoad _ _ =>
    [.regs, .modl, .tel, .bark, .tree, .job, .cells, .sess, .limbs, .stream, .host, .ras, .journal, .pendStep, .free,
     .sent]
  | .rollbackAdvance _ => [.regs, .hw, .bark]
  | .planeRead _ => [.regs, .power, .bark]
  | .fwWrite _ => [.regs, .boot, .bark]
  | .fwCommit _ =>
    [.regs, .modl, .boot, .flash, .tel, .bark, .tree, .job, .cells, .sess, .limbs, .stream, .host, .ras, .journal,
     .pendStep, .free, .sent]
  | .fwActivate _ =>
    [.regs, .modl, .boot, .tel, .bark, .tree, .job, .cells, .sess, .limbs, .stream, .host, .ras, .journal, .pendStep,
     .free, .sent]
  | .trunkHandover =>
    [.regs, .modl, .boot, .tel, .hw, .bark, .tree, .graft, .job, .cells, .sess, .limbs, .stream, .host, .ras, .journal,
     .pendStep, .free, .sent]
  | .limbDieBoot _ =>
    [.regs, .modl, .boot, .tel, .hw, .bark, .tree, .job, .cells, .taps, .ports, .sess, .limbs, .stream, .host, .ras,
     .journal, .pendStep, .free, .sent]
  | .barkSeal => [.bark]
  | .barkClrCounters => [.regs]
  | .pufHealthCheck _ _ =>
    [.regs, .modl, .flash, .tel, .bark, .tree, .job, .cells, .sess, .limbs, .stream, .host, .ras, .journal, .pendStep,
     .free, .sent]
  | .heartwoodWrite _ _ _ =>
    [.regs, .modl, .tel, .hw, .bark, .tree, .job, .cells, .sess, .limbs, .stream, .host, .ras, .journal, .pendStep,
     .free, .sent]
  | .heartwoodRefresh _ => [.hw]
  | .rwhWrite _ _ => [.regs, .hw]
  | .hwClrCounters => [.regs]
  | .powerRequest _ => [.regs, .power]
  | .powerEntryComplete =>
    [.regs, .modl, .boot, .ring, .clk, .power, .thermal, .tel, .hw, .bark, .tree, .graft, .job, .cells, .taps, .ports,
     .sess, .limbs, .stream, .sessCmd, .host, .ras, .journal, .pendRing, .pendStep, .free, .sent]
  | .powerReturnComplete =>
    [.regs, .modl, .power, .tel, .bark, .tree, .job, .cells, .ports, .sess, .limbs, .stream, .host, .ras, .journal,
     .pendRing, .pendStep, .free, .sent]
  | .wakeN _ =>
    [.regs, .modl, .boot, .ring, .clk, .power, .thermal, .tel, .hw, .bark, .tree, .graft, .job, .cells, .taps, .ports,
     .sess, .limbs, .stream, .sessCmd, .host, .mgmt, .ras, .journal, .pendRing, .pendStep, .free, .sent]
  | .decisionEdge =>
    [.regs, .modl, .power, .thermal, .tel, .hw, .bark, .tree, .graft, .job, .cells, .sess, .limbs, .stream, .host, .ras,
     .journal, .pendStep, .free, .sent]
  | .droopEvent _ _ =>
    [.regs, .modl, .power, .tel, .bark, .tree, .job, .cells, .sess, .limbs, .stream, .host, .ras, .journal, .pendStep,
     .free, .sent]
  | .railFault _ =>
    [.regs, .modl, .power, .tel, .bark, .tree, .job, .cells, .taps, .ports, .sess, .limbs, .stream, .host, .ras,
     .journal, .pendStep, .free, .sent]
  | .sensorSample _ =>
    [.regs, .modl, .tel, .bark, .tree, .job, .cells, .sess, .limbs, .stream, .host, .ras, .journal, .pendStep, .free,
     .sent]
  | .hardTrip _ =>
    [.regs, .modl, .power, .tel, .hw, .bark, .tree, .graft, .job, .cells, .taps, .ports, .sess, .limbs, .stream,
     .sessCmd, .host, .ras, .journal, .pendStep, .free, .sent]
  | .domainWakeDone _ =>
    [.regs, .modl, .power, .tel, .bark, .tree, .graft, .job, .cells, .sess, .limbs, .stream, .host, .ras, .journal,
     .pendStep, .free, .sent]
  | .domainWakeTimeout _ =>
    [.regs, .modl, .power, .tel, .bark, .tree, .graft, .job, .cells, .sess, .limbs, .stream, .host, .ras, .journal,
     .pendStep, .free, .sent]
  | .excursionWrite _ => [.regs, .power]
  | .pwrClrCounters => [.regs]
  | .tripClear => [.regs, .modl, .thermal]
  | .clrPeak => [.regs]
  | .thmClrCounters => [.regs]
  | .telemetryRecord => [.regs, .tel, .bark, .host, .sent]
  | .telEnableWrite _ => [.regs, .tel]
  | .telClrCounters => [.regs]
  | .condensationHold =>
    [.regs, .modl, .tel, .bark, .tree, .job, .cells, .sess, .limbs, .stream, .host, .ras, .journal, .pendStep, .free,
     .sent]
  | .condensationClear =>
    [.regs, .modl, .boot, .ring, .clk, .power, .thermal, .tel, .hw, .bark, .tree, .graft, .job, .cells, .taps, .ports,
     .sess, .limbs, .stream, .sessCmd, .host, .ras, .journal, .pendRing, .pendStep, .sent]
  | .tiltWarning => [.modl]
  | .inputFail =>
    [.regs, .modl, .power, .tel, .hw, .bark, .tree, .graft, .job, .cells, .taps, .ports, .sess, .limbs, .stream,
     .sessCmd, .host, .ras, .journal, .pendStep, .free, .sent]
  | .inputReturn =>
    [.regs, .modl, .boot, .ring, .clk, .power, .thermal, .tel, .hw, .bark, .tree, .graft, .job, .cells, .taps, .ports,
     .sess, .limbs, .stream, .sessCmd, .host, .ras, .journal, .pendRing, .pendStep, .sent]
  | .standbyLoss =>
    [.regs, .modl, .boot, .ring, .clk, .power, .thermal, .tel, .hw, .bark, .tree, .graft, .job, .cells, .taps, .ports,
     .sess, .shakes, .limbs, .stream, .sessCmd, .host, .mgmt, .ras, .journal, .pendRing, .pendStep, .free, .sent]
  | .powerOn _ =>
    [.regs, .modl, .boot, .ring, .clk, .power, .thermal, .tel, .hw, .bark, .tree, .graft, .job, .cells, .taps, .ports,
     .sess, .shakes, .limbs, .stream, .sessCmd, .host, .mgmt, .ras, .journal, .pendRing, .pendStep]
  | .resetN _ =>
    [.regs, .modl, .boot, .ring, .clk, .power, .thermal, .tel, .hw, .bark, .tree, .graft, .job, .cells, .taps, .ports,
     .sess, .limbs, .stream, .sessCmd, .host, .ras, .journal, .pendRing, .pendStep, .free, .sent]
  | .injCell _ => [.regs, .power, .ras]
  | .injNet _ => [.regs, .power, .ras]
  | .injEdge _ => [.regs, .ras]
  | .injRoot _ => [.regs, .power, .ras]
  | .recoveryStart =>
    [.regs, .modl, .tel, .hw, .bark, .tree, .graft, .job, .cells, .sess, .limbs, .stream, .host, .ras, .journal,
     .pendStep, .free, .sent]
  | .bandShift =>
    [.regs, .modl, .tel, .hw, .bark, .tree, .graft, .job, .cells, .sess, .limbs, .stream, .host, .ras, .journal,
     .pendStep, .free, .sent]
  | .shiftComplete => [.regs, .bark, .job, .cells, .stream, .host, .ras, .journal, .pendStep, .free, .sent]
  | .copyComplete => [.ras]
  | .restoreComplete _ =>
    [.regs, .modl, .tel, .bark, .tree, .job, .cells, .sess, .limbs, .stream, .host, .ras, .journal, .pendRing, .pendStep,
     .free, .sent]
  | .replayComplete =>
    [.regs, .modl, .tel, .bark, .tree, .job, .cells, .sess, .limbs, .stream, .host, .ras, .journal, .pendRing, .pendStep,
     .free, .sent]
  | .selfTestDone _ _ _ =>
    [.regs, .modl, .tel, .hw, .bark, .tree, .job, .cells, .sess, .limbs, .stream, .host, .ras, .journal, .pendRing,
     .pendStep, .free, .sent]
  | .journalWrite =>
    [.regs, .modl, .tel, .bark, .tree, .job, .cells, .taps, .sess, .limbs, .stream, .host, .ras, .journal, .pendStep,
     .free, .sent]
  | .rasClrCounters => [.regs]
  | .journalClrCounters => [.regs]
  | .sparseClrCounters => [.regs, .pendStep]
  | .fabClrCounters => [.regs, .taps, .pendRing]
  | .fabProbeSelWrite _ => [.regs, .pendRing]
  | .bootStage _ =>
    [.cert, .regs, .modl, .boot, .clk, .power, .tel, .hw, .bark, .tree, .job, .cells, .ports, .sess, .limbs, .stream,
     .host, .ras, .journal, .pendStep, .free, .sent]
  | .ready => [.regs, .boot, .hw]
  | .gapNakRepeat _ => [.regs, .sess, .sent]
  | .lifeCounterUpdate => [.regs, .hw]
  | .entropyHealthFail => [.bark]
  | .ideKmRequest _ => [.host, .sent]

end Sys2Proof.Machine
end

