-- ==== Sys2Proof/Certificates/Slice0/Obligations.lean ====
section
/-!
DEFINITION. The statements for the provers. A clause about a command reads: under hypotheses on the state and the operands
alone, `exec` answers a next state, which has the effect the spec gives the command, and (`OnlyChanges`) no part of the state
but the listed ones has changed.
-/

open Sys2Proof Sys2Proof.Machine

/-! ## The ring and its clocks -/

/-- Frames of the ring (parts of Table 2.5, R46, R49, R461). While LOCKED a valid FULL frame that names the next ring makes the edge due
and restarts the count of invalid rings. While ACQUIRING the eighth consecutive valid FULL frame locks the ring at its number.
While LOCKED a ring with no delimiter goes to HOLDOVER and the edge comes from prediction; in HOLDOVER the ring is UNLOCKED once
HOLDOVER_MAX rings have passed. -/
def Obligations.FramesMoveTheLock : Prop :=
  (∀ (s : State) (f : RingFrame), s.noInjection → s.listens = true → f.driven = true → s.ring.lock = .locked → s.ring.edgeDue = false →
    f.offsetNs.natAbs ≤ 8 → f.short = false → f.crcOk = true → f.grove = s.f RING_CONFIG_GROVE_ID → 1 ≤ f.period → f.period ≤ 5 →
    f.period = s.ring.prevPeriod → f.number = ringAdd s.ring.number 1 →
    ∃ t, exec (.timecodeFrame f) s = .next t ∧ t.ring.edgeDue = true ∧ t.ring.lock = .locked ∧ t.ring.number = s.ring.number ∧
      t.ring.invalidRun = 0 ∧ OnlyChanges (mayChange (.timecodeFrame f)) s t) ∧
  (∀ (s : State) (f : RingFrame) (p : Nat), s.noInjection → s.listens = true → f.driven = true → s.ring.lock = .acquiring →
    s.ring.prevNum = some p → s.ring.acq = 7 → f.short = false → f.crcOk = true → f.grove = s.f RING_CONFIG_GROVE_ID →
    1 ≤ f.period → f.period ≤ 5 → f.period = s.ring.prevPeriod → f.ppm.natAbs ≤ 100 → f.number = ringAdd p 1 →
    ∃ t, exec (.timecodeFrame f) s = .next t ∧ t.ring.lock = .locked ∧ t.ring.number = f.number ∧ t.ring.period = f.period) ∧
  (∀ s : State, s.listens = true → s.ring.lock = .locked → s.ring.edgeDue = false →
    ∃ t, exec .delimiterMissing s = .next t ∧ t.ring.lock = .holdover ∧ t.ring.edgeDue = true ∧ t.ring.holdCount = 1 ∧
      t.ring.number = s.ring.number) ∧
  (∀ s : State, s.listens = true → s.ring.lock = .holdover → s.ring.edgeDue = false →
    s.f RING_CONFIG_HOLDOVER_MAX ≤ s.ring.holdCount →
    ∃ t, exec .delimiterMissing s = .next t ∧ t.ring.lock = .unlocked ∧ t.ring.edgeDue = false)

/-- The internal edge ends a ring: RING_NUMBER advances by 1 modulo 2^48, no edge is due any more, GUARD and EDGE_DELAY written since
are in force, and a ring pulse leaves (parts of R43, R45, R76). At the announced ring the period of that ring's frame comes into force and
CHANGE_PENDING clears (R51). Under PTP the sixteenth Sync in a row within 20 ns locks the ring at the period in RING_CTRL.PTP_PERIOD, its
number counted from RING_PTP_ORIGIN (R53, R54). -/
def Obligations.TheEdgeAdvancesTheRing : Prop :=
  (∀ (s : State) (o : EdgeObs), s.edgeComes = true → s.noInjection →
    ∃ t, exec (.ringEdge o) s = .next t ∧ t.ring.number = ringAdd s.ring.number 1 ∧ t.ring.edgeDue = false ∧
      t.ring.guard = s.f RING_CONFIG_GUARD ∧ t.ring.edgeDelay = s.f RING_CONFIG_EDGE_DELAY ∧ t.sent.getLast? = some .ringPulse) ∧
  (∀ s : State, s.ring.changePending = true → s.ring.number = s.ring.changeAt → s.ring.changeNext = none →
    ∃ t, exec .periodChange s = .next t ∧ t.ring.period = s.ring.prevPeriod ∧ t.ring.changePending = false ∧
      t.ring.number = s.ring.number ∧ t.ring.lock = s.ring.lock) ∧
  (∀ (s : State) (o : PtpObs), s.ptpTaken o = true → s.portEnabled o.port = true → (s.port o.port).role = 2 →
    s.ring.lock = .acquiring → s.ring.ptpGood = 15 → o.offset.natAbs ≤ 20 → s.f RING_CTRL_PTP_PERIOD ≤ 5 →
    ∃ t, exec (.ptpSync o) s = .next t ∧ t.ring.lock = .locked ∧ t.ring.period = s.f RING_CTRL_PTP_PERIOD ∧
      t.ring.number = ((o.t2 - o.offset - (s.f RING_PTP_ORIGIN_ORIGIN : Int)) / (periodNs (s.f RING_CTRL_PTP_PERIOD) : Int) % (ringMod : Int)).toNat)

/-- Ring registers with commands of their own (parts of R53, R55, R58, R76). A RING_CONFIG write that every rule allows sets its
fields, GROVE_ID only while UNLOCKED; one that breaks a rule sets CFG_REJECT and nothing else. ENABLE = 1 is stored; ENABLE = 0
forces UNLOCKED. With no job running and the guard rule met, a new SOURCE is stored and acquired afresh from UNLOCKED; else the
write changes nothing. CLR_STATS returns the ring's error counts and margin to their Reset columns. -/
def Obligations.RingRegisters : Prop :=
  (∀ (s : State) (w : Word64), s.storesWf → RING_CONFIG_PTP_PORT.of w < 72 → 64 ≤ RING_CONFIG_EDGE_DELAY.of w →
    16 ≤ RING_CONFIG_GUARD.of w → RING_CONFIG_GUARD.of w ≤ 512 → 1 ≤ RING_CONFIG_HOLDOVER_MAX.of w →
    RING_CONFIG_HOLDOVER_MAX.of w ≤ 1000 → (s.ptpOn = true → ptpGuard (s.f CLK_FREQ_MAX_CODE) ≤ RING_CONFIG_GUARD.of w) →
    s.stillFits (RING_CONFIG_GUARD.of w) s.depthSet s.maxCode = true →
    ∃ t, exec (.ringConfigWrite w) s = .next t ∧
      (∀ F ∈ [RING_CONFIG_PTP_PORT, RING_CONFIG_PTP_DOMAIN, RING_CONFIG_HOLDOVER_MAX, RING_CONFIG_EDGE_DELAY, RING_CONFIG_GUARD],
        t.f F = F.of w) ∧
      t.f RING_CONFIG_GROVE_ID = (if s.ring.lock = .unlocked then RING_CONFIG_GROVE_ID.of w else s.f RING_CONFIG_GROVE_ID) ∧
      FieldsKept [RING_CONFIG_PTP_PORT, RING_CONFIG_PTP_DOMAIN, RING_CONFIG_HOLDOVER_MAX, RING_CONFIG_EDGE_DELAY, RING_CONFIG_GUARD,
        RING_CONFIG_GROVE_ID] s t ∧ OnlyChanges [.regs] s t) ∧
  (∀ (s : State) (w : Word64), s.storesWf →
    (72 ≤ RING_CONFIG_PTP_PORT.of w ∨ RING_CONFIG_EDGE_DELAY.of w < 64 ∨ RING_CONFIG_GUARD.of w < 16 ∨ 512 < RING_CONFIG_GUARD.of w ∨
      RING_CONFIG_HOLDOVER_MAX.of w = 0 ∨ 1000 < RING_CONFIG_HOLDOVER_MAX.of w ∨
      (s.ptpOn = true ∧ RING_CONFIG_GUARD.of w < ptpGuard (s.f CLK_FREQ_MAX_CODE)) ∨
      s.stillFits (RING_CONFIG_GUARD.of w) s.depthSet s.maxCode = false) →
    ∃ t, exec (.ringConfigWrite w) s = .next t ∧ t.f RING_STATUS_CFG_REJECT = 1 ∧ FieldsKept [RING_STATUS_CFG_REJECT] s t ∧
      OnlyChanges [.regs] s t) ∧
  (∀ s : State, s.storesWf →
    ∃ t, exec (.ringEnableWrite true) s = .next t ∧ t.f RING_CTRL_ENABLE = 1 ∧ FieldsKept [RING_CTRL_ENABLE] s t ∧
      OnlyChanges [.regs] s t) ∧
  (∀ s : State, ∃ t, exec (.ringEnableWrite false) s = .next t ∧ t.ring.lock = .unlocked ∧ t.ring.edgeDue = false ∧
    t.ring.number = s.ring.number ∧ OnlyChanges (mayChange (.ringEnableWrite false)) s t) ∧
  (∀ (s : State) (b : Bool), s.storesWf → s.busyJob = false → b ≠ s.ptpOn →
    (b = true → ptpGuard (s.f CLK_FREQ_MAX_CODE) ≤ s.f RING_CONFIG_GUARD) →
    ∃ t, exec (.ringSourceWrite b) s = .next t ∧ t.f RING_CTRL_SOURCE = bit b ∧ t.ring.lock = .unlocked ∧
      t.ring.number = s.ring.number ∧ OnlyChanges [.regs, .ring, .host, .sent] s t) ∧
  (∀ (s : State) (b : Bool),
    (s.busyJob = true ∨ b = s.ptpOn ∨ (b = true ∧ s.f RING_CONFIG_GUARD < ptpGuard (s.f CLK_FREQ_MAX_CODE))) →
    exec (.ringSourceWrite b) s = .next s) ∧
  (∀ s : State, s.storesWf →
    ∃ t, exec .clrStats s = .next t ∧
      (∀ F ∈ [RING_ERRORS_SEAM_SLIPS, RING_ERRORS_GROVE_MISMATCH, RING_ERRORS_MISSING, RING_ERRORS_CRC_ERR, RING_ERRORS2_FORMAT_ERR,
        RING_MARGIN_RING_LO, RING_MARGIN_DIE, RING_MARGIN_MIN_MARGIN], t.f F = F.reset) ∧
      FieldsKept [RING_ERRORS_SEAM_SLIPS, RING_ERRORS_GROVE_MISMATCH, RING_ERRORS_MISSING, RING_ERRORS_CRC_ERR,
        RING_ERRORS2_FORMAT_ERR, RING_MARGIN_RING_LO, RING_MARGIN_DIE, RING_MARGIN_MIN_MARGIN] s t ∧ OnlyChanges [.regs] s t)

/-- The clock source (parts of R61, R62, R65, R66, R73). At its ring a pending code takes effect and the budget is computed anew. A
crystal lost while it is in use leaves the root die on its oscillator at code 48 with the ring UNLOCKED. The detector's pass is
noted. The hand-over brings the crystal back at code 48. -/
def Obligations.ClockSource : Prop :=
  (∀ (s : State) (c r : Nat) (rest : List (Nat × Nat)), s.clk.pending = (c, r) :: rest → ringBefore s.now r = false →
    ∃ t, exec .freqChange s = .next t ∧ t.clk = { s.clk with code := c, pending := rest } ∧
      t.ring = { s.ring with budget := t.budgetAt s.ring.period c } ∧ OnlyChanges [.clk, .ring] s t) ∧
  (∀ s : State, s.clk.xtal = true →
    ∃ t, exec .crystalLoss s = .next t ∧ t.clk.xtal = false ∧ t.clk.lossActive = true ∧ t.clk.code = 48 ∧ t.clk.pending = [] ∧
      t.ring.lock = .unlocked ∧ t.ring.edgeDue = false ∧ t.ring.number = s.ring.number) ∧
  (∀ s : State, ∃ t, exec .crystalGood s = .next t ∧ t.clk = { s.clk with xtalGood := true } ∧ OnlyChanges [.clk, .modl] s t) ∧
  (∀ s : State, s.clk.xtal = false → s.clk.xtalGood = true → s.clk.seedVerified = true →
    ∃ t, exec .clockHandover s = .next t ∧ t.clk.xtal = true ∧ t.clk.lossActive = false ∧ t.clk.code = 48 ∧
      (∀ p ∈ t.clk.plls, p.2 = .failed) ∧ OnlyChanges (mayChange .clockHandover) s t)

/-- PLLs (parts of R69, R74). A locked CPLL or LPLL that loses lock is relocking; a relock within its time locks it; three failed
attempts fail it, and make a compute die UNAVAILABLE. A measurement window within 0.1 % of the expected mean shows its mean, with
FREQ_ERR 0. -/
def Obligations.Plls : Prop :=
  (∀ (s : State) (n : Nat), s.pll n = .locked → n < 60 →
    ∃ t, exec (.pllUnlock n) s = .next t ∧ t.clk.plls = sset .locked s.clk.plls n .relocking ∧ t.ring = s.ring) ∧
  (∀ (s : State) (n : Nat), s.pll n = .relocking →
    ∃ t, exec (.pllRelock n) s = .next t ∧ t.clk = { s.clk with plls := sset .locked s.clk.plls n .locked } ∧ t.ring = s.ring) ∧
  (∀ (s : State) (n : Nat), s.pll n = .relocking →
    ∃ t, exec (.relockTimeout n) s = .next t ∧ t.clk = { s.clk with plls := sset .locked s.clk.plls n .failed } ∧
      (n < 48 → t.power.domains = sset .off s.power.domains n .unavailable) ∧ OnlyChanges [.clk, .power, .graft] s t) ∧
  (∀ (s : State) (n khz : Nat), s.storesWf → s.noInjection → n < 62 →
    1000 * (max khz (s.expectKhz n) - min khz (s.expectKhz n)) ≤ s.expectKhz n →
    ∃ t, exec (.clkMeasWindow n khz) s = .next t ∧ t.f (CLK_MEAS_FREQ_KHZ n) = khz % 2 ^ (CLK_MEAS_FREQ_KHZ n).width ∧
      t.f (CLK_MEAS_FREQ_ERR n) = 0 ∧ FieldsKept [CLK_MEAS_FREQ_KHZ n, CLK_MEAS_FREQ_ERR n] s t ∧ OnlyChanges [.regs] s t)

/-- Clock registers with commands of their own and the gating tree (parts of R55, R58, R70 to R72, R77). A CLK_FREQ write that every
rule allows sets both codes, and a CLK_SSC write its three fields; one that breaks a rule sets CFG_REJECT and leaves every field of
its register. A gate request with GO that names a compute die waits for the gating unit; while one waits, the next is answered 3,
REFUSED_BUSY, and one with an invalid action or level is answered 2. When it is done the node is gated, or it and its ancestors run
again, and the answer is 0; a node in use by then is answered 1. -/
def Obligations.ClockRegisters : Prop :=
  (∀ (s : State) (w : Word64), s.storesWf → CLK_FREQ_MIN_CODE.of w ≤ CLK_FREQ_MAX_CODE.of w → CLK_FREQ_MAX_CODE.of w ≤ 120 →
    (s.ptpOn = true → ptpGuard (CLK_FREQ_MAX_CODE.of w) ≤ s.f RING_CONFIG_GUARD) →
    s.stillFits (s.f RING_CONFIG_GUARD) s.depthSet (min (CLK_FREQ_MAX_CODE.of w) s.vfLimit) = true →
    ∃ t, exec (.clkFreqWrite w) s = .next t ∧ t.f CLK_FREQ_MIN_CODE = CLK_FREQ_MIN_CODE.of w ∧
      t.f CLK_FREQ_MAX_CODE = CLK_FREQ_MAX_CODE.of w ∧ FieldsKept [CLK_FREQ_MIN_CODE, CLK_FREQ_MAX_CODE] s t ∧
      OnlyChanges [.regs] s t) ∧
  (∀ (s : State) (w : Word64), s.storesWf →
    (CLK_FREQ_MAX_CODE.of w < CLK_FREQ_MIN_CODE.of w ∨ 120 < CLK_FREQ_MAX_CODE.of w ∨
      (s.ptpOn = true ∧ s.f RING_CONFIG_GUARD < ptpGuard (CLK_FREQ_MAX_CODE.of w)) ∨
      s.stillFits (s.f RING_CONFIG_GUARD) s.depthSet (min (CLK_FREQ_MAX_CODE.of w) s.vfLimit) = false) →
    ∃ t, exec (.clkFreqWrite w) s = .next t ∧ t.f CLK_FREQ_MIN_CODE = s.f CLK_FREQ_MIN_CODE ∧
      t.f CLK_FREQ_MAX_CODE = s.f CLK_FREQ_MAX_CODE ∧ t.f CLK_SRC_CFG_REJECT = 1 ∧ OnlyChanges [.regs, .host, .sent] s t) ∧
  (∀ (s : State) (w : Word64), s.storesWf → CLK_SSC_RATE.of w ≤ 75 → CLK_SSC_DEPTH.of w ≤ 20 →
    s.stillFits (s.f RING_CONFIG_GUARD) (if CLK_SSC_ENABLE.of w = 1 then CLK_SSC_DEPTH.of w else 0) s.maxCode = true →
    ∃ t, exec (.clkSscWrite w) s = .next t ∧ t.f CLK_SSC_ENABLE = CLK_SSC_ENABLE.of w ∧ t.f CLK_SSC_RATE = CLK_SSC_RATE.of w ∧
      t.f CLK_SSC_DEPTH = CLK_SSC_DEPTH.of w ∧ FieldsKept [CLK_SSC_ENABLE, CLK_SSC_RATE, CLK_SSC_DEPTH] s t ∧
      OnlyChanges [.regs] s t) ∧
  (∀ (s : State) (w : Word64), s.storesWf →
    (75 < CLK_SSC_RATE.of w ∨ 20 < CLK_SSC_DEPTH.of w ∨
      s.stillFits (s.f RING_CONFIG_GUARD) (if CLK_SSC_ENABLE.of w = 1 then CLK_SSC_DEPTH.of w else 0) s.maxCode = false) →
    ∃ t, exec (.clkSscWrite w) s = .next t ∧ t.f CLK_SSC_ENABLE = s.f CLK_SSC_ENABLE ∧ t.f CLK_SSC_RATE = s.f CLK_SSC_RATE ∧
      t.f CLK_SSC_DEPTH = s.f CLK_SSC_DEPTH ∧ t.f CLK_SRC_CFG_REJECT = 1 ∧ OnlyChanges [.regs, .host, .sent] s t) ∧
  (∀ (s : State) (w : Word64), CLK_GATE_REQ_GO.of w = 1 → CLK_GATE_REQ_ACTION.of w = 1 → CLK_GATE_REQ_LEVEL.of w = 1 →
    CLK_GATE_REQ_DIE.of w < 48 → s.clk.gateReq = none →
    ∃ t, exec (.clkGateReq w) s = .next t ∧
      t.clk = { s.clk with gateReq := some (⟨1, CLK_GATE_REQ_DIE.of w, 0, 0, 0, 0⟩, true) } ∧ OnlyChanges [.regs, .clk] s t) ∧
  (∀ (s : State) (w : Word64), CLK_GATE_REQ_GO.of w = 1 → s.clk.gateReq ≠ none →
    ∃ t, exec (.clkGateReq w) s = .next t ∧ t.clk = { s.clk with gateResult := 3 } ∧ OnlyChanges [.regs, .clk] s t) ∧
  (∀ (s : State) (w : Word64), CLK_GATE_REQ_GO.of w = 1 → s.clk.gateReq = none →
    (2 ≤ CLK_GATE_REQ_ACTION.of w ∨ CLK_GATE_REQ_LEVEL.of w = 0 ∨ 5 ≤ CLK_GATE_REQ_LEVEL.of w ∨ 48 ≤ CLK_GATE_REQ_DIE.of w) →
    ∃ t, exec (.clkGateReq w) s = .next t ∧ t.clk = { s.clk with gateResult := 2 } ∧ OnlyChanges [.regs, .clk] s t) ∧
  (∀ (s : State) (n : GateNode), s.clk.gateReq = some (n, true) →
    ∃ t, exec .gateRequestDone s = .next t ∧ OnlyChanges [.clk] s t ∧
      t.clk = { s.clk with
        gateReq := none, gateResult := 0, gated := s.clk.gated.filter (fun a => ! a.above n)
        ungated := s.clk.ungated.filter (· != n) ++ [n] }) ∧
  (∀ (s : State) (n : GateNode), s.clk.gateReq = some (n, false) → s.nodeUsed n = false →
    ∃ t, exec .gateRequestDone s = .next t ∧ OnlyChanges [.clk] s t ∧
      t.clk = { s.clk with
        gateReq := none, gateResult := 0, gated := s.clk.gated.filter (· != n) ++ [n]
        ungated := s.clk.ungated.filter (fun a => ! n.above a) }) ∧
  (∀ (s : State) (n : GateNode), s.clk.gateReq = some (n, false) → s.nodeUsed n = true →
    ∃ t, exec .gateRequestDone s = .next t ∧ OnlyChanges [.clk] s t ∧ t.clk = { s.clk with gateReq := none, gateResult := 1 })

/-! ## Compute and memory units of a cell -/

/-- Lanes (parts of R80, R81, R91, R95, R147 to R152, R162). A lane issues the oldest group of its queue once its span is loaded,
its outputs have or may take an entry, it is not held by an undelivered term and pack is not full: its term, or in the
weight-gradient mode one term for each stored value, joins the terms in flight, with the poison of its operands, and the values and
the group count as SPARSE_CNT events. A lane with an empty queue, a span not loaded, or held leaves the cell as it is. A lane of a
cell that steals, with an empty queue, takes the youngest group of its victim, marked as stolen, unless that group was stolen
before; a lane that has groups, or whose cell does not steal, takes none. The victim is the neighbour with more groups of its own,
the lane below on a tie; no neighbour with a group means no victim. -/
def Obligations.LanesIssueAndSteal : Prop :=
  (∀ (s : State) (x y lane : Nat), s.storesWf → s.works x y →
    ∃ t, exec (.groupIssue x y lane) s = .next t ∧ t = s.cellStep x y false ((s.cell x y).issue (s.cell x y).cfg lane) ∧
      t.cell x y = ((s.cell x y).issue (s.cell x y).cfg lane).1 ∧ OtherCells x y s t ∧ OnlyChanges [.cells, .pendStep] s t) ∧
  (∀ (c : Cell) (cfg : PipeCfg) (lane : Nat) (g : Group) (rest : List Group) (b : SpanBank) (o : Output), cfg.grad = none →
    c.comp.lanes.getD lane [] = g :: rest → c.comp.bankOf g = some b → c.comp.output g.row g.col = some o → c.comp.entryFree o = true →
    c.comp.laneHeld cfg lane = false → c.comp.packHeld cfg = false →
    c.issue cfg lane = (c.setComp (fun u => { u with
        lanes := u.lanes.set lane rest,
        flight := u.flight ++ [⟨g.row, g.col, g.idx, none, groupTerm cfg.wFmt cfg.aFmt (groupProds cfg.aFmt g b).1,
          g.poison || (groupProds cfg.aFmt g b).2, lane⟩] }), [.sparse 0 g.vals.length, .sparse 1 1])) ∧
  (∀ (c : Cell) (cfg : PipeCfg) (lane : Nat) (g : Group) (rest : List Group) (b : SpanBank) (gc : GradCfg), cfg.grad = some gc →
    c.comp.lanes.getD lane [] = g :: rest → c.comp.bankOf g = some b →
    (∀ st ∈ g.vals, (c.comp.output g.row (16 * g.col + st.pos)).any c.comp.entryFree = true) →
    c.comp.laneHeld cfg lane = false → c.comp.packHeld cfg = false →
    c.issue cfg lane = (c.setComp (fun u => { u with
        lanes := u.lanes.set lane rest,
        flight := u.flight ++ g.vals.map (fun st => (⟨g.row, 16 * g.col + st.pos, g.idx, none,
          groupTerm cfg.opFmt cfg.aFmt (gradProds cfg.aFmt g st.pos b).1, g.poison || (gradProds cfg.aFmt g st.pos b).2, lane⟩ : Term)) }),
      [.sparse 0 (g.vals.length * g.dy.length), .sparse 1 1])) ∧
  (∀ (c : Cell) (cfg : PipeCfg) (lane : Nat),
    (∀ g ∈ (c.comp.lanes.getD lane []).head?, c.comp.bankOf g = none) ∨ c.comp.laneHeld cfg lane = true ∨ c.comp.packHeld cfg = true →
    c.issue cfg lane = (c, [])) ∧
  (∀ (s : State) (x y lane : Nat), s.storesWf → s.works x y →
    ∃ t, exec (.groupSteal x y lane) s = .next t ∧ t.cell x y = ((s.cell x y).steal (s.cell x y).cfg lane).1 ∧
      OtherCells x y s t ∧ OnlyChanges [.cells, .pendStep] s t) ∧
  (∀ (c : Cell) (cfg : PipeCfg) (lane v : Nat) (g : Group), cfg.steal = true → lane < 8 → c.comp.lanes.getD lane [] = [] →
    c.comp.victim lane = some v → (c.comp.lanes.getD v []).getLast? = some g → g.stolen = false →
    (c.steal cfg lane).1 = c.setComp (fun u => { u with
      lanes := (u.lanes.set v (u.lanes.getD v []).dropLast).set lane [{ g with stolen := true }] })) ∧
  (∀ (c : Cell) (cfg : PipeCfg) (lane v : Nat) (g : Group), c.comp.victim lane = some v →
    (c.comp.lanes.getD v []).getLast? = some g → g.stolen = true → (c.steal cfg lane).1 = c) ∧
  (∀ (c : Cell) (cfg : PipeCfg) (lane : Nat), cfg.steal = false ∨ c.comp.lanes.getD lane [] ≠ [] → (c.steal cfg lane).1 = c) ∧
  (∀ (u : Compute) (lane v : Nat), lane < 8 → u.victim lane = some v → v < 8 ∧ (v + 1 = lane ∨ v = lane + 1) ∧ 0 < u.ownGroups v ∧
    (∀ w, w < 8 → w + 1 = lane ∨ w = lane + 1 → u.ownGroups w < u.ownGroups v ∨ (u.ownGroups w = u.ownGroups v ∧ v ≤ w))) ∧
  (∀ (u : Compute) (lane w : Nat), lane < 8 → u.victim lane = none → w < 8 → w + 1 = lane ∨ w = lane + 1 → u.ownGroups w = 0)

/-- Spans and blocks (parts of R139, R145 to R148, R154, R155, R165). The next span of the configured sequence enters a free bank
with its column, and its bytes leave the generator. The parser of a predicted tile waits for its scores; a parser cycle reads what
has arrived. It reads a sound header and its scale bytes. A group with stored values joins the end of its lane's queue, when that
has room and the predictor does not skip its output. The bytes of a tile that has faulted are discarded. A header that fails its
check poisons the tile, empties the lanes and is reported. -/
def Obligations.SpansAndBlocks : Prop :=
  (∀ (s : State) (x y : Nat), s.storesWf → s.works x y →
    ∃ t, exec (.spanLoad x y) s = .next t ∧ t.cell x y = (s.cell x y).loadSpan (s.cell x y).cfg ∧ OtherCells x y s t ∧
      OnlyChanges [.cells] s t) ∧
  (∀ (c : Cell) (cfg : PipeCfg) (sp col : Nat), cfg.spans[c.comp.tile.spansLoaded]? = some (sp, col) → c.comp.spans.length ≤ 1 →
    spanBytes cfg.aFmt ≤ (c.comp.fifo cfg.actAg).length →
    ∃ b : SpanBank, (c.loadSpan cfg).comp.spans = c.comp.spans ++ [b] ∧ b.span = sp ∧ b.col = col ∧
      b.vals = unpackVals cfg.aFmt.width 1024
        (((c.comp.fifo cfg.actAg).take (1024 * cfg.aFmt.width / 8)).map (·.b)) ∧
      (c.loadSpan cfg).comp.fifo cfg.actAg = (c.comp.fifo cfg.actAg).drop (spanBytes cfg.aFmt) ∧
      (c.loadSpan cfg).comp.tile.spansLoaded = c.comp.tile.spansLoaded + 1 ∧ (c.loadSpan cfg).mem = c.mem) ∧
  (∀ (s : State) (x y : Nat), s.works x y → s.noInjection → ((s.settleScore x y).cell x y).comp.tile.scored = true →
    exec (.blockParse x y) s =
      .next ((s.settleScore x y).cellStep x y false (((s.settleScore x y).cell x y).parseAndDrain none))) ∧
  (∀ (s : State) (x y : Nat) (q : Predictor), s.works x y → (s.cell x y).active.predictor = some q →
    (∀ j, s.running = some j → j.phase ≠ .makeup) → (s.cell x y).comp.tile.scored = false → exec (.blockParse x y) s = .next s) ∧
  (∀ (c : Cell) (cfg : PipeCfg) (n : Nat), c.comp.tile.faulted = true → cfg.weightAg < c.comp.ags.length →
    (parseRun cfg (n + 1) c).1.comp.fifo cfg.weightAg = [] ∧ (parseRun cfg (n + 1) c).1.comp.lanes = c.comp.lanes ∧
      (parseRun cfg (n + 1) c).2 = []) ∧
  (∀ (c : Cell) (cfg : PipeCfg) (w : Nat), cfg.grad = none → 8 ≤ (c.comp.fifo cfg.weightAg).length →
    w = leNat (((c.comp.fifo cfg.weightAg).take 8).map (·.b)) → headerBad cfg.wFmt w = false →
    c.comp.tile.pEnd ≤ (needleHdr w).baseCol → 8 + scaleCount cfg.wFmt (needleHdr w) ≤ (c.comp.fifo cfg.weightAg).length →
    ∃ d : Cell, c.parseHeader cfg = some (d, []) ∧ d.mem = c.mem ∧ d.comp.lanes = c.comp.lanes ∧
      d.comp.tile.ctx = some ⟨w, 0, 0, (((c.comp.fifo cfg.weightAg).drop 8).take (scaleCount cfg.wFmt (needleHdr w))).map
        (fun p => p.b.toNat), 0, 0⟩) ∧
  (∀ (c : Cell) (cfg : PipeCfg) (w : Nat), cfg.grad = none → 8 ≤ (c.comp.fifo cfg.weightAg).length →
    w = leNat (((c.comp.fifo cfg.weightAg).take 8).map (·.b)) → headerBad cfg.wFmt w = true →
    ∃ (d : Cell) (n : Nat), c.parseHeader cfg = some (d, [.fault ⟨.sparseMeta, 4⟩ n true, .metaTile 4]) ∧
      d.comp.tile.faulted = true ∧ d.comp.tile.poison = true ∧ d.comp.lanes = c.comp.lanes.map (fun _ => []) ∧
      d.comp.flight = [] ∧ d.mem = c.mem) ∧
  (∀ (c : Cell) (cfg : PipeCfg) (q : BlockCtx) (r : RawGroup), cfg.grad = none →
    countBad (needleHdr q.header) q.nextGroup q.sum ((c.comp.fifo cfg.weightAg).map (·.b)) = none →
    rawGroup cfg.wFmt (needleHdr q.header).dense ((c.comp.fifo cfg.weightAg).map (·.b)) = some r →
    groupBad (needleHdr q.header) cfg.extent q.nextGroup q.sum r = none → r.count ≠ 0 →
    c.comp.tile.skipped c.comp.tile.pRow (cfg.cols.getD c.comp.tile.pCol 0) = false →
    c.comp.tile.pRow % 8 < c.comp.lanes.length → (c.comp.lanes.getD (c.comp.tile.pRow % 8) []).length < 8 →
    q.nextGroup + 1 < (needleHdr q.header).groups →
    ∃ d : Cell, c.parseGroup cfg q = some (d, []) ∧ d.mem = c.mem ∧
      d.comp.tile.ctx =
        some { q with nextGroup := q.nextGroup + 1, sum := q.sum + r.count, used := q.used + r.count, part := 0 } ∧
      d.comp.lanes.getD (c.comp.tile.pRow % 8) [] = c.comp.lanes.getD (c.comp.tile.pRow % 8) [] ++
        [⟨(needleHdr q.header).baseCol / 16 + q.nextGroup, c.comp.tile.pRow, cfg.cols.getD c.comp.tile.pCol 0,
          groupStored cfg.wFmt (needleHdr q.header) q.scales cfg.extent q.nextGroup q.used r, [],
          ((c.comp.fifo cfg.weightAg).take r.size).any (·.poison), false⟩])

/-- Terms and outputs (parts of R90 to R93, R462). A term that reaches its row is taken, or waits where it stands. One that is the
next of its output, when that may hold an entry and nothing waits in the row's reorder buffer, is added at once; an INT32 overflow
that is checked poisons the tile and is reported, once a tile. A term that is not the next waits in the reorder buffer, and the
deliverer stalls when that holds 16. An output whose list is fully accepted becomes ready for its set. -/
def Obligations.TermsAndOutputs : Prop :=
  (∀ (s : State) (x y row : Nat) (net : Bool), s.works x y → s.noInjection →
    exec (.termAccept x y row net) s = .next
      (match (s.cell x y).nextTerm row net with
       | none => s
       | some t => s.cellStep x y false ((s.cell x y).takeTerm t net false))) ∧
  (∀ (c : Cell) (t : Term), (c.takeTerm t false false).1 =
    if (c.comp.deliver c.cfg t).2.2 then
      { c with comp := { (c.comp.deliver c.cfg t).1 with flight := (c.comp.deliver c.cfg t).1.flight.erase t } } else c) ∧
  (∀ (u v : Compute) (cfg : PipeCfg) (t : Term) (o : Output) (i : Word32 × Bool), u.output t.row t.col = some o →
    o.isNext cfg t = true → u.entryFree o = true → u.initVal cfg o = some (v, i) → u.reorder.getD (t.row % 8) [] = [] →
    (o.accept cfg i t).2 = false →
    u.deliver cfg t = ({ v with
      rows := lmod v.rows (t.row % 8) (fun l => l.map (fun q => if t.isOf q then (o.accept cfg i t).1 else q)) }, [], true)) ∧
  (∀ (u v : Compute) (cfg : PipeCfg) (t : Term) (o : Output) (i : Word32 × Bool), u.output t.row t.col = some o →
    o.isNext cfg t = true → u.entryFree o = true → u.initVal cfg o = some (v, i) → u.reorder.getD (t.row % 8) [] = [] →
    (o.accept cfg i t).2 = true → v.tile.overflowed = false →
    (u.deliver cfg t).1.tile.poison = true ∧ (u.deliver cfg t).1.tile.overflowed = true ∧
      (u.deliver cfg t).2 = ([.fault ⟨.overflow, 4⟩ (t.row % 8) true], true)) ∧
  (∀ (u : Compute) (cfg : PipeCfg) (t : Term) (o : Output), u.output t.row t.col = some o → o.isNext cfg t = false →
    (u.reorder.getD (t.row % 8) []).length < 16 →
    u.deliver cfg t = ({ u with reorder := lmod u.reorder (t.row % 8) (· ++ [t]) }, [], true)) ∧
  (∀ (u : Compute) (cfg : PipeCfg) (t : Term) (o : Output), u.output t.row t.col = some o → o.isNext cfg t = false →
    16 ≤ (u.reorder.getD (t.row % 8) []).length → u.deliver cfg t = (u, [], false)) ∧
  (∀ (u : Compute) (cfg : PipeCfg) (t : Term) (o : Output), u.output t.row t.col = some o → o.isNext cfg t = true →
    u.entryFree o = false → u.deliver cfg t = (u, [], false)) ∧
  (∀ (s : State) (x y row : Nat), s.storesWf → s.works x y →
    ∃ t, exec (.outputComplete x y row) s = .next t ∧ t.cell x y = (s.cell x y).complete (s.cell x y).cfg row ∧
      OtherCells x y s t ∧ OnlyChanges [.cells] s t) ∧
  (∀ (c : Cell) (cfg : PipeCfg) (row : Nat) (o : Output),
    (c.comp.rows.getD row []).find? (fun o => o.isComplete && ! o.ready) = some o → o.started = true →
    c.complete cfg row = c.setComp (fun u => { u with
      rows := lmod u.rows row (fun l => l.map (fun q => if q = o then { o with ready := true } else q)) }))

/-- Activate, the predictor and pack (parts of R97, R99, R101, R165, R166, R168, R169, R252, R462). A cell's own set leaves activate
by its own memory, that of a check or vote by the owner's. Sets leave in output order, one after the other, each into pack's one
place. A cycle of pack converts the set: its bits join the word pack fills. A cell with a predictor scores its tile before anything
is skipped; one without scores nothing. A tile that is not faulted by it skips only outputs whose score does not compute them, and
audits at most AUDIT_MIN and the room left under NMAX. -/
def Obligations.ActivatePredictPack : Prop :=
  (∀ (s : State) (x y : Nat), s.works x y → s.noInjection →
    exec (.outputSetActivate x y) s =
      .next (s.reading x y false (fun foreign c => c.activateSet foreign c.cfg (cellKey x y) false))) ∧
  (∀ (s : State) (x y : Nat) (f : Bool → Cell → Cell × List CellEv), (s.cell x y).comp.tile.ownerOf = none →
    s.reading x y false f = s.cellStep x y false (f false (s.cell x y))) ∧
  (∀ (c : Cell) (cfg : PipeCfg) (id : Nat) (foreign : Bool), cfg.grad = none → cfg.usesTable = false →
    (c.activateSet foreign cfg id false).1.comp.tile.setsOut ≠ c.comp.tile.setsOut →
    (c.activateSet foreign cfg id false).1.comp.tile.setsOut = c.comp.tile.setsOut + 1 ∧ c.comp.tile.setsOut < cfg.setCount ∧
    c.comp.packQ = [] ∧
    (∃ a : ActSet, (c.activateSet foreign cfg id false).1.comp.packQ = [a] ∧
      a.outs.map (·.row) = (cfg.setRows c.comp.tile.setsOut).1) ∧
    (c.activateSet foreign cfg id false).1.mem = c.mem) ∧
  (∀ (s : State) (x y : Nat), s.works x y → s.noInjection →
    exec (.pack x y) s = .next ((s.cellStep x y false
      (((s.cell x y).pack (s.cell x y).cfg (s.packEnv x y none)).1, ((s.cell x y).pack (s.cell x y).cfg (s.packEnv x y none)).2.2)).probeAll
        x y ((s.cell x y).pack (s.cell x y).cfg (s.packEnv x y none)).2.1)) ∧
  (∀ (c : Cell) (cfg : PipeCfg) (env : PackEnv) (a : ActSet) (rest : List ActSet), c.comp.packQ = a :: rest →
    cfg.outFmt.isMx = false → cfg.predicate = none → c.comp.tile.scaleWord = [] →
    (c.comp.tile.wordBits ++ a.outs.flatMap (fun o => elemBits cfg.outFmt.width
      (packScalar cfg.outFmt cfg.sat o.int o.y) o.poison)).length < 128 →
    (c.convertSet cfg env).2 = [] ∧ (c.convertSet cfg env).1.comp.packQ = rest ∧
    (c.convertSet cfg env).1.comp.tile.setsPacked = c.comp.tile.setsPacked + 1 ∧
    (c.convertSet cfg env).1.comp.tile.wordBits = c.comp.tile.wordBits ++ a.outs.flatMap (fun o => elemBits cfg.outFmt.width
      (packScalar cfg.outFmt cfg.sat o.int o.y) o.poison) ∧
    (c.convertSet cfg env).1.mem = c.mem ∧ (c.convertSet cfg env).1.box = c.box) ∧
  (∀ (s : State) (x y : Nat) (j : Job) (q : Predictor), s.works x y → s.noInjection → s.running = some j → j.phase ≠ .makeup →
    (s.cell x y).comp.tile.scored = false → (s.cell x y).comp.tile.faulted = false → (s.cell x y).active.predictor = some q →
    exec (.predictScore x y) s = .next (s.reading x y false (fun foreign c => c.predict foreign c.cfg (cellKey x y) j.desc.seed j.step
      (s.tileBlocks (s.cell x y).comp.tile).1 (s.tileBlocks (s.cell x y).comp.tile).2 false))) ∧
  (∀ (s : State) (x y : Nat), s.works x y → (s.cell x y).active.predictor = none → exec (.predictScore x y) s = .next s) ∧
  (∀ (c : Cell) (cfg : PipeCfg) (q : Predictor) (score : Nat → Nat → Word32) (seed step j0 c0 : Nat),
    (c.decideSkips cfg q score seed step j0 c0 false).1.comp.tile.faulted = false →
    (c.decideSkips cfg q score seed step j0 c0 false).1.comp.tile.scored = true ∧
    (c.decideSkips cfg q score seed step j0 c0 false).1.comp.tile.audits.length ≤ q.auditMin + q.nmax ∧
    (∀ p ∈ (c.decideSkips cfg q score seed step j0 c0 false).1.comp.tile.skips,
      scoreComputes (predictorT q) (score p.1 p.2) = false))

/-- The scratchpad (parts of R105, R106, R111 to R114, R118 to R120). A cycle of port accesses of a cell's own tile is one cycle of
its banks. A client whose address is not known waits; a lone one with an address is served. A beat written reads back and leaves
every other byte. Words read: two good words as stored, a word with one flipped bit is queued for write-back, a word with more is
poisoned and reported. The scrubber reads one beat of a free bank and moves on; it does nothing while it is shed, the bank is not
free, or an access waits for it. -/
def Obligations.ScratchpadAccess : Prop :=
  (∀ (s s1 : State) (x y : Nat) (cls : List Client) (ups : List (Nat × Nat)) (c : Cell), s.works x y → s.noInjection →
    (s.cell x y).comp.tile.places = true → s1 = s.settleScore x y →
    c = { s1.cell x y with mem := (s1.cell x y).mem.upset ups } →
    exec (.bankAccess x y cls ups) s = .next ((s1.setCell x y c).cellStep x y false
      (((s1.setCell x y c).cell x y).ownCycle (s1.packEnv x y none) (cls.filter c.clientOk)))) ∧
  (∀ (c : Cell) (id : Nat) (m foreign : Bool) (out : Option Nat) (cl : Client), servePorts id m out foreign [cl] [] [] c =
    match c.clientAddr out foreign cl with
    | none => (c, [], [cl])
    | some a => ((c.access id m foreign cl a).1, (c.access id m foreign cl a).2, [])) ∧
  (∀ (m : MemUnit) (id a : Nat) (bs : List Byte) (p : Bool), m.bytes.wf = true → m.lost = none → a % 16 = 0 → bs.length = 16 →
    (∀ i, i < 16 → (m.writeBeat a bs p).byte id (a + i) = bs.getD i 0) ∧
    (∀ b, b < a ∨ a + 16 ≤ b → (m.writeBeat a bs p).byte id b = m.byte id b) ∧ (m.writeBeat a bs p).bytes.wf = true) ∧
  (∀ (m : MemUnit) (id a : Nat) (win : Option (Nat × Nat)), (sget .good m.words (a / 8)).flips = 0 →
    (sget .good m.words (a / 8)).poison = false → (sget .good m.words (a / 8 + 1)).flips = 0 →
    (sget .good m.words (a / 8 + 1)).poison = false →
    m.readBeat id a win = (m, (List.range 16).map (fun i => ⟨m.byte id (a + i), false⟩), [])) ∧
  (∀ (m : MemUnit) (w : Nat) (win : Option (Nat × Nat)), (sget .good m.words w).poison = false → (sget .good m.words w).flips = 1 →
    m.readWord w win = ({ m with writeBack := m.writeBack ++ [w] }, false, [.corrected])) ∧
  (∀ (m : MemUnit) (w : Nat) (win : Option (Nat × Nat)), (sget .good m.words w).poison = false → 2 ≤ (sget .good m.words w).flips →
    (sget .good m.words w).failed = false →
    m.readWord w win = ({ m with words := sset .good m.words w ⟨0, true, true, false⟩ }, true,
      [.uncorrectable, .fault ⟨.eccInnerUe, 1⟩ (eccDetail w win) true])) ∧
  (∀ (s : State) (x y cycle : Nat) (ended : Bool), s.storesWf → s.works x y → s.noInjection → s.power.memShed = 0 →
    s.bankFree x y ((s.cell x y).mem.scrubAt / 16 % 4) cycle ended = true →
    (s.cell x y).bankWanted ((s.cell x y).mem.scrubAt / 16 % 4) = false →
    (sget .good (s.cell x y).mem.words ((s.cell x y).mem.scrubAt / 8)).flips = 0 →
    (sget .good (s.cell x y).mem.words ((s.cell x y).mem.scrubAt / 8 + 1)).flips = 0 → (s.cell x y).mem.writeBack = [] →
    (s.cell x y).mem.scrubAt + 16 ≠ scratchBytes →
    ∃ t, exec (.scrubAccess x y cycle ended []) s = .next t ∧
      t.cell x y = { s.cell x y with
        mem := { (s.cell x y).mem with scrubAt := ((s.cell x y).mem.scrubAt + 16) % scratchBytes } } ∧
      OtherCells x y s t ∧ OnlyChanges [.cells] s t) ∧
  (∀ (s : State) (x y cycle : Nat) (ended : Bool) (ups : List (Nat × Nat)), s.inGrid x y = true →
    (1 ≤ s.power.memShed ∨ s.bankFree x y ((s.cell x y).mem.scrubAt / 16 % 4) cycle ended = false ∨
      (s.cell x y).bankWanted ((s.cell x y).mem.scrubAt / 16 % 4) = true) →
    exec (.scrubAccess x y cycle ended ups) s = .next s)

/-! ## Windows, credits and remote access -/

/-- The window's schedule (parts of R125, R136, R137). Open: GEN stays, the pool is CREDIT_POOL. Close: GEN advances and every
credit of the window has gone or holds nothing; the window is CLOSED, or CLOSING while an accepted message is incomplete. Reopen:
GEN advances, the pool is reset. A CLOSING window without such a message is CLOSED. The other windows and every byte keep what they
hold. A close takes back a message whose header came in its own cycle, and a reopen at a ring edge is followed by that edge's
refresh of standing credits. A window that is not OPEN is neither closed nor reopened. -/
def Obligations.WindowsOpenAndClose : Prop :=
  (∀ (s : State) (x y w : Nat) (d : WinDesc), s.storesWf → s.works x y → swf .reset (s.cell x y).mem.wins = true →
    (s.cell x y).active.window w = some d → ((s.cell x y).mem.win w).st = .closed →
    ∃ t m, exec (.windowOpen x y w) s = .next t ∧ t.cell x y = { s.cell x y with mem := m } ∧
      m.win w = ⟨((s.cell x y).mem.win w).gen, .opened, d.pool, false⟩ ∧ (∀ v, v ≠ w → m.win v = (s.cell x y).mem.win v) ∧
      m.bytes = (s.cell x y).mem.bytes ∧ m.msgs = (s.cell x y).mem.msgs ∧ OtherCells x y s t ∧ OnlyChanges [.cells] s t) ∧
  (∀ (s : State) (x y w cycle : Nat), s.storesWf → s.works x y → swf .reset (s.cell x y).mem.wins = true →
    ((s.cell x y).mem.win w).st = .opened → (s.cell x y).recall w s.now cycle = none →
    ∃ t m, exec (.windowClose x y w cycle) s = .next t ∧ t.cell x y = { s.cell x y with mem := m } ∧
      m.win w = ⟨genNext ((s.cell x y).mem.win w).gen, if (s.cell x y).mem.busy w then .closing else .closed, 0, false⟩ ∧
      (∀ v, v ≠ w → m.win v = (s.cell x y).mem.win v) ∧ (∀ q ∈ m.credits, q.window = w → q.bytes = 0) ∧
      m.bytes = (s.cell x y).mem.bytes ∧ m.msgs = (s.cell x y).mem.msgs ∧ OtherCells x y s t ∧ OnlyChanges [.cells] s t) ∧
  (∀ (s : State) (x y w cycle : Nat) (q : InMsg) (rest : List InMsg), s.storesWf → s.works x y → s.strict = false →
    swf .reset (s.cell x y).mem.wins = true → ((s.cell x y).mem.win w).st = .opened →
    (s.cell x y).mem.msgs = q :: rest → q.window = w → q.ring = s.now → q.cycle = cycle → q.addr = q.start →
    ∃ t, exec (.windowClose x y w cycle) s = .next t ∧
      ((t.cell x y).mem.win w).gen = genNext ((s.cell x y).mem.win w).gen ∧ ((t.cell x y).mem.win w).st ≠ .opened ∧
      (t.cell x y).mem.msgs = rest ∧ (t.cell x y).mem.dropped = (s.cell x y).mem.dropped + 1 ∧
      (t.cell x y).mem.bytes = (s.cell x y).mem.bytes ∧ OtherCells x y s t ∧ OnlyChanges [.cells, .regs, .pendRing] s t) ∧
  (∀ (s : State) (x y w cycle : Nat) (d : WinDesc), s.storesWf → s.works x y → swf .reset (s.cell x y).mem.wins = true →
    (s.cell x y).active.window w = some d → ((s.cell x y).mem.win w).st = .opened → (s.cell x y).recall w s.now cycle = none →
    cycle ≠ 0 →
    ∃ t m, exec (.windowReopen x y w cycle) s = .next t ∧ t.cell x y = { s.cell x y with mem := m } ∧
      m.win w = ⟨genNext ((s.cell x y).mem.win w).gen, .opened, d.pool, (s.cell x y).mem.busy w⟩ ∧
      (∀ v, v ≠ w → m.win v = (s.cell x y).mem.win v) ∧ (∀ q ∈ m.credits, q.window = w → q.bytes = 0) ∧
      m.bytes = (s.cell x y).mem.bytes ∧ m.msgs = (s.cell x y).mem.msgs ∧ OtherCells x y s t ∧ OnlyChanges [.cells] s t) ∧
  (∀ (s : State) (x y w : Nat), s.works x y → ((s.cell x y).mem.win w).st = .opened → (s.cell x y).recall w s.now 0 = none →
    (s.cell x y).mem.refreshed = some s.now →
    exec (.windowReopen x y w 0) s = .next (State.refreshCell
      (s.setCell x y { s.cell x y with mem := (s.cell x y).mem.reopenWin (s.cell x y).active w }) x y)) ∧
  (∀ (s : State) (x y w cycle : Nat), s.works x y → ((s.cell x y).mem.win w).st ≠ .opened →
    exec (.windowClose x y w cycle) s = .next s ∧ exec (.windowReopen x y w cycle) s = .next s) ∧
  (∀ (s : State) (x y w : Nat), s.storesWf → s.works x y → swf .reset (s.cell x y).mem.wins = true →
    ((s.cell x y).mem.win w).st = .closing → (s.cell x y).mem.busy w = false →
    ∃ t m, exec (.windowClosed x y w) s = .next t ∧ t.cell x y = { s.cell x y with mem := m } ∧
      m = (s.cell x y).mem.setWin w { (s.cell x y).mem.win w with st := .closed } ∧ OtherCells x y s t ∧
      OnlyChanges [.cells] s t)

/-- Remote writes (parts of R133, R134). A WRITE or FILL header whose generation, window, right, range and credit pass is accepted:
its bytes leave the credit and its message waits for its beats. One under another generation is dropped with nothing written and
counted, a NACK goes to its writer, and in strict mode CREDIT/CLOSED is raised. A beat of the message that no other client and no
held line keeps from its port writes its 16 bytes and no other; the beats of a dropped message write nothing. -/
def Obligations.RemoteWrites : Prop :=
  (∀ (s : State) (x y cycle : Nat) (u : NetUnit) (rest : List NetUnit) (d : WinDesc) (q : Credit), s.storesWf → s.works x y →
    s.noInjection → (s.cell x y).inbox .v 0 = u :: rest → u.head = true → (vHead u.data).kind ≤ 1 →
    (s.cell x y).active.window (vHead u.data).window = some d →
    ((s.cell x y).mem.win (vHead u.data).window).gen = (vHead u.data).gen →
    ((s.cell x y).mem.win (vHead u.data).window).st = .opened →
    ((s.cell x y).mem.win (vHead u.data).window).reopening = false → (if (vHead u.data).kind = 1 then d.sf else d.rw) = true →
    16 * (vHead u.data).offset + 16 * ((vHead u.data).len + 1) ≤ d.len →
    (s.cell x y).mem.credits.find? (fun r => r.writer == (vHead u.data).writer && r.window == (vHead u.data).window &&
      r.gen == (vHead u.data).gen && decide (16 * ((vHead u.data).len + 1) ≤ r.bytes)) = some q →
    16 * ((vHead u.data).len + 1) < q.bytes →
    ∃ t, exec (.remoteWriteHeader x y cycle) s = .next t ∧
      (t.cell x y).mem = { (s.cell x y).mem with
        msgs := (s.cell x y).mem.msgs ++ [⟨(vHead u.data).window, d.base + 16 * (vHead u.data).offset, (vHead u.data).len + 1,
          decide ((vHead u.data).kind = 1), d.base + 16 * (vHead u.data).offset, [], u.data, s.now, cycle⟩],
        credits := (s.cell x y).mem.credits.map
          (fun r => if r = q then { r with bytes := q.bytes - 16 * ((vHead u.data).len + 1) } else r) } ∧
      (t.cell x y).comp = (s.cell x y).comp ∧ OtherCells x y s t ∧ OnlyChanges [.cells] s t) ∧
  (∀ (s : State) (x y cycle : Nat) (u : NetUnit) (rest : List NetUnit) (d : WinDesc), s.storesWf → s.works x y → s.noInjection →
    (s.cell x y).inbox .v 0 = u :: rest → u.head = true → (s.cell x y).active.window (vHead u.data).window = some d →
    ((s.cell x y).mem.win (vHead u.data).window).gen ≠ (vHead u.data).gen →
    exec (.remoteWriteHeader x y cycle) s = .next (State.sendNack
      (s.cellStep x y false
        ({ (s.cell x y).dropInbox .v 0 1 with
            mem := { (s.cell x y).mem with dropped := (s.cell x y).mem.dropped + 1 },
            box := { ((s.cell x y).dropInbox .v 0 1).box with
              dropping := sset 0 (s.cell x y).box.dropping beatKey (if u.tail then 0 else 1) } },
         if s.strict then [.fault ⟨.credit, 1⟩ ((vHead u.data).writer.detail (vHead u.data).window) true] else []))
      x y (.nack (vHead u.data).window (vHead u.data).gen ((s.cell x y).mem.win (vHead u.data).window).gen
        (16 * ((vHead u.data).len + 1)) (vHead u.data).offset (vHead u.data).writer (vHead u.data).sx (vHead u.data).sy))) ∧
  (∀ (s : State) (x y : Nat) (u : NetUnit) (rest : List NetUnit) (q : InMsg) (more : List InMsg), s.storesWf → s.works x y →
    (s.cell x y).inbox .v 0 = u :: rest → u.head = false → sget 0 (s.cell x y).box.dropping beatKey = 0 →
    (s.cell x y).mem.msgs = q :: more → 2 ≤ q.beats → (s.cell x y).mem.bytes.wf = true → (s.cell x y).mem.lost = none →
    (s.cell x y).mem.waiting = [] → (s.cell x y).comp.packOut = [] → (s.cell x y).lineHeld q.addr = false →
    ∃ t, exec (.remoteWriteBeat x y) s = .next t ∧
      (∀ i, i < 16 → (t.cell x y).mem.byte (cellKey x y) (q.addr + i) = (leBytes 16 u.data).getD i 0) ∧
      (∀ a, a < q.addr ∨ q.addr + 16 ≤ a → (t.cell x y).mem.byte (cellKey x y) a = (s.cell x y).mem.byte (cellKey x y) a) ∧
      (t.cell x y).mem.msgs.head? =
        some { q with addr := q.addr + 16, beats := q.beats - 1, came := q.came ++ leBytes 16 u.data } ∧
      (t.cell x y).mem.wins = (s.cell x y).mem.wins ∧ (t.cell x y).mem.credits = (s.cell x y).mem.credits ∧
      OtherCells x y s t ∧ OnlyChanges [.cells] s t) ∧
  (∀ (s : State) (x y : Nat) (u : NetUnit) (rest : List NetUnit), s.storesWf → s.works x y →
    (s.cell x y).inbox .v 0 = u :: rest → u.head = false → sget 0 (s.cell x y).box.dropping beatKey = 1 →
    ∃ t, exec (.remoteWriteBeat x y) s = .next t ∧ (t.cell x y).mem = (s.cell x y).mem ∧ OtherCells x y s t ∧
      OnlyChanges [.cells] s t)

/-- Credits (parts of R131, R132, R134). A cell's request that every condition allows takes its bytes from the pool, enters the
credit table under the GEN in force and is answered GRANTED; with too little in the pool it is answered DEFERRED for one ring and
nothing is reserved. A disposition at the writer answers its oldest request for that window (log 23): GRANTED is held, after
DEFERRED it may ask again so many rings on. A NACK leaves the writer no credit there under older generations. Released units return
to the pool, never above CREDIT_POOL. A refresh comes at a stride boundary and sets every standing credit to its declared count
under its window's GEN. -/
def Obligations.Credits : Prop :=
  (∀ (s : State) (x y w0 w1 w2 w3 : Nat) (d : WinDesc), s.works x y → s.noInjection →
    (s.cell x y).sHead 0 [0] = some [w0, w1, w2, w3] → w0.testBit 23 = false →
    (s.cell x y).active.window (fld w0 4 4) = some d → d.rw = true → (s.cell x y).mem.creditFree (s.cell x y).active = true →
    ((s.cell x y).mem.win (fld w0 4 4)).st = .opened → ((s.cell x y).mem.win (fld w0 4 4)).reopening = false →
    64 * fld w0 8 10 ≤ ((s.cell x y).mem.win (fld w0 4 4)).pool →
    exec (.creditReq x y) s = .next (State.sendUnits
      (s.setCell x y { (s.cell x y).dropInbox .s 0 4 with
        mem := { (s.cell x y).mem.setWin (fld w0 4 4) { (s.cell x y).mem.win (fld w0 4 4) with
            pool := ((s.cell x y).mem.win (fld w0 4 4)).pool - 64 * fld w0 8 10 } with
          credits := (s.cell x y).mem.credits ++ [⟨.cell (fld w1 0 11) (fld w1 11 10), fld w0 4 4,
            ((s.cell x y).mem.win (fld w0 4 4)).gen, 64 * fld w0 8 10, none⟩] } })
      x y .s (sMessage s.graft.tag (fld w0 18 5) (grantWords (fld w0 4 4) 0 0 (fld w0 8 10)
        ((s.cell x y).mem.win (fld w0 4 4)).gen 0 (.cell (fld w1 0 11) (fld w1 11 10)) (fld w2 10 12))))) ∧
  (∀ (s : State) (x y w0 w1 w2 w3 : Nat) (d : WinDesc), s.works x y → s.noInjection →
    (s.cell x y).sHead 0 [0] = some [w0, w1, w2, w3] → w0.testBit 23 = false →
    (s.cell x y).active.window (fld w0 4 4) = some d → d.rw = true → (s.cell x y).mem.creditFree (s.cell x y).active = true →
    ((s.cell x y).mem.win (fld w0 4 4)).pool < 64 * fld w0 8 10 →
    exec (.creditReq x y) s = .next (State.sendUnits (s.setCell x y ((s.cell x y).dropInbox .s 0 4)) x y .s
      (sMessage s.graft.tag (fld w0 18 5) (grantWords (fld w0 4 4) 1 0 0 ((s.cell x y).mem.win (fld w0 4 4)).gen 1
        (.cell (fld w1 0 11) (fld w1 11 10)) (fld w2 10 12))))) ∧
  (∀ (s : State) (x y w0 w1 w2 : Nat), s.works x y → (s.cell x y).sHead 4 [1] = some [w0, w1, w2] → w0.testBit 23 = false →
    exec (.creditGrant x y) s = .next (s.setCell x y { (s.cell x y).dropInbox .s 4 3 with
      mem := (s.cell x y).mem.answered (fld w0 4 4) (fld w0 8 2) (fld w0 13 10) (fld w1 0 16) (fld w1 16 16) s.now })) ∧
  (∀ (m : MemUnit) (window units gen rings now : Nat) (a : CreditAsk), m.asked.find? (fun a => a.out && a.window == window) = some a →
    m.answered window 0 units gen rings now =
      { m with asked := m.asked.erase a, held := m.held ++ [⟨a.ox, a.oy, window, gen, 64 * units⟩] } ∧
    m.answered window 1 units gen rings now =
      { m with asked := m.asked.erase a ++ [{ a with out := false, again := some (ringAdd now rings) }] }) ∧
  (∀ (s : State) (x y w0 w1 w2 w3 : Nat), s.storesWf → s.works x y → (s.cell x y).sHead 4 [2] = some [w0, w1, w2, w3] →
    w0.testBit 17 = false →
    ∃ t, exec (.nackReceive x y) s = .next t ∧ OtherCells x y s t ∧ OnlyChanges [.cells] s t ∧
      (∀ h ∈ (t.cell x y).mem.held, h ∈ (s.cell x y).mem.held ∧
        ¬ (h.ox = fld w2 0 11 ∧ h.oy = fld w2 11 10 ∧ h.window = fld w0 4 4 ∧ h.gen ≠ fld w1 16 16)) ∧
      (t.cell x y).mem.bytes = (s.cell x y).mem.bytes) ∧
  (∀ (s : State) (x y w units : Nat) (d : WinDesc), s.storesWf → s.works x y → (s.cell x y).active.window w = some d →
    ((s.cell x y).mem.win w).st = .opened →
    ∃ t, exec (.creditRelease x y w units) s = .next t ∧ OtherCells x y s t ∧ OnlyChanges [.cells] s t ∧
      (t.cell x y).mem = (s.cell x y).mem.setWin w { (s.cell x y).mem.win w with
        pool := min d.pool (((s.cell x y).mem.win w).pool + 64 * units) }) ∧
  (∀ (s : State) (x y : Nat) (j : Job), s.works x y → s.running = some j →
    exec (.creditRefresh x y) s = .next (if j.boundary s.now = true then s.refreshCell x y else s)) ∧
  (∀ (m : MemUnit) (p : Plane) (epoch : Nat → Nat) (id : Nat) (q : Credit), q ∈ (m.bindStanding p epoch id).credits → q.window = id →
    q.standing.isSome = true → q.gen = (m.win id).gen ∧ q.standing = some q.bytes)

/-- Remote reads (parts of R123, R133, R183, R184; log 24, log 25). A READ_REQ under the GEN in force, into an OPEN window with the
remote read right and within it, is answered with the beats as stored, 16 a message; one under another generation with poisoned
beats under NACK. Read data of the cell's own reaches the generator that reads its window (log 25), and memory keeps every byte; a
peer's goes on toward the limb die. -/
def Obligations.RemoteReads : Prop :=
  (∀ (s : State) (x y w0 w1 w2 w3 : Nat) (d : WinDesc), s.works x y → s.pumpCell x y = s → (s.cell x y).mem.out = [] →
    (s.cell x y).sHead 0 [3] = some [w0, w1, w2, w3] → (s.cell x y).active.window (fld w0 4 4) = some d → d.rr = true →
    ((s.cell x y).mem.win (fld w0 4 4)).gen = fld w0 8 16 → ((s.cell x y).mem.win (fld w0 4 4)).st = .opened →
    ((s.cell x y).mem.win (fld w0 4 4)).reopening = false → 16 * (fld w1 0 12 + (fld w1 12 8 + 1)) ≤ d.len →
    (s.cell x y).mem.words = [] →
    exec (.readReq x y) s = .next (State.sendUnits (s.setCell x y ((s.cell x y).dropInbox .s 0 4)) x y .v
      (readMessages s.graft.tag (fld w0 24 5)
        ⟨2, 0, fld w0 4 4, fld w0 8 16, fld w1 0 12, x, y, w0.testBit 29, false, if w0.testBit 29 then fld w2 21 10 else 0,
          if w0.testBit 29 then fld w3 0 16 else 0⟩ 16
        ((List.range (fld w1 12 8 + 1)).map (fun k => ((List.range 16).map (fun i =>
          (s.cell x y).mem.byte (cellKey x y) (d.base + 16 * fld w1 0 12 + 16 * k + i)), false)))))) ∧
  (∀ (s : State) (x y w0 w1 w2 w3 : Nat) (d : WinDesc), s.works x y → s.pumpCell x y = s → (s.cell x y).mem.out = [] →
    (s.cell x y).sHead 0 [3] = some [w0, w1, w2, w3] → (s.cell x y).active.window (fld w0 4 4) = some d → d.rr = true →
    ((s.cell x y).mem.win (fld w0 4 4)).gen ≠ fld w0 8 16 →
    exec (.readReq x y) s = .next (State.sendUnits (s.setCell x y ((s.cell x y).dropInbox .s 0 4)) x y .v
      (readMessages s.graft.tag (fld w0 24 5)
        ⟨2, 0, fld w0 4 4, ((s.cell x y).mem.win (fld w0 4 4)).gen, fld w1 0 12, x, y, w0.testBit 29, true,
          if w0.testBit 29 then fld w2 21 10 else 0, if w0.testBit 29 then fld w3 0 16 else 0⟩ 16
        (List.replicate (fld w1 12 8 + 1) (List.replicate 16 0, true))))) ∧
  (∀ (s : State) (x y : Nat) (u : NetUnit) (beats : List NetUnit), s.storesWf → s.works x y →
    firstMessage ((s.cell x y).inbox .v 4) = some (u :: beats) → (vHead u.data).peer = false →
    ∃ t, exec (.readData x y) s = .next t ∧ (t.cell x y).mem = (s.cell x y).mem ∧
      (∀ n, (List.range 4).find? (fun n => ((s.cell x y).ag n).window == (vHead u.data).window &&
          decide (((s.cell x y).ag n).port ≠ .w)) = some n →
        (t.cell x y).comp.ags = lmod (s.cell x y).comp.ags n (fun r => ⟨r.count + beats.length, r.fifo ++
          beats.flatMap (fun b => (leBytes 16 b.data).map (fun v => (⟨v, b.poison || (vHead u.data).nack⟩ : PByte)))⟩)) ∧
      OtherCells x y s t ∧ OnlyChanges [.cells] s t) ∧
  (∀ (s : State) (x y : Nat) (u : NetUnit) (beats : List NetUnit), s.works x y →
    firstMessage ((s.cell x y).inbox .v 4) = some (u :: beats) → (vHead u.data).peer = true →
    exec (.readData x y) s = .next (s.toLimbDie x y .v (u :: beats)))

/-! ## The fabric -/

/-- Arrivals (parts of R175 to R179, R181, R191). A HEAD under the tag in force on a route its input may use and no spill queue
extends enters the input's queue; a unit under another tag is dropped and counted. One bit flipped on the link is corrected and
counted; more poison the unit. A token enters its queue, is dropped and raised at a full one, and is dropped with a parity error. A
unit that has crossed a long-reach channel stands in the limb die's buffer, or goes on to arrive at the tap's T input, where it
waits while that has no room. -/
def Obligations.UnitsArrive : Prop :=
  (∀ (s : State) (x y : Nat) (net : Net) (p : InPort) (u : NetUnit) (rest : List NetUnit) (e : RouteEntry), s.storesWf →
    s.works x y → s.noInjection → net ≠ .c → (s.cell x y).box.inFlight net p = u :: rest → u.tag = s.graft.tag → u.head = true →
    u.data % 16 < 4 → (s.cell x y).active.route net u.route = some e → e.inMask.testBit p.idx = true → e.spill = 0 →
    ((s.cell x y).box.queue net p).length < queueDepth net p → s.f FAB_CTRL_PROBE_EN = 0 →
    swf [] (s.cell x y).box.queues = true → swf [] (s.cell x y).box.flight = true →
    ∃ t, exec (.unitArrive x y net p 0) s = .next t ∧
      (t.cell x y).box.queue net p = (s.cell x y).box.queue net p ++ [u] ∧ (t.cell x y).box.inFlight net p = rest ∧
      (t.cell x y).mem = (s.cell x y).mem ∧ (t.cell x y).comp = (s.cell x y).comp ∧ OtherCells x y s t ∧
      OnlyChanges [.cells] s t) ∧
  (∀ (s : State) (x y : Nat) (net : Net) (p : InPort) (u : NetUnit) (rest : List NetUnit), s.storesWf →
    s.works x y → s.noInjection → net ≠ .c → (s.cell x y).box.inFlight net p = u :: rest → u.tag ≠ s.graft.tag →
    s.graft.active = none →
    ∃ t, exec (.unitArrive x y net p 0) s = .next t ∧
      t.cell x y = { s.cell x y with box := { (s.cell x y).box with flight := sset [] (s.cell x y).box.flight (qkey net p) rest } } ∧
      sget 0 t.pendRing (FAB_CNT_COUNT 6).key = sget 0 s.pendRing (FAB_CNT_COUNT 6).key + 1 ∧ OtherCells x y s t ∧
      OnlyChanges [.cells, .pendRing] s t) ∧
  (∀ (s : State) (x y n : Nat) (net : Net) (p : InPort) (u : NetUnit) (inj : Bool),
    s.linkCheck x y net p u 0 inj = (u, s) ∧ s.linkCheck x y net p u 1 inj = (u, s.later (FAB_CNT_COUNT 4) 1) ∧
    (s.linkCheck x y net p u (n + 2) inj).1.poison = true) ∧
  (∀ (s : State) (x y : Nat) (p : InPort) (u : NetUnit) (rest : List NetUnit) (e : RouteEntry), s.storesWf →
    s.works x y → s.noInjection → (s.cell x y).box.inFlight .c p = u :: rest → u.tag = s.graft.tag →
    (s.cell x y).active.route .c u.route = some e → e.inMask.testBit p.idx = true →
    ((s.cell x y).box.queue .c p).length < 16 → s.f FAB_CTRL_PROBE_EN = 0 → swf [] (s.cell x y).box.queues = true →
    ∃ t, exec (.tokenArrive x y p false) s = .next t ∧ (t.cell x y).box.queue .c p = (s.cell x y).box.queue .c p ++ [u] ∧
      (t.cell x y).mem = (s.cell x y).mem ∧ OtherCells x y s t ∧ OnlyChanges [.cells] s t) ∧
  (∀ (s : State) (x y : Nat) (p : InPort) (u : NetUnit) (rest : List NetUnit) (e : RouteEntry) (c : Cell),
    s.works x y → s.noInjection → (s.cell x y).box.inFlight .c p = u :: rest → u.tag = s.graft.tag →
    (s.cell x y).active.route .c u.route = some e → e.inMask.testBit p.idx = true →
    16 ≤ ((s.cell x y).box.queue .c p).length →
    c = { s.cell x y with box := { (s.cell x y).box with flight := sset [] (s.cell x y).box.flight (qkey .c p) rest } } →
    exec (.tokenArrive x y p false) s =
      .next ((s.setCell x y c).cellStep x y false (c, [.fault ⟨.overflow, 2⟩ (fabDetail .c p u) true, .fab 8 1]))) ∧
  (∀ (s : State) (x y : Nat) (p : InPort) (u : NetUnit) (rest : List NetUnit) (c : Cell),
    s.works x y → s.noInjection → (s.cell x y).box.inFlight .c p = u :: rest →
    c = { s.cell x y with box := { (s.cell x y).box with flight := sset [] (s.cell x y).box.flight (qkey .c p) rest } } →
    exec (.tokenArrive x y p true) s = .next ((s.setCell x y c).linkError x y .c p u false)) ∧
  (∀ (s : State) (tap errs : Nat) (u : NetUnit) (rest : List NetUnit), s.storesWf → s.tapEnabled tap = true →
    s.limbOn (limbOfTap tap) = true → (s.tap tap).toLimbV = u :: rest → (s.tap tap).bufV.length < 192 →
    ∃ t, exec (.tapChannelDeliver tap .v false errs) s = .next t ∧
      t.tap tap = { s.tap tap with
        toLimbV := rest, bufV := (s.tap tap).bufV ++ [u], outHwm := max (s.tap tap).outHwm ((s.tap tap).bufV.length + 1) } ∧
      (∀ n, n ≠ tap → t.tap n = s.tap n) ∧ OnlyChanges [.taps] s t) ∧
  (∀ (s : State) (tap errs : Nat) (u : NetUnit) (rest : List NetUnit), s.tapEnabled tap = true →
    s.limbOn (limbOfTap tap) = true → (s.tap tap).toCellS = u :: rest → s.lit (s.tapCell tap).1 (s.tapCell tap).2 = true →
    exec (.tapChannelDeliver tap .s true errs) s = .next
      (if (s.cell (s.tapCell tap).1 (s.tapCell tap).2).roomAt .s .t u.route = true then
        (s.setTap tap { s.tap tap with toCellS := rest }).arrive (s.tapCell tap).1 (s.tapCell tap).2 .s .t u errs else s))

/-- Grants, steering, the watchdog and the probe selection (parts of R175, R178, R180, R194 to R196, R202, R421, R426). With nothing
waiting to enter its local inputs, an output moves the head unit it picks in round-robin order, when every output of that unit's
route is free for it, has room and picks it too. A forwarded unit is in flight to the neighbour the output faces. A steering unit
injects what it holds when its local input has room; PASS and BRANCH take the unit at data input 0 for the output its token names,
MERGE from the input its token names, REPEAT as often as its token says, and a MERGE token that maps to DISCARD goes alone. With no
job a cell that echoed no token is dead and its row waits to be retired. A probe selection waits for the next edge or is rejected.
-/
def Obligations.GrantsAndSteering : Prop :=
  (∀ (s : State) (x y : Nat) (net : Net) (out : OutPort) (p : InPort) (u : NetUnit) (e : RouteEntry), s.works x y →
    (s.pumpCell x y).purgeLocal x y net = s → s.pick x y net none out = some p → s.granted x y net none p = some (u, e) →
    exec (.portGrant x y net out) s = .next (s.forward x y net p u e e.outs)) ∧
  (∀ (s : State) (x y : Nat) (net : Net) (out : OutPort), s.works x y → (s.pumpCell x y).purgeLocal x y net = s →
    s.pick x y net none out = none → s.f FAB_CTRL_PROBE_EN = 0 → exec (.portGrant x y net out) s = .next s) ∧
  (∀ (s : State) (x y : Nat) (net : Net) (p : InPort) (u : NetUnit) (e : RouteEntry), s.granted x y net none p = some (u, e) →
    ((s.cell x y).box.queue net p).head? = some u ∧ (s.cell x y).active.route net u.route = some e ∧
    (∀ o ∈ e.outs, (s.cell x y).box.openFor net p o = true ∧ s.outReady x y net e u.route o = true ∧
      s.pick x y net none o = some p)) ∧
  (∀ (s : State) (x y nx ny : Nat) (net : Net) (e : RouteEntry) (p q : InPort) (u : NetUnit) (o : OutPort),
    s.neighbour x y o = some (nx, ny, q) →
    s.passTo x y net e p u false o = s.setCell nx ny { s.cell nx ny with
      box := { (s.cell nx ny).box with flight := smod [] (s.cell nx ny).box.flight (qkey net q) (· ++ [u]) } }) ∧
  (∀ (s : State) (x y : Nat) (unit : Bool) (net : Net) (u : NetUnit) (rest : List (Net × NetUnit)), s.works x y →
    s.pumpCell x y = s → ((s.cell x y).steer unit).outgoing = (net, u) :: rest →
    exec (.steerAct x y unit) s = .next
      (match ((s.cell x y).setSteer unit { (s.cell x y).steer unit with outgoing := rest }).push net (steerPort unit) u with
       | none => s
       | some r => (s.cellStep x y false r).probe x y net (steerPort unit) false)) ∧
  (∀ (cfg : SteerCfg) (v : Nat) (ts : List Nat) (at_ : Nat → Option Net) (net : Net), at_ 0 = some net →
    (cfg.mode = .branch → cfg.begin (v :: ts) at_ =
      some (some (cfg.action net 0 ((cfg.map.getD v none).bind (fun k => cfg.outs[k]?)) none), ts)) ∧
    (cfg.mode = .repeatN → cfg.begin (v :: ts) at_ = some (some (cfg.action net 0 cfg.outs[0]? (some v)), ts)) ∧
    (cfg.mode = .pass → cfg.begin (v :: ts) at_ = some (some (cfg.action net 0 cfg.outs[0]? none), v :: ts)) ∧
    (cfg.mode = .merge → cfg.map.getD v none = none → cfg.begin (v :: ts) at_ = some (none, ts)) ∧
    (cfg.mode = .merge → cfg.map.getD v none = some 0 → cfg.begin (v :: ts) at_ =
      some (some (cfg.action net 0 cfg.outs[0]? none), ts))) ∧
  (∀ (a : SteerAct) (tag n o : Nat) (u : NetUnit), a.rep = some n → a.out = some o → a.left = some 1 → a.buf = [] →
    a.take tag u = (none, List.replicate n { u with route := o, tag := tag }, decide (n = 0))) ∧
  (∀ (s : State) (x y : Nat), s.storesWf → s.works x y → s.job.cur = none → s.ras.ringCount < 64 →
    ∃ t, exec (.watchdog x y) s = .next t ∧ t.cell x y = { s.cell x y with dead := true } ∧ OtherCells x y s t ∧
      t.ras.log.head?.map (fun r => (r.cls, r.code, r.src)) = some (.cellDead, 1, .cell x y) ∧
      t.ras.recov.pendingShifts = s.ras.recov.pendingShifts ++ [(s.bandNo x y, s.physRow (s.bandNo x y) (y % 128))]) ∧
  (∀ (s : State) (w : Word64), FAB_PROBE_SEL_PORT.of w ≤ 5 → FAB_PROBE_SEL_NET.of w ≠ 3 →
    s.inGrid (FAB_PROBE_SEL_X.of w) (FAB_PROBE_SEL_Y.of w) = true →
    (FAB_PROBE_SEL_PORT.of w = 4 → s.tapAt (FAB_PROBE_SEL_X.of w) (FAB_PROBE_SEL_Y.of w) ≠ none) →
    ∃ t, exec (.fabProbeSelWrite w) s = .next t ∧
      t.pendRing = sset 0 s.pendRing FAB_PROBE_SEL_Y.key (w.toNat % 2 ^ 26 + 1) ∧ OnlyChanges [.pendRing] s t) ∧
  (∀ (s : State) (w : Word64), s.storesWf →
    (5 < FAB_PROBE_SEL_PORT.of w ∨ FAB_PROBE_SEL_NET.of w = 3 ∨
      s.inGrid (FAB_PROBE_SEL_X.of w) (FAB_PROBE_SEL_Y.of w) = false ∨
      (FAB_PROBE_SEL_PORT.of w = 4 ∧ s.tapAt (FAB_PROBE_SEL_X.of w) (FAB_PROBE_SEL_Y.of w) = none)) →
    ∃ t, exec (.fabProbeSelWrite w) s = .next t ∧ t.f FAB_STATUS_CFG_REJECT = 1 ∧ FieldsKept [FAB_STATUS_CFG_REJECT] s t ∧
      OnlyChanges [.regs] s t)

/-! ## Grafts -/

/-- Loading a graft (parts of R219, R224, R231, R318, R341, R342, R391). GRAFT_LOAD starts staging, or is refused as busy.
ABORT_LOAD empties every SHADOW plane, and does nothing with no load under way. With its last byte staged, in RUN and with host
memory readable, a load is verified; a read error ends it FAILED with code FORMAT and no job notes it. A verified load broadcasts,
one that fails a check ends FAILED; a graft whose signatures fail, whose owner is not the engine's, or whose SVN is below its
rollback counter never verifies. Verification leaves the plane in force and the graft tag what they are. -/
def Obligations.GraftLoads : Prop :=
  (∀ s : State, s.storesWf → s.loading = false → s.swapPending = false →
    ∃ t, exec .graftLoad s = .next t ∧ t.graft = { s.graft with
        load := .staging, bytes := [], parsed := none, pos := [], refill := false
        refillDies := [] } ∧
      (∀ k, k < 12 → (t.limb k).stagedMib = min 84 (stageMib (s.f GRAFT_SRC_LEN_LEN))) ∧ OnlyChanges [.graft, .limbs] s t) ∧
  (∀ s : State, s.storesWf → (s.loading = true ∨ s.swapPending = true) →
    ∃ t, exec .graftLoad s = .next t ∧ t.f GRAFT_STATUS_REFUSED_BUSY = 1 ∧ OnlyChanges [.regs, .host, .sent] s t) ∧
  (∀ s : State, s.storesWf → s.loading = true →
    ∃ t, exec .abortLoad s = .next t ∧ t.graft = { s.graft with
        load := .empty, bytes := [], parsed := none, shadow := none, pos := []
        refill := false, refillDies := [] } ∧
      (∀ x y, (t.cell x y).shadow = Plane.empty ∧ (t.cell x y).active = (s.cell x y).active) ∧
      OnlyChanges [.graft, .limbs, .cells] s t) ∧
  (∀ s : State, s.loading = false → exec .abortLoad s = .next s) ∧
  (∀ (s : State) (bytes : List Byte), s.graft.load = .staging → s.inRun = true → s.canMaster = true →
    bytes.length = s.f GRAFT_SRC_LEN_LEN →
    ∃ t, exec (.stagingDone bytes) s = .next t ∧ t.graft = { s.graft with load := .verifying, bytes := bytes } ∧
      OnlyChanges [.graft] s t) ∧
  (∀ s : State, s.graft.load = .staging → s.ras.ringCount < 64 →
    ∃ t, exec .stagingReadError s = .next t ∧ t.graft.load = .failed ∧ t.graft.active = s.graft.active ∧ t.graft.tag = s.graft.tag ∧
      t.ras.log.head?.map (fun r => (r.cls, r.code, r.jobId)) = some (.graft, 1, 0) ∧ t.job = s.job ∧ t.cells = s.cells) ∧
  (∀ (s : State) (g : Option (Graft × List Section)) (v : Option (Nat × Nat × Nat)), s.graft.load = .verifying → s.noInjection →
    graftOf s.graft.bytes (s.f GRAFT_SRC_LEN_LEN) = g →
    s.graftCheck g (graftFails s.graft.bytes ((g.map (·.2)).getD [])) = v →
    ∃ t, exec .verifyDone s = .next t ∧ t.graft.load = (if v = none then .broadcast else .failed) ∧
      t.graft.parsed = (if v = none then g.map (·.1) else none) ∧ (v ≠ none → t.graft.shadow = none) ∧
      t.graft.active = s.graft.active ∧ t.graft.tag = s.graft.tag) ∧
  (∀ (s : State) (g : Option (Graft × List Section)) (sig : Nat), sig ≠ 0 → s.graftCheck g sig ≠ none) ∧
  (∀ (s : State) (a : Graft) (secs : List Section) (sig : Nat),
    a.owner ≠ s.ownerHash ∨ s.owner ≠ 1 ∨ a.svn < s.rollback a.rollbackIdx → s.graftCheck (some (a, secs)) sig ≠ none)

/-- Broadcast and swap (parts of R127, R222, R224 to R228, R393). For a new graft the loader writes the next beat of a tap region
into SHADOW planes alone; a die that is OFF is woken first. The last beat makes the load LOADED, and arms its SWAP_RING where that
lies far enough ahead. At that edge, with nothing against it, every cell's planes change places, the tag advances, and the graft is
ACTIVE; otherwise the swap is disarmed and the ACTIVE graft stays. A cell zeroes what no RESIDENT window of both planes keeps. -/
def Obligations.BroadcastAndSwap : Prop :=
  (∀ (s : State) (tap : Nat) (g : Graft) (b : LoadBeat), s.storesWf → s.graft.load = .broadcast → s.tapEnabled tap = true →
    s.graft.parsed = some g → s.graft.refill = false → (s.tapBeats g tap)[sget 0 s.graft.pos tap]? = some b →
    s.domain (tap / 8) = .on →
    ∃ t, exec (.loaderWrite tap) s = .next t ∧ sget 0 t.graft.pos tap = sget 0 s.graft.pos tap + 1 ∧
      t.cells = (s.loadBeat tap b).cells ∧
      (∀ x y, s.inGrid x y = true → (t.cell x y).active = (s.cell x y).active ∧ (t.cell x y).mem = (s.cell x y).mem) ∧
      t.graft.active = s.graft.active ∧ OnlyChanges [.regs, .graft, .cells] s t) ∧
  (∀ (s : State) (tap : Nat) (g : Graft) (b : LoadBeat), s.graft.load = .broadcast → s.tapEnabled tap = true →
    s.graft.parsed = some g → s.graft.refill = false → (s.tapBeats g tap)[sget 0 s.graft.pos tap]? = some b →
    s.domain (tap / 8) = .off →
    ∃ t, exec (.loaderWrite tap) s = .next t ∧ t.power = { s.power with domains := sset .off s.power.domains (tap / 8) .waking } ∧
      OnlyChanges [.power] s t) ∧
  (∀ (s : State) (late : Bool) (g : Graft), s.storesWf → s.graft.load = .broadcast → s.graft.parsed = some g → s.allBeats g = true →
    s.graft.refill = false → g.swapRing = 0 →
    ∃ t, exec (.broadcastDone late) s = .next t ∧ t.graft = { s.graft with
        load := .loaded, bytes := [], parsed := none, shadow := some g
        readyRing := if late then ringAdd s.now 1 else s.now, pos := [] } ∧
      t.f GRAFT_STATUS_LOAD_DONE = 1 ∧ OnlyChanges [.regs, .graft, .limbs, .host, .sent] s t) ∧
  (∀ (s : State) (g : Graft), s.graft.load = .broadcast → s.graft.parsed = some g → s.allBeats g = true →
    s.graft.refill = false → g.swapRing ≠ 0 → ringBefore s.now g.swapRing = true → s.lead ≤ ringsTo s.now g.swapRing →
    ∃ t, exec (.broadcastDone false) s = .next t ∧ t.graft.armed = some g.swapRing ∧ t.graft.shadow = some g ∧
      t.graft.active = s.graft.active) ∧
  (∀ (s : State) (g : Graft), s.storesWf → s.graft.armed = some s.now → s.swapStop = none → s.graft.shadow = some g → g.strict = false →
    ∃ t, exec .swap s = .next t ∧ t.graft.active = some g ∧ t.graft.shadow = s.graft.active ∧ t.graft.tag = (s.graft.tag + 1) % 4 ∧
      t.graft.armed = none ∧ t.graft.load = (if s.graft.active.isSome then .loaded else .empty) ∧
      (∀ x y, s.inGrid x y = true → (t.cell x y).active = (s.cell x y).shadow ∧ (t.cell x y).shadow = (s.cell x y).active)) ∧
  (∀ (s : State) (code : Nat), s.graft.armed = some s.now → s.swapStop = some code →
    ∃ t, exec .swap s = .next t ∧ t.graft.active = s.graft.active ∧ t.graft.armed = none ∧ t.graft.tag = s.graft.tag ∧
      t.cells = s.cells) ∧
  (∀ (c : Cell) (epoch : Nat → Nat) (a : Nat), c.mem.bytes.wf = true → residentIn c.active c.shadow a = false →
    (c.swap epoch).mem.bytes.read a = 0)

/-! ## Jobs -/

/-- The post area (parts of R234, R235, R239, R240, R256, R260, R318, R354). At a poll edge of a READY engine with nothing against
it, a published slot is taken while fewer than 16 jobs wait: it is admitted, which seals Bark, or refused with its reason in a
completion record. A header that breaks a rule sets POST_ERR and no slot is taken. A completion record leaves with its count, or is
held while the engine may not master host memory. Enabling restarts both counts, disabling discards the held records. An abort marks
the current job once, or ends an admitted one ABORTED. -/
def Obligations.JobAdmission : Prop :=
  (∀ (s : State) (h : PostHeader) (sl : SlotRead), s.storesWf → s.f JOB_CTRL_ENABLE = 1 → s.now % s.f JOB_CTRL_POLL_INTERVAL = 0 →
    s.boot.stage = 31 → s.power.state ≠ .off → s.canMaster = true → s.job.held = [] → s.power.fetchStop = false →
    s.modl.hold = false → h.magic = 0x54534F50 → h.version = 1 → h.publish = s.job.m + 1 → s.job.m < h.reaped + 256 →
    h.reaped ≤ s.job.k → s.job.queue.length < 16 →
    ∃ t, exec (.postPoll (some h) [sl]) s = .next t ∧ t.job.m = s.job.m + 1 ∧
      t.f JOB_FETCHED_COUNT = (s.job.m + 1) % 2 ^ JOB_FETCHED_COUNT.width ∧
      (∀ j, s.judgeSlot sl = .ok j → t.job.queue = s.job.queue ++ [j] ∧ t.bark.sealed = true ∧ t.job.outbox = s.job.outbox) ∧
      (∀ r, s.judgeSlot sl = .error r → t.job.queue = s.job.queue ∧
        t.job.outbox = s.job.outbox ++ [⟨s.job.m, (descOf sl.raw).jobId, 4, r, 0, 0, 0, 0, 0, 0, 0⟩])) ∧
  (∀ (s : State) (h : PostHeader) (l : List SlotRead), s.storesWf → s.f JOB_CTRL_ENABLE = 1 → s.now % s.f JOB_CTRL_POLL_INTERVAL = 0 →
    s.boot.stage = 31 → s.power.state ≠ .off → s.canMaster = true → s.job.held = [] → s.power.fetchStop = false →
    s.modl.hold = false →
    (h.magic ≠ 0x54534F50 ∨ h.version ≠ 1 ∨ h.publish < s.job.m ∨ s.job.k < h.reaped) →
    ∃ t, exec (.postPoll (some h) l) s = .next t ∧ t.f JOB_STATUS_POST_ERR = 1 ∧ t.job = s.job) ∧
  (∀ (s : State) (c : Completion) (rest : List Completion), s.storesWf → s.job.outbox = c :: rest → s.canMaster = true → s.job.held = [] →
    ∃ t, exec .completionWrite s = .next t ∧ t.job = { s.job with outbox := rest, k := s.job.k + 1 } ∧
      .hostWrite (2 ^ 16 * s.f JOB_POST_BASE_ADDR + 0x9000 + 64 * (s.job.k % 256)) (c.bytes ++ s.gmac c.seq 2 c.bytes) ∈ t.sent ∧
      OnlyChanges [.regs, .job, .host, .sent] s t) ∧
  (∀ (s : State) (c : Completion) (rest : List Completion), s.job.outbox = c :: rest → s.canMaster = false → s.job.held.length < 256 →
    ∃ t, exec .completionWrite s = .next t ∧ t.job = { s.job with outbox := rest, held := s.job.held ++ [c] } ∧
      OnlyChanges [.regs, .job, .host, .sent] s t) ∧
  (∀ s : State, s.storesWf → s.f JOB_CTRL_ENABLE = 0 →
    ∃ t, exec (.jobEnableWrite true) s = .next t ∧ t.job = { s.job with m := 0, k := 0 } ∧ t.f JOB_CTRL_ENABLE = 1 ∧
      t.f JOB_STATUS_POST_ERR = 0 ∧ FieldsKept [JOB_CTRL_ENABLE, JOB_STATUS_POST_ERR] s t ∧ OnlyChanges [.regs, .job] s t) ∧
  (∀ s : State, s.storesWf → s.f JOB_CTRL_ENABLE = 1 →
    ∃ t, exec (.jobEnableWrite false) s = .next t ∧ t.job = { s.job with held := [] } ∧ t.f JOB_CTRL_ENABLE = 0 ∧
      FieldsKept [JOB_CTRL_ENABLE, ID_HOST_CNT_COUNT 4] s t ∧ OnlyChanges [.regs, .job] s t) ∧
  (∀ (s : State) (id : Nat) (j : Job), s.job.cur = some j → j.desc.jobId = id → id < 2 ^ 32 → j.abort = none →
    ∃ t, exec (.jobAbort id) s = .next t ∧ t.job = { s.job with cur := some { j with abort := some (1, s.now) } }) ∧
  (∀ (s : State) (id : Nat) (j : Job), s.job.cur = none → id < 2 ^ 32 →
    s.job.queue.find? (fun j => j.desc.jobId == id) = some j →
    ∃ t, exec (.jobAbort id) s = .next t ∧ t.job = { s.job with
        queue := s.job.queue.erase j
        outbox := s.job.outbox ++ [⟨j.desc.seq, j.desc.jobId, 2, 1, 0, 0, 0, 0, 0, 0, 0⟩] })

/-- From preparation to the first step (parts of R127, R160, R240, R241, R243, R426). At edge p, after the bands that wait are
shifted, the first admitted job takes the engine in stage PREPARING, with the swap it needs, or is refused with its reason; cells
keep nothing outside RESIDENT windows. A finished build is shown done with its rings and blocks; one that stops in a cell ends the
job. At edge S step 0 starts; a job whose build is not done by then, or which the ring does not let start, ends FAULTED. -/
def Obligations.JobPreparation : Prop :=
  (∀ (s s1 : State) (j : Job) (rest : List Job) (sw : Bool), s1 = (if s.jobOn then s else s.shiftBands) → s.job.queue = j :: rest →
    s.now = j.p → s1.edgeRefusal j = (none, sw) →
    ∃ t j1, exec .preparationEdge s = .next t ∧ t.job.cur = some j1 ∧ j1.stage = .preparing ∧ j1.desc = j.desc ∧
      j1.energyStart = s1.power.energy ∧ t.job.queue = rest ∧ t.job.groups = [] ∧ t.job.outbox = s1.job.outbox ∧
      t.graft.active = (if sw then s1.graft.shadow else s1.graft.active)) ∧
  (∀ (s s1 : State) (j : Job) (rest : List Job) (r : Nat) (sw : Bool), s1 = (if s.jobOn then s else s.shiftBands) →
    s.job.queue = j :: rest → s.now = j.p → s1.edgeRefusal j = (some r, sw) → r ≠ 4 ∨ sw = false →
    ∃ t, exec .preparationEdge s = .next t ∧ t.job = { s1.job with
        queue := rest
        outbox := s1.job.outbox ++ [⟨j.desc.seq, j.desc.jobId, 4, r, 0, 0, 0, 0, 0, 0, 0⟩] } ∧ t.cells = s1.cells ∧
      t.graft = s1.graft) ∧
  (∀ (c : Cell) (epoch : Nat → Nat) (a : Nat), c.mem.bytes.wf = true →
    (residentIn c.active c.active a = false → (c.prepare epoch).mem.bytes.read a = 0) ∧
    (residentIn c.active c.active a = true → (c.prepare epoch).mem.bytes.read a = c.mem.bytes.read a)) ∧
  (∀ (s s1 : State) (j : Job) (n : Nat) (r : Option (Nat × Nat × FaultCode × Nat)), s.storesWf → s.job.cur = some j →
    j.stage = .preparing → j.building = true → ringBefore s.now (ringAdd j.p j.z) = false →
    State.buildAll ((s.graft.active.map (·.sched.xposes)).getD []) s = (s1, n, r) → s1.job.cur = some j →
    ∃ t, exec .transposeBuildDone s = .next t ∧
      (r = none → t.job = { s1.job with cur := some { j with building := false } } ∧
        t.f SPARSE_STATUS_XPOSE_STATE = 2 ∧ t.f (SPARSE_CNT_COUNT 10) = j.buildRings s.now % 2 ^ (SPARSE_CNT_COUNT 10).width ∧
        t.f (SPARSE_CNT_COUNT 11) = n % 2 ^ (SPARSE_CNT_COUNT 11).width ∧
        FieldsKept [SPARSE_STATUS_XPOSE_STATE, SPARSE_CNT_COUNT 10, SPARSE_CNT_COUNT 11] s1 t ∧ OnlyChanges [.regs, .job] s1 t) ∧
      (r ≠ none → t.job.cur = none ∧ t.f SPARSE_STATUS_XPOSE_STATE = 3 ∧
        t.job.outbox.getLast?.map (fun c => (c.seq, c.status)) = some (j.desc.seq, 3))) ∧
  (∀ (s : State) (j : Job), s.job.cur = some j → j.stage = .preparing → s.now = j.s → s.stepAllowed = true → s.reenacts = false →
    j.building = false → j.desc.stores = false → s.stream.opens = [] → s.graft.active = none →
    ∃ t, exec .stepStart s = .next t ∧ t.job.cur = some { j with
        stage := .running, step := 0, phase := .work, stepCommitted := false
        blocked := s.graft.staleBlock, misses := [] } ∧ t.job.outbox = s.job.outbox ∧ t.ring = s.ring) ∧
  (∀ (s : State) (j : Job), s.job.cur = some j → j.stage = .preparing → s.now = j.s → s.stepAllowed = true → j.building = true →
    ∃ t, exec .stepStart s = .next t ∧ t.job.cur = none ∧
      t.job.outbox.getLast?.map (fun c => (c.seq, c.status)) = some (j.desc.seq, 3)) ∧
  (∀ (s : State) (j : Job), s.job.cur = some j → j.stage = .preparing → s.now = j.s → s.stepAllowed = false →
    ∃ t, exec .stepStart s = .next t ∧ t.job.cur = none ∧
      t.job.outbox.getLast?.map (fun c => (c.seq, c.status, c.lastRing)) = some (j.desc.seq, 3, s.prevRing))

/-- Steps and the end of a job (parts of R48, R52, R63, R242, R243, R253, R254, R257, R258). GATE and UPDATE begin in their first
rings. With no graft in force, checkpoint or hold, the next step's WORK begins in its own, or the job ends ABORTED after an earlier
abort. With no job running these commands change nothing. Outside a replay, at the edge that ends the commit ring a step whose gate
is clean and that no fault blocks commits; one that a fault blocks ends the job FAULTED in that ring. After the last ring of the
final step the job completes, late if an abort was registered. -/
def Obligations.StepsAndCommit : Prop :=
  (∀ (s : State) (j : Job), s.running = some j → j.nextPhase s.now = some .gate → j.misses = [] → s.job.groups = [] →
    ∃ t, exec .phaseStart s = .next t ∧ t = s.setJob (fun j => { j with phase := .gate }) ∧ OnlyChanges [.job] s t) ∧
  (∀ (s : State) (j : Job), s.running = some j → j.nextPhase s.now = some .update → s.job.ckpt = none →
    ∃ t, exec .phaseStart s = .next t ∧ t = s.setJob (fun j => { j with phase := .update }) ∧ OnlyChanges [.job] s t) ∧
  (∀ (s : State) (j : Job), s.running = some j → j.nextPhase s.now = some .work → s.modl.hold = false → j.abort = none →
    s.stepAllowed = true → s.reenacts = false → s.graft.active = none → s.job.ckpt = none → j.desc.binding 3 = none →
    ∃ t, exec .phaseStart s = .next t ∧ t.job.cur = some { j with
        step := j.step + 1, phase := .work, stage := .running
        stepCommitted := false, blocked := false, misses := [] }) ∧
  (∀ (s : State) (j : Job) (r a : Nat), s.running = some j → j.nextPhase s.now = some .work → s.modl.hold = false →
    j.abort = some (r, a) → ringBefore a s.now = true → s.reenacts = false → s.graft.active = none →
    ∃ t, exec .phaseStart s = .next t ∧ t.job.cur = none ∧
      t.job.outbox.getLast?.map (fun c => (c.seq, c.status, c.reason, c.lastRing)) = some (j.desc.seq, 2, r, s.prevRing)) ∧
  (∀ s : State, s.running = none → exec .phaseStart s = .next s ∧ exec .commitDecision s = .next s ∧ exec .jobEnd s = .next s) ∧
  (∀ (s : State) (j : Job), s.running = some j → s.noInjection → s.now = ringAdd j.commitRing 1 → j.stepCommitted = false →
    j.phase = .gate → j.deadDeclared = false → j.blocked = false → s.journal.replaying = false → s.reenacts = false →
    (∀ p ∈ s.job.groups, ∀ i ∈ p.2.items, i.st = .clean ∨ i.st = .resolved ∨ i.st = .skipped) →
    ∃ t, exec .commitDecision s = .next t ∧
      t.job.cur = some { j with stepCommitted := true, committed := j.committed + 1 } ∧ t.job.outbox = s.job.outbox) ∧
  (∀ (s : State) (j : Job), s.running = some j → s.noInjection → s.now = ringAdd j.commitRing 1 → j.stepCommitted = false →
    j.phase = .gate → j.deadDeclared = false → j.blocked = true → s.journal.replaying = false → s.reenacts = false →
    s.job.groups = [] →
    ∃ t, exec .commitDecision s = .next t ∧ t.job.cur = none ∧
      t.job.outbox.getLast?.map (fun c => (c.seq, c.status, c.lastRing, c.committed)) =
        some (j.desc.seq, 3, j.commitRing, j.committed)) ∧
  (∀ (s : State) (j : Job), s.running = some j → s.now = ringAdd j.plannedLast 1 → j.finalStep = true → j.stepCommitted = true →
    s.reenacts = false → s.modl.hold = false → (j.phase = .update → s.refreshCopies = s) → s.job.ckpt = none →
    j.desc.binding 3 = none →
    ∃ t, exec .jobEnd s = .next t ∧ t.job.cur = none ∧
      t.job.outbox = s.job.outbox ++ [s.completionOf j (if j.abort.isSome then 1 else 0) ((j.abort.map (·.1)).getD 0) j.plannedLast] ∧
      t.job.queue = s.job.queue)

/-- Claims, checks and votes (parts of R244 to R253). In claim mode and outside a replay, a claim counter answers with its next tile
in the group's order and counts on; past its tiles it answers EXHAUSTED; past the number of its claimants as well it raises
OVERFLOW/COUNTER. A claimant told EXHAUSTED claims no more; an idle one takes the tile it was given. Equal hashes make a sampled
tile clean and release its operand lines; different ones raise SUSPECT and stop the owner's claims. A majority for the owner
resolves the tile and withdraws the outvoted checker. -/
def Obligations.ClaimsAndVotes : Prop :=
  (∀ (s : State) (cx cy x y g rank : Nat) (j : Job) (c : ClaimRec), s.storesWf → s.inGrid cx cy = true → s.noInjection → s.running = some j →
    s.groupAt cx cy = some g → s.claimRec g = some c → c.set.rank x y = some rank → j.phase.claims = true →
    j.coppice s.reenacts = false → (s.group g).stopped = [] → s.rankOut g c rank = false → s.journal.replaying = false →
    (s.group g).v < c.tiles →
    tileSampled j.desc g j.step (tileOf c.order (s.tileGrid c).1 (s.tileGrid c).2 (s.group g).v) = false →
    exec (.claim cx cy x y) s = .next (State.reply
      (State.modGroup (s.setCell cx cy ((s.cell cx cy).takeClaim x y)) g (fun q => { q with v := q.v + 1, log := q.log ++ [(rank, 0)] }))
      c (x, y) ⟨0, 0, tileOf c.order (s.tileGrid c).1 (s.tileGrid c).2 (s.group g).v, false, false, false, false⟩)) ∧
  (∀ (s : State) (cx cy x y g rank : Nat) (j : Job) (c : ClaimRec), s.inGrid cx cy = true → s.noInjection → s.running = some j →
    s.groupAt cx cy = some g → s.claimRec g = some c → c.set.rank x y = some rank → j.phase.claims = true →
    j.coppice s.reenacts = false → (s.group g).stopped = [] → s.rankOut g c rank = false → s.journal.replaying = false →
    c.tiles ≤ (s.group g).v → (s.group g).v < c.tiles + c.set.size →
    exec (.claim cx cy x y) s = .next (State.reply
      (State.modGroup (s.setCell cx cy ((s.cell cx cy).takeClaim x y)) g
        (fun q => { q with v := q.v + 1, log := q.log ++ [(rank, 2 ^ 31)] }))
      c (x, y) ⟨0, 0, 0, false, false, false, true⟩)) ∧
  (∀ (s : State) (cx cy x y g rank : Nat) (j : Job) (c : ClaimRec), s.inGrid cx cy = true → s.noInjection → s.running = some j →
    s.groupAt cx cy = some g → s.claimRec g = some c → c.set.rank x y = some rank → j.phase.claims = true →
    j.coppice s.reenacts = false → (s.group g).stopped = [] → s.rankOut g c rank = false → s.journal.replaying = false →
    c.tiles + c.set.size ≤ (s.group g).v →
    exec (.claim cx cy x y) s = .next
      (State.cellEvent (s.setCell cx cy ((s.cell cx cy).takeClaim x y)) cx cy false (.fault ⟨.overflow, 3⟩ 0 true))) ∧
  (∀ (s : State) (x y g k w0 w1 : Nat) (c : ClaimRec), s.works x y → (s.cell x y).pairAt 6 = some (w0, w1) →
    s.groupOf x y = some g → (claimReplyOf w0 w1).exhausted = true → s.claimRec g = some c → c.set.rank x y = some k →
    exec (.claimReply x y) s = .next (State.modGroup (s.setCell x y ((s.cell x y).dropInbox .s 6 2)) g
      (fun q => { q with stopped := q.stopped ++ [k] }))) ∧
  (∀ (s : State) (x y g w0 w1 : Nat), s.storesWf → s.works x y → (s.cell x y).pairAt 6 = some (w0, w1) →
    s.groupOf x y = some g → (claimReplyOf w0 w1).exhausted = false → (claimReplyOf w0 w1).sampled = false →
    (claimReplyOf w0 w1).check = false → (claimReplyOf w0 w1).vote = false → (s.cell x y).comp.tile.work = none →
    (s.cell x y).comp.queueWork = [] →
    ∃ t, exec (.claimReply x y) s = .next t ∧
      (t.cell x y).comp.tile = TileRun.fresh (some ⟨g, (claimReplyOf w0 w1).tile, false, .owner⟩) ∧
      OtherCells x y s t ∧ OnlyChanges [.cells] s t) ∧
  (∀ (s : State) (g tile h : Nat) (i : GateItem) (c : ClaimRec), s.gateItem g tile = some i → s.claimRec g = some c → i.st = .checking →
    i.ownerHash = some h → i.checkHash = some h →
    exec (.hashCompare g tile) s = .next ((s.setItem g { i with st := .clean }).releaseLines g tile (c.set.at i.owner))) ∧
  (∀ (s : State) (g tile a b : Nat) (i : GateItem) (c : ClaimRec) (j : Job), s.gateItem g tile = some i → s.claimRec g = some c →
    s.running = some j → j.stepCommitted = false → i.st = .checking → i.ownerHash = some a → i.checkHash = some b → a ≠ b →
    s.ras.ringCount < 64 →
    ∃ t, exec (.hashCompare g tile) s = .next t ∧ i.owner ∈ (t.group g).stopped ∧
      (∃ r ∈ t.ras.log, r.cls = .dupMismatch ∧ r.code = 1 ∧ r.src = .cell (c.set.at i.owner).1 (c.set.at i.owner).2)) ∧
  (∀ (s : State) (g tile h r1 r2 v1 v2 k : Nat) (i : GateItem) (c : ClaimRec), s.gateItem g tile = some i → s.claimRec g = some c →
    i.st = .suspect → i.ownerHash = some h → i.votes = [v1, v2] → i.voteHashes = [(r1, h), (r2, h)] → i.checker = some k →
    (s.group g).withdrawn = [] →
    ∃ t, exec (.voteResolve g tile) s = .next t ∧ (t.group g).withdrawn = [k] ∧ OnlyChanges [.regs, .job, .cells] s t)

/-! ## Edge links and frames -/

/-- Links of an edge port (parts of R31, R262, R267, R268, R287; Table 9.2). ADMIN_EN = 0 disables both links of its port, and
ADMIN_EN = 1 takes a disabled one to DETECT; on a port the variant disables the write changes nothing. From DETECT a link with a
cable goes on to NEGOTIATE or TRAIN. A cable plugged in restores auxiliary power where AUX_EN is set; pulled, it takes the power
away and the links to DETECT. Negotiation done in the configured mode leads to TRAIN, training done to UP. A failed attempt is
counted and starts again from DETECT. An UP link that loses lock, or exceeds its codeword limit, or is told to, retrains; a
LINK/DOWN is counted and recorded. An overcurrent takes auxiliary power away, records LINK code 3 and starts the link from DETECT. A
PORT reset advances the port's epoch and leaves no link UP. No other port changes. -/
def Obligations.EdgeLinks : Prop :=
  (∀ (s : State) (p : Nat), s.storesWf → s.portEnabled p = true →
    ∃ t, exec (.adminEnWrite p false) s = .next t ∧ (t.port p).link0 = .disabled ∧ (t.port p).link1 = .disabled ∧
      t.f (EDGE_PORT_CTRL_ADMIN_EN p) = 0 ∧ (∀ q, q ≠ p → t.port q = s.port q) ∧
      FieldsKept [EDGE_PORT_CTRL_ADMIN_EN p, ID_INT_CAUSE_CAUSE, ID_HOST_CNT_COUNT 7] s t ∧
      OnlyChanges [.regs, .ports, .host, .sent] s t) ∧
  (∀ (s : State) (p : Nat), s.storesWf → s.portEnabled p = true → (s.port p).link0 = .disabled → (s.port p).split = false →
    ∃ t, exec (.adminEnWrite p true) s = .next t ∧ (t.port p).link0 = s.afterDetect p (s.port p).present ∧
      t.f (EDGE_PORT_CTRL_ADMIN_EN p) = 1 ∧ (∀ q, q ≠ p → t.port q = s.port q) ∧ OnlyChanges [.regs, .ports, .host, .sent] s t) ∧
  (∀ (s : State) (p : Nat) (b : Bool), s.portEnabled p = false → exec (.adminEnWrite p b) s = .next s) ∧
  (∀ (s : State) (p : Nat), s.storesWf → s.portEnabled p = true → (s.port p).present = false → (s.port p).link0 = .detect →
    (s.port p).split = false →
    ∃ t, exec (.presenceChange p true) s = .next t ∧ (t.port p).present = true ∧ (t.port p).auxOff = false ∧
      (t.port p).auxOn = (decide (s.f (EDGE_PORT_CTRL_AUX_EN p) = 1) || (s.port p).auxOn) ∧
      (t.port p).link0 = s.afterDetect p true ∧
      (∀ q, q ≠ p → t.port q = s.port q) ∧ OnlyChanges (mayChange (.presenceChange p true)) s t) ∧
  (∀ (s : State) (p : Nat), s.storesWf → s.portEnabled p = true → (s.port p).present = true → (s.port p).link0 ≠ .disabled →
    ∃ t, exec (.presenceChange p false) s = .next t ∧ (t.port p).present = false ∧ (t.port p).auxOn = false ∧
      (t.port p).link0 = .detect ∧ (∀ q, q ≠ p → t.port q = s.port q) ∧ OnlyChanges (mayChange (.presenceChange p false)) s t) ∧
  (∀ (s : State) (p : Nat) (h : Bool), s.storesWf → (s.port p).link h = .negotiate →
    ∃ t, exec (.negotiationDone p h (s.port p).split) s = .next t ∧ (t.port p).link h = .train ∧
      (t.port p).link (! h) = (s.port p).link (! h) ∧ (∀ q, q ≠ p → t.port q = s.port q) ∧
      OnlyChanges [.regs, .ports, .host, .sent] s t) ∧
  (∀ (s : State) (p : Nat) (h : Bool), s.storesWf → s.noInjection → (s.port p).link h = .train →
    ∃ t, exec (.trainDone p h) s = .next t ∧ (t.port p).link h = .up ∧ (t.port p).link (! h) = (s.port p).link (! h) ∧
      (∀ q, q ≠ p → t.port q = s.port q) ∧ OnlyChanges [.regs, .ports, .host, .sent] s t) ∧
  (∀ (s : State) (p : Nat) (h : Bool) (c : Instr), s.storesWf →
    ((s.port p).link h = .negotiate ∧ c = .negotiationTimeout p h) ∨ ((s.port p).link h = .train ∧ c = .trainTimeout p h) →
    ∃ t, exec c s = .next t ∧ (t.port p).trainFails = min 255 ((s.port p).trainFails + 1) ∧
      (t.port p).link h = s.afterDetect p (s.port p).present ∧
      (∀ q, q ≠ p → t.port q = s.port q) ∧ OnlyChanges (mayChange c) s t) ∧
  (∀ (s : State) (p : Nat) (h cw : Bool), s.storesWf → (s.port p).link h = .up → s.ras.ringCount < 64 →
    ∃ t, exec (.linkDown p h cw) s = .next t ∧ (t.port p).link h = .train ∧
      (t.port p).downs = min 65535 ((s.port p).downs + 1) ∧
      (∃ r ∈ t.ras.log, r.cls = .link ∧ r.code = 1 ∧ r.src = .port p h ∧ r.num = s.ras.seq) ∧
      (∀ q, q ≠ p → t.port q = s.port q) ∧ OnlyChanges (mayChange (.linkDown p h cw)) s t) ∧
  (∀ (s : State) (p : Nat), s.storesWf →
    ∃ t, exec (.retrain p) s = .next t ∧
      (∀ h, (t.port p).link h = if (s.port p).link h = .up then .train else (s.port p).link h) ∧
      (∀ q, q ≠ p → t.port q = s.port q) ∧ OnlyChanges (mayChange (.retrain p)) s t) ∧
  (∀ (s : State) (p : Nat), s.storesWf → (s.port p).auxOn = true → (s.port p).split = false → s.ras.ringCount < 64 →
    ∃ t, exec (.auxOvercurrent p) s = .next t ∧ (t.port p).auxOn = false ∧ (t.port p).auxOff = true ∧
      (t.port p).link0 = (if (s.port p).link0 = .disabled then .disabled else s.afterDetect p (s.port p).present) ∧
      (∃ r ∈ t.ras.log, r.cls = .link ∧ r.code = 3 ∧ r.src = .port p false) ∧ (∀ q, q ≠ p → t.port q = s.port q) ∧
      OnlyChanges (mayChange (.auxOvercurrent p)) s t) ∧
  (∀ (s : State) (p : Nat), s.storesWf → s.portEnabled p = true →
    ∃ t, exec (.portReset p) s = .next t ∧ (t.port p).epoch = ((s.port p).epoch + 1) % 65536 ∧
      (∀ h, (t.port p).link h ≠ .up ∧ ((t.port p).link h = .disabled ↔ (s.port p).link h = .disabled)) ∧
      (∀ q, q ≠ p → t.port q = s.port q) ∧ OnlyChanges (mayChange (.portReset p)) s t)

/-- A frame that arrives (parts of R264, R270, R276, R277, R281). With a wrong FCS it is dropped and counted at its port. A frame
whose tag fails is dropped and counted against its session, and at TAGFAIL_LIMIT the session is closed without keys. An
authenticated data frame of the current epoch with SEQ E is delivered and E advances; one already taken is dropped and counted, with
an acknowledgement due; one above a gap is held and a NAK leaves; one past the receive window is dropped. That a frame past the
window counts as SAP_CNT 8 is the model's reading (log 61). -/
def Obligations.FramesArrive : Prop :=
  (∀ (s : State) (p : Nat) (h : Bool) (bs : List Byte), s.storesWf → p < 72 → (s.port p).link h = .up →
    s.limbOn (limbOfPort p) = true → (rawFrame bs).fcsOk = false →
    ∃ t, exec (.frameReceive p h bs) s = .next t ∧
      t.f (EDGE_PORT_FEC_UNCORRECTED p) = min (2 ^ (EDGE_PORT_FEC_UNCORRECTED p).width - 1) (s.f (EDGE_PORT_FEC_UNCORRECTED p) + 1) ∧
      FieldsKept [EDGE_PORT_FEC_UNCORRECTED p] s t ∧ OnlyChanges [.regs] s t) ∧
  (∀ (s : State) (p i : Nat) (h : Bool) (bs : List Byte), s.storesWf → s.noInjection → s.frameHits p h bs i →
    (s.ses i).openBody (rawFrame bs).body = none → (s.ses i).tagFails + 1 < s.f SAP_CONFIG_TAGFAIL_LIMIT →
    ∃ t, exec (.frameReceive p h bs) s = .next t ∧ t.ses i = { s.ses i with tagFails := (s.ses i).tagFails + 1 } ∧
      t.f (SAP_CNT_COUNT 4) = (s.f (SAP_CNT_COUNT 4) + 1) % 2 ^ (SAP_CNT_COUNT 4).width ∧ FieldsKept [SAP_CNT_COUNT 4] s t ∧
      OnlyChanges [.regs, .sess] s t) ∧
  (∀ (s : State) (p i : Nat) (h : Bool) (bs : List Byte), s.storesWf → s.noInjection → s.frameHits p h bs i →
    (s.ses i).openBody (rawFrame bs).body = none → s.f SAP_CONFIG_TAGFAIL_LIMIT ≤ (s.ses i).tagFails + 1 →
    ∃ t, exec (.frameReceive p h bs) s = .next t ∧ (t.ses i).st = .closed ∧ (t.ses i).keys = none ∧
      OnlyChanges (mayChange (.frameReceive p h bs)) s t) ∧
  (∀ (s : State) (p i : Nat) (h : Bool) (bs : List Byte) (f : Frame), s.storesWf → s.noInjection → s.frameOpens p h bs i f →
    s.roleOk i = true → f.typ ≠ 10 → f.ackValid = false → f.seq = (s.ses i).expect % 2 ^ 32 →
    1 ≤ s.f SAP_CONFIG_RX_WINDOW → s.poolRoom p h f = true → (s.ses i).held = [] → f.accepted = true →
    f.cls ≠ 0 ∨ f.deadline = 0 → s.journal.replaying = false → s.reenacts = false →
    ∃ t, exec (.frameReceive p h bs) s = .next t ∧ t.ses i = { s.ses i with
        expect := (s.ses i).expect + 1, ackDue := true, inbox := (s.ses i).inbox ++ [f] } ∧
      OnlyChanges (mayChange (.frameReceive p h bs)) s t) ∧
  (∀ (s : State) (p i : Nat) (h : Bool) (bs : List Byte) (f : Frame), s.storesWf → s.noInjection → s.frameOpens p h bs i f →
    s.roleOk i = true → f.typ ≠ 10 → f.ackValid = false → nearestCount (s.ses i).expect f.seq < (s.ses i).expect →
    ∃ t, exec (.frameReceive p h bs) s = .next t ∧ t.ses i = { s.ses i with ackDue := true } ∧
      t.f (SAP_CNT_COUNT 6) = (s.f (SAP_CNT_COUNT 6) + 1) % 2 ^ (SAP_CNT_COUNT 6).width ∧ FieldsKept [SAP_CNT_COUNT 6] s t ∧
      OnlyChanges [.regs, .sess] s t) ∧
  (∀ (s : State) (p i : Nat) (h : Bool) (bs : List Byte) (f : Frame) (k : List Byte × List Byte), s.storesWf → s.noInjection →
    s.frameOpens p h bs i f → (s.ses i).keys = some k → s.roleOk i = true → f.typ ≠ 10 → f.ackValid = false →
    (s.ses i).expect < nearestCount (s.ses i).expect f.seq →
    nearestCount (s.ses i).expect f.seq < (s.ses i).expect + s.f SAP_CONFIG_RX_WINDOW → (s.ses i).held = [] →
    s.poolRoom p h f = true →
    ∃ t, exec (.frameReceive p h bs) s = .next t ∧
      (t.ses i).held = [(nearestCount (s.ses i).expect f.seq, f)] ∧ (t.ses i).expect = (s.ses i).expect ∧
      (∃ a : Frame, t.sent = s.sent ++ [.frame p h (s.ethOf p h (s.ses i).mac (a.seal k.1 (s.ses i).ackTx 1))] ∧
        a.isAck = true ∧ a.nak = true ∧ a.ack = (s.ses i).expect % 2 ^ 32) ∧ OnlyChanges [.regs, .sess, .sent] s t) ∧
  (∀ (s : State) (p i : Nat) (h : Bool) (bs : List Byte) (f : Frame), s.storesWf → s.noInjection → s.frameOpens p h bs i f →
    s.roleOk i = true → f.typ ≠ 10 → f.ackValid = false → (s.ses i).held = [] →
    (s.ses i).expect + s.f SAP_CONFIG_RX_WINDOW ≤ nearestCount (s.ses i).expect f.seq →
    ∃ t, exec (.frameReceive p h bs) s = .next t ∧ t.sess = s.sess ∧
      t.f (SAP_CNT_COUNT 8) = (s.f (SAP_CNT_COUNT 8) + 1) % 2 ^ (SAP_CNT_COUNT 8).width ∧ OnlyChanges [.regs] s t)

/-- Frames that leave, and what becomes of them (parts of R264, R270, R275 to R279, R281). A port sends a waiting frame of the
reserve first: sealed under the session's key at its next count, it stays unacknowledged, and the report it carries is made; no
frame leaves on a link that is not UP. A due report goes out as an acknowledgement frame, under a count of its own space; with a
frame held above a gap the NAK is repeated. An acknowledgement releases the frames below its count and sets the window. An expired
timer sends the oldest frame again with ATTEMPT one higher, or closes the session at the limit, with a PEER code 3 record. A class S
frame that stands unacknowledged a ring past its deadline is marked and recorded once. -/
def Obligations.FramesLeave : Prop :=
  (∀ (s : State) (p i : Nat) (h : Bool) (q : TxFrame) (k : List Byte × List Byte), s.storesWf → (s.port p).link h = .up →
    s.limbOn (limbOfPort p) = true → s.nextFrame p h Frame.reserve = some (i, q) → q.req = none → (s.ses i).port = p →
    (s.ses i).half = h → (s.ses i).keys = some k → q.frame.typ ≠ 1 →
    ∃ (t : State) (f : Frame), exec (.frameTransmit p h) s = .next t ∧
      t.sent = s.sent ++ [.frame p h (s.ethOf p h (s.ses i).mac (f.seal k.1 (s.ses i).txNext 0))] ∧
      f.seq = (s.ses i).txNext % 2 ^ 32 ∧ f.stamp = s.now ∧ f.epoch = s.sesEpoch i ∧ f.ack = (s.ses i).expect % 2 ^ 32 ∧
      f.typ = q.frame.typ ∧ f.data = q.frame.data ∧
      (t.ses i).txNext = (s.ses i).txNext + 1 ∧ (t.ses i).queue = (s.ses i).queue.erase q ∧ (t.ses i).ackDue = false ∧
      (t.ses i).unacked.length = (s.ses i).unacked.length + 1 ∧
      t.f (SAP_CNT_COUNT 0) = (s.f (SAP_CNT_COUNT 0) + 1) % 2 ^ (SAP_CNT_COUNT 0).width ∧ FieldsKept [SAP_CNT_COUNT 0] s t ∧
      OnlyChanges [.regs, .sess, .sent] s t) ∧
  (∀ (s : State) (p : Nat) (h : Bool), (s.port p).link h ≠ .up → exec (.frameTransmit p h) s = .next s) ∧
  (∀ (s : State) (i : Nat) (k : List Byte × List Byte), s.storesWf → s.isLive i = true →
    s.limbOn (limbOfPort (s.ses i).port) = true → (s.ses i).ackDue = true → (s.ses i).keys = some k →
    ∃ (t : State) (f : Frame), exec (.ackFrameSend i) s = .next t ∧
      t.sent = s.sent ++ [.frame (s.ses i).port (s.ses i).half
        (s.ethOf (s.ses i).port (s.ses i).half (s.ses i).mac (f.seal k.1 (s.ses i).ackTx 1))] ∧ f.isAck = true ∧
      f.ackValid = true ∧ f.nak = false ∧ f.ack = (s.ses i).expect % 2 ^ 32 ∧ f.credit = s.f SAP_CONFIG_RX_WINDOW ∧
      t.ses i = { s.ses i with ackDue := false, lateDue := false, ackTx := (s.ses i).ackTx + 1 } ∧ OnlyChanges [.sess, .sent] s t) ∧
  (∀ (s : State) (i : Nat) (k : List Byte × List Byte), s.storesWf → s.isLive i = true →
    s.limbOn (limbOfPort (s.ses i).port) = true → (s.ses i).held ≠ [] → (s.ses i).keys = some k →
    ∃ (t : State) (f : Frame), exec (.gapNakRepeat i) s = .next t ∧
      t.sent = s.sent ++ [.frame (s.ses i).port (s.ses i).half
        (s.ethOf (s.ses i).port (s.ses i).half (s.ses i).mac (f.seal k.1 (s.ses i).ackTx 1))] ∧ f.isAck = true ∧
      f.nak = true ∧ f.ack = (s.ses i).expect % 2 ^ 32 ∧ (t.ses i).held = (s.ses i).held ∧ FieldsKept [SAP_CNT_COUNT 3] s t ∧
      OnlyChanges [.regs, .sess, .sent] s t) ∧
  (∀ (s : State) (i : Nat) (f : Frame) (rest : List Frame), s.storesWf → s.isLive i = true →
    s.limbOn (limbOfPort (s.ses i).port) = true → (s.ses i).acks = f :: rest → f.ackValid = true → f.nak = false → f.late = false →
    ∃ t, exec (.ackReceive i) s = .next t ∧ t.ses i = { s.ses i with
        acks := rest, window := f.credit
        unacked := (s.ses i).unacked.filter (fun u =>
          decide (min (s.ses i).txNext (nearestCount (s.ses i).txNext f.ack) ≤ u.count)) } ∧ OnlyChanges [.sess] s t) ∧
  (∀ (s : State) (i : Nat) (u : TxFrame) (rest : List TxFrame) (k : List Byte × List Byte), s.storesWf → s.isLive i = true →
    s.limbOn (limbOfPort (s.ses i).port) = true → (s.ses i).unacked = u :: rest → (s.ses i).keys = some k →
    u.frame.due = none → u.frame.attempt < s.f SAP_CONFIG_RETX_LIMIT → u.frame.attempt < 7 →
    ∃ (t : State) (f : Frame), exec (.rtoExpiry i) s = .next t ∧
      t.sent = s.sent ++ [.frame (s.ses i).port (s.ses i).half
        (s.ethOf (s.ses i).port (s.ses i).half (s.ses i).mac (f.seal k.1 u.count 0))] ∧
      f.attempt = u.frame.attempt + 1 ∧ f.seq = u.count % 2 ^ 32 ∧ f.data = u.frame.data ∧ (t.ses i).txNext = (s.ses i).txNext ∧
      FieldsKept [SAP_CNT_COUNT 2] s t ∧ OnlyChanges [.regs, .sess, .sent] s t) ∧
  (∀ (s : State) (i : Nat) (u : TxFrame) (rest : List TxFrame), s.storesWf → s.isLive i = true →
    s.limbOn (limbOfPort (s.ses i).port) = true → (s.ses i).unacked = u :: rest → u.frame.due = none →
    s.f SAP_CONFIG_RETX_LIMIT ≤ u.frame.attempt → s.ras.ringCount < 64 →
    ∃ t, exec (.rtoExpiry i) s = .next t ∧ (t.ses i).st = .closed ∧ (t.ses i).keys = none ∧
      (∃ r ∈ t.ras.log, r.cls = .peer ∧ r.code = 3 ∧ r.src = .session i) ∧ OnlyChanges (mayChange (.rtoExpiry i)) s t) ∧
  (∀ (s : State) (i n d : Nat) (u : TxFrame), s.storesWf → s.isLive i = true → s.running = none →
    (s.ses i).unacked.find? (fun v => v.count == n) = some u → u.frame.due = some d → u.frame.cls = 0 → u.raised = false →
    ringBefore (ringAdd d 1) s.now = true → s.ras.ringCount < 64 →
    s.ras.log.any (fun r => r.cls == .deadlineMiss && r.code == 1 && r.src == .session i && r.ring == ringAdd d 1) = false →
    ∃ t, exec (.deadlineUnacked i n) s = .next t ∧ (∀ v ∈ (t.ses i).unacked, v.count = n → v.raised = true) ∧
      (∃ r ∈ t.ras.log, r.cls = .deadlineMiss ∧ r.code = 1 ∧ r.src = .session i ∧ r.ring = ringAdd d 1) ∧
      OnlyChanges (mayChange (.deadlineUnacked i n)) s t)

/-! ## Sap messages and sessions -/

/-- Messages between a cell and a peer (parts of R184, R273, R284, R308). A WRITE from a tap bound SAP waits as a frame on the
session its head names, with its address flit's target. A READ keeps a pending request in the limb die's table and waits as its
frame. A V-net message that is neither WRITE nor READ_DATA is dropped with PEER/BAD_TARGET. A served READ response returns the data
to the requester; a refused one returns NACK; a deferred one is reissued n rings later; one that answers no pending request is
dropped and counted. -/
def Obligations.SapRequests : Prop :=
  (∀ (s : State) (tap : Nat) (hd ad : NetUnit) (body : List NetUnit), s.storesWf → (s.tap tap).func = 2 → s.tapEnabled tap = true →
    s.limbOn (limbOfTap tap) = true → s.alone = false →
    firstMessage (s.tap tap).bufV = some (hd :: ad :: body) → (vHead hd.data).kind = 0 → (vHead hd.data).peer = true →
    (addrFlit ad.data).op = 1 → (addrFlit ad.data).cls = 1 → s.isOpen (vHead hd.data).session = true →
    s.roleOk (vHead hd.data).session = true → (s.ses (vHead hd.data).session).queue = [] →
    ∃ t, exec (.sapEgress tap .v) s = .next t ∧ (t.ses (vHead hd.data).session).queue = [⟨0,
        { dataFrame 1 1 0
            (reqFields (addrFlit ad.data).tap (addrFlit ad.data).route (vHead hd.data).window (vHead hd.data).gen
              (vHead hd.data).offset (addrFlit ad.data).x (addrFlit ad.data).y 0 0)
            (body.flatMap (fun v => leBytes 16 v.data)) with session := tap, stamp := s.now }, none, none, false⟩] ∧
      (t.tap tap).bufV = (s.tap tap).bufV.drop (body.length + 2) ∧ OnlyChanges [.taps, .sess] s t) ∧
  (∀ (s : State) (tap g : Nat) (hd ad : NetUnit) (body : List NetUnit), s.storesWf → s.noInjection → (s.tap tap).func = 2 →
    s.tapEnabled tap = true → s.limbOn (limbOfTap tap) = true → s.alone = false →
    firstMessage (s.tap tap).bufV = some (hd :: ad :: body) → (vHead hd.data).kind = 0 →
    (vHead hd.data).peer = true → (addrFlit ad.data).op = 2 → (addrFlit ad.data).cls ≠ 3 →
    s.isOpen (vHead hd.data).session = true → s.roleOk (vHead hd.data).session = true → (s.limb (limbOfTap tap)).freeTag = some g →
    ∃ t r, exec (.sapEgress tap .v) s = .next t ∧
      (t.limb (limbOfTap tap)).pending = (s.limb (limbOfTap tap)).pending ++ [r] ∧
      r.kind = .read ∧ r.tag = g ∧ r.session = (vHead hd.data).session ∧ r.inward = false ∧ r.tap = tap ∧ r.window = (vHead hd.data).window ∧
      r.gen = (vHead hd.data).gen ∧ r.offset = (vHead hd.data).offset ∧ r.x = (vHead hd.data).sx ∧ r.y = (vHead hd.data).sy ∧
      r.reply = (addrFlit ad.data).reply ∧ r.count = (addrFlit ad.data).count % 256 + 1 ∧
      (t.ses (vHead hd.data).session).queue =
        (s.ses (vHead hd.data).session).queue ++ [⟨0, r.frame, none, some (limbOfTap tap, g), false⟩] ∧
      OnlyChanges [.taps, .sess, .limbs] s t) ∧
  (∀ (s : State) (tap : Nat) (hd ad : NetUnit) (body : List NetUnit), s.storesWf → (s.tap tap).func = 2 → s.tapEnabled tap = true →
    s.limbOn (limbOfTap tap) = true →
    firstMessage (s.tap tap).bufV = some (hd :: ad :: body) → (vHead hd.data).kind ≠ 0 → (vHead hd.data).kind ≠ 2 →
    s.ras.ringCount < 64 →
    ∃ t, exec (.sapEgress tap .v) s = .next t ∧ (t.tap tap).bufV = (s.tap tap).bufV.drop (body.length + 2) ∧
      (∃ r ∈ t.ras.log, r.cls = .peer ∧ r.code = 5 ∧ r.src = .tap tap) ∧ OnlyChanges (mayChange (.sapEgress tap .v)) s t) ∧
  (∀ (s : State) (i k : Nat) (f : Frame) (rest : List Frame) (r : PendReq), s.storesWf → s.hasNext i f rest → f.resp = true →
    f.typ = 2 → s.findReq i (rd f.fields 4 4) = some (k, r) → r.kind = .read → rd f.fields 0 1 = 0 →
    ∃ t, exec (.responseReceive i) s = .next t ∧ t.ses i = { s.ses i with inbox := rest } ∧
      (t.limb k).pending = (s.limb k).pending.filter (fun q => q.tag != r.tag) ∧
      t.taps = (s.answerRead r (rd f.fields 8 2) (decide (rd f.fields 12 1 = 1)) f.data).taps ∧
      OnlyChanges [.sess, .limbs, .taps] s t) ∧
  (∀ (s : State) (i k : Nat) (f : Frame) (rest : List Frame) (r : PendReq), s.storesWf → s.hasNext i f rest → f.resp = true →
    f.typ = 2 → s.findReq i (rd f.fields 4 4) = some (k, r) → r.kind = .read → rd f.fields 0 1 = 2 → r.cls ≠ 0 →
    ∃ t, exec (.responseReceive i) s = .next t ∧ (t.limb k).pending = (s.limb k).pending.filter (fun q => q.tag != r.tag) ∧
      t.taps = (s.answerRead r r.gen true []).taps ∧
      t.f (STREAM_CNT_COUNT 4) = (s.f (STREAM_CNT_COUNT 4) + 1) % 2 ^ (STREAM_CNT_COUNT 4).width ∧
      FieldsKept [STREAM_CNT_COUNT 4] s t ∧ OnlyChanges [.regs, .sess, .limbs, .taps] s t) ∧
  (∀ (s : State) (i k : Nat) (f : Frame) (rest : List Frame) (r : PendReq), s.storesWf → s.hasNext i f rest → f.resp = true →
    f.typ = 2 → s.findReq i (rd f.fields 4 4) = some (k, r) → rd f.fields 0 1 = 1 → r.cls ≠ 0 →
    ∃ t, exec (.responseReceive i) s = .next t ∧ (t.limb k).pending = (s.limb k).pending.map (fun q =>
        if q.tag = r.tag then { q with seq := none, reissue := some (ringAdd s.now (rd f.fields 2 2)) } else q) ∧
      OnlyChanges [.regs, .sess, .limbs] s t) ∧
  (∀ (s : State) (i : Nat) (f : Frame) (rest : List Frame), s.storesWf → s.hasNext i f rest → f.resp = true → f.typ = 2 →
    s.findReq i (rd f.fields 4 4) = none →
    ∃ t, exec (.responseReceive i) s = .next t ∧ t.ses i = { s.ses i with inbox := rest } ∧
      t.f (SAP_CNT_COUNT 13) = (s.f (SAP_CNT_COUNT 13) + 1) % 2 ^ (SAP_CNT_COUNT 13).width ∧ FieldsKept [SAP_CNT_COUNT 13] s t ∧
      OnlyChanges [.regs, .sess] s t)

/-- Requests of a peer (parts of R274, R301, R307, R310). A WRITE whose tap this limb die serves and the plane binds SAP goes toward
the tap's cell as WRITE messages; any other raises PEER/BAD_TARGET. A READ or CREDIT that can be served goes on as its S-net message
and is kept; one that cannot is answered at once with its disposition. A NACK_CLOSED reaches the tap cell of the WRITE it names.
NOT_COMMITTED is counted, and a fault with HALT_ON_PEER. -/
def Obligations.PeerRequests : Prop :=
  (∀ (s : State) (i : Nat) (f : Frame) (rest : List Frame), s.storesWf → s.hasNext i f rest → f.typ = 1 →
    s.tapOk i f.tapOf = true →
    ∃ t, exec (.writeReceive i) s = .next t ∧ t.ses i = { s.ses i with inbox := rest } ∧
      t.tap f.tapOf = (s.tap f.tapOf).sendCell .v (writeMessages s.graft.tag (rd f.fields 2 1 % 32)
        ⟨0, 0, rd f.fields 3 1 % 16, rd f.fields 4 2, rd f.fields 6 2, (s.tapCell f.tapOf).1, (s.tapCell f.tapOf).2, true, false, i,
          f.epoch⟩ 16 (beats16 256 f.data)) ∧
      (∀ k, (t.limb k).pending = (s.limb k).pending) ∧ OnlyChanges [.sess, .limbs, .taps] s t) ∧
  (∀ (s : State) (i : Nat) (f : Frame) (rest : List Frame), s.storesWf → s.hasNext i f rest → f.typ = 1 →
    s.tapOk i f.tapOf = false → s.ras.ringCount < 64 →
    ∃ t, exec (.writeReceive i) s = .next t ∧ t.taps = s.taps ∧
      (∃ r ∈ t.ras.log, r.cls = .peer ∧ r.code = 5 ∧ r.src = .session i) ∧ OnlyChanges (mayChange (.writeReceive i)) s t) ∧
  (∀ (s : State) (i g : Nat) (f : Frame) (rest : List Frame) (c : Instr), s.storesWf → s.hasNext i f rest → f.resp = false →
    s.tapOk i f.tapOf = true → (s.limb (limbOfTap f.tapOf)).freeTag = some g →
    (f.typ = 2 ∧ c = .readReceive i ∧ 1 ≤ rd f.fields 12 2 ∧ rd f.fields 12 2 ≤ 256 ∧
        (s.disposition i f ((16 * rd f.fields 12 2 + 63) / 64)).1 = 0) ∨
      (f.typ = 7 ∧ c = .creditReceive i ∧ 1 ≤ rd f.fields 12 2 ∧ rd f.fields 12 2 ≤ 768 ∧ (s.disposition i f 0).1 = 0) →
    ∃ t r, exec c s = .next t ∧ (t.limb (limbOfTap f.tapOf)).pending = (s.limb (limbOfTap f.tapOf)).pending ++ [r] ∧ r.tag = g ∧
      r.inward = true ∧ r.session = i ∧ r.seq = some f.seq ∧ r.kind = (if f.typ = 2 then .read else .credit) ∧
      r.window = rd f.fields 3 1 % 16 ∧ r.gen = rd f.fields 4 2 ∧ r.count = rd f.fields 12 2 ∧
      (∃ us, t.tap f.tapOf = (s.tap f.tapOf).sendCell .s us ∧ us.length = 4) ∧ t.ses i = { s.ses i with inbox := rest } ∧
      OnlyChanges [.sess, .limbs, .taps] s t) ∧
  (∀ (s : State) (i d reason n : Nat) (f : Frame) (rest : List Frame) (c : Instr), s.storesWf → s.hasNext i f rest →
    f.resp = false → s.tapOk i f.tapOf = true → d ≠ 0 →
    (f.typ = 2 ∧ c = .readReceive i ∧ 1 ≤ rd f.fields 12 2 ∧ rd f.fields 12 2 ≤ 256 ∧
        s.disposition i f ((16 * rd f.fields 12 2 + 63) / 64) = (d, reason, n)) ∨
      (f.typ = 7 ∧ c = .creditReceive i ∧ 1 ≤ rd f.fields 12 2 ∧ rd f.fields 12 2 ≤ 768 ∧ s.disposition i f 0 = (d, reason, n)) →
    ∃ t, exec c s = .next t ∧ t.ses i = { s.ses i with
        inbox := rest
        queue := (s.ses i).queue ++ [⟨0, { dataFrame f.typ f.cls 0 (respFields d reason n f.seq 0 0 0) [] with resp := true }, f.due,
          none, false⟩] } ∧ t.limbs = s.limbs ∧ t.taps = s.taps ∧ OnlyChanges [.regs, .sess] s t) ∧
  (∀ (s : State) (i t0 : Nat) (f : Frame) (rest : List Frame) (w : Nat × Nat × Nat), s.storesWf → s.hasNext i f rest → f.typ = 9 →
    rd f.fields 0 1 = 1 → s.inGrid (s.tapCell t0).1 (s.tapCell t0).2 = true → w.2.2 = t0 →
    (List.range 12).findSome? (fun k => (s.limb k).outWrites.find? (fun r => r.1 == i && r.2.1 == rd f.fields 12 4)) = some w →
    ∃ t us, exec (.noticeReceive i) s = .next t ∧ us.length = 4 ∧
      (t.cell (s.tapCell t0).1 (s.tapCell t0).2).inbox .s 4 = (s.cell (s.tapCell t0).1 (s.tapCell t0).2).inbox .s 4 ++ us ∧
      OtherCells (s.tapCell t0).1 (s.tapCell t0).2 s t ∧ OnlyChanges [.sess, .cells] s t) ∧
  (∀ (s : State) (i : Nat) (f : Frame) (rest : List Frame), s.storesWf → s.hasNext i f rest → f.typ = 8 → rd f.fields 6 1 = 1 →
    ∃ t, exec (.syncReceive i) s = .next t ∧ t.ses i = { s.ses i with inbox := rest } ∧ OnlyChanges [.sess] s t) ∧
  (∀ (s : State) (i : Nat) (f : Frame) (rest : List Frame), s.storesWf → s.hasNext i f rest → f.typ = 8 → rd f.fields 6 1 = 2 →
    s.f STREAM_CTRL_HALT_ON_PEER = 0 →
    ∃ t, exec (.syncReceive i) s = .next t ∧ t.ses i = { s.ses i with inbox := rest } ∧
      t.f (STREAM_CNT_COUNT 11) = (s.f (STREAM_CNT_COUNT 11) + 1) % 2 ^ (STREAM_CNT_COUNT 11).width ∧
      FieldsKept [STREAM_CNT_COUNT 11] s t ∧ OnlyChanges [.regs, .sess] s t) ∧
  (∀ (s : State) (i : Nat) (f : Frame) (rest : List Frame), s.storesWf → s.hasNext i f rest → f.typ = 8 → rd f.fields 6 1 = 2 →
    s.f STREAM_CTRL_HALT_ON_PEER = 1 → s.ras.ringCount < 64 →
    ∃ t, exec (.syncReceive i) s = .next t ∧ (∃ r ∈ t.ras.log, r.cls = .peer ∧ r.code = 7 ∧ r.src = .session i) ∧
      OnlyChanges (mayChange (.syncReceive i)) s t)

/-- Session commands and the handshake (parts of R280, R281, R282, R288, R356, R357). OPEN takes a CLOSED index to OPENING with the
kind, home port and address of the command and keeps what the handshake needs, LISTEN lets it wait for a named address, CLOSE begins
to close an OPEN one; a command on a CLOSING index ends with RESULT 4 and one given while another is in progress with RESULT 5. An
OPEN of a peer is accepted on its index, or refused with REFUSED(TABLE_FULL) where none takes it; a completed handshake advances the
epoch, installs the keys that the session secret gives for it and sets both counts to 0, and the session is OPEN at once unless a
job is running. A failed handshake, a refusal and a timeout leave the index CLOSED with no keys. -/
def Obligations.SessionHandshake : Prop :=
  (∀ (s : State) (w : Word64) (i : Nat), s.storesWf → s.noInjection → s.sessCmd.busy = none → s.cmdOk w = true → s.canHandshake = true →
    i = SAP_SESSION_CMD_INDEX.of w → (s.ses i).st = .closed →
    ∃ t, exec (.sessionOpen w) s = .next t ∧ (t.ses i).st = .opening ∧ (t.ses i).port = SAP_SESSION_CMD_PORT.of w ∧
      (t.ses i).store = decide (SAP_SESSION_CMD_KIND.of w = 1) ∧ (t.ses i).mac = s.f SAP_SESSION_PEER_MAC ∧
      (t.ses i).shake.isSome = true ∧ t.sessCmd = ⟨some i, 0⟩ ∧ (∀ j, j ≠ i → t.ses j = s.ses j) ∧
      OnlyChanges (mayChange (.sessionOpen w)) s t) ∧
  (∀ (s : State) (w : Word64) (i : Nat), s.storesWf → s.sessCmd.busy = none → s.cmdOk w = true →
    i = SAP_SESSION_CMD_INDEX.of w → (s.ses i).st = .closed →
    ∃ t, exec (.sessionListen w) s = .next t ∧ (t.ses i).st = .listen ∧ (t.ses i).mac = s.f SAP_SESSION_PEER_MAC ∧
      t.sessCmd = ⟨none, 0⟩ ∧ (∀ j, j ≠ i → t.ses j = s.ses j) ∧ OnlyChanges [.regs, .sess, .sessCmd, .host, .sent] s t) ∧
  (∀ (s : State) (w : Word64) (i : Nat), s.storesWf → s.sessCmd.busy = none → s.running = none → i = SAP_SESSION_CMD_INDEX.of w →
    s.isOpen i = true →
    ∃ t, exec (.sessionClose w) s = .next t ∧ (t.ses i).st = .closing ∧ (t.ses i).closeSince = s.now ∧ t.sessCmd = ⟨none, 0⟩ ∧
      (∀ j, j ≠ i → t.ses j = s.ses j) ∧ OnlyChanges [.regs, .sess, .sessCmd, .host, .sent] s t) ∧
  (∀ (s : State) (w : Word64) (i : Nat), s.sessCmd.busy = none → i = SAP_SESSION_CMD_INDEX.of w → (s.ses i).st = .closing →
    ∀ c ∈ [Instr.sessionOpen w, .sessionListen w, .sessionClose w],
      ∃ t, exec c s = .next t ∧ t.sessCmd = ⟨none, 4⟩ ∧ t.sess = s.sess ∧ OnlyChanges [.regs, .sessCmd] s t) ∧
  (∀ (s : State) (w : Word64), s.sessCmd.busy.isSome = true →
    ∀ c ∈ [Instr.sessionOpen w, .sessionListen w, .sessionClose w],
      exec c s = .next { s with sessCmd := { s.sessCmd with result := 5 } }) ∧
  (∀ (s s1 : State) (p i : Nat) (h : Bool) (q : ShakeIn) (v : Option Nat), s.storesWf → s.noInjection → (s.port p).link h = .up →
    s.takeShake (fun q => q.port == p && q.half == h && decide (rd q.fields 0 1 = 1)) = some (q, s1) →
    rd (certIn q.data) 4 2 ≠ 7 → s1.crossed q.mac (rd q.fields 2 2) (rd q.fields 4 2) = false →
    s1.acceptIndex q.mac (rd q.fields 4 2) = some i → (s1.checkHandshake [] q.data false).1 = v → s.canHandshake = true →
    s.busyJob = false →
    ∃ t, exec (.controlOpen p h) s = .next t ∧ OnlyChanges (mayChange (.controlOpen p h)) s t ∧
      (v = none → kemKeyOk (cut q.data 193 1568) = true → t.shakes = s1.shakes ∧ (t.ses i).st = .opened ∧
        (t.ses i).remote = some (rd q.fields 2 2) ∧ (t.ses i).port = p ∧ (t.ses i).half = h ∧ (t.ses i).mac = q.mac ∧
        (t.ses i).epoch = (s.ses i).epoch + 1 ∧ (t.ses i).secret.isSome = true ∧
        (t.ses i).keys = (t.ses i).keysAt (t.sesEpoch i) ∧ (t.ses i).txNext = 0 ∧ (t.ses i).expect = 0) ∧
      (v ≠ none ∨ kemKeyOk (cut q.data 193 1568) = false → (t.ses i).st = .closed ∧ (t.ses i).keys = none)) ∧
  (∀ (s s1 : State) (p : Nat) (h : Bool) (q : ShakeIn), (s.port p).link h = .up →
    s.takeShake (fun q => q.port == p && q.half == h && decide (rd q.fields 0 1 = 1)) = some (q, s1) →
    rd (certIn q.data) 4 2 = 7 ∨ (s1.crossed q.mac (rd q.fields 2 2) (rd q.fields 4 2) = false ∧
      s1.acceptIndex q.mac (rd q.fields 4 2) = none) →
    ∃ (t : State) (a : Frame), exec (.controlOpen p h) s = .next t ∧
      t.sent = s.sent ++ [.frame p h (s.ethOf p h q.mac a.clear)] ∧ a.op = 3 ∧ rd a.fields 8 1 = 2 ∧
      rd a.fields 9 1 = 3 ∧ t.shakes = s1.shakes ∧ OnlyChanges [.shakes, .sent] s t) ∧
  (∀ (s s1 : State) (i : Nat) (r : ShakeIn) (hk : Shaking) (v : Option Nat), s.storesWf → s.noInjection →
    s.takeAnswer i 2 = some (r, s1) → (s.ses i).shake = some hk →
    (s1.checkHandshake (sha384 hk.opn) r.data (s.ses i).store).1 = v → s.busyJob = false → s.sessCmd.busy = some i →
    s.ras.ringCount < 62 →
    ∃ t, exec (.openAck i) s = .next t ∧ OnlyChanges (mayChange (.openAck i)) s t ∧
      (v = none → (t.ses i).st = .opened ∧ (t.ses i).remote = some (rd r.fields 2 2) ∧
        (t.ses i).epoch = (s.ses i).epoch + 1 ∧ (t.ses i).secret.isSome = true ∧
        (t.ses i).keys = (t.ses i).keysAt (t.sesEpoch i) ∧ (t.ses i).txNext = 0 ∧ (t.ses i).expect = 0 ∧
        t.sessCmd = ⟨none, 0⟩) ∧
      (v ≠ none → (t.ses i).st = .closed ∧ (t.ses i).keys = none ∧ t.sessCmd = ⟨none, 2⟩ ∧
        (∃ r ∈ t.ras.log, r.cls = .peer ∧ r.code = 4 ∧ r.src = .session i))) ∧
  (∀ (s s1 : State) (i : Nat) (r : ShakeIn) (hk : Shaking) (v : Option Nat), s.storesWf → s.noInjection →
    s.takeAnswer i 2 = some (r, s1) → (s.ses i).shake = some hk →
    (s1.checkHandshake (sha384 hk.opn) r.data (s.ses i).store).1 = v → s.busyJob = true →
    ∃ t, exec (.openAck i) s = .next t ∧
      (v = none → (t.ses i).st = .opening ∧ (t.ses i).openReady = true ∧ (t.ses i).epoch = (s.ses i).epoch + 1 ∧
        t.sessCmd = s.sessCmd) ∧
      (v ≠ none → (t.ses i).st = .closed ∧ (t.ses i).keys = none)) ∧
  (∀ (s : State) (i n : Nat) (c : Instr), s.storesWf → (s.ses i).st = .opening → (s.ses i).openReady = false →
    s.sessCmd.busy = some i → (c = .openRefuse i ∧ (s.takeAnswer i 3).isSome = true ∧ n = 1) ∨ (c = .handshakeTimeout i ∧ n = 3) →
    ∃ t, exec c s = .next t ∧ (t.ses i).st = .closed ∧ (t.ses i).keys = none ∧ (t.ses i).epoch = (s.ses i).epoch ∧
      t.sessCmd = ⟨none, n⟩ ∧ (∀ j, j ≠ i → t.ses j = s.ses j) ∧ OnlyChanges [.regs, .sess, .shakes, .sessCmd, .host, .sent] s t)

/-- The life of a session (parts of R281, R282, R284, R357). CONTROL EPOCH and its acknowledgement advance the epoch: both counts
restart, the keys become those the session secret gives for the new epoch, and what was held or unacknowledged is gone; the previous
epoch stays for the grace period. A CLOSE is acknowledged and the session begins to close. A closing session with nothing
outstanding sends CLOSE and is CLOSED without keys in force, those of its last epoch kept for the grace period, at whose end they
are erased. A silent session keeps itself alive; one whose hold has run out is lost, and none of its requests is pending any more.
-/
def Obligations.SessionLife : Prop :=
  (∀ (s : State) (i : Nat) (f : Frame) (rest : List Frame) (k : List Byte × List Byte), s.storesWf → s.hasNext i f rest → f.op = 4 →
    s.isLive i = true → s.pendingOn i = false → (s.ses i).keys = some k →
    ∃ (t : State) (a : Frame), exec (.controlEpoch i) s = .next t ∧
      t.sent = s.sent ++ [.frame (s.ses i).port (s.ses i).half
        (s.ethOf (s.ses i).port (s.ses i).half (s.ses i).mac (a.seal k.1 (s.ses i).txNext 0))] ∧ a.op = 5 ∧
      (t.ses i).epoch = (s.ses i).epoch + 1 ∧ (t.ses i).keys = (t.ses i).keysAt (t.sesEpoch i) ∧ (t.ses i).expect = 0 ∧
      (t.ses i).txNext = 0 ∧ (t.ses i).unacked = [] ∧ (t.ses i).held = [] ∧ (t.ses i).inbox = [] ∧
      (t.ses i).prev.map (fun p => (p.epoch, p.until_)) = some (s.sesEpoch i, ringAdd s.now (s.f SAP_CONFIG_GRACE)) ∧
      OnlyChanges [.regs, .sess, .limbs, .stream, .sent] s t) ∧
  (∀ (s : State) (i : Nat) (f : Frame) (rest : List Frame), s.storesWf → s.hasNext i f rest → f.op = 5 → (s.ses i).epochSent = true →
    ∃ t, exec (.epochAck i) s = .next t ∧ (t.ses i).epoch = (s.ses i).epoch + 1 ∧ (t.ses i).epochSent = false ∧
      (t.ses i).keys = (t.ses i).keysAt (t.sesEpoch i) ∧ (t.ses i).expect = 0 ∧ (t.ses i).txNext = 0 ∧ (t.ses i).unacked = [] ∧
      (t.ses i).st = (s.ses i).st ∧ (∀ j, j ≠ i → t.ses j = s.ses j) ∧ OnlyChanges [.regs, .sess, .stream] s t) ∧
  (∀ (s : State) (i : Nat) (f : Frame) (rest : List Frame) (k : List Byte × List Byte), s.storesWf → s.hasNext i f rest → f.op = 6 →
    s.isOpen i = true → s.running = none → (s.ses i).keys = some k →
    ∃ (t : State) (a : Frame), exec (.controlClose i) s = .next t ∧
      .frame (s.ses i).port (s.ses i).half
        (s.ethOf (s.ses i).port (s.ses i).half (s.ses i).mac (a.seal k.1 (s.ses i).txNext 0)) ∈ t.sent ∧ a.op = 7 ∧
      (t.ses i).st = .closing ∧ (t.ses i).closeSince = s.now ∧ (∀ j, j ≠ i → t.ses j = s.ses j) ∧
      OnlyChanges [.regs, .sess, .host, .sent] s t) ∧
  (∀ (s : State) (i : Nat) (k : List Byte × List Byte), s.storesWf → (s.ses i).st = .closing → (s.ses i).unacked = [] →
    s.pendingOn i = false → (s.ses i).keys = some k →
    ∃ (t : State) (a : Frame), exec (.closingDone i) s = .next t ∧
      .frame (s.ses i).port (s.ses i).half
        (s.ethOf (s.ses i).port (s.ses i).half (s.ses i).mac (a.seal k.1 (s.ses i).txNext 0)) ∈ t.sent ∧ a.op = 6 ∧
      (t.ses i).st = .closed ∧ (t.ses i).keys = none ∧ (t.ses i).epoch = (s.ses i).epoch ∧
      (t.ses i).prev.map (fun p => (p.epoch, p.until_, p.rx)) =
        some (s.sesEpoch i, ringAdd s.now (s.f SAP_CONFIG_GRACE), k.2) ∧
      (∀ j, j ≠ i → t.ses j = s.ses j) ∧ OnlyChanges [.regs, .sess, .host, .sent] s t) ∧
  (∀ (s : State) (i : Nat), s.storesWf → s.isLive i = true → s.limbOn (limbOfPort (s.ses i).port) = true →
    ∃ (t : State) (f : Frame), exec (.keepalive i) s = .next t ∧ f.op = 9 ∧ t.ses i = { s.ses i with
        queue := (s.ses i).queue ++ [⟨0, f, none, none, false⟩] } ∧ OnlyChanges [.sess] s t) ∧
  (∀ (s : State) (i : Nat), s.storesWf → s.isLive i = true → s.ras.ringCount < 64 →
    ∃ t, exec (.holdExpiry i) s = .next t ∧ (t.ses i).st = .closed ∧ (t.ses i).keys = none ∧
      (∃ r ∈ t.ras.log, r.cls = .peer ∧ r.code = 3 ∧ r.src = .session i) ∧
      (∀ k, k < 12 → ∀ r ∈ (t.limb k).pending, r.session ≠ i) ∧ OnlyChanges (mayChange (.holdExpiry i)) s t) ∧
  (∀ (s : State) (i : Nat) (p : PrevEpoch), s.storesWf → (s.ses i).prev = some p → ringBefore s.now p.until_ = false →
    ∃ t, exec (.graceExpiry i) s = .next t ∧ t.ses i = { s.ses i with prev := none } ∧ OnlyChanges [.sess] s t)

/-- SAP_CONFIG takes a write that every rule allows whole; any other, and one while a job is running, sets CFG_REJECT and nothing else
(parts of R55, R58, R288). -/
def Obligations.SapConfig : Prop :=
  (∀ (s : State) (w : Word64), s.storesWf → s.busyJob = false → 1 ≤ SAP_CONFIG_TAGFAIL_LIMIT.of w → 1 ≤ SAP_CONFIG_HOLD.of w →
    SAP_CONFIG_HOLD.of w ≤ 1000 → 8 ≤ SAP_CONFIG_GRACE.of w → 1 ≤ SAP_CONFIG_ACK_DELAY.of w → SAP_CONFIG_ACK_DELAY.of w ≤ 100 →
    16 ≤ SAP_CONFIG_RX_WINDOW.of w → 1 ≤ SAP_CONFIG_RETX_LIMIT.of w → 5 ≤ SAP_CONFIG_RTO.of w →
    ∃ t, exec (.sapConfigWrite w) s = .next t ∧
      (∀ F ∈ [SAP_CONFIG_TAGFAIL_LIMIT, SAP_CONFIG_HOLD, SAP_CONFIG_GRACE, SAP_CONFIG_ACK_DELAY, SAP_CONFIG_RX_WINDOW,
        SAP_CONFIG_RETX_LIMIT, SAP_CONFIG_RTO], t.f F = F.of w) ∧
      FieldsKept [SAP_CONFIG_TAGFAIL_LIMIT, SAP_CONFIG_HOLD, SAP_CONFIG_GRACE, SAP_CONFIG_ACK_DELAY, SAP_CONFIG_RX_WINDOW,
        SAP_CONFIG_RETX_LIMIT, SAP_CONFIG_RTO] s t ∧ OnlyChanges [.regs] s t) ∧
  (∀ (s : State) (w : Word64), s.storesWf → s.busyJob = true ∨ SAP_CONFIG_TAGFAIL_LIMIT.of w = 0 ∨ SAP_CONFIG_HOLD.of w = 0 ∨
    1000 < SAP_CONFIG_HOLD.of w ∨ SAP_CONFIG_GRACE.of w < 8 ∨ SAP_CONFIG_ACK_DELAY.of w = 0 ∨ 100 < SAP_CONFIG_ACK_DELAY.of w ∨
    SAP_CONFIG_RX_WINDOW.of w < 16 ∨ SAP_CONFIG_RETX_LIMIT.of w = 0 ∨ SAP_CONFIG_RTO.of w < 5 →
    ∃ t, exec (.sapConfigWrite w) s = .next t ∧ t.f SAP_STATUS_CFG_REJECT = 1 ∧ FieldsKept [SAP_STATUS_CFG_REJECT] s t ∧
      OnlyChanges [.regs] s t)

/-! ## The stream unit -/

/-- Reading chunks (parts of R292, R293, R295, R296, R299, R364, R366, R368). A READ whose chunk the cache holds at the tree's
version pins the entry, sends 16 FILL messages of 16 beats, and is done; one that misses asks the chunk's session with a
STREAM_READ. A chunk that comes with the tree's version and a good tag enters the cache and its fills go; one that fails its version
or its tag is counted, not cached, and recorded. A message that is no request raises BAD_TARGET. An entry whose fills have gone is
unpinned. -/
def Obligations.ChunkReads : Prop :=
  (∀ (s : State) (tap base v : Nat) (u : NetUnit) (a : StreamFlit) (e : CacheEntry), s.storesWf → s.streamAsks tap u a →
    a.op = 1 → a.cls = 1 → a.chunks = 1 →
    s.labelBase a.label false = some base → s.chunkOk a.label base a.chunk = true →
    (s.mapped (limbOfTap tap) a.label a.chunk).isSome = true →
    (s.limb (limbOfTap tap)).pending = [] → s.journal.replaying = false → s.reenacts = false →
    s.version ((base + 4096 * a.chunk) / 4096) = .ok v → (s.limb (limbOfTap tap)).cache = [e] →
    e.addr = base + 4096 * a.chunk → e.version = v → e.data.length = 4096 →
    ∃ t us, exec (.streamRequest tap) s = .next t ∧ (t.limb (limbOfTap tap)).cache = [{ e with pins := e.pins + 1 }] ∧
      (t.limb (limbOfTap tap)).pending = [] ∧ (t.tap tap).toCellV = (s.tap tap).toCellV ++ us ∧ us.length = 272 ∧
      (∀ n ∈ us, n.poison = false ∧ n.route = a.route) ∧
      t.f (STREAM_CNT_COUNT 1) = (s.f (STREAM_CNT_COUNT 1) + 1) % 2 ^ (STREAM_CNT_COUNT 1).width ∧
      FieldsKept [STREAM_CNT_COUNT 1] s t ∧ OnlyChanges [.regs, .taps, .limbs] s t) ∧
  (∀ (s : State) (tap base v j : Nat) (u : NetUnit) (a : StreamFlit), s.storesWf → s.streamAsks tap u a →
    a.op = 1 → a.cls = 1 → a.chunks = 1 →
    s.labelBase a.label false = some base → s.chunkOk a.label base a.chunk = true →
    s.mapped (limbOfTap tap) a.label a.chunk = some j →
    (s.limb (limbOfTap tap)).pending = [] → s.journal.replaying = false → s.reenacts = false →
    s.version ((base + 4096 * a.chunk) / 4096) = .ok v → (s.limb (limbOfTap tap)).cache = [] →
    (s.limb (limbOfTap tap)).missRoom = true → sget 0 s.tree.pendingVer ((base + 4096 * a.chunk) / 4096) = 0 →
    s.power.memShed < 4 →
    ∃ t r q, exec (.streamRequest tap) s = .next t ∧ (t.limb (limbOfTap tap)).pending = [r, q] ∧ r.kind = .stream ∧ r.chunks = [.asked] ∧
      r.addr = base + 4096 * a.chunk ∧ r.window = a.window ∧ r.x = a.x ∧
      r.y = a.y ∧ q.kind = .streamRead ∧ q.parent = r.tag ∧ q.session = j ∧ q.addr = r.addr ∧ q.count = 1 ∧
      q.frame.typ = 4 ∧ q.frame.fields = streamFields r.addr 1 ∧
      (t.ses j).queue = (s.ses j).queue ++ [⟨0, q.frame, none, some (limbOfTap tap, q.tag), false⟩] ∧
      OnlyChanges [.taps, .sess, .limbs] s t) ∧
  (∀ (s : State) (tap : Nat) (u d : NetUnit), s.storesWf → (s.tap tap).func = 1 → s.tapEnabled tap = true →
    s.limbOn (limbOfTap tap) = true → firstMessage (s.tap tap).bufV = some [u, d] → (vHead u.data).kind ≠ 2 →
    (vHead u.data).kind ≠ 0 ∨ (streamFlit d.data).ok = false ∨
      ((streamFlit d.data).op = 1 ∧ s.labelBase (streamFlit d.data).label false = none) → s.ras.ringCount < 64 →
    ∃ t, exec (.streamRequest tap) s = .next t ∧ (∃ r ∈ t.ras.log, r.cls = .peer ∧ r.code = 5 ∧ r.src = .tap tap) ∧
      (t.tap tap).bufV = (s.tap tap).bufV.drop 2 ∧ OnlyChanges (mayChange (.streamRequest tap)) s t) ∧
  (∀ (s : State) (i k v : Nat) (f : Frame) (rest : List Frame) (r q : PendReq) (plain : List Byte), s.storesWf → s.noInjection →
    s.hasNext i f rest → f.typ = 5 → rd f.fields 0 8 = r.addr → rd f.fields 8 8 = v → r.addr < 2 ^ 51 → k < 12 →
    (s.limb k).pending = [r, q] → (∀ j, j < 12 → j ≠ k → (s.limb j).pending = []) → r.kind = .stream → r.chunks = [.asked] → r.done = 0 →
    q.kind = .streamRead → q.tag ≠ r.tag → q.parent = r.tag → q.session = i → q.seq.isSome = true → q.addr = r.addr → q.done = 0 →
    q.count = 1 → s.version (r.addr / 4096) = .ok v → (s.tap r.tap).func = 1 →
    gcmOpen (s.chunkKey q.label v) (chunkNonce r.addr v) (chunkAad r.addr v) f.data (cut f.fields 16 16) = some plain →
    ∃ t us, exec (.streamDataReceive i) s = .next t ∧ (t.limb k).pending = [] ∧
      (∃ e ∈ (t.limb k).cache, e.addr = r.addr ∧ e.version = v ∧ e.pins = 1 ∧ e.data = padTo 4096 (plain.take 4096)) ∧ (t.tap r.tap).toCellV = (s.tap r.tap).toCellV ++ us ∧
      us.length = 272 ∧ (∀ n ∈ us, n.poison = false) ∧ (t.ses i).inbox = rest ∧
      OnlyChanges (mayChange (.streamDataReceive i)) s t) ∧
  (∀ (s : State) (i k v w : Nat) (f : Frame) (rest : List Frame) (r q : PendReq), s.storesWf → s.noInjection →
    s.hasNext i f rest → f.typ = 5 → rd f.fields 0 8 = r.addr → rd f.fields 8 8 = w → r.addr < 2 ^ 51 → k < 12 →
    (s.limb k).pending = [r, q] → (∀ j, j < 12 → j ≠ k → (s.limb j).pending = []) → r.kind = .stream → r.chunks = [.asked] → r.done = 0 →
    q.kind = .streamRead → q.tag ≠ r.tag → q.parent = r.tag → q.session = i → q.seq.isSome = true → q.addr = r.addr → q.done = 0 →
    q.count = 1 → s.version (r.addr / 4096) = .ok v → (s.tap r.tap).func = 1 →
    w ≠ v ∨ gcmOpen (s.chunkKey q.label v) (chunkNonce r.addr v) (chunkAad r.addr v) f.data (cut f.fields 16 16) = none →
    s.ras.ringCount < 64 →
    ∃ t us, exec (.streamDataReceive i) s = .next t ∧ (t.limb k).cache = (s.limb k).cache ∧
      (t.tap r.tap).toCellV = (s.tap r.tap).toCellV ++ us ∧ us.length = 272 ∧ (∀ n ∈ us, n.head = false → n.poison = true) ∧
      (∃ x ∈ t.ras.log, x.cls = .security ∧ x.code = (if w ≠ v then 7 else 6) ∧ x.src = .session i)) ∧
  (∀ (s : State) (i : Nat) (f : Frame) (rest : List Frame), s.storesWf → s.hasNext i f rest → f.typ = 5 →
    s.pendingOn i = false →
    ∃ t, exec (.streamDataReceive i) s = .next t ∧ t.limbs = s.limbs ∧ t.taps = s.taps ∧
      t.f (SAP_CNT_COUNT 13) = (s.f (SAP_CNT_COUNT 13) + 1) % 2 ^ (SAP_CNT_COUNT 13).width ∧ FieldsKept [SAP_CNT_COUNT 13] s t ∧
      OnlyChanges [.regs, .sess] s t) ∧
  (∀ (s : State) (k a : Nat) (e : CacheEntry), s.storesWf → k < 12 → s.limbOn k = true →
    (s.limb k).cache.find? (fun e => e.addr == a && decide (s.pinsHeld k e < e.pins)) = some e →
    (∀ j, j < 12 → ∀ r ∈ (s.limb j).pending, r.kind = .stream → r.chunks.contains .idle = false) →
    ∃ t, exec (.cacheUnpin k a) s = .next t ∧ (t.limb k).cache = (s.limb k).cache.map (fun c =>
        if c.addr = e.addr ∧ c.version = e.version then { c with pins := c.pins - 1 } else c) ∧
      (t.limb k).pending = (s.limb k).pending ∧ OnlyChanges [.limbs] s t)

/-- Writing chunks (parts of R254, R255, R294, R296, R297, R298, R300, R308, R369). A WRITE outside an UPDATE phase is discarded and
counted. In one, the source is read with 16 READ_REQs; with the data back one STREAM_WRITE goes out under the chunk's next version,
which is pending in the tree and stands in the cache, pinned. An unreadable source raises PEER/REFUSED. A served write is
acknowledged, a served open noted. Once the data writes are sent every dirty tree chunk is written; once all are acknowledged the
versions enter the tree and PROMOTE goes to the sessions. -/
def Obligations.ChunkWrites : Prop :=
  (∀ (s : State) (tap base : Nat) (u : NetUnit) (a : StreamFlit), s.storesWf → s.streamAsks tap u a →
    a.op = 2 → s.labelBase a.label true = some base →
    s.chunkOk a.label base a.chunk = true →
    (s.mapped (limbOfTap tap) a.label a.chunk).isSome = true → s.mutOk = false →
    ∃ t, exec (.streamRequest tap) s = .next t ∧ (t.tap tap).bufV = (s.tap tap).bufV.drop 2 ∧
      t.f (JOB_CNT_COUNT 10) = (s.f (JOB_CNT_COUNT 10) + 1) % 2 ^ (JOB_CNT_COUNT 10).width ∧ FieldsKept [JOB_CNT_COUNT 10] s t ∧
      OnlyChanges [.regs, .taps] s t) ∧
  (∀ (s : State) (tap base i g : Nat) (u : NetUnit) (a : StreamFlit), s.storesWf → s.streamAsks tap u a →
    a.op = 2 → s.labelBase a.label true = some base →
    s.chunkOk a.label base a.chunk = true →
    s.mapped (limbOfTap tap) a.label a.chunk = some i → s.mutOk = true →
    s.suppressed = false → s.hostBase a.label = none → (s.limb (limbOfTap tap)).freeTag = some g →
    ∃ t r us, exec (.streamRequest tap) s = .next t ∧ (t.limb (limbOfTap tap)).pending = (s.limb (limbOfTap tap)).pending ++ [r] ∧
      r.kind = .gather ∧ r.tag = g ∧ r.session = i ∧ r.count = 16 ∧ r.done = 0 ∧ r.addr = base + 4096 * a.chunk ∧
      (t.tap tap).toCellS = (s.tap tap).toCellS ++ us ∧ us.length = 64 ∧ OnlyChanges [.taps, .limbs] s t) ∧
  (∀ (s : State) (k v : Nat) (r : PendReq), s.storesWf → k < 12 → s.limbOn k = true → r.session ≠ 1024 → (s.limb k).pending = [r] → r.kind = .gather → r.count ≤ r.done →
    (s.tap r.tap).bufV = [] → r.frame.nak = false → r.cls ≠ 0 → s.version (r.addr / 4096) = .ok v → v + 1 < 2 ^ 56 →
    ∃ t q, exec (.streamWrite k) s = .next t ∧ (t.limb k).pending = [q] ∧ q.kind = .streamWrite ∧ q.addr = r.addr ∧ q.session = r.session ∧
      q.frame.typ = 6 ∧ t.stream.writes = s.stream.writes ++ [⟨0, k, r.session, r.addr, v + 1, r.due, false⟩] ∧
      t.stream.treeSent = false ∧ t.tree = { s.tree with pendingVer := sset 0 s.tree.pendingVer (r.addr / 4096) (v + 1) } ∧
      (t.limb k).cache.getLast? = some ⟨r.addr, v + 1, 1, r.frame.data⟩ ∧
      (t.ses r.session).queue = (s.ses r.session).queue ++ [⟨0, q.frame, r.due, some (k, q.tag), false⟩] ∧
      OnlyChanges [.regs, .tree, .sess, .limbs, .stream, .host, .sent] s t) ∧
  (∀ (s : State) (k : Nat) (r : PendReq), s.storesWf → k < 12 → s.limbOn k = true → (s.limb k).pending = [r] → r.kind = .gather → r.count ≤ r.done →
    (s.tap r.tap).bufV = [] → r.frame.nak = true → s.ras.ringCount < 64 →
    ∃ t, exec (.streamWrite k) s = .next t ∧ (t.limb k).pending = [] ∧ (∀ w ∈ t.stream.writes, w ∈ s.stream.writes) ∧
      (∃ x ∈ t.ras.log, x.cls = .peer ∧ x.code = 6 ∧ x.src = .session r.session)) ∧
  (∀ (s : State) (i k : Nat) (f : Frame) (rest : List Frame) (r : PendReq), s.storesWf → s.hasNext i f rest → f.resp = true →
    f.typ = 3 → s.findReq i (rd f.fields 4 4) = some (k, r) → rd f.fields 0 1 = 0 → r.kind = .streamOpen →
    ∃ t, exec (.streamResponse i) s = .next t ∧ t.stream = { s.stream with
        opens := s.stream.opens.map (fun o => if o.1 = i ∧ o.2.1 = r.label then (o.1, o.2.1, true) else o) } ∧
      (t.limb k).pending = (s.limb k).pending.filter (fun q => q.tag != r.tag) ∧ OnlyChanges [.sess, .limbs, .stream] s t) ∧
  (∀ (s : State) (i k : Nat) (f : Frame) (rest : List Frame) (r : PendReq) (w : StoreWrite), s.storesWf → s.hasNext i f rest →
    f.resp = true → f.typ = 6 → s.findReq i (rd f.fields 4 4) = some (k, r) → rd f.fields 0 1 = 0 → r.kind = .streamWrite →
    s.stream.writes.find? (fun w => w.session == r.session && w.addr == r.addr && ! w.acked) = some w → w.group = 0 →
    (∀ j, j < 12 → ∀ q ∈ (s.limb j).pending, q.kind = .stream → q.chunks.contains .idle = false) →
    ∃ t, exec (.streamResponse i) s = .next t ∧ t.stream.writes = s.stream.writes.map (fun v =>
        if v.session = r.session ∧ v.addr = r.addr then { v with acked := true } else v) ∧
      (t.limb k).pending = (s.limb k).pending.filter (fun q => q.tag != r.tag) ∧ t.tree = s.tree ∧
      t.f (STREAM_CNT_COUNT 2) = (s.f (STREAM_CNT_COUNT 2) + 1) % 2 ^ (STREAM_CNT_COUNT 2).width ∧
      FieldsKept [STREAM_CNT_COUNT 2] s t ∧ OnlyChanges [.regs, .sess, .limbs, .stream] s t) ∧
  (∀ s : State, s.storesWf → s.noInjection → (∃ w ∈ s.stream.writes, w.group = 0) → s.allSent = true → s.stream.treeSent = false →
    s.f BARK_TREE_CFG_WIDTH ≠ 0 → (∀ n, n < s.f BARK_TREE_CFG_WIDTH → s.isOpen (s.f BARK_TREE_CFG_FIRST + n) = true) →
    ∃ t, exec .treeWrite s = .next t ∧ t.stream.treeSent = true ∧ (∀ w ∈ s.stream.writes, w.addr < 2 ^ 51 → w ∈ t.stream.writes) ∧
      (∀ w ∈ t.stream.writes, w.group = 0 → 2 ^ 51 ≤ w.addr → w.acked = false ∧
        ∃ p ∈ dirtyNodes s.treeDepth (s.groupChunks 0), w.addr = treeAddr (treeChunk s.extent p.1 p.2)) ∧ t.tree = s.tree ∧
      OnlyChanges (mayChange .treeWrite) s t) ∧
  (∀ s : State, s.storesWf → s.groupAcked 0 = true → s.stream.treeSent = true → s.allSent = true → s.mutOk = false →
    (∀ j, j < 12 → ∀ q ∈ (s.limb j).pending, q.kind = .stream → q.chunks.contains .idle = false) →
    ∃ t, exec .rootAdvance s = .next t ∧ t.tree = { s.tree.install s.treeDepth (s.groupChunks 0) with
        pendingVer := skeep (fun c => ! (s.groupChunks 0).contains c) s.tree.pendingVer } ∧
      t.stream.writes = s.stream.writes.filter (fun w => w.group != 0) ∧ t.stream.treeSent = false ∧
      (∀ w ∈ s.stream.writes, w.group = 0 → ∃ q ∈ (t.ses w.session).queue, q.frame = syncFrame 3 (s.syncMark 0).1 (s.syncMark 0).2.1 (s.syncMark 0).2.2) ∧
      OnlyChanges [.regs, .tree, .sess, .limbs, .stream, .host, .sent] s t) ∧
  (∀ s : State, s.groupAcked 0 = false ∨ s.stream.treeSent = false → exec .rootAdvance s = .next s)

/-- Deferred requests, checkpoints and the stream registers (parts of R259, R304, R308, R312, R367). A request whose ring has come
goes out again. A checkpoint sends its data chunks, then, all acknowledged, its header; one whose region no map reaches is abandoned
and counted. A flush drops every unpinned cache entry. A write of the extent makes the tree invalid, and is rejected while a job is
running or a store session is OPEN. -/
def Obligations.StreamUpkeep : Prop :=
  (∀ (s : State) (k tag d : Nat) (r : PendReq), s.storesWf → s.limbOn k = true → (s.limb k).pending.find? (fun r => r.tag == tag) = some r →
    r.reissue = some d → ringBefore s.now d = false →
    ∃ t, exec (.deferredReissue k tag) s = .next t ∧ (t.limb k).pending = (s.limb k).pending.map (fun q =>
        if q.tag = tag then { r with reissue := none, seq := none } else q) ∧
      (t.ses r.session).queue = (s.ses r.session).queue ++ [⟨0, r.frame, r.due, some (k, tag), false⟩] ∧
      OnlyChanges [.sess, .limbs] s t) ∧
  (∀ (s : State) (c : Ckpt), s.storesWf → s.job.ckpt = some c → c.dataSent = false → s.power.memShed < 3 →
    (∀ n, n ≤ s.ckptChunks false → ∃ l, l < 12 ∧ (s.mapped l c.label (c.half * (s.ckptChunks false + 1) + n)).isSome = true) →
    (∀ n, n ≤ s.ckptChunks false → s.versionSpent (c.base / 4096 + (c.half * (s.ckptChunks false + 1) + n)) = false) →
    ∃ t b, exec .checkpointWrite s = .next t ∧ t.job.ckpt = some { c with dataSent := b } ∧ t.job.valid0 = s.job.valid0 ∧
      t.job.valid1 = s.job.valid1 ∧ (b = true ↔ ∀ n, n < s.ckptChunks false →
        ∃ w ∈ t.stream.writes, w.group = 1 ∧ w.addr = c.base + 4096 * (c.half * (s.ckptChunks false + 1) + n)) ∧
      OnlyChanges (mayChange .checkpointWrite) s t) ∧
  (∀ (s : State) (c : Ckpt), s.storesWf → s.job.ckpt = some c → c.dataSent = true → c.headerSent = false →
    (∀ w ∈ s.stream.writes, w.group = 1 → w.acked = true) →
    (∀ n, n ≤ s.ckptChunks false → ∃ l, l < 12 ∧ (s.mapped l c.label (c.half * (s.ckptChunks false + 1) + n)).isSome = true) →
    (∀ n, n ≤ s.ckptChunks false → s.versionSpent (c.base / 4096 + (c.half * (s.ckptChunks false + 1) + n)) = false) →
    ∃ t b, exec .checkpointWrite s = .next t ∧ t.job.ckpt = some { c with headerSent := b } ∧ t.job.valid0 = s.job.valid0 ∧
      t.job.valid1 = s.job.valid1 ∧ (b = true → ∃ w ∈ t.stream.writes, w.group = 1 ∧
        w.addr = c.base + 4096 * (c.half * (s.ckptChunks false + 1) + s.ckptChunks false)) ∧
      OnlyChanges (mayChange .checkpointWrite) s t) ∧
  (∀ (s : State) (c : Ckpt) (n : Nat), s.storesWf → s.job.ckpt = some c → n ≤ s.ckptChunks false →
    (∀ l, l < 12 → s.mapped l c.label (c.half * (s.ckptChunks false + 1) + n) = none) → s.ras.ringCount < 64 →
    ∃ t, exec .checkpointWrite s = .next t ∧ t.job.ckpt = none ∧ t.job.valid0 = s.job.valid0 ∧ t.job.valid1 = s.job.valid1 ∧
      (∀ w ∈ t.stream.writes, w.group ≠ 1) ∧ (∃ r ∈ t.ras.log, r.cls = .peer ∧ r.code = 5 ∧ r.src = .engine)) ∧
  (∀ s : State, s.storesWf → s.busyJob = false →
    ∃ t, exec .streamFlush s = .next t ∧ (∀ k, (t.limb k).cache = (s.limb k).cache.filter (fun e => e.pins != 0) ∧
      (t.limb k).pending = (s.limb k).pending ∧ (t.limb k).stagedMib = (s.limb k).stagedMib) ∧ OnlyChanges [.limbs] s t) ∧
  (∀ s : State, s.busyJob = true → exec .streamFlush s = .next s) ∧
  (∀ (s : State) (w : Word64), s.storesWf → s.busyJob = false → s.openSessions true = [] → STREAM_EXTENT_CHUNKS.of w ≤ 23437500000 →
    ∃ t, exec (.streamExtentWrite w) s = .next t ∧ t.f STREAM_EXTENT_CHUNKS = STREAM_EXTENT_CHUNKS.of w ∧ t.tree = Tree.reset ∧
      FieldsKept [STREAM_EXTENT_CHUNKS] s t ∧ OnlyChanges [.regs, .tree] s t) ∧
  (∀ (s : State) (w : Word64), s.storesWf → s.busyJob = true ∨ 23437500000 < STREAM_EXTENT_CHUNKS.of w →
    ∃ t, exec (.streamExtentWrite w) s = .next t ∧ t.f STREAM_STATUS_CFG_REJECT = 1 ∧ t.tree = s.tree ∧
      FieldsKept [STREAM_STATUS_CFG_REJECT, ID_INT_CAUSE_CAUSE, ID_HOST_CNT_COUNT 7] s t ∧ OnlyChanges [.regs, .host, .sent] s t)

/-! ## Host port, registers, management port -/

/-- The host port (parts of R32, R316 to R322, R325, R327). A HOSTPORT reset advances the epoch, ends bus mastering and the host
session, and only a function level reset leaves the link up; a graft being staged fails. The link trains at a rate and width of
Table 11.1, but not while PERST_N is low (R32). With bus mastering allowed held messages leave. D3cold takes the domain's power away
and the return from it is a reset. A failed Secure stream is recorded and resets the port. A read that times out is counted and
shown as POST_ERR; an access that is not executed sets ACCESS_ERR. -/
def Obligations.HostLink : Prop :=
  (∀ (s : State) (c : HostReset), s.storesWf → s.hostPowered = true → s.graft.load ≠ .staging →
    ∃ t, exec (.hostportReset c) s = .next t ∧ t.host.epoch = (s.host.epoch + 1) % 65536 ∧ t.host.bme = false ∧
      t.host.dstate = 0 ∧ t.host.ideSecure = false ∧ t.host.spdm = false ∧ t.host.msix = [] ∧ t.host.pba = 0 ∧
      t.host.up = (s.host.up && decide (c = .flr)) ∧ t.host.perstLow = (s.host.perstLow || decide (c = .perst)) ∧
      t.bark = { s.bark with host := none, tags := [] } ∧ FieldsKept [ID_HOST_CNT_COUNT 0] s t ∧
      OnlyChanges [.regs, .host, .bark] s t) ∧
  (∀ (s : State) (c : HostReset), s.hostPowered = true → s.graft.load = .staging →
    ∃ t, exec (.hostportReset c) s = .next t ∧ t.graft.load = .failed ∧ t.graft.active = s.graft.active) ∧
  (∀ (s : State) (speed width : Nat), s.hostPowered = true → s.host.up = false → 1 ≤ speed → speed ≤ 7 → width ∈ [1, 2, 4, 8, 16] →
    s.host.clkMode = 0 →
    ∃ t, exec (.hostportUp speed width false) s = .next t ∧
      t.host = { s.host with up := true, speed := speed, width := width, perstLow := false } ∧ OnlyChanges [.host] s t) ∧
  (∀ (s : State) (speed width : Nat),
    exec (.hostportUp speed width true) s = .next { s with host := { s.host with perstLow := true } }) ∧
  (∀ s : State, s.host.up = true → s.host.pba = 0 →
    ∃ t, exec (.busMasterEnable true) s = .next t ∧ t.host = { s.host with bme := true } ∧ OnlyChanges [.host] s t) ∧
  (∀ (s : State) (v : Nat), s.host.up = true → v < 32 → s.host.pba = 2 ^ v → s.vecMasked v = false →
    ∃ t, exec (.busMasterEnable true) s = .next t ∧ t.host = { s.host with bme := true, pba := 0 } ∧ t.sent = s.sent ++ [.msix v] ∧
      OnlyChanges [.regs, .host, .sent] s t) ∧
  (∀ s : State, s.host.up = true → s.host.cold = false →
    ∃ t, exec (.dstateChange .d3hot) s = .next t ∧ t.host = { s.host with dstate := 3 } ∧ OnlyChanges [.host] s t) ∧
  (∀ s : State, s.hostPowered = true →
    ∃ t, exec (.dstateChange .d3cold) s = .next t ∧ t.host.cold = true ∧ t.host.up = false ∧ t.host.bme = false ∧ t.host.dstate = 3 ∧
      OnlyChanges [.host] s t) ∧
  (∀ s : State, s.host.cold = true → s.graft.load ≠ .staging →
    ∃ t, exec (.dstateChange .d0) s = .next t ∧ t.host.cold = false ∧ t.host.dstate = 0 ∧ t.host.epoch = (s.host.epoch + 1) % 65536 ∧
      OnlyChanges [.regs, .host, .bark] s t) ∧
  (∀ s : State, s.host.up = true → s.host.ideSecure = true → s.graft.load ≠ .staging → s.ras.ringCount < 64 →
    ∃ t, exec .ideFail s = .next t ∧ (∃ r ∈ t.ras.log, r.cls = .security ∧ r.code = 0xD ∧ r.src = .hostPort) ∧
      t.host.ideSecure = false ∧ t.host.up = false ∧ t.host.epoch = (s.host.epoch + 1) % 65536) ∧
  (∀ (s : State) (b : Bool), s.host.up = true →
    ∃ t, exec (.ideKmRequest b) s = .next t ∧ t.host = { s.host with spdm := true, ideSecure := b } ∧ t.sent = s.sent ++ [.doe] ∧
      OnlyChanges [.host, .sent] s t) ∧
  (∀ s : State, s.storesWf → s.f JOB_CTRL_ENABLE = 1 →
    ∃ t, exec (.completionTimeout .post) s = .next t ∧ t.f JOB_STATUS_POST_ERR = 1 ∧
      FieldsKept [JOB_STATUS_POST_ERR, ID_HOST_CNT_COUNT 2, ID_INT_CAUSE_CAUSE, ID_HOST_CNT_COUNT 7] s t ∧
      OnlyChanges [.regs, .host, .sent] s t) ∧
  (∀ s : State, s.graft.load = .staging →
    ∃ t, exec (.completionTimeout .graft) s = .next t ∧ t.graft.load = .failed ∧ t.graft.active = s.graft.active) ∧
  (∀ s : State, s.storesWf →
    ∃ t, exec .bar0BadAccess s = .next t ∧ t.f ID_HOST_STATUS_ACCESS_ERR = 1 ∧
      t.f (ID_HOST_CNT_COUNT 6) = (s.f (ID_HOST_CNT_COUNT 6) + 1) % 2 ^ (ID_HOST_CNT_COUNT 6).width ∧
      FieldsKept [ID_HOST_STATUS_ACCESS_ERR, ID_HOST_CNT_COUNT 6] s t ∧ OnlyChanges [.regs] s t)

/-- Register writes and interrupts (parts of R10, R55, R58, R321, R325, R354). A RW field takes what its rules allow; a value out of
range leaves it and sets CFG_REJECT; a W1C bit clears where the word holds 1; a field that a running job, ENABLE or the seal fixes
stays, a sealed one counted; a read-only register ignores the write. Mailbox bytes read back. A cause is cleared where the word
holds 1. A cause that stands when it is enabled sends its message, or holds it while nothing may leave. -/
def Obligations.RegisterWrites : Prop :=
  (∀ (s : State) (w : Word64), s.storesWf → 240 ≤ PWR_CAP_ENGINE_CAP.of w → PWR_CAP_ENGINE_CAP.of w ≤ 920 →
    ∃ t, exec (.registerWrite 0x30010 w) s = .next t ∧ t.f PWR_CAP_ENGINE_CAP = PWR_CAP_ENGINE_CAP.of w ∧
      FieldsKept [PWR_CAP_ENGINE_CAP] s t ∧ OnlyChanges [.regs] s t) ∧
  (∀ (s : State) (w : Word64), s.storesWf → PWR_CAP_ENGINE_CAP.of w < 240 ∨ 920 < PWR_CAP_ENGINE_CAP.of w →
    ∃ t, exec (.registerWrite 0x30010 w) s = .next t ∧ t.f PWR_STATUS_CFG_REJECT = 1 ∧ FieldsKept [PWR_STATUS_CFG_REJECT] s t ∧
      OnlyChanges [.regs] s t) ∧
  (∀ (s : State) (w : Word64), s.storesWf →
    ∃ t, exec (.registerWrite 0x50020 w) s = .next t ∧
      (∀ F ∈ [JOB_STATUS_BAD_DESC, JOB_STATUS_POST_ERR], t.f F = if F.of w = 1 then 0 else s.f F) ∧
      FieldsKept [JOB_STATUS_BAD_DESC, JOB_STATUS_POST_ERR] s t ∧ OnlyChanges [.regs] s t) ∧
  (∀ (s : State) (w : Word64), s.f JOB_CTRL_ENABLE = 1 → exec (.registerWrite 0x50008 w) s = .next s) ∧
  (∀ (s : State) (w : Word64), s.busyJob = true → exec (.registerWrite 0x10000 w) s = .next s ∧
    exec (.registerWrite 0x10048 w) s = .next s ∧ exec (.registerWrite 0x70000 w) s = .next s) ∧
  (∀ (s : State) (w : Word64), s.storesWf → s.bark.sealed = true →
    ∃ t, exec (.registerWrite 0xC0040 w) s = .next t ∧ FieldsKept [BARK_CNT_COUNT 9] s t ∧
      t.f (BARK_CNT_COUNT 9) = (s.f (BARK_CNT_COUNT 9) + 1) % 2 ^ (BARK_CNT_COUNT 9).width ∧ OnlyChanges [.regs] s t) ∧
  (∀ (s : State) (w : Word64), s.storesWf → s.bark.sealed = false →
    ∃ t, exec (.registerWrite 0xC0040 w) s = .next t ∧
      t.f BARK_POLICY_ACCEPT_DEBUG_PEERS = BARK_POLICY_ACCEPT_DEBUG_PEERS.of w ∧
      t.f BARK_POLICY_GRANTS_ALLOWED = BARK_POLICY_GRANTS_ALLOWED.of w ∧
      FieldsKept [BARK_POLICY_ACCEPT_DEBUG_PEERS, BARK_POLICY_GRANTS_ALLOWED] s t ∧ OnlyChanges [.regs] s t) ∧
  (∀ (s : State) (a : Nat) (w : Word64), s.barkBusy = false → s.bark.mbox.wf = true → a < 2048 →
    ∃ t, exec (.registerWrite (0xC8000 + 8 * a) w) s = .next t ∧
      (∀ i, i < 8 → t.bark.mbox.read (8 * a + i) = (leBytes 8 w.toNat).getD i 0) ∧
      (∀ b, b < 8 * a ∨ 8 * a + 8 ≤ b → t.bark.mbox.read b = s.bark.mbox.read b) ∧ t.bark = { s.bark with mbox := t.bark.mbox } ∧
      OnlyChanges [.bark] s t) ∧
  (∀ (s : State) (w : Word64), ∀ a ∈ [0x0, 0x8, 0x10018, 0x50010, 0x60020, 0xC0000, 0xE0008],
    exec (.registerWrite a w) s = .next s) ∧
  (∀ (s : State) (w : Word64), s.storesWf →
    ∃ t, exec (.intCauseClear w) s = .next t ∧
      (∀ v, v < 17 → (t.f ID_INT_CAUSE_CAUSE).testBit v = ((s.f ID_INT_CAUSE_CAUSE).testBit v && ! w.getLsbD v)) ∧
      FieldsKept [ID_INT_CAUSE_CAUSE] s t ∧ OnlyChanges [.regs] s t) ∧
  (∀ (s : State) (w : Word64), s.storesWf →
    ∃ t, exec (.intEnableWrite w) s = .next t ∧ t.f ID_INT_ENABLE_ENABLE = ID_INT_ENABLE_ENABLE.of w ∧
      (∀ v, v < 17 → w.getLsbD v = true → (s.f ID_INT_ENABLE_ENABLE).testBit v = false → (s.f ID_INT_CAUSE_CAUSE).testBit v = true →
        if s.vecReady v then .msix v ∈ t.sent else t.host.pba.testBit v = true) ∧
      FieldsKept [ID_INT_ENABLE_ENABLE, ID_HOST_CNT_COUNT 7] s t ∧ OnlyChanges [.regs, .host, .sent] s t)

/-- Answers of the management port (parts of R328 to R330, Tables 11.5 and 11.6). On standby power it assigns a dynamic address and
answers GET_ID and GET_STATUS; once Trunk runs also GET_ENV and one of the 16 newest records, an index with none being INVALID. A
command that needs Trunk is refused as not ready before it runs. An answer replaces the one before and changes nothing else but the
registers that show it. -/
def Obligations.ManagementAnswers : Prop :=
  (∀ (s : State) (a : Nat), s.storesWf → s.modl.standby = true → a < 128 →
    ∃ t, exec (.dynamicAddress a) s = .next t ∧ t.mgmt = { s.mgmt with dyn := some a } ∧ t.f ID_MGMT_I3C = 1 ∧
      t.f ID_MGMT_DYN_ADDR = a ∧ FieldsKept [ID_MGMT_I3C, ID_MGMT_DYN_ADDR] s t ∧ OnlyChanges [.regs, .mgmt] s t) ∧
  (∀ s : State, s.storesWf → s.modl.standby = true → s.boot.handover = false →
    ∃ t, exec .getId s = .next t ∧ t.mgmt = { s.mgmt with status := 0, data := s.idBytes } ∧ t.f ID_MGMT_LAST_CMD = 1 ∧
      t.f ID_MGMT_LAST_STATUS = 0 ∧ FieldsKept [ID_MGMT_LAST_CMD, ID_MGMT_LAST_STATUS, ID_HOST_CNT_COUNT 8] s t ∧
      OnlyChanges [.regs, .mgmt] s t) ∧
  (∀ s : State, s.storesWf → s.modl.standby = true → s.boot.handover = false →
    ∃ t, exec .getStatus s = .next t ∧ t.mgmt = { s.mgmt with status := 0, data := s.statusBytes } ∧ t.f ID_MGMT_LAST_CMD = 2 ∧
      FieldsKept [ID_MGMT_LAST_CMD, ID_MGMT_LAST_STATUS, ID_HOST_CNT_COUNT 8] s t ∧ OnlyChanges [.regs, .mgmt] s t) ∧
  (∀ s : State, s.modl.standby = true → s.boot.handover = false → s.boot.trunk = true →
    ∃ t n, exec .getEnv s = .next t ∧ t.mgmt = { s.mgmt with status := 0, data := s.envBytes n } ∧
      OnlyChanges [.regs, .mgmt, .free] s t) ∧
  (∀ (s : State) (i : Nat) (r : FaultRec), s.modl.standby = true → s.boot.handover = false → s.boot.trunk = true → i < 16 →
    s.ras.log[i]? = some r →
    ∃ t, exec (.getFault i) s = .next t ∧ t.mgmt = { s.mgmt with status := 0, data := r.bytes } ∧ OnlyChanges [.regs, .mgmt] s t) ∧
  (∀ (s : State) (i : Nat), s.modl.standby = true → s.boot.handover = false → s.boot.trunk = true → s.ras.log.length ≤ i ∨ 16 ≤ i →
    ∃ t, exec (.getFault i) s = .next t ∧ t.mgmt = { s.mgmt with status := 2, data := [] } ∧ OnlyChanges [.regs, .mgmt] s t) ∧
  (∀ s : State, s.storesWf → s.modl.standby = true → s.boot.handover = false → s.boot.trunk = false →
    ∀ p ∈ [(Instr.getEnv, 3), (.clearLoss, 0x14), (.setCap 240, 0x11), (.setPower 0, 0x10)],
      ∃ t, exec p.1 s = .next t ∧ t.mgmt = { s.mgmt with status := 3, data := [1] } ∧ t.f ID_MGMT_LAST_CMD = p.2 ∧
        OnlyChanges [.regs, .mgmt] s t)

/-- Orders of the management port (R455 whole; parts of R332, R333, R335, R454 and Table 11.5). It requests a power state, sets its
cap, registers an abort with REASON 3, and resets the engine or the host port. CLEAR_LOSS clears CLK_SRC.LOSS. Recovery is latched
for the next boot; bytes go into the 16 MiB buffer and nowhere else; an image that does not verify, or of a kind that the mode does
not accept, is refused and flash stays. 100 ms after a commit in recovery the engine resets with the latch cleared. -/
def Obligations.ManagementOrders : Prop :=
  (∀ s : State, s.modl.standby = true → s.boot.handover = false → s.boot.trunk = true → s.power.state = .run → s.power.transit = .none →
    s.mgmt.wakeAt = none →
    ∃ t, exec (.setPower 2) s = .next t ∧ t.power = { s.power with pending := PState.ofCode 2, fetchStop := true } ∧
      t.mgmt.setAt = some s.now ∧ t.mgmt.status = 0 ∧ OnlyChanges [.regs, .power, .host, .mgmt, .sent] s t) ∧
  (∀ (s : State) (n : Nat), s.modl.standby = true → s.boot.handover = false → s.boot.trunk = true → s.power.state ≠ .off → 240 ≤ n → n ≤ 920 →
    ∃ t, exec (.setCap n) s = .next t ∧ t.power = { s.power with mgmtCap := n } ∧ t.mgmt.status = 0 ∧
      OnlyChanges [.regs, .power, .host, .mgmt, .sent] s t) ∧
  (∀ (s : State) (n : Nat), s.modl.standby = true → s.boot.handover = false → s.boot.trunk = true → s.power.state ≠ .off → n < 240 ∨ 920 < n →
    ∃ t, exec (.setCap n) s = .next t ∧ t.mgmt.status = 2 ∧ OnlyChanges [.regs, .mgmt] s t) ∧
  (∀ (s : State) (j : Job), s.modl.standby = true → s.boot.handover = false → s.boot.trunk = true → s.power.state ≠ .off →
    s.job.cur = some j → j.abort = none →
    ∃ t, exec (.abort j.desc.jobId) s = .next t ∧ t.job = { s.job with cur := some { j with abort := some (3, s.now) } } ∧
      t.mgmt.status = 0) ∧
  (∀ s : State, s.modl.standby = true → s.boot.handover = false → s.boot.trunk = true → s.power.state ≠ .off →
    ∃ t, exec (.reset 0) s = .next t ∧ t.boot.stage = 0 ∧ t.ring.lock = .unlocked ∧ t.job.cur = none ∧ t.job.queue = [] ∧ t.cells = [] ∧
      t.sess = [] ∧ t.ras.log = [] ∧ t.bark.sealed = false ∧ t.bark.grant = none ∧ t.modl.mains = false ∧ t.hw.regs = s.hw.regs ∧
      t.flash = s.flash ∧ t.modl.slotId = s.modl.slotId ∧ t.cert = s.cert) ∧
  (∀ s : State, s.modl.standby = true → s.boot.handover = false → s.boot.trunk = true → s.power.state ≠ .off → s.hostPowered = true →
    s.graft.load ≠ .staging →
    ∃ t, exec (.reset 1) s = .next t ∧ t.host.epoch = (s.host.epoch + 1) % 65536 ∧ t.host.up = false ∧ t.mgmt.status = 0 ∧
      OnlyChanges [.regs, .host, .bark, .mgmt, .sent] s t) ∧
  (∀ s : State, s.storesWf → s.modl.standby = true → s.boot.handover = false → s.boot.trunk = true →
    ∃ t, exec .clearLoss s = .next t ∧ t.f CLK_SRC_LOSS = 0 ∧ t.mgmt.status = 0 ∧ OnlyChanges [.regs, .modl, .mgmt] s t) ∧
  (∀ s : State, s.modl.standby = true → s.boot.handover = false →
    ∃ t, exec .recoveryEnter s = .next t ∧ t.boot = { s.boot with latched := true } ∧ t.mgmt.status = 0 ∧
      OnlyChanges [.regs, .boot, .host, .mgmt, .sent] s t) ∧
  (∀ (s : State) (off : Nat) (bs : List Byte), s.modl.standby = true → s.boot.handover = false → s.boot.buffer.wf = true →
    bs.length ≤ 28 → off + bs.length ≤ 2 ^ 24 →
    ∃ t, exec (.recoveryWrite off bs) s = .next t ∧ (∀ i (h : i < bs.length), t.boot.buffer.read (off + i) = bs[i]) ∧
      (∀ a, a < off ∨ off + bs.length ≤ a → t.boot.buffer.read a = s.boot.buffer.read a) ∧
      t.boot = { s.boot with buffer := t.boot.buffer } ∧ t.mgmt.status = 0 ∧ OnlyChanges [.regs, .boot, .mgmt] s t) ∧
  (∀ (s : State) (off : Nat) (bs : List Byte), s.modl.standby = true → s.boot.handover = false → 28 < bs.length ∨ 2 ^ 24 < off + bs.length →
    ∃ t, exec (.recoveryWrite off bs) s = .next t ∧ t.boot = s.boot ∧ t.mgmt.status = 2 ∧ OnlyChanges [.regs, .mgmt] s t) ∧
  (∀ (s : State) (kind : Nat), s.noInjection → s.modl.standby = true → s.boot.handover = false → s.boot.recovery.accepts kind = true →
    ∃ t, exec (.recoveryCommit kind) s = .next t ∧
      (if (s.fwVerify kind (bufferImage s.boot.buffer) 0).passed then
        t.flash = (s.commitImage kind (bufferImage s.boot.buffer)).flash ∧ t.mgmt.status = 0 ∧
        t.boot = { s.boot with rebootDue := decide (s.boot.recovery ≠ .none) }
       else t.flash = s.flash ∧ t.mgmt.status = 3 ∧ t.mgmt.data = [3]) ∧ OnlyChanges (mayChange (.recoveryCommit kind)) s t) ∧
  (∀ (s : State) (kind : Nat), s.modl.standby = true → s.boot.handover = false → s.boot.recovery.accepts kind = false →
    ∃ t, exec (.recoveryCommit kind) s = .next t ∧ t.flash = s.flash ∧ t.mgmt.status = 3 ∧ t.mgmt.data = [3] ∧
      OnlyChanges [.regs, .mgmt] s t) ∧
  (∀ s : State, s.boot.rebootDue = true →
    ∃ t, exec .recoveryReboot s = .next t ∧ t.boot.stage = 0 ∧ t.boot.latched = false ∧ t.boot.rebootDue = false ∧ t.flash = s.flash ∧
      t.hw.regs = s.hw.regs)

/-! ## Bark -/

/-- Bark's own commands (parts of R337, R339, R340, R345, R347, R354, R370, R371, R373). A new nonce comes from the DRBG and
replaces the old one; without entropy the command is refused and the nonce stays. The certificate goes into the mailbox. A report
begins with the body of Table 12.11 and uses one leaf; with the leaves spent, EXHAUSTED. A report with M7 first measures, which a
job out of the queue forbids or ends. Any command that meets one in progress answers BUSY and changes nothing but BARK_CMD and
RESULT. SEAL seals. A failed health test stops entropy. A health check that finds the margin low, or the helper record damaged,
raises PUF_MARGIN, and otherwise only notes the record. That a refusal for want of entropy has DETAIL 1 is the model's choice (log
35). -/
def Obligations.BarkMailbox : Prop :=
  (∀ s : State, s.storesWf → s.noInjection → s.barkBusy = false → s.bark.entropyOk = true →
    ∃ t, exec .newNonce s = .next t ∧
      t.bark = { s.bark with nonce := Config.randomBytes s.bark.draws 32, draws := s.bark.draws + 1 } ∧ t.f BARK_RESULT_RESULT = 0 ∧
      FieldsKept [BARK_CMD_OP, BARK_CMD_LEN, BARK_RESULT_RESULT, BARK_RESULT_DETAIL, BARK_RESULT_OUT_LEN] s t ∧
      OnlyChanges [.regs, .bark] s t) ∧
  (∀ s : State, s.storesWf → s.noInjection → s.barkBusy = false → s.bark.entropyOk = false →
    ∃ t, exec .newNonce s = .next t ∧ t.bark.nonce = s.bark.nonce ∧ t.f BARK_RESULT_RESULT = 11 ∧ t.f BARK_RESULT_DETAIL = 1 ∧
      OnlyChanges [.regs, .bark] s t) ∧
  (∀ (s : State) (n : Nat) (top : List Byte), s.storesWf → s.barkBusy = true →
    ∀ c ∈ [Instr.newNonce, .deviceCert, .attest n, .barkClaim n, .release n, .recover n, .hostOpen n, .grant n, .revoke n, .keyLoad n,
      .smkGenerate n, .smkExport n, .treeReset n, .rootLoad n top, .rollbackAdvance n, .planeRead n, .fwWrite n, .fwCommit n, .fwActivate n],
      ∃ t, exec c s = .next t ∧ t.f BARK_RESULT_RESULT = 1 ∧ FieldsKept [BARK_CMD_OP, BARK_CMD_LEN, BARK_RESULT_RESULT] s t ∧
        OnlyChanges [.regs] s t) ∧
  (∀ s : State, s.storesWf → s.barkBusy = false →
    ∃ t, exec .deviceCert s = .next t ∧ t.bark = { s.bark with mbox := s.bark.mbox.writeBytes 0 s.deviceCert } ∧
      t.f BARK_RESULT_RESULT = 0 ∧ t.f BARK_RESULT_OUT_LEN = s.deviceCert.length % 2 ^ BARK_RESULT_OUT_LEN.width ∧
      OnlyChanges [.regs, .bark] s t) ∧
  (∀ s : State, s.storesWf → s.barkBusy = false → s.bark.lmsDone = false → s.bark.lmsLeaf + 1 < 1024 → rd (s.input 40) 32 8 % 2 = 0 →
    ∃ (t : State) (rest : List Byte), exec (.attest 40) s = .next t ∧ t.bark = { s.bark with
        lmsLeaf := s.bark.lmsLeaf + 1
        draws := s.bark.draws + 1
        mbox := s.bark.mbox.writeBytes 0 (s.reportBody (cut (s.input 40) 0 32) false ++ rest) } ∧ t.f BARK_RESULT_RESULT = 0 ∧
      t.f (BARK_CNT_COUNT 2) = (s.f (BARK_CNT_COUNT 2) + 1) % 2 ^ (BARK_CNT_COUNT 2).width ∧ OnlyChanges [.regs, .bark] s t) ∧
  (∀ s : State, s.storesWf → s.barkBusy = false → s.bark.lmsDone = true →
    ∃ t, exec (.attest 40) s = .next t ∧ t.f BARK_RESULT_RESULT = 10 ∧ OnlyChanges [.regs] s t) ∧
  (∀ s : State, s.storesWf → s.barkBusy = false → s.bark.lmsDone = false → rd (s.input 40) 32 8 % 2 = 1 →
    ∃ t, exec (.attest 40) s = .next t ∧
      t.bark = { s.bark with attest := if s.jobOn then s.bark.attest else some (cut (s.input 40) 0 32) } ∧
      (s.jobOn = true → t.f BARK_RESULT_RESULT = 8) ∧ OnlyChanges [.regs, .bark] s t) ∧
  (∀ (s : State) (ch : List Byte), s.storesWf → s.bark.attest = some ch → s.jobOn = false → s.bark.lmsDone = false →
    s.bark.lmsLeaf + 1 < 1024 → s.bark.meas.length = 9 →
    ∃ t, exec .m7MeasurementDone s = .next t ∧ t.bark.attest = none ∧ t.bark.meas[7]? = some s.residentDigest ∧
      t.bark.lmsLeaf = s.bark.lmsLeaf + 1 ∧ t.f BARK_RESULT_RESULT = 0 ∧ OnlyChanges [.regs, .bark] s t) ∧
  (∀ (s : State) (ch : List Byte), s.storesWf → s.bark.attest = some ch → s.jobOn = true →
    ∃ t, exec .m7MeasurementDone s = .next t ∧ t.bark = { s.bark with attest := none } ∧ t.f BARK_RESULT_RESULT = 8 ∧
      FieldsKept [BARK_RESULT_RESULT] s t ∧ OnlyChanges [.regs, .bark] s t) ∧
  (∀ s : State, ∃ t, exec .barkSeal s = .next t ∧ t.bark = { s.bark with sealed := true } ∧ OnlyChanges [.bark] s t) ∧
  (∀ s : State, ∃ t, exec .entropyHealthFail s = .next t ∧ t.bark = { s.bark with entropyOk := false } ∧ OnlyChanges [.bark] s t) ∧
  (∀ (s : State) (n : Nat) (b : Bool), s.noInjection → n ≤ 15 → (s.flash.helperOk && b) = true →
    ∃ t, exec (.pufHealthCheck n b) s = .next t ∧ t.flash = s.flash ∧ OnlyChanges [.flash] s t) ∧
  (∀ (s : State) (n : Nat) (b : Bool), s.noInjection → 15 < n ∨ (s.flash.helperOk && b) = false → s.ras.ringCount < 64 →
    ∃ t, exec (.pufHealthCheck n b) s = .next t ∧ t.flash = { s.flash with helperOk := s.flash.helperOk && b } ∧
      (∃ r ∈ t.ras.log, r.cls = .security ∧ r.code = 5))

/-- Ownership (parts of R341 to R343, R350, R351). The check of an order is that of R343, its signatures included; the command's
RESULT is its verdict, and the nonce is replaced. An order that passes takes an UNOWNED engine: the six key-hash registers, TREE_ID
and, last, OWNERSHIP are asked for. The owner's order, or the vendor's with no certificate after it, starts a scrub and asks for
OWNERSHIP 2; the host session and the grant end. An order that fails asks for nothing. In another state an order answers STATE and
changes nothing. The scrub erases planes, grafts and keys, and asks for OWNERSHIP 0 last; it waits for a job. -/
def Obligations.Ownership : Prop :=
  (∀ (s : State) (len : Nat), s.storesWf → s.noInjection → s.barkBusy = false → s.bark.entropyOk = true → len ≤ 16384 → s.owner = 0 →
    s.anyLimit (ownerRegs ++ [0x1BE, 0x1BF]) = false → s.hwIdle →
    ∃ t, exec (.barkClaim len) s = .next t ∧
      t.bark = { s.bark with nonce := Config.randomBytes s.bark.draws 32, draws := s.bark.draws + 1 } ∧ t.hw.regs = s.hw.regs ∧
      t.f BARK_RESULT_RESULT = (s.objCheck 1 (rd (s.input len) 0x30 4) true (s.input len) 0 none none).1 ∧
      (if (s.objCheck 1 (rd (s.input len) 0x30 4) true (s.input len) 0 none none).1 = 0 then
        (∀ k, k < 6 → t.hwNext (0x1B8 + k) = rd (blockKeyHash (blockOf (s.input len))) (8 * k) 8) ∧
        t.hwNext 0x1BF = (s.hwVal 0x1BF + 1) % 2 ^ 64 ∧ t.hwNext 0x1BE = 1
       else t.hw = s.hw) ∧ OnlyChanges (mayChange (.barkClaim len)) s t) ∧
  (∀ (s : State) (len : Nat), s.storesWf → s.barkBusy = false → len ≤ 16384 → s.owner ≠ 0 →
    ∃ t, exec (.barkClaim len) s = .next t ∧ t.f BARK_RESULT_RESULT = 3 ∧ OnlyChanges [.regs] s t) ∧
  (∀ (s : State) (len : Nat), s.storesWf → s.noInjection → s.barkBusy = false → s.bark.entropyOk = true → len ≤ 16384 → s.owner = 1 →
    s.jobPresent = false → (s.hwReg 0x1BE).atLimit = false → s.hwIdle →
    ∃ t, exec (.release len) s = .next t ∧ t.hw.regs = s.hw.regs ∧ t.cells = s.cells ∧
      t.bark.nonce = Config.randomBytes s.bark.draws 32 ∧
      t.f BARK_RESULT_RESULT = (s.objCheck 2 (rd (s.input len) 0x30 4) true (s.input len) 0 (some s.ownerHash) none).1 ∧
      (if (s.objCheck 2 (rd (s.input len) 0x30 4) true (s.input len) 0 (some s.ownerHash) none).1 = 0 then
        t.bark.scrubbing = true ∧ t.bark.host = none ∧ t.bark.grant = none ∧ t.hwNext 0x1BE = 2
       else t.hw = s.hw ∧ t.bark.scrubbing = s.bark.scrubbing ∧ t.bark.host = s.bark.host ∧ t.bark.grant = s.bark.grant) ∧
      OnlyChanges (mayChange (.release len)) s t) ∧
  (∀ (s : State) (len : Nat), s.storesWf → s.barkBusy = false → len ≤ 16384 → s.owner ≠ 1 ∨ s.jobPresent = true →
    ∃ t, exec (.release len) s = .next t ∧ t.f BARK_RESULT_RESULT = 3 ∧ OnlyChanges [.regs] s t) ∧
  (∀ (s : State) (len n : Nat), s.storesWf → s.noInjection → s.barkBusy = false → s.bark.entropyOk = true → len ≤ 16384 →
    s.owner ≠ 2 → s.bark.scrubbing = false → (s.hwReg 0x1BE).atLimit = false → s.hwIdle → s.jobPresent = false →
    n = 64 + rd (s.input len) 0x30 4 + sigBlock → (s.input len).length ≤ n →
    ∃ t, exec (.recover len) s = .next t ∧ t.flash = s.flash ∧ t.hw.regs = s.hw.regs ∧ t.bark.nonce = Config.randomBytes s.bark.draws 32 ∧
      t.f BARK_RESULT_RESULT = (s.objCheck 3 (rd ((s.input len).take n) 0x30 4) true ((s.input len).take n) 0 (some Config.vendorKeyHash) none).1 ∧
      (if (s.objCheck 3 (rd ((s.input len).take n) 0x30 4) true ((s.input len).take n) 0 (some Config.vendorKeyHash) none).1 = 0 then
        t.bark.scrubbing = true ∧ t.bark.host = none ∧ t.bark.grant = none ∧ t.hwNext 0x1BE = 2
       else t.hw = s.hw ∧ t.bark.scrubbing = false ∧ t.bark.host = s.bark.host ∧ t.bark.grant = s.bark.grant) ∧
      OnlyChanges (mayChange (.recover len)) s t) ∧
  (∀ (s : State) (len : Nat), s.storesWf → s.barkBusy = false → len ≤ 16384 → s.owner = 2 ∨ s.bark.scrubbing = true →
    ∃ t, exec (.recover len) s = .next t ∧ t.f BARK_RESULT_RESULT = 3 ∧ OnlyChanges [.regs] s t) ∧
  (∀ s : State, s.storesWf → s.bark.scrubbing = true → s.owner = 2 → s.jobOn = false → (s.hwReg 0x1BE).atLimit = false →
    ∃ t, exec .scrubComplete s = .next t ∧ (∀ x y, (t.cell x y).active = Plane.empty ∧ (t.cell x y).shadow = Plane.empty) ∧
      t.graft.active = none ∧ t.graft.shadow = none ∧ t.bark.smk = none ∧ t.bark.labels = [] ∧ t.bark.scrubbing = false ∧
      t.flash.keyRecord = none ∧ (∃ w ∈ t.hw.busy ++ t.hw.engineQ, w.reg = 0x1BE ∧ w.value = 0 ∧ w.last = true)) ∧
  (∀ s : State, s.bark.scrubbing = false ∨ s.jobOn = true → exec .scrubComplete s = .next s)

/-- The host session, grants and keys (parts of R343, R349, R352, R353, R358 to R360, R362, R363, R367). A HOST_OPEN whose
credential fails its check answers that verdict; one whose credential and signature both hold opens a session with its counters
fresh, at the cost of one leaf; shares or a KEM key that are malformed answer INVALID. A grant that passes its check is taken for
this epoch, extends M8, begins at its first ring and ends after its last, or when revoked. Without a session every command of the
session answers NO_SESSION; with a tag that fails, TAG; with a counter that does not rise, REPLAY. Keys are loaded, and the key
record is rewritten under the record key. SMK is exported in an envelope. A tree reset leaves zeros; a root is accepted on its hash
alone. A counter only rises. A plane of a powered die is returned in an envelope under a grant. -/
def Obligations.HostSessionAndGrants : Prop :=
  (∀ (s : State) (len : Nat) (inp cred : List Byte), s.storesWf → s.noInjection → s.barkBusy = false → s.bark.entropyOk = true →
    s.owner = 1 → s.bark.lmsDone = false → s.bark.lmsLeaf + 1 < 1024 → len = 1681 + 64 + 176 + 2 * sigBlock → inp = s.input len →
    cred = cut inp 1681 (64 + 176 + sigBlock) →
    ∃ t, exec (.hostOpen len) s = .next t ∧
      (if zeros (cut inp 0 16) = true ∧ kemKeyOk (cut inp 113 1568) = true ∧ (pointOf (cut inp 16 97)).isSome = true then
        (if (s.objCheck 5 176 false cred 0 (some s.ownerHash) (some 7)).1 ≠ 0 then
          t.f BARK_RESULT_RESULT = (s.objCheck 5 176 false cred 0 (some s.ownerHash) (some 7)).1 ∧ t.bark.host = s.bark.host
         else if sealFails 0 (some (sha384 (cut cred 64 97 ++ cut cred 176 60))) (s.bark.nonce ++ signedPart inp) (blockOf inp) ≠ 0 then
          t.f BARK_RESULT_RESULT = 4 ∧ t.bark.host = s.bark.host
         else if (ecdh (scalarOf (Config.randomBytes (s.bark.draws + 2) 56)) (cut inp 16 97)).isSome then
          (∃ h : HostSess, t.bark.host = some h ∧ h.hostCtr = none ∧ h.engCtr = 0) ∧ t.bark.lmsLeaf = s.bark.lmsLeaf + 1 ∧
          t.f BARK_RESULT_RESULT = 0
         else t.f BARK_RESULT_RESULT = 2 ∧ t.bark.host = s.bark.host) ∧ t.bark.nonce = Config.randomBytes s.bark.draws 32
       else t.f BARK_RESULT_RESULT = 2 ∧ t.bark = s.bark) ∧ OnlyChanges (mayChange (.hostOpen len)) s t) ∧
  (∀ (s : State) (len : Nat), s.storesWf → s.barkBusy = false → len ≤ 16384 → s.owner ≠ 1 →
    ∀ c ∈ [Instr.hostOpen len, .grant len],
      ∃ t, exec c s = .next t ∧ t.f BARK_RESULT_RESULT = 3 ∧ OnlyChanges [.regs] s t) ∧
  (∀ (s : State) (len : Nat) (top : List Byte), s.storesWf → s.barkBusy = false → len ≤ 16384 → s.bark.host = none →
    ∀ c ∈ [Instr.revoke len, .keyLoad len, .smkGenerate len, .smkExport len, .treeReset len, .rootLoad len top, .rollbackAdvance len,
      .planeRead len, .fwWrite len, .fwCommit len, .fwActivate len],
      ∃ t, exec c s = .next t ∧ t.f BARK_RESULT_RESULT = 7 ∧ OnlyChanges [.regs] s t) ∧
  (∀ (s : State) (len : Nat) (h : HostSess), s.storesWf → s.barkBusy = false → len ≤ 16384 → s.bark.host = some h →
    len = 32 + rd (s.input len) 8 4 → rd (s.input len) 12 4 = 0 →
    openEnvelope h.key (s.input len) = none ∨ (∃ c, h.hostCtr = some c ∧ rd (s.input len) 0 8 ≤ c) →
    ∀ c ∈ [Instr.revoke len, .rollbackAdvance len, .fwWrite len, .fwCommit len],
      ∃ t, exec c s = .next t ∧ t.f BARK_RESULT_RESULT = (if (openEnvelope h.key (s.input len)).isNone then 4 else 5) ∧
        OnlyChanges [.regs] s t) ∧
  (∀ (s : State) (len : Nat), s.storesWf → s.noInjection → s.barkBusy = false → s.bark.entropyOk = true → len ≤ 16384 → s.owner = 1 →
    s.bark.grant = none → rd (s.input len) 72 8 < 4 → s.f BARK_POLICY_GRANTS_ALLOWED = 1 → rd (s.input len) 96 2 = s.engineEpoch →
    ringBefore (rd (s.input len) 88 8 % 2 ^ 48) s.now = false →
    ∃ t, exec (.grant len) s = .next t ∧ t.f BARK_RESULT_RESULT = (s.objCheck 4 34 true (s.input len) 0 (some s.ownerHash) none).1 ∧
      t.bark = (if (s.objCheck 4 34 true (s.input len) 0 (some s.ownerHash) none).1 = 0 then { s.bark with
          nonce := Config.randomBytes s.bark.draws 32
          draws := s.bark.draws + 1
          meas := s.bark.meas.set 8 (sha384 (s.bark.meas.getD 8 [] ++ sha384 (s.input len)))
          grant := some ⟨rd (s.input len) 64 8, (rd (s.input len) 72 8).testBit 0, (rd (s.input len) 72 8).testBit 1,
            rd (s.input len) 80 8 % 2 ^ 48, rd (s.input len) 88 8 % 2 ^ 48, ! ringBefore s.now (rd (s.input len) 80 8 % 2 ^ 48)⟩ }
        else { s.bark with nonce := Config.randomBytes s.bark.draws 32, draws := s.bark.draws + 1 }) ∧
      OnlyChanges (mayChange (.grant len)) s t) ∧
  (∀ (s : State) (g : Grant), s.bark.grant = some g → g.on = false → ringBefore s.now g.first = false →
    ∃ t, exec .grantStart s = .next t ∧ t.bark = { s.bark with grant := some { g with on := true } } ∧ OnlyChanges [.bark] s t) ∧
  (∀ (s : State) (g : Grant), s.bark.grant = some g → ringBefore g.last s.now = true →
    ∃ t, exec .grantExpiry s = .next t ∧ t.bark.grant = none ∧ t.noInjection ∧
      t.bark.meas = s.bark.meas.set 8 (sha384 (s.bark.meas.getD 8 [] ++ List.replicate 48 0xFF)) ∧ OnlyChanges [.bark, .ras] s t) ∧
  (∀ (s : State) (g : Grant), s.bark.grant = some g → ringBefore g.last s.now = false → exec .grantExpiry s = .next s) ∧
  (∀ (s : State) (len : Nat) (h : HostSess) (p : List Byte), s.storesWf → len ≤ 16384 → s.takes len h p →
    ∃ t, exec (.revoke len) s = .next t ∧ t.bark.grant = none ∧ t.bark.host = some { h with hostCtr := some (rd (s.input len) 0 8) } ∧
      t.f BARK_RESULT_RESULT = 0 ∧ (s.bark.grant.isSome = true → t.noInjection) ∧ OnlyChanges [.regs, .bark, .ras] s t) ∧
  (∀ (s : State) (len : Nat) (h : HostSess) (p : List Byte), s.storesWf → len ≤ 16384 → s.takes len h p → s.jobPresent = false →
    p.length = 34 → rd p 0 1 = 1 → rd p 1 1 < 16 →
    ∃ (t : State) (iv : List Byte) (c : List Byte × List Byte), exec (.keyLoad len) s = .next t ∧
      t.bark.labels = sset [] s.bark.labels (rd p 1 1) (cut p 2 32) ∧ t.bark.smk = s.bark.smk ∧
      c = gcmSeal (recordKey (s.bark.ds.getD [])) iv [] (keyText s.bark.smk t.bark.labels) ∧ iv.length = 12 ∧
      t.flash.keyRecord = some (iv ++ c.1 ++ c.2) ∧ t.f BARK_RESULT_RESULT = 0 ∧ OnlyChanges [.regs, .bark, .flash] s t) ∧
  (∀ (s : State) (len : Nat) (h : HostSess) (p : List Byte), s.storesWf → s.noInjection → len ≤ 16384 → s.takes len h p →
    s.jobPresent = false → s.bark.entropyOk = true →
    ∃ (t : State) (iv : List Byte) (c : List Byte × List Byte), exec (.smkGenerate len) s = .next t ∧
      t.bark.smk = some (Config.randomBytes s.bark.draws 32) ∧ t.bark.labels = s.bark.labels ∧
      c = gcmSeal (recordKey (s.bark.ds.getD [])) iv [] (keyText t.bark.smk s.bark.labels) ∧ iv.length = 12 ∧
      t.flash.keyRecord = some (iv ++ c.1 ++ c.2) ∧ t.f BARK_RESULT_RESULT = 0 ∧ OnlyChanges [.regs, .bark, .flash] s t) ∧
  (∀ (s : State) (len : Nat) (h : HostSess) (p k : List Byte), s.storesWf → len ≤ 16384 → s.takes len h p → s.cert.line ≠ 1 →
    s.bark.smk = some k →
    ∃ t, exec (.smkExport len) s = .next t ∧ t.bark = { s.bark with
        host := some { h with hostCtr := some (rd (s.input len) 0 8), engCtr := h.engCtr + 1 }
        mbox := s.bark.mbox.writeBytes 0 (sealEnvelope h.key h.engCtr 4 k) } ∧ t.f BARK_RESULT_RESULT = 0 ∧
      OnlyChanges [.regs, .bark] s t) ∧
  (∀ (s : State) (len : Nat) (h : HostSess) (p : List Byte), s.storesWf → len ≤ 16384 → s.takes len h p → s.jobPresent = false →
    (s.hwReg 0x1BF).atLimit = false →
    ∃ t, exec (.treeReset len) s = .next t ∧ t.tree = ⟨true, zeroNode, [], []⟩ ∧ t.f BARK_RESULT_RESULT = 0 ∧
      OnlyChanges (mayChange (.treeReset len)) s t) ∧
  (∀ (s : State) (len : Nat) (h : HostSess) (p top : List Byte), s.storesWf → len ≤ 16384 → s.takes len h p → s.jobPresent = false →
    p.length = 48 → top.length = 64 →
    ∃ t, exec (.rootLoad len top) s = .next t ∧
      (if s.rootOf ((List.range 8).map (fun k => rd top (8 * k) 8)) = p then
        t.tree = ⟨true, (List.range 8).map (fun k => rd top (8 * k) 8), [], []⟩ ∧ t.f BARK_RESULT_RESULT = 0
       else t.tree = s.tree ∧ t.f BARK_RESULT_RESULT = 11) ∧ OnlyChanges (mayChange (.rootLoad len top)) s t) ∧
  (∀ (s : State) (len n : Nat) (h : HostSess) (p : List Byte), s.storesWf → len ≤ 16384 → s.takes len h p → s.hwIdle → p.length = 9 →
    rd p 0 1 = n → 4 ≤ n → n ≤ 7 → s.hwVal (0x1B0 + n) < rd p 1 8 → (s.hwReg (0x1B0 + n)).atLimit = false →
    ∃ t, exec (.rollbackAdvance len) s = .next t ∧ t.hwNext (0x1B0 + n) = rd p 1 8 ∧ t.f BARK_RESULT_RESULT = 0 ∧
      OnlyChanges [.regs, .hw, .bark] s t) ∧
  (∀ (s : State) (len n : Nat) (h : HostSess) (p : List Byte), s.storesWf → len ≤ 16384 → s.takes len h p → s.hwIdle → p.length = 9 →
    rd p 0 1 = n → rd p 1 8 ≤ s.hwVal (0x1B0 + n) ∨ n < 4 ∨ 7 < n →
    ∃ t, exec (.rollbackAdvance len) s = .next t ∧ t.f BARK_RESULT_RESULT = 2 ∧ OnlyChanges [.regs, .bark] s t) ∧
  (∀ (s : State) (len : Nat) (h : HostSess) (p : List Byte) (g : Grant), s.storesWf → len ≤ 16384 → s.takes len h p → s.grantNow = some g →
    g.planeRead = true → p.length = 5 → rd p 4 1 < 2 → s.inGrid (rd p 0 2) (rd p 2 2) = true →
    s.domain (s.dieOf (rd p 0 2) (rd p 2 2)) = .on →
    ∃ t, exec (.planeRead len) s = .next t ∧ t.bark = { s.bark with
        host := some { h with hostCtr := some (rd (s.input len) 0 8), engCtr := h.engCtr + 1 }
        mbox := s.bark.mbox.writeBytes 0 (sealEnvelope h.key h.engCtr 4 (s.planeBytes (rd p 0 2) (rd p 2 2) (rd p 4 1))) } ∧
      t.f BARK_RESULT_RESULT = 0 ∧ OnlyChanges [.regs, .bark] s t) ∧
  (∀ (s : State) (len : Nat) (h : HostSess) (p : List Byte), s.storesWf → len ≤ 16384 → s.takes len h p → s.grantNow = none →
    ∃ t, exec (.planeRead len) s = .next t ∧ t.f BARK_RESULT_RESULT = 3 ∧ OnlyChanges [.regs] s t)

/-- Firmware commands (parts of R448 to R450, R455 to R459). Bytes go into the recovery buffer and nowhere else. A buffer that
verifies is written into the bank that did not boot last, with a SEQUENCE one above the other bank's; one that does not leaves flash
as it is. FW_ACTIVATE verifies the selected Trunk image again and, with a pass alone, orders its take-over; during a job, STATE. At
the take-over its digest extends M2, counter 1 follows and the host port resets. A limb die named by FW_ACTIVATE boots the new image
after a DIE reset, and M3 is extended; the dies are taken in order. -/
def Obligations.FirmwareCommands : Prop :=
  (∀ (s : State) (len : Nat) (h : HostSess) (p : List Byte), s.storesWf → len ≤ 16384 → s.takes len h p → s.boot.buffer.wf = true →
    8 ≤ p.length → (p.drop 8).length ≤ 16000 → rd p 0 4 + (p.drop 8).length ≤ 2 ^ 24 →
    ∃ t, exec (.fwWrite len) s = .next t ∧
      (∀ i, i < (p.drop 8).length → t.boot.buffer.read (rd p 0 4 + i) = (p.drop 8).getD i 0) ∧
      (∀ a, a < rd p 0 4 ∨ rd p 0 4 + (p.drop 8).length ≤ a → t.boot.buffer.read a = s.boot.buffer.read a) ∧
      t.boot = { s.boot with buffer := t.boot.buffer } ∧ t.f BARK_RESULT_RESULT = 0 ∧ OnlyChanges [.regs, .bark, .boot] s t) ∧
  (∀ (s : State) (len : Nat) (h : HostSess) (p : List Byte), s.storesWf → s.noInjection → len ≤ 16384 → s.takes len h p → p.length = 5 →
    1 ≤ rd p 0 1 → rd p 0 1 ≤ 3 → (bufferImage s.boot.buffer).length = rd p 1 4 →
    ∃ t, exec (.fwCommit len) s = .next t ∧
      (if (s.fwVerify (rd p 0 1) (bufferImage s.boot.buffer) 0).passed then
        t.flash = (s.commitImage (rd p 0 1) (bufferImage s.boot.buffer)).flash ∧ t.f BARK_RESULT_RESULT = 0
       else t.flash = s.flash ∧ t.f BARK_RESULT_RESULT ≠ 0) ∧ OnlyChanges (mayChange (.fwCommit len)) s t) ∧
  (∀ (s : State) (len : Nat) (h : HostSess) (p : List Byte), s.storesWf → len ≤ 16384 → s.takes len h p → p.length = 5 →
    rd p 0 1 = 0 ∨ 4 ≤ rd p 0 1 →
    ∃ t, exec (.fwCommit len) s = .next t ∧ t.flash = s.flash ∧ t.f BARK_RESULT_RESULT = 2 ∧ OnlyChanges [.regs, .bark] s t) ∧
  (∀ (s : State) (kind : Nat) (raw : List Byte), kind = 1 ∨ kind = 2 ∨ kind = 3 →
    (s.commitImage kind raw).flash.banks kind = (if s.boot.bootedB.contains kind
      then (Bank.holding ((s.flash.banks kind).2.seq + 1) raw, (s.flash.banks kind).2)
      else ((s.flash.banks kind).1, Bank.holding ((s.flash.banks kind).1.seq + 1) raw))) ∧
  (∀ (s : State) (len : Nat) (h : HostSess) (p : List Byte), s.storesWf → s.noInjection → len ≤ 16384 → s.takes len h p →
    s.mayActivate = 0 → s.boot.trunk = true → p.length = 2 → rd p 0 1 = 2 →
    ∃ t, exec (.fwActivate len) s = .next t ∧
      (if (s.fwVerify 2 (s.selectedRaw 2) 0).passed then
        t.boot = { s.boot with activateAt := some s.now, handover := true } ∧ t.f BARK_RESULT_RESULT = 0
       else t.boot = s.boot ∧ t.f BARK_RESULT_RESULT ≠ 0) ∧ OnlyChanges (mayChange (.fwActivate len)) s t) ∧
  (∀ (s : State) (len : Nat) (h : HostSess) (p : List Byte), s.storesWf → len ≤ 16384 → s.takes len h p → s.mayActivate ≠ 0 →
    ∃ t, exec (.fwActivate len) s = .next t ∧ t.boot = s.boot ∧ t.f BARK_RESULT_RESULT = 3 ∧ OnlyChanges [.regs] s t) ∧
  (∀ (s : State) (i : FwImage) (b : Bool), s.boot.handover = true → s.admissionWon = false → s.selected 2 = some (b, i) →
    s.graft.load ≠ .staging →
    ∃ t, exec .trunkHandover s = .next t ∧ t.boot.handover = false ∧ t.boot.trunkImg = some i ∧
      t.bark.meas = s.bark.meas.set 2 (sha384 (s.bark.meas.getD 2 [] ++ i.digest)) ∧ t.host.epoch = (s.host.epoch + 1) % 65536 ∧
      t.host.up = false ∧ OnlyChanges (mayChange .trunkHandover) s t) ∧
  (∀ (s : State) (k : Nat) (rest : List Nat) (i : FwImage) (b : Bool), s.storesWf → s.boot.limbBoots = k :: rest → s.admissionWon = false →
    s.selected 3 = some (b, i) →
    ∃ t, exec (.limbDieBoot k) s = .next t ∧ t.boot.limbBoots = rest ∧ t.boot.limbs = sset none s.boot.limbs k (some i) ∧
      t.bark.meas = s.bark.meas.set 3 (sha384 (s.bark.meas.getD 3 [] ++ i.digest)) ∧ (t.limb k).pending = [] ∧ (t.limb k).cache = [] ∧
      (t.limb k).stagedMib = (s.limb k).stagedMib ∧ (∀ p, limbOfPort p ≠ k → t.port p = s.port p)) ∧
  (∀ (s : State) (k j : Nat) (rest : List Nat), s.boot.limbBoots = j :: rest → j ≠ k → exec (.limbDieBoot k) s = .next s)

/-- Heartwood (parts of R375 to R379, R383 to R387). A write that reads back as written makes the next live slot hold the value, and
no other register changes; one whose first try reads back another word retires that slot, records it, and holds the value on the
next. A register at its limit counts the write and keeps its value. A register that is 4,320 powered hours old is written again on a
free general lane. A host write of HW_GP starts on the host lane while the engine is OWNED, and is ignored and counted otherwise.
Every 24 powered hours the lifetime counter is written. -/
def Obligations.HeartwoodWrites : Prop :=
  (∀ (s : State) (r k : Nat) (w : HwWrite) (b : Option Nat), swf HwReg.zero s.hw.regs = true → s.noInjection →
    s.hw.busy.find? (fun w => w.reg == r) = some w → (s.hwReg r).atLimit = false → (s.hwReg r).nextLive = some k →
    (s.hwReg r).slots.length = 4 → hwAssigned r = true →
    ∃ t, exec (.heartwoodWrite r none b) s = .next t ∧ t.hwVal r = w.value % 2 ^ 64 ∧ (∀ q, q ≠ r → t.hwReg q = s.hwReg q) ∧
      (t.hwReg r).count = (s.hwReg r).count + 1 ∧ (t.hwReg r).retired = (s.hwReg r).retired ∧
      OnlyChanges (mayChange (.heartwoodWrite r none b)) s t) ∧
  (∀ (s : State) (r k l x : Nat) (w : HwWrite), swf HwReg.zero s.hw.regs = true → s.noInjection →
    s.hw.busy.find? (fun w => w.reg == r) = some w → (s.hwReg r).atLimit = false → (s.hwReg r).nextLive = some k →
    (s.hwReg r).verified k w.value s.poweredHours (some x) = false → ((s.hwReg r).retire k x).nextLive = some l →
    (s.hwReg r).slots.length = 4 → hwAssigned r = true → s.ras.ringCount < 64 →
    ∃ t, exec (.heartwoodWrite r (some x) none) s = .next t ∧ t.hwVal r = w.value % 2 ^ 64 ∧ (∀ q, q ≠ r → t.hwReg q = s.hwReg q) ∧
      (t.hwReg r).retired = (s.hwReg r).retired ||| 2 ^ k ∧ (∃ x ∈ t.ras.log, x.cls = .heartwood ∧ x.code = 3 ∧ x.src = .heartwood r)) ∧
  (∀ (s : State) (r : Nat) (w : HwWrite) (a b : Option Nat), s.storesWf → s.noInjection → s.hw.busy.find? (fun w => w.reg == r) = some w →
    (s.hwReg r).atLimit = true → r < 0x0D0 ∨ 0x1A7 < r →
    ∃ t, exec (.heartwoodWrite r a b) s = .next t ∧ t.hw.regs = s.hw.regs ∧
      t.f (HW_CNT_COUNT 4) = (s.f (HW_CNT_COUNT 4) + 1) % 2 ^ (HW_CNT_COUNT 4).width ∧ FieldsKept [HW_CNT_COUNT 4] s t ∧
      OnlyChanges [.regs, .hw] s t) ∧
  (∀ (s : State) (r : Nat) (a b : Option Nat), (∀ w ∈ s.hw.busy, w.reg ≠ r) → exec (.heartwoodWrite r a b) s = .next s) ∧
  (∀ (s : State) (r : Nat) (b : HwSlot), s.hwIdle → (s.hwReg r).newest = some b → hwAssigned r = true → (s.hwReg r).atLimit = false →
    ∃ t, exec (.heartwoodRefresh r) s = .next t ∧ (if b.hours + 4320 ≤ s.poweredHours then t.hw = { s.hw with
        busy := [⟨r, b.value, .general, true, false⟩] } else t = s) ∧ OnlyChanges [.hw] s t) ∧
  (∀ (s : State) (k : Nat) (w : Word64), s.hwIdle → k < 256 → s.owner = 1 → (s.hwReg (0x200 + k)).atLimit = false →
    ∃ t, exec (.rwhWrite (0xD6000 + 8 * k) w) s = .next t ∧ t.hw = { s.hw with busy := [⟨0x200 + k, w.toNat, .host, false, false⟩] } ∧
      OnlyChanges [.hw] s t) ∧
  (∀ (s : State) (k : Nat) (w : Word64), s.storesWf → k < 256 → s.owner ≠ 1 →
    ∃ t, exec (.rwhWrite (0xD6000 + 8 * k) w) s = .next t ∧ t.hw = s.hw ∧ FieldsKept [HW_CNT_COUNT 5] s t ∧
      t.f (HW_CNT_COUNT 5) % 2 ^ 32 = (s.f (HW_CNT_COUNT 5) + 1) % 2 ^ 32 ∧ OnlyChanges [.regs] s t) ∧
  (∀ s : State, s.hwIdle → (s.hwReg 0x1C8).atLimit = false → (s.hwReg 0x1CA).atLimit = false →
    ∃ t, exec .lifeCounterUpdate s = .next t ∧ t.hwNext 0x1C8 = (s.hwVal 0x1C8 + 24) % 2 ^ 64 ∧ t.hw.hours = 0 ∧
      t.hw.regs = s.hw.regs ∧ OnlyChanges [.hw] s t)

/-! ## Power, module, thermal, telemetry -/

/-- Requests for a power state (parts of R389, R333, R334, R415, Table 14.2). With GO the state is requested: from RUN it waits for
a ring edge with no job and fetching stops; a deeper state, and OFF, is entered from IDLE, SLEEP or DEEP directly; RUN begins the
return. Without GO the write only sets its fields; in a ring with a SET_POWER or WAKE_N it requests nothing; an invalid STATE makes
the write void. WAKE_N wakes; a pulse too short is none. In OFF, or with main rails down after an input failure or a hard trip, a
wake is a boot from stage 0. -/
def Obligations.PowerRequests : Prop :=
  (∀ (s : State) (w : Word64), s.storesWf → PState.ofCode (PWR_CTRL_STATE.of w) = none →
    ∃ t, exec (.powerRequest w) s = .next t ∧ t.f PWR_STATUS_CFG_REJECT = 1 ∧ FieldsKept [PWR_STATUS_CFG_REJECT] s t ∧
      OnlyChanges [.regs] s t) ∧
  (∀ (s : State) (w : Word64) (st : PState), s.storesWf → PState.ofCode (PWR_CTRL_STATE.of w) = some st →
    PWR_CTRL_GO.of w = 0 ∨ s.mgmt.setAt = some s.now ∨ s.mgmt.wakeAt = some s.now →
    ∃ t, exec (.powerRequest w) s = .next t ∧ t.f PWR_CTRL_AUTO_WAKE = PWR_CTRL_AUTO_WAKE.of w ∧ t.f PWR_CTRL_STATE = PWR_CTRL_STATE.of w ∧
      FieldsKept [PWR_CTRL_AUTO_WAKE, PWR_CTRL_STATE] s t ∧ OnlyChanges [.regs] s t) ∧
  (∀ (s : State) (w : Word64) (st : PState), s.storesWf → PState.ofCode (PWR_CTRL_STATE.of w) = some st → PWR_CTRL_GO.of w = 1 →
    s.mgmt.setAt ≠ some s.now → s.mgmt.wakeAt ≠ some s.now → s.power.transit = .none → s.power.state = .run → st ≠ .run →
    ∃ t, exec (.powerRequest w) s = .next t ∧ t.power = { s.power with pending := some st, fetchStop := true } ∧
      FieldsKept [PWR_CTRL_AUTO_WAKE, PWR_CTRL_STATE] s t ∧ OnlyChanges [.regs, .power] s t) ∧
  (∀ (s : State) (w : Word64) (st : PState), PState.ofCode (PWR_CTRL_STATE.of w) = some st → PWR_CTRL_GO.of w = 1 →
    s.mgmt.setAt ≠ some s.now → s.mgmt.wakeAt ≠ some s.now → s.power.transit = .none → s.power.state ≠ .run → s.power.state ≠ .off →
    st ≠ s.power.state → st = .off ∨ (s.power.state.depth < st.depth ∧ s.power.state ≠ .deep) →
    ∃ t, exec (.powerRequest w) s = .next t ∧ t.power = { s.power with transit := .entering st, fetchStop := true } ∧
      OnlyChanges [.regs, .power] s t) ∧
  (∀ (s : State) (w : Word64), PWR_CTRL_STATE.of w = 0 → PWR_CTRL_GO.of w = 1 → s.mgmt.setAt ≠ some s.now → s.mgmt.wakeAt ≠ some s.now →
    s.power.transit = .none → s.power.state ≠ .run → s.power.state ≠ .off →
    ∃ t, exec (.powerRequest w) s = .next t ∧ t.power = { s.power with transit := .returning none } ∧ OnlyChanges [.regs, .power] s t) ∧
  (∀ (s : State) (ns : Nat), 2500 ≤ ns → s.modl.standby = true → s.modl.inputFailed = false → s.modl.hardTripped = false →
    s.power.transit = .none → s.power.state ≠ .run → s.power.state ≠ .off →
    ∃ t, exec (.wakeN ns) s = .next t ∧ t.power = { s.power with transit := .returning none } ∧
      t.mgmt = { s.mgmt with wakeAt := some s.now } ∧ OnlyChanges [.power, .mgmt] s t) ∧
  (∀ (s : State) (ns : Nat), 2500 ≤ ns → s.modl.standby = true →
    s.power.state = .off ∨ s.modl.inputFailed = true ∨ s.modl.hardTripped = true →
    ∃ t, exec (.wakeN ns) s = .next t ∧ t.boot.stage = 0 ∧ t.power.state = .run ∧ t.ring.lock = .unlocked ∧ t.cells = [] ∧
      t.hw.regs = s.hw.regs ∧ t.flash = s.flash) ∧
  (∀ (s : State) (ns : Nat), ns < 1500 → exec (.wakeN ns) s = .next s)

/-- The ends of transitions (parts of R388, R390, R392, R129, Table 14.1). A state entered is shown, counted and its ring kept; a
wake event during the entry is recorded and lets it finish, and then the return, or from OFF a boot, follows at once. In DEEP planes
stay and links are down. In OFF main rails are down and the ring is counted no more. A return ends in RUN, and a request that stood
then is pending again. A die that wakes in time is ON, its planes are empty and its scratchpads hold lost bytes; one that does not
is UNAVAILABLE, with a record. None of these commands does anything when no such change is under way. -/
def Obligations.PowerTransitions : Prop :=
  (∀ (s : State) (st : PState), s.storesWf → s.power.transit = .entering st → st ∈ [PState.idle, .sleep] → s.power.wake = false →
    s.power.pending = none →
    ∃ t, exec .powerEntryComplete s = .next t ∧ t.power = { s.power with
        state := st
        transit := .none
        fetchStop := false } ∧ t.f PWR_STATUS_LAST_RING_LO = s.now % 2 ^ 32 ∧
      t.f (PWR_CNT_COUNT 0) = (s.f (PWR_CNT_COUNT 0) + 1) % 2 ^ (PWR_CNT_COUNT 0).width ∧
      FieldsKept [PWR_STATUS_LAST_RING_LO, PWR_CNT_COUNT 0, ID_INT_CAUSE_CAUSE, ID_HOST_CNT_COUNT 7] s t ∧
      OnlyChanges [.regs, .power, .host, .sent] s t) ∧
  (∀ (s : State) (st : PState), s.power.transit = .entering st → st ∈ [PState.idle, .sleep, .deep] → s.power.wake = true →
    ∃ t, exec .powerEntryComplete s = .next t ∧ t.power = { s.power with
        state := st
        transit := .returning s.power.pending
        wake := false
        pending := none
        fetchStop := false }) ∧
  (∀ (s : State) (ns : Nat) (st : PState), s.storesWf → 2500 ≤ ns → s.modl.standby = true → s.power.state ≠ .off →
    s.modl.inputFailed = false → s.modl.hardTripped = false → s.power.transit = .entering st →
    ∃ t, exec (.wakeN ns) s = .next t ∧ t.power = { s.power with wake := true } ∧ OnlyChanges [.regs, .power, .mgmt] s t) ∧
  (∀ (s : State) (st : PState), s.power.transit = .entering st → s.wakeEvent.power = { s.power with wake := true }) ∧
  (∀ s : State, s.power.transit = .entering .off → s.power.wake = true →
    ∃ t, exec .powerEntryComplete s = .next t ∧ t.boot.stage = 0 ∧ t.power.state = .run ∧ t.ring.lock = .unlocked ∧ t.flash = s.flash) ∧
  (∀ s : State, s.storesWf → s.power.transit = .entering .deep → s.power.wake = false → s.power.pending = none →
    ∃ t, exec .powerEntryComplete s = .next t ∧ t.power.state = .deep ∧ t.power.transit = .none ∧
      (∀ x y, (t.cell x y).active = (s.cell x y).active ∧ (t.cell x y).shadow = (s.cell x y).shadow) ∧
      (∀ p h, p < 72 → (t.port p).link h = .disabled) ∧ t.modl = s.modl ∧ t.graft = s.graft) ∧
  (∀ s : State, s.power.transit = .entering .off → s.power.wake = false → s.power.pending = none →
    ∃ t, exec .powerEntryComplete s = .next t ∧ t.power.state = .off ∧ t.power.transit = .none ∧ t.modl.mains = false ∧
      t.modl.pwrGood = false ∧ t.cells = [] ∧ t.sess = [] ∧ t.ring.lock = .unlocked ∧ t.host.up = false ∧ t.flash = s.flash) ∧
  (∀ s : State, s.power.transit = .none → exec .powerEntryComplete s = .next s ∧ exec .powerReturnComplete s = .next s) ∧
  (∀ s : State, s.power.transit = .returning none → s.power.state ≠ .deep →
    ∃ t, exec .powerReturnComplete s = .next t ∧ t.power = { s.power with state := .run, transit := .none } ∧
      OnlyChanges [.regs, .power, .host, .sent] s t) ∧
  (∀ (s : State) (q : PState), s.power.transit = .returning (some q) → s.power.state ≠ .deep → q ≠ .run →
    ∃ t, exec .powerReturnComplete s = .next t ∧ t.power = { s.power with
        state := .run
        transit := .none
        pending := some q
        fetchStop := true } ∧ OnlyChanges [.regs, .power, .host, .sent] s t) ∧
  (∀ s : State, s.power.transit = .returning none → s.power.state = .deep →
    ∃ t, exec .powerReturnComplete s = .next t ∧ t.power.state = .run ∧ t.power.transit = .none ∧
      OnlyChanges (mayChange .powerReturnComplete) s t) ∧
  (∀ (s : State) (d : Nat), s.storesWf → s.noInjection → s.domain d = .waking → s.bark.stalled = none →
    ∃ t, exec (.domainWakeDone d) s = .next t ∧ t.domain d = .on ∧
      (∀ x y, s.inGrid x y = true → s.dieOf x y = d → (t.cell x y).active = Plane.empty ∧ (t.cell x y).shadow = Plane.empty ∧
        (t.cell x y).dead = (s.cell x y).dead ∧ ((s.cell x y).dead = false → (t.cell x y).mem.lost.isSome = true)) ∧
      t.f (PWR_CNT_COUNT 2) = (s.f (PWR_CNT_COUNT 2) + 1) % 2 ^ (PWR_CNT_COUNT 2).width ∧
      FieldsKept [PWR_DIE_WAKES d, PWR_CNT_COUNT 2] s t ∧ OnlyChanges [.regs, .power, .cells, .free] s t) ∧
  (∀ (s : State) (d : Nat), s.noInjection → s.domain d = .waking → s.ras.ringCount < 64 →
    ∃ t, exec (.domainWakeTimeout d) s = .next t ∧ t.domain d = .unavailable ∧
      (∃ r ∈ t.ras.log, r.cls = .power ∧ r.code = 6 ∧ r.src = .die d)) ∧
  (∀ (s : State) (d : Nat), s.domain d ≠ .waking →
    exec (.domainWakeDone d) s = .next s ∧ exec (.domainWakeTimeout d) s = .next s)

/-- Droop, rails and the energy allowance (parts of R402, R404, R405, R415). A detector that fires is counted, and passing LIMIT
within the millisecond is a fault; a stretch outside 8 to 32 cycles is no droop. A compute die whose rail fails is UNAVAILABLE, its
cells hold nothing, and the running step commits no more. A limb die whose rail fails is reset, and its ports lose auxiliary power
(R33). ALLOW_J and A are written together, not while a job is running. -/
def Obligations.DroopAndRails : Prop :=
  (∀ (s : State) (d n : Nat), s.storesWf → s.domain d = .on → 8 ≤ n → n ≤ 32 → sget 0 s.power.droops d ≠ s.f PWR_DROOP_LIMIT →
    ∃ t, exec (.droopEvent d n) s = .next t ∧ sget 0 t.power.droops d = sget 0 s.power.droops d + 1 ∧
      t.f PWR_DROOP_EVENTS = min (2 ^ 32 - 1) (s.f PWR_DROOP_EVENTS + 1) ∧ t.tel.droops = s.tel.droops + 1 ∧
      FieldsKept [PWR_DROOP_EVENTS, PWR_DIE_DROOPS d] s t ∧ OnlyChanges [.regs, .power, .tel] s t) ∧
  (∀ (s : State) (d n : Nat), s.storesWf → s.domain d = .on → 8 ≤ n → n ≤ 32 → sget 0 s.power.droops d = s.f PWR_DROOP_LIMIT →
    s.ras.ringCount < 64 →
    ∃ t, exec (.droopEvent d n) s = .next t ∧ (∃ r ∈ t.ras.log, r.cls = .power ∧ r.code = 5 ∧ r.src = .die d) ∧ t.clk = s.clk) ∧
  (∀ (s : State) (d n : Nat), s.domain d ≠ .on ∨ n < 8 ∨ 32 < n → exec (.droopEvent d n) s = .next s) ∧
  (∀ (s : State) (d : Nat), s.modl.mains = true → s.domain d = .on → s.ras.ringCount < 64 →
    ∃ t, exec (.railFault d) s = .next t ∧ t.domain d = .unavailable ∧
      (∀ x y, s.inGrid x y = true → s.dieOf x y = d → (t.cell x y).active = Plane.empty ∧ (t.cell x y).shadow = Plane.empty ∧
        (t.cell x y).dead = (s.cell x y).dead) ∧
      (∃ r ∈ t.ras.log, r.cls = .power ∧ r.code = 7 ∧ r.src = .die d) ∧
      (∀ j, s.running = some j → j.pastCommit = false → ∃ k, t.running = some k ∧ k.blocked = true ∧ k.step = j.step)) ∧
  (∀ (s : State) (d : Nat), s.modl.mains = true → 48 ≤ d → d < 60 → s.ras.ringCount < 64 →
    ∃ t, exec (.railFault d) s = .next t ∧ (∀ p, p < 72 → limbOfPort p = d - 48 → (t.port p).auxOn = false) ∧
      (∀ p, p < 72 → limbOfPort p ≠ d - 48 → (t.port p).auxOn = (s.port p).auxOn) ∧
      (t.limb (d - 48)).pending = [] ∧ (∃ r ∈ t.ras.log, r.cls = .power ∧ r.code = 7 ∧ r.src = .die d)) ∧
  (∀ (s : State) (d : Nat), s.modl.mains = false → exec (.railFault d) s = .next s) ∧
  (∀ (s : State) (n : Nat), s.busyJob = true → exec (.excursionWrite n) s = .next s) ∧
  (∀ (s : State) (n : Nat), s.storesWf → s.busyJob = false → n ≤ 65535 →
    ∃ t, exec (.excursionWrite n) s = .next t ∧ t.f PWR_EXCURSION_ALLOW_J = n ∧ t.power = { s.power with allow := n * 10 ^ 9 } ∧
      FieldsKept [PWR_EXCURSION_ALLOW_J] s t ∧ OnlyChanges [.regs, .power] s t) ∧
  (∀ (s : State) (n : Nat), s.storesWf → s.busyJob = false → 65535 < n →
    ∃ t, exec (.excursionWrite n) s = .next t ∧ t.f PWR_STATUS_CFG_REJECT = 1 ∧ FieldsKept [PWR_STATUS_CFG_REJECT] s t ∧
      OnlyChanges [.regs] s t)

/-- Decision edges (R396 whole; parts of R395, R398, R401, R407). They fall on every D-th ring edge alone. D is 200 to 7 for the six
periods. There the cap and the class setting written are taken and not before, C is the lower of the caps and the coolant limit in
50 W units, an episode of CAP_UNMET ends once P_1ms is at most C, and the thermal ceiling falls by STEP while a die in use is at
THROTTLE or above, rises by STEP to at most 120 when all are below THROTTLE less HYST, and otherwise stays. -/
def Obligations.DecisionEdges : Prop :=
  (∀ s : State, s.now % decisionRings s.ring.period ≠ 0 ∨ s.modl.mains = false → exec .decisionEdge s = .next s) ∧
  (∀ s : State, s.storesWf → s.noInjection → s.now % decisionRings s.ring.period = 0 → s.modl.mains = true →
    ∃ t, exec .decisionEdge s = .next t ∧ t.power.cap = min (s.f PWR_CAP_ENGINE_CAP) s.power.mgmtCap ∧
      t.power.capInForce = min t.power.cap (s.modl.pCool / 50) ∧
      t.power.classInForce = s.f PWR_CLASS_PRIO + 2 ^ 8 * s.f PWR_CLASS_FLOOR_COMPUTE + 2 ^ 18 * s.f PWR_CLASS_FLOOR_MEMORY +
        2 ^ 28 * s.f PWR_CLASS_FLOOR_LINKS ∧
      (s.power.measW ≤ 50 * t.power.capInForce → t.power.capUnmet = false) ∧
      (∀ d, d < 61 → s.hotUse d = true → 100 * (s.f THM_CONFIG_THROTTLE : Int) ≤ s.dieTemp d →
        t.thermal.ceil = s.thermal.ceil - s.f THM_CONFIG_STEP) ∧
      ((∀ d, d < 61 → s.hotUse d = true → s.dieTemp d < 100 * (s.f THM_CONFIG_THROTTLE : Int) - 100 * (s.f THM_CONFIG_HYST : Int)) →
        t.thermal.ceil = min 120 (s.thermal.ceil + s.f THM_CONFIG_STEP)) ∧
      ((∀ d, d < 61 → s.hotUse d = true → s.dieTemp d < 100 * (s.f THM_CONFIG_THROTTLE : Int)) →
        (∃ d, d < 61 ∧ s.hotUse d = true ∧ 100 * (s.f THM_CONFIG_THROTTLE : Int) - 100 * (s.f THM_CONFIG_HYST : Int) ≤ s.dieTemp d) →
        t.thermal.ceil = s.thermal.ceil)) ∧
  (List.range 6).map decisionRings = [200, 100, 50, 25, 13, 7] ∧
  (∀ (s : State) (w : Word64), ∀ a ∈ [0x30010, 0x30018], ∃ t, exec (.registerWrite a w) s = .next t ∧ OnlyChanges [.regs] s t) ∧
  (∀ (s : State) (n : Nat), ∃ t, exec (.setCap n) s = .next t ∧ t.power = { s.power with mgmtCap := t.power.mgmtCap })

/-- Sensors and trips (parts of R406, R408, R409, R416). Each reading is shown with its verdict against its die's median, and each
die shows how many are valid. A compute die in use with too few raises SENSOR. A hard trip drops main rails, ends the job and
asserts both lines. TRIP_CLEAR acts only when every die is cold. CLR_PEAK forgets the peaks. -/
def Obligations.SensorsAndTrips : Prop :=
  (∀ (s : State) (r : List Int), s.storesWf → r.length = 818 →
    (∀ d, d < 48 → 8 ≤ (((r.drop (16 * d)).take 16).filter (sensorOk (median2 ((r.drop (16 * d)).take 16)))).length) →
    ∃ t, exec (.sensorSample r) s = .next t ∧
      (∀ d k v, d < 61 → k < (sensorsOf d).2 → r[(sensorsOf d).1 + k]? = some v →
        t.f (THM_SENSOR_TEMP ((sensorsOf d).1 + k)) = temp16 v ∧
        t.f (THM_SENSOR_VALID ((sensorsOf d).1 + k)) = bit (sensorOk (median2 ((r.drop (sensorsOf d).1).take (sensorsOf d).2)) v)) ∧
      (∀ d, d < 61 → t.f (THM_DIE_VALID d) = (((r.drop (sensorsOf d).1).take (sensorsOf d).2).filter
        (sensorOk (median2 ((r.drop (sensorsOf d).1).take (sensorsOf d).2)))).length ∧ t.f (THM_DIE_INVALID d) = 0) ∧
      OnlyChanges [.regs, .tel] s t) ∧
  (∀ (s : State) (r : List Int) (d : Nat), r.length = 818 → d < 48 → s.thermalUse d = true → s.f (THM_DIE_INVALID d) = 0 →
    (∀ e, e < 48 → ((((r.drop (16 * e)).take 16).filter (sensorOk (median2 ((r.drop (16 * e)).take 16)))).length < 8 ↔ e = d)) →
    s.ras.ringCount < 64 →
    ∃ t, exec (.sensorSample r) s = .next t ∧ (∃ q ∈ t.ras.log, q.cls = .thermal ∧ q.code = 4 ∧ q.src = .die d)) ∧
  (∀ (s : State) (r : List Int), r.length ≠ 818 → exec (.sensorSample r) s = .next s) ∧
  (∀ (s : State) (d : Nat), s.modl.mains = true → d < 61 → s.ras.ringCount < 64 →
    ∃ t, exec (.hardTrip d) s = .next t ∧ t.modl.hardTripped = true ∧ t.modl.mains = false ∧ t.modl.pwrGood = false ∧
      t.modl.faultN = true ∧ t.modl.thermTripN = true ∧ t.job.cur = none ∧ t.cells = [] ∧ t.hw.closed = true ∧
      (∃ q ∈ t.ras.log, q.cls = .thermal ∧ q.code = 5 ∧ q.src = .die d) ∧ t.hw.regs = s.hw.regs ∧ t.flash = s.flash) ∧
  (∀ (s : State) (d : Nat), s.modl.mains = false ∨ 61 ≤ d → exec (.hardTrip d) s = .next s) ∧
  (∀ s : State, s.storesWf →
    (∀ d, d < 61 → s.dieTemp d < 100 * ((s.f THM_CONFIG_THROTTLE : Int) - s.f THM_CONFIG_HYST)) →
    ∃ t, exec .tripClear s = .next t ∧ t.f THM_STATUS_TRIP = 0 ∧ t.thermal = { s.thermal with tripped := false } ∧
      t.modl = { s.modl with thermTripN := false } ∧ FieldsKept [THM_STATUS_TRIP] s t ∧ OnlyChanges [.regs, .thermal, .modl] s t) ∧
  (∀ (s : State) (d : Nat), d < 61 → 100 * ((s.f THM_CONFIG_THROTTLE : Int) - s.f THM_CONFIG_HYST) ≤ s.dieTemp d →
    exec .tripClear s = .next s) ∧
  (∀ s : State, s.storesWf →
    ∃ t, exec .clrPeak s = .next t ∧ (∀ d, d < 61 → t.f (THM_DIE_PEAK d) = 0) ∧
      FieldsKept ((List.range 61).map THM_DIE_PEAK) s t ∧ OnlyChanges [.regs] s t)

/-- Telemetry and the journal's way out (parts of R411, R412, R361, R417, R434 to R436). Enabling numbers records from 0 and begins
an interval; without groups it is ignored. A waiting record goes to its data block in the host's region under the host session's
key, or is dropped and counted when the engine may not write host memory; its tag entry is written with it. A journal block goes the
same way once it is full, and not before while the journal records; a target with no room left stops the journal. -/
def Obligations.TelemetryAndJournal : Prop :=
  (∀ s : State, s.storesWf → s.f TEL_CTRL_ENABLE = 0 → s.f TEL_LEN_GROUPS ≠ 0 →
    ∃ t, exec (.telEnableWrite true) s = .next t ∧ t.f TEL_CTRL_ENABLE = 1 ∧ t.f TEL_SEQ_SEQ = 0 ∧
      t.tel = { Tel.reset with energyStart := s.power.energy } ∧ FieldsKept [TEL_CTRL_ENABLE, TEL_SEQ_SEQ] s t ∧
      OnlyChanges [.regs, .tel] s t) ∧
  (∀ s : State, s.f TEL_CTRL_ENABLE = 1 ∨ s.f TEL_LEN_GROUPS = 0 → exec (.telEnableWrite true) s = .next s) ∧
  (∀ s : State, s.storesWf →
    ∃ t, exec (.telEnableWrite false) s = .next t ∧ t.f TEL_CTRL_ENABLE = 0 ∧ FieldsKept [TEL_CTRL_ENABLE] s t ∧ OnlyChanges [.regs] s t) ∧
  (∀ s : State, s.tel.due = none → exec .telemetryRecord s = .next s) ∧
  (∀ (s : State) (q : Nat × List Byte), s.storesWf → s.tel.due = some q → s.canMaster = false →
    ∃ t, exec .telemetryRecord s = .next t ∧ t.tel = { s.tel with due := none, dropped := true } ∧ t.sent = s.sent ∧
      t.f (TEL_CNT_COUNT 1) = (s.f (TEL_CNT_COUNT 1) + 1) % 2 ^ (TEL_CNT_COUNT 1).width ∧
      FieldsKept [TEL_CNT_COUNT 1, ID_HOST_CNT_COUNT 5] s t ∧ OnlyChanges [.regs, .tel] s t) ∧
  (∀ (s : State) (q : Nat × List Byte) (h : HostSess), s.storesWf → s.tel.due = some q → s.canMaster = true → s.bark.host = some h →
    ∃ (t : State) (data : List Byte), exec .telemetryRecord s = .next t ∧ t.tel.due = none ∧ t.tel.dropped = false ∧
      t.f TEL_SEQ_SEQ = (s.f TEL_SEQ_SEQ + 1) % 2 ^ TEL_SEQ_SEQ.width ∧
      t.f (TEL_CNT_COUNT 0) = (s.f (TEL_CNT_COUNT 0) + 1) % 2 ^ (TEL_CNT_COUNT 0).width ∧
      t.bark = { s.bark with host := some { h with engCtr := h.engCtr + 1 } } ∧
      (∃ a, a = blockAddr (2 ^ 12 * s.f TEL_BASE_ADDR) (s.f TEL_SEQ_SEQ / 8 % (64 * s.f TEL_LEN_GROUPS)) ∧
        Emit.hostWrite a (gcmSeal h.key (leBytes 8 h.engCtr ++ leBytes 4 0x11) (leBytes 8 a) (padTo 4096 data)).1 ∈ t.sent) ∧
      (∃ e, Emit.hostWrite (tagAddr (2 ^ 12 * s.f TEL_BASE_ADDR) (s.f TEL_SEQ_SEQ / 8 % (64 * s.f TEL_LEN_GROUPS)) +
        32 * (s.f TEL_SEQ_SEQ / 8 % (64 * s.f TEL_LEN_GROUPS) % 64)) e ∈ t.sent) ∧
      OnlyChanges [.regs, .tel, .bark, .host, .sent] s t) ∧
  (∀ s : State, s.journal.waiting.length < 4096 → s.journal.recording = true → exec .journalWrite s = .next s) ∧
  (∀ (s : State) (h : HostSess), 4096 ≤ s.journal.waiting.length → s.f JOURNAL_CTRL_TARGET = 1 →
    s.journal.used < 64 * s.f JOURNAL_LEN_SIZE → s.canMaster = true → s.bark.host = some h →
    ∃ t, exec .journalWrite s = .next t ∧ t.journal.waiting = s.journal.waiting.drop 4096 ∧ t.journal.used = s.journal.used + 1 ∧
      (∃ a, a = blockAddr (4096 * s.f JOURNAL_BASE_ADDR) s.journal.used ∧ Emit.hostWrite a (gcmSeal h.key
        (leBytes 8 h.engCtr ++ leBytes 4 0x12) (leBytes 8 a) (padTo 4096 (s.journal.waiting.take 4096))).1 ∈ t.sent) ∧
      OnlyChanges [.journal, .bark, .sent] s t) ∧
  (∀ s : State, s.storesWf → s.journal.waiting ≠ [] → s.journal.recording = false → s.f JOURNAL_CTRL_TARGET = 1 →
    64 * s.f JOURNAL_LEN_SIZE ≤ s.journal.used → s.journal.stopped = false →
    ∃ t, exec .journalWrite s = .next t ∧ t.journal = { s.journal with stopped := true, stopRing := s.now } ∧
      t.f JOURNAL_STATUS_STOPPED = 1 ∧ FieldsKept [JOURNAL_STATUS_STOPPED, ID_INT_CAUSE_CAUSE, ID_HOST_CNT_COUNT 7] s t ∧
      OnlyChanges [.regs, .journal, .host, .sent] s t)

/-- Events of the module (R28 whole; parts of R20, R22, R23, R26, R27, R445, R446). A main input that leaves its range drops main
rails, ends the job, asserts FAULT_N and leaves a record, whether or not main rails are up; its return boots the engine. What is out
of range cannot leave it again. Standby gone, or risen again, is a power-on reset: heartwood and flash stay, SLOT_ID is sampled.
RESET_N is an ENGINE reset when its pulse is 2.5 µs or longer, and nothing when it is shorter than 1.5 µs; the same filter is on
WAKE_N. A condensation hold with main rails up is a fault; its end after a drop boots the engine. A tilt warning shows; that it
stands until standby is lost is the model's choice (log 63). -/
def Obligations.ModuleEvents : Prop :=
  (∀ s : State, s.modl.standby = true → s.modl.inputOk = true → s.ras.ringCount < 64 →
    ∃ t, exec .inputFail s = .next t ∧ t.modl.inputFailed = true ∧ t.modl.inputOk = false ∧ t.modl.mains = false ∧ t.modl.faultN = true ∧
      t.modl.pwrGood = false ∧ t.job.cur = none ∧ t.cells = [] ∧ t.hw.closed = true ∧
      (∃ q ∈ t.ras.log, q.cls = .power ∧ q.code = 1 ∧ q.src = .engine) ∧ t.hw.regs = s.hw.regs ∧ t.flash = s.flash) ∧
  (∀ s : State, s.modl.inputOk = false → exec .inputFail s = .next s) ∧
  (∀ s : State, s.modl.standby = true → s.modl.inputFailed = true →
    ∃ t, exec .inputReturn s = .next t ∧ t.modl.inputOk = true ∧ t.modl.inputFailed = false ∧ t.boot.stage = 0 ∧ t.ring.lock = .unlocked ∧
      t.hw.regs = s.hw.regs ∧ t.flash = s.flash) ∧
  (∀ s : State, s.modl.standby = true → s.modl.inputFailed = false →
    ∃ t, exec .inputReturn s = .next t ∧ t.modl = { s.modl with inputOk := true } ∧ OnlyChanges [.modl] s t) ∧
  (∀ s : State, s.modl.standby = true → s.hw.busy = [] →
    ∃ t, exec .standbyLoss s = .next t ∧ t.modl.standby = false ∧ t.modl.mains = false ∧ t.regs = [] ∧ t.cells = [] ∧
      t.hw.regs = s.hw.regs ∧ t.flash = s.flash ∧ t.boot = Boot.reset) ∧
  (∀ (s : State) (slot : Nat), s.modl.standby = false → slot < 8 →
    ∃ t, exec (.powerOn slot) s = .next t ∧ t.modl.standby = true ∧ t.modl.slotId = slot ∧ t.regs = [] ∧ t.cells = [] ∧
      t.hw.regs = s.hw.regs ∧ t.flash = s.flash ∧ t.boot = Boot.reset ∧ t.ring = Ring.reset) ∧
  (∀ (s : State) (slot : Nat), s.modl.standby = true → exec (.powerOn slot) s = .next s) ∧
  (∀ s : State, s.modl.standby = false →
    ∀ c ∈ [Instr.inputFail, .inputReturn, .standbyLoss], exec c s = .next s) ∧
  (∀ (s : State) (ns : Nat), 2500 ≤ ns → s.modl.standby = true →
    ∃ t, exec (.resetN ns) s = .next t ∧ t.boot.stage = 0 ∧ t.ring.lock = .unlocked ∧ t.cells = [] ∧ t.sess = [] ∧ t.job.cur = none ∧
      t.bark.grant = none ∧ t.ras.log = [] ∧ t.modl.slotId = s.modl.slotId ∧ t.hw.regs = s.hw.regs ∧ t.flash = s.flash) ∧
  (∀ (s : State) (ns : Nat), ns < 1500 → exec (.resetN ns) s = .next s) ∧
  (∀ (s : State) (ns : Nat), 2500 ≤ ns → exec (.resetN ns) s = exec (.resetN 2500) s ∧ exec (.wakeN ns) s = exec (.wakeN 2500) s) ∧
  (∀ (s : State) (ns : Nat), ns < 1500 → exec (.wakeN ns) s = .next s) ∧
  (∀ s : State, s.modl.hold = false → s.modl.mains = true → s.ras.ringCount < 64 →
    ∃ t, exec .condensationHold s = .next t ∧ t.modl.hold = true ∧ (∃ q ∈ t.ras.log, q.cls = .thermal ∧ q.code = 6 ∧ q.src = .engine)) ∧
  (∀ s : State, s.modl.hold = false → s.modl.mains = false →
    ∃ t, exec .condensationHold s = .next t ∧ t.modl = { s.modl with hold := true } ∧ OnlyChanges [.modl] s t) ∧
  (∀ s : State, s.modl.hold = true → s.modl.holdDropped = false →
    ∃ t, exec .condensationClear s = .next t ∧ t.modl = { s.modl with hold := false } ∧ OnlyChanges [.modl] s t) ∧
  (∀ s : State, s.modl.hold = true → s.modl.holdDropped = true →
    ∃ t, exec .condensationClear s = .next t ∧ t.modl.hold = false ∧ t.modl.holdDropped = false ∧ t.boot.stage = 0 ∧
      t.ring.lock = .unlocked) ∧
  (∀ s : State, ∃ t, exec .tiltWarning s = .next t ∧ t.modl = { s.modl with tilt := true } ∧ OnlyChanges [.modl] s t)

/-! ## Injection, recovery, boot -/

/-- The INJ registers (parts of R353, R422, R442). Without an active grant that carries INJECT a write is ignored and counted. With
it, GO arms the register for the detector, the place and the ring written; a register armed already, or a detector of another one,
is ignored and counted; without GO only the fields are set. -/
def Obligations.Injections : Prop :=
  (∀ (s : State) (w : Word64), s.storesWf → s.mayInject = false → ∀ c ∈ [Instr.injCell w, .injNet w, .injEdge w, .injRoot w],
    ∃ t, exec c s = .next t ∧ t.f (BARK_CNT_COUNT 10) = (s.f (BARK_CNT_COUNT 10) + 1) % 2 ^ (BARK_CNT_COUNT 10).width ∧
      FieldsKept [BARK_CNT_COUNT 10] s t ∧ OnlyChanges [.regs] s t) ∧
  (∀ (s : State) (w : Word64), s.storesWf → s.mayInject = true →
    (INJ_CELL_GO.of w = 1 → (s.ras.inj.cell.isSome = true ∨ INJ_CELL_DET.of w < 1 ∨ 12 < INJ_CELL_DET.of w) →
      ∃ t, exec (.injCell w) s = .next t ∧ t.f INJ_COUNT_IGNORED = min (2 ^ INJ_COUNT_IGNORED.width - 1) (s.f INJ_COUNT_IGNORED + 1) ∧
        FieldsKept [INJ_COUNT_IGNORED] s t ∧ OnlyChanges [.regs] s t) ∧
    (INJ_EDGE_GO.of w = 1 → (s.ras.inj.edge.isSome = true ∨ INJ_EDGE_DET.of w < 17 ∨ 26 < INJ_EDGE_DET.of w) →
      ∃ t, exec (.injEdge w) s = .next t ∧ t.f INJ_COUNT_IGNORED = min (2 ^ INJ_COUNT_IGNORED.width - 1) (s.f INJ_COUNT_IGNORED + 1) ∧
        FieldsKept [INJ_COUNT_IGNORED] s t ∧ OnlyChanges [.regs] s t)) ∧
  (∀ (s : State) (w : Word64), s.storesWf → s.mayInject = true → INJ_CELL_GO.of w = 1 → s.ras.inj.cell = none → 1 ≤ INJ_CELL_DET.of w →
    INJ_CELL_DET.of w ≤ 12 →
    ∃ t, exec (.injCell w) s = .next t ∧ t.ras = { s.ras with inj := { s.ras.inj with
        cell := some ⟨INJ_CELL_DET.of w, INJ_CELL_PARAM.of w, 2 ^ 10 * INJ_CELL_X.of w + INJ_CELL_Y.of w, s.armRing⟩ } } ∧
      (∀ F ∈ [INJ_CELL_DET, INJ_CELL_PARAM, INJ_CELL_X, INJ_CELL_Y], t.f F = F.of w) ∧
      FieldsKept [INJ_CELL_DET, INJ_CELL_PARAM, INJ_CELL_X, INJ_CELL_Y] s t ∧ OnlyChanges [.regs, .power, .ras] s t) ∧
  (∀ (s : State) (w : Word64), s.storesWf → s.mayInject = true → INJ_NET_GO.of w = 1 → s.ras.inj.net = none → 13 ≤ INJ_NET_DET.of w →
    INJ_NET_DET.of w ≤ 16 →
    ∃ t, exec (.injNet w) s = .next t ∧ t.ras = { s.ras with inj := { s.ras.inj with
        net := some ⟨INJ_NET_DET.of w, INJ_NET_BITS.of w, 2 ^ 34 * INJ_NET_PORT.of w + 2 ^ 32 * INJ_NET_NET.of w + 2 ^ 10 * INJ_NET_X.of w +
          INJ_NET_Y.of w, s.armRing⟩ } } ∧
      FieldsKept [INJ_NET_DET, INJ_NET_BITS, INJ_NET_PORT, INJ_NET_NET, INJ_NET_X, INJ_NET_Y] s t ∧ OnlyChanges [.regs, .power, .ras] s t) ∧
  (∀ (s : State) (w : Word64), s.storesWf → s.mayInject = true → INJ_EDGE_GO.of w = 1 → s.ras.inj.edge = none → 17 ≤ INJ_EDGE_DET.of w →
    INJ_EDGE_DET.of w ≤ 26 →
    ∃ t, exec (.injEdge w) s = .next t ∧ t.ras = { s.ras with inj := { s.ras.inj with
        edge := some ⟨INJ_EDGE_DET.of w, INJ_EDGE_PARAM.of w, 2 ^ 16 * INJ_EDGE_SESSION.of w + 128 * INJ_EDGE_HALF.of w + INJ_EDGE_PORT.of w,
          s.armRing⟩ } } ∧
      FieldsKept [INJ_EDGE_DET, INJ_EDGE_PARAM, INJ_EDGE_SESSION, INJ_EDGE_HALF, INJ_EDGE_PORT] s t ∧ OnlyChanges [.regs, .ras] s t) ∧
  (∀ (s : State) (w : Word64), s.storesWf → s.mayInject = true → INJ_ROOT_GO.of w = 1 → s.ras.inj.root = none → 27 ≤ INJ_ROOT_DET.of w →
    INJ_ROOT_DET.of w ≤ 46 →
    ∃ t, exec (.injRoot w) s = .next t ∧ t.ras = { s.ras with inj := { s.ras.inj with
        root := some ⟨INJ_ROOT_DET.of w, INJ_ROOT_PARAM.of w, INJ_ROOT_DIE.of w, s.armRing⟩ } } ∧
      FieldsKept [INJ_ROOT_DET, INJ_ROOT_PARAM, INJ_ROOT_DIE] s t ∧ OnlyChanges [.regs, .power, .ras] s t) ∧
  (∀ (s : State) (w : Word64), s.storesWf → s.mayInject = true → INJ_ROOT_GO.of w = 0 →
    ∃ t, exec (.injRoot w) s = .next t ∧ (∀ F ∈ [INJ_ROOT_DET, INJ_ROOT_PARAM, INJ_ROOT_DIE], t.f F = F.of w) ∧
      FieldsKept [INJ_ROOT_DET, INJ_ROOT_PARAM, INJ_ROOT_DIE] s t ∧ OnlyChanges [.regs] s t)

/-- Recovery from dead cells (parts of R426, R428 to R430, R438, R464, Table 15.7). At the edge after the declaration the step is
abandoned and the row of the dead cell is retired in its band's entry; with no spare row left, or with an abort of the same ring,
the job ends. The stages follow one another. Restored windows that neither image fills hold zeros; the replay begins at the step
after the checkpoint, or the job is at the dead step at once; a chunk that fails, and no checkpoint after a committed step, end the
job. A replay that has come to its end resumes the job at the dead step, or ends it when none is left. Out of a job a shift makes
the band's entry persistent at once; that this is one command is the model's choice (log 33). -/
def Obligations.RecoverySteps : Prop :=
  (∀ (s : State) (j : Job) (r n row : Nat), s.job.cur = some j → s.ras.recov.declared = some r → ringBefore r s.now = true →
    j.stage = .running → j.abort = none → s.ras.recov.pendingShifts = [(n, row)] → s.canRetire n row →
    ∃ t k, exec .recoveryStart s = .next t ∧ t.job.cur = some k ∧ k.stage = .recovering ∧ k.desc = j.desc ∧ k.step = j.step ∧
      t.ras.recov.stage = .shift ∧ t.ras.recov.pendingShifts = [] ∧ t.ras.recov.declared = none ∧
      t.hwNext (0x0D0 + n / 2) / 2 ^ (32 * (n % 2)) % 2 ^ 32 = (bandFields (s.rowsWith n row)).1) ∧
  (∀ (s : State) (j : Job) (r n row : Nat), s.job.cur = some j → s.ras.recov.declared = some r → ringBefore r s.now = true →
    j.stage = .running → j.abort = none → s.ras.recov.pendingShifts = [(n, row)] → 4 < (s.rowsWith n row).length → s.ras.ringCount < 64 →
    ∃ t, exec .recoveryStart s = .next t ∧ t.job.cur = none ∧ (∃ q ∈ t.ras.log, q.cls = .cellDead ∧ q.code = 0x101)) ∧
  (∀ (s : State) (j : Job) (r a : Nat), s.job.cur = some j → s.ras.recov.declared = some r → ringBefore r s.now = true →
    j.stage ≠ .preparing → j.abort = some (a, r) → ∃ t, exec .recoveryStart s = .next t ∧ t.job.cur = none) ∧
  (∀ s : State, s.job.cur = none ∨ s.ras.recov.declared = none → exec .recoveryStart s = .next s) ∧
  (∀ (s : State) (n row k : Nat), swf HwReg.zero s.hw.regs = true → s.jobOn = false → s.ras.recov.pendingShifts = [(n, row)] →
    s.canRetire n row → (s.hwReg (0x0D0 + n / 2)).nextLive = some k → (s.hwReg (0x0D0 + n / 2)).slots.length = 4 →
    ∃ t, exec .bandShift s = .next t ∧ t.ras.recov.pendingShifts = [] ∧
      t.hwVal (0x0D0 + n / 2) / 2 ^ (32 * (n % 2)) % 2 ^ 32 = (bandFields (s.rowsWith n row)).1 ∧
      OnlyChanges (mayChange .bandShift) s t) ∧
  (∀ s : State, s.jobOn = true ∨ s.ras.recov.pendingShifts = [] → exec .bandShift s = .next s) ∧
  (∀ s : State, s.ras.recov.stage = .shift → s.hwIdle → (∀ p ∈ s.ras.recov.cells, (s.cell p.1 p.2).dead = false) →
    ∃ t, exec .shiftComplete s = .next t ∧ t.ras = { s.ras with recov := { s.ras.recov with stage := .copy } } ∧ OnlyChanges [.ras] s t) ∧
  (∀ s : State, s.ras.recov.stage = .shift → s.hwIdle → (∃ p ∈ s.ras.recov.cells, (s.cell p.1 p.2).dead = true) →
    ∃ t, exec .shiftComplete s = .next t ∧ t.job.cur = none) ∧
  (∀ s : State, s.ras.recov.stage = .copy →
    ∃ t, exec .copyComplete s = .next t ∧ t.ras = { s.ras with recov := { s.ras.recov with stage := .restore } } ∧ OnlyChanges [.ras] s t) ∧
  (∀ (s : State) (j : Job) (own : List Byte), s.storesWf → s.job.cur = some j → s.ras.recov.stage = .restore →
    s.job.valid0.isSome = true ∨ s.job.valid1.isSome = true ∨ j.committed = 0 → s.ras.recov.resumeAt ≤ s.job.firstReplayed →
    ∃ t, exec (.restoreComplete ⟨none, [], [], own⟩) s = .next t ∧
      t.ras = { s.ras with recov := { s.ras.recov with stage := .replay } } ∧
      t.job.cur = some { j with
        s := (s.now + ringMod - s.job.firstReplayed * j.l % ringMod) % ringMod
        step := s.ras.recov.resumeAt
        phase := .work } ∧
      (∀ x y a id, s.inGrid x y = true → a < scratchBytes → (s.cell x y).active.transient a = true → (t.cell x y).mem.byte id a = 0) ∧
      (∀ x y, (t.cell x y).active = (s.cell x y).active) ∧ OnlyChanges [.cells, .ras, .job, .journal] s t) ∧
  (∀ (s : State) (j : Job) (r : Restore), s.storesWf → s.job.cur = some j → s.ras.recov.stage = .restore → r.chunkFault = none →
    s.job.valid0.isSome = true ∨ s.job.valid1.isSome = true ∨ j.committed = 0 → s.job.firstReplayed < s.ras.recov.resumeAt →
    ∃ t k, exec (.restoreComplete r) s = .next t ∧ t.job.cur = some k ∧ k.step = s.job.firstReplayed ∧ k.stage = .recovering ∧
      k.s = (s.now + ringMod - s.job.firstReplayed * j.l % ringMod) % ringMod ∧ k.desc = j.desc ∧ t.ras.recov.stage = .replay) ∧
  (∀ (s : State) (j : Job) (c : Nat) (r : Restore), s.storesWf → s.job.cur = some j → s.ras.recov.stage = .restore → r.chunkFault = some c →
    s.ras.ringCount < 63 →
    ∃ t, exec (.restoreComplete r) s = .next t ∧ t.job.cur = none ∧ t.f RAS_STATUS_LAST_RESULT = 3 ∧
      (∃ q ∈ t.ras.log, q.cls = .security ∧ q.code = c) ∧ (∃ q ∈ t.ras.log, q.cls = .cellDead ∧ q.code = 0x102)) ∧
  (∀ (s : State) (j : Job) (r : Restore), s.storesWf → s.job.cur = some j → s.ras.recov.stage = .restore → r.chunkFault = none →
    s.job.valid0 = none → s.job.valid1 = none → j.committed ≠ 0 → s.ras.ringCount < 64 →
    ∃ t, exec (.restoreComplete r) s = .next t ∧ t.job.cur = none ∧ t.f RAS_STATUS_LAST_RESULT = 3 ∧
      (∃ q ∈ t.ras.log, q.cls = .cellDead ∧ q.code = 0x102)) ∧
  (∀ (s : State) (j : Job), s.storesWf → s.job.cur = some j → s.ras.recov.stage = .replay → s.replayOver j = true → j.phase ≠ .update →
    s.ras.recov.inUpdate = false → s.ras.recov.resumeAt < j.desc.steps →
    ∃ t k, exec .replayComplete s = .next t ∧ t.job.cur = some k ∧ k.stage = .running ∧ k.step = s.ras.recov.resumeAt ∧
      k.s = (s.now + ringMod - s.ras.recov.resumeAt * j.l % ringMod) % ringMod ∧ t.ras.recov.stage = .idle ∧
      t.f RAS_STATUS_LAST_RESULT = 1) ∧
  (∀ (s : State) (j : Job), s.storesWf → s.job.cur = some j → s.ras.recov.stage = .replay → s.replayOver j = true → j.phase ≠ .update →
    j.desc.steps ≤ s.ras.recov.resumeAt →
    ∃ t, exec .replayComplete s = .next t ∧ t.job.cur = none ∧ t.ras.recov.stage = .idle ∧ t.f RAS_STATUS_LAST_RESULT = 1) ∧
  (∀ (s : State) (j : Job), s.job.cur = some j → s.ras.recov.stage ≠ .replay ∨ s.replayOver j = false →
    exec .replayComplete s = .next s)

/-- Field self-test (parts of R431, R432). The test of a cell counts, and out of a job the next of its band follows. One that fails
counts too; for a cell in use that is CELL_DEAD/SELF_TEST, and the cell is dead. What is said of a cell that is not under test
changes nothing. -/
def Obligations.SelfTests : Prop :=
  (∀ (s : State) (px py : Nat), s.storesWf → s.noInjection → px < 1152 → py < 792 → s.dieEnabled (8 * (py / 132) + px / 144) = true →
    s.underTest (8 * (py / 132) + px / 144) (px % 144) (py % 132) = true →
    ∃ t, exec (.selfTestDone px py true) s = .next t ∧
      t.f (RAS_CNT_COUNT 6) = (s.f (RAS_CNT_COUNT 6) + 1) % 2 ^ (RAS_CNT_COUNT 6).width ∧ t.cells = s.cells ∧
      FieldsKept [RAS_CNT_COUNT 6] s t ∧ OnlyChanges [.regs, .ras] s t) ∧
  (∀ (s : State) (px py x y : Nat), s.storesWf → s.noInjection → px < 1152 → py < 792 → s.dieEnabled (8 * (py / 132) + px / 144) = true →
    s.underTest (8 * (py / 132) + px / 144) (px % 144) (py % 132) = true →
    s.logicalAt (8 * (py / 132) + px / 144) (py % 132) (px % 144) = some (x, y) → (s.cell x y).dead = false → s.ras.ringCount < 64 →
    ∃ t, exec (.selfTestDone px py false) s = .next t ∧
      t.f (RAS_CNT_COUNT 7) = (s.f (RAS_CNT_COUNT 7) + 1) % 2 ^ (RAS_CNT_COUNT 7).width ∧ (t.cell x y).dead = true ∧
      (∃ q ∈ t.ras.log, q.cls = .cellDead ∧ q.code = 5 ∧ q.src = .cell x y)) ∧
  (∀ (s : State) (px py : Nat) (b : Bool), 1152 ≤ px ∨ 792 ≤ py ∨ s.dieEnabled (8 * (py / 132) + px / 144) = false ∨
    s.underTest (8 * (py / 132) + px / 144) (px % 144) (py % 132) = false → exec (.selfTestDone px py b) s = .next s)

/-- The boot up to Trunk (parts of R5, R64, R337, R341, R344, R346, R446 to R448, R450, R454, Table 16.2). Each stage ends in the
next one when what it checks holds. RESET_N low holds the boot in stage 0. ROM runs the Seed image of the bank it tries first when
that verifies, and enters its recovery mode when no bank does; Seed does so with Trunk. With more bit errors than the extractor
corrects or a damaged helper record, with a certificate that fails any of its checks, or without a write left for the ENGINE epoch
the boot stops; a latched RECOVERY_ENTER holds Seed. A boot that stopped, or holds in ROM or Seed recovery, takes no further stage.
The epoch of the new boot is one more than the last. -/
def Obligations.BootToTrunk : Prop :=
  (∀ (s : State) (o : BootObs), s.bootsAt 0 → o.resetLow = true → exec (.bootStage o) s = .next s) ∧
  (∀ (s : State) (o : BootObs), s.bootsAt 0 → o.resetLow = false →
    ∃ t, exec (.bootStage o) s = .next t ∧ t.boot.stage = 1 ∧ t.clk.trimValid = (s.hwReg 0x008).newest.isSome ∧
      OnlyChanges [.boot, .clk] s t) ∧
  (∀ (s : State) (o : BootObs) (b : Bool) (k : Bank) (rest : List (Bool × Bank)) (i : FwImage), s.bootsAt 1 → s.bark.meas.length = 9 →
    s.flash.order 1 = (b, k) :: rest → imageOf k.image = some i →
    ∃ t, exec (.bootStage o) s = .next t ∧
      (if (s.fwVerify 1 k.image 0).passed then t.boot.stage = 2 ∧ t.boot.seed = some i ∧ t.clk.seedVerified = true ∧
        t.bark.meas[1]? = some (sha384 (s.bark.meas.getD 1 [] ++ i.digest))
       else rest = [] → t.boot.stage = 1 ∧ t.boot.recovery = .rom ∧ t.modl.faultN = true) ∧
      OnlyChanges (mayChange (.bootStage o)) s t) ∧
  (∀ (s : State) (o : BootObs), s.bootsAt 1 → s.flash.order 1 = [] →
    ∃ t, exec (.bootStage o) s = .next t ∧ t.boot.stage = 1 ∧ t.boot.recovery = .rom ∧ t.modl.faultN = true) ∧
  (∀ (s : State) (o : BootObs), s.bootsAt 2 → s.clk.xtal = true →
    ∃ t, exec (.bootStage o) s = .next t ∧ t.boot = { s.boot with stage := 3 } ∧ OnlyChanges [.boot] s t) ∧
  (∀ (s : State) (o : BootObs), s.storesWf → s.bootsAt 3 → o.pufBits ≤ pufLimit → s.flash.helperOk = true →
    ∃ t, exec (.bootStage o) s = .next t ∧ t.boot = { s.boot with stage := 4 } ∧
      t.bark = { s.bark with ds := some Config.deviceSecret } ∧
      t.f (BARK_CNT_COUNT 11) = o.pufBits % 2 ^ (BARK_CNT_COUNT 11).width ∧ FieldsKept [BARK_CNT_COUNT 11] s t ∧
      OnlyChanges [.regs, .boot, .bark] s t) ∧
  (∀ (s : State) (o : BootObs), s.bootsAt 3 → pufLimit < o.pufBits ∨ s.flash.helperOk = false → s.ras.ringCount < 64 →
    ∃ t, exec (.bootStage o) s = .next t ∧ t.boot = { s.boot with stopped := true } ∧
      (∃ q ∈ t.ras.log, q.cls = .security ∧ q.code = 4)) ∧
  (∀ (s : State) (o : BootObs), s.bootsAt 4 →
    ∃ t, exec (.bootStage o) s = .next t ∧ t.boot.stage = 5 ∧ t.hw = s.hw ∧ OnlyChanges [.boot, .bark] s t) ∧
  (∀ (s : State) (o : BootObs) (raw : List Byte), s.bootsAt 5 → raw = s.flash.cert → headerOk 6 64 false raw = true → rd raw 8 8 = s.hwVal 0x001 →
    zeros (cut raw 0x44 4) = true → zeros (cut raw 0x68 24) = true → (certOf raw).line < 2 → (certOf raw).suits = true →
    (certOf raw).hash = s.certHash → s.rollback 3 ≤ (certOf raw).svn → ({ s with cert := certOf raw } : State).masksAgree raw = true →
    s.ras.ringCount < 63 →
    ∃ t, exec (.bootStage o) s = .next t ∧
      (if sealFails 0 (some Config.vendorKeyHash) (signedPart raw) (blockOf raw) = 0 then
        t.boot = { s.boot with stage := 6 } ∧ t.cert = certOf raw ∧ t.bark.meas = s.bark.meas.set 4 (certOf raw).hash
       else t.boot = { s.boot with stopped := true } ∧ (∃ q ∈ t.ras.log, q.cls = .security ∧ q.code = 1) ∧
        (∃ q ∈ t.ras.log, q.cls = .security ∧ q.code = 3)) ∧ OnlyChanges (mayChange (.bootStage o)) s t) ∧
  (∀ (s : State) (o : BootObs), s.bootsAt 5 →
    headerOk 6 64 false s.flash.cert = false ∨ rd s.flash.cert 8 8 ≠ s.hwVal 0x001 ∨ zeros (cut s.flash.cert 0x44 4) = false ∨
      zeros (cut s.flash.cert 0x68 24) = false ∨ 2 ≤ (certOf s.flash.cert).line ∨ (certOf s.flash.cert).suits = false ∨
      (certOf s.flash.cert).hash ≠ s.certHash ∨ (certOf s.flash.cert).svn < s.rollback 3 ∨
      ({ s with cert := certOf s.flash.cert } : State).masksAgree s.flash.cert = false → s.ras.ringCount < 63 →
    ∃ t, exec (.bootStage o) s = .next t ∧ t.boot = { s.boot with stopped := true } ∧
      (∃ q ∈ t.ras.log, q.cls = .security ∧ q.code = 3)) ∧
  (∀ (s : State) (o : BootObs), s.bootsAt 6 → s.boot.latched = true →
    ∃ t, exec (.bootStage o) s = .next t ∧ t.boot = { s.boot with recovery := .seed } ∧ t.modl.faultN = true) ∧
  (∀ (s : State) (o : BootObs) (b : Bool) (k : Bank) (rest : List (Bool × Bank)) (i : FwImage), s.bootsAt 6 → s.boot.latched = false →
    s.flash.order 2 = (b, k) :: rest → imageOf k.image = some i →
    ∃ t, exec (.bootStage o) s = .next t ∧
      (if (s.fwVerify 2 k.image 0).passed then t.boot.stage = 7 ∧ t.boot.trunkImg = some i
       else rest = [] → t.boot.stage = 6 ∧ t.boot.recovery = .seed ∧ t.modl.faultN = true) ∧
      OnlyChanges (mayChange (.bootStage o)) s t) ∧
  (∀ (s : State) (o : BootObs), s.bootsAt 7 → (s.hwReg 0x1C1).atLimit = false → (s.hwReg 0x1C1).slots.length = 4 →
    (s.hwReg 0x1C1).nextLive.isSome = true → swf HwReg.zero s.hw.regs = true →
    ∃ t, exec (.bootStage o) s = .next t ∧ t.boot.stage = 8 ∧ t.boot.trunk = true ∧ t.engineEpoch = (s.engineEpoch + 1) % 65536) ∧
  (∀ (s : State) (o : BootObs), s.bootsAt 7 → (s.hwReg 0x1C1).atLimit = true →
    ∃ t, exec (.bootStage o) s = .next t ∧ t.boot = { s.boot with stopped := true } ∧ OnlyChanges [.regs, .boot] s t) ∧
  (∀ (s : State) (o : BootObs), s.modl.standby = false ∨ s.boot.stopped = true ∨ s.boot.recovery = .rom ∨ s.boot.recovery = .seed →
    exec (.bootStage o) s = .next s)

/-- The boot from the main rails on (parts of R316, R350, R447, R451 to R454, Table 16.2). The main stage starts when its conditions
hold, else the boot waits; enabled dies are ON, or UNAVAILABLE where the PLL failed; a pending scrub is due after self-test, and
scratchpads are zeroed once none runs; the limb dies run the Limb image when its bank verifies, and otherwise the engine is in limb
recovery; the host link trains at a rate and width of Table 11.1, and not while PCIE_PERST_N is low. READY needs the ring LOCKED or
in HOLDOVER, and counts the boot in LIFE[1]. -/
def Obligations.BootToReady : Prop :=
  (∀ (s : State) (o : BootObs), s.bootsAt 8 → s.modl.inputOk = true → 2000 ≤ s.modl.flow → s.modl.inlet ≤ 4500 → s.modl.hold = false →
    ∃ t, exec (.bootStage o) s = .next t ∧ t.modl = { s.modl with mains := true, pwrGood := true } ∧ t.boot = { s.boot with stage := 9 } ∧
      OnlyChanges [.modl, .boot] s t) ∧
  (∀ (s : State) (o : BootObs), s.bootsAt 8 → s.modl.inputOk = false ∨ s.modl.flow < 2000 ∨ 4500 < s.modl.inlet ∨ s.modl.hold = true →
    exec (.bootStage o) s = .next s) ∧
  (∀ (s : State) (o : BootObs) (n : Nat), n ∈ [9, 11, 14] → s.bootsAt n →
    ∃ t, exec (.bootStage o) s = .next t ∧ t.boot = { s.boot with stage := n + 1 } ∧ OnlyChanges [.boot] s t) ∧
  (∀ (s : State) (o : BootObs), s.bootsAt 10 →
    ∃ t, exec (.bootStage o) s = .next t ∧ t.boot = { s.boot with stage := 11 } ∧
      (∀ d, s.dieEnabled d = true → t.domain d = if o.dead.contains d then .unavailable else .on) ∧ OnlyChanges [.boot, .power] s t) ∧
  (∀ (s : State) (o : BootObs), s.bootsAt 12 → s.owner = 2 →
    ∃ t, exec (.bootStage o) s = .next t ∧ t.boot = { s.boot with stage := 13 } ∧ t.bark = { s.bark with scrubbing := true }) ∧
  (∀ (s : State) (o : BootObs), s.bootsAt 12 → s.owner ≠ 2 →
    ∃ t, exec (.bootStage o) s = .next t ∧ t.boot = { s.boot with stage := 13 } ∧ t.bark = s.bark) ∧
  (∀ (s : State) (o : BootObs), s.storesWf → s.bootsAt 13 → s.bark.scrubbing = false →
    ∃ t, exec (.bootStage o) s = .next t ∧ t.boot = { s.boot with stage := 14 } ∧
      (∀ x y a id, a < scratchBytes → (t.cell x y).mem.byte id a = 0) ∧ OnlyChanges [.boot, .cells, .power] s t) ∧
  (∀ (s : State) (o : BootObs), s.bootsAt 13 → s.bark.scrubbing = true → exec (.bootStage o) s = .next s) ∧
  (∀ (s : State) (o : BootObs) (b : Bool) (k : Bank) (rest : List (Bool × Bank)) (i : FwImage), s.bootsAt 15 →
    s.flash.order 3 = (b, k) :: rest → imageOf k.image = some i →
    ∃ t, exec (.bootStage o) s = .next t ∧ t.boot.stage = 16 ∧
      (if (s.fwVerify 3 k.image 0).passed then ∀ n, n < 12 → sget none t.boot.limbs n = some i
       else rest = [] → t.boot.recovery = .limb ∧ t.modl.faultN = true) ∧ OnlyChanges (mayChange (.bootStage o)) s t) ∧
  (∀ (s : State) (o : BootObs), s.bootsAt 15 → s.flash.order 3 = [] →
    ∃ t, exec (.bootStage o) s = .next t ∧ t.boot.stage = 16 ∧ t.boot.recovery = .limb ∧ t.modl.faultN = true) ∧
  (∀ (s : State) (o : BootObs), s.bootsAt 16 →
    ∃ t, exec (.bootStage o) s = .next t ∧ t.boot = { s.boot with stage := 17 } ∧ OnlyChanges [.regs, .boot, .ports, .host, .sent] s t) ∧
  (∀ (s : State) (o : BootObs), s.bootsAt 17 → o.perstLow = true →
    ∃ t, exec (.bootStage o) s = .next t ∧ t.boot = { s.boot with stage := 18 } ∧ t.host = { s.host with perstLow := true } ∧
      OnlyChanges [.boot, .host] s t) ∧
  (∀ (s : State) (o : BootObs), s.bootsAt 17 → o.perstLow = false → 1 ≤ o.speed → o.speed ≤ 7 → o.width ∈ [1, 2, 4, 8, 16] → s.host.clkMode = 0 →
    ∃ t, exec (.bootStage o) s = .next t ∧ t.boot = { s.boot with stage := 18 } ∧

      t.host = { s.host with perstLow := false, up := true, speed := o.speed, width := o.width } ∧ OnlyChanges [.boot, .host] s t) ∧
  (∀ s : State, s.boot.stage = 18 → s.boot.stopped = false → s.ring.lock = .locked ∨ s.ring.lock = .holdover →
    ∃ t, exec .ready s = .next t ∧ t.boot = { s.boot with stage := 31 } ∧ OnlyChanges [.regs, .boot, .hw] s t) ∧
  (∀ s : State, s.boot.stage = 18 → s.boot.stopped = false → s.ring.lock = .locked → s.hwIdle → (s.hwReg 0x1C9).atLimit = false →
    ∃ t, exec .ready s = .next t ∧ t.hwNext 0x1C9 = (s.hwVal 0x1C9 + 1) % 2 ^ 64 ∧ t.hw.regs = s.hw.regs) ∧
  (∀ s : State, s.boot.stage ≠ 18 ∨ s.boot.stopped = true ∨ (s.ring.lock ≠ .locked ∧ s.ring.lock ≠ .holdover) → exec .ready s = .next s)

/-! ## Counters, and the block as a whole -/

/-- CLR_COUNTERS of each register block (parts of R173, R202, R231, R260, R287, R288, R312, R336, R373, R387, R415 to R417, R441,
R443). Each counter reads 0, and where the block clears nothing else no other field changes; SPARSE clears its metadata counts and
LAST fields, FAB its probe counts, LAST fields and the high-water marks of taps, EDGE the failure counts of every port, RAS the
counts of every die. -/
def Obligations.CounterClears : Prop :=
  (∀ p ∈ [(Instr.graftClrCounters, GRAFT_CNT_COUNT, 6), (.jobClrCounters, JOB_CNT_COUNT, 12), (.sapClrCounters, SAP_CNT_COUNT, 14),
      (.streamClrCounters, STREAM_CNT_COUNT, 12), (.idClrCounters, ID_HOST_CNT_COUNT, 9), (.barkClrCounters, BARK_CNT_COUNT, 12),
      (.hwClrCounters, HW_CNT_COUNT, 6), (.pwrClrCounters, PWR_CNT_COUNT, 8), (.thmClrCounters, THM_CNT_COUNT, 5),
      (.telClrCounters, TEL_CNT_COUNT, 2), (.journalClrCounters, JOURNAL_CNT_COUNT, 4)],
    ∀ s : State, s.storesWf →
      ∃ t, exec p.1 s = .next t ∧ (∀ i, i < p.2.2 → t.f (p.2.1 i) = 0) ∧ FieldsKept ((List.range p.2.2).map p.2.1) s t ∧
        OnlyChanges [.regs] s t) ∧
  (∀ s : State, s.storesWf →
    ∃ t, exec .sparseClrCounters s = .next t ∧ (∀ i, i < 12 → t.f (SPARSE_CNT_COUNT i) = 0) ∧
      (∀ F ∈ [SPARSE_META_COUNT_HEADER, SPARSE_META_COUNT_RANGE, SPARSE_META_COUNT_ORDER, SPARSE_META_COUNT_COUNT,
        SPARSE_STATUS_LAST_RING_LO, SPARSE_STATUS_LAST_DIE, SPARSE_STATUS_LAST_META, SPARSE_STATUS_LAST_PRED], t.f F = 0) ∧
      t.pendStep = [] ∧ OnlyChanges [.regs, .pendStep] s t) ∧
  (∀ s : State, s.storesWf →
    ∃ t, exec .fabClrCounters s = .next t ∧ (∀ i, i < 10 → t.f (FAB_CNT_COUNT i) = 0) ∧
      (∀ F ∈ [FAB_PROBE_CNT_STALLS, FAB_PROBE_CNT_UNITS, FAB_STATUS_LAST_RING_LO, FAB_STATUS_LAST_DIE, FAB_STATUS_LAST_KIND],
        t.f F = 0) ∧
      (∀ k, (t.tap k).inHwm = 0 ∧ (t.tap k).outHwm = 0) ∧ OnlyChanges [.regs, .taps, .pendRing] s t) ∧
  (∀ s : State, s.storesWf →
    ∃ t, exec .edgeClrCounters s = .next t ∧
      (∀ p, p < 72 → t.f (EDGE_PORT_FEC_CORRECTED p) = 0 ∧ t.f (EDGE_PORT_FEC_UNCORRECTED p) = 0 ∧ (t.port p).trainFails = 0 ∧
        (t.port p).downs = 0 ∧ (t.port p).link0 = (s.port p).link0 ∧ (t.port p).link1 = (s.port p).link1) ∧
      OnlyChanges [.regs, .ports] s t) ∧
  (∀ s : State, s.storesWf →
    ∃ t, exec .rasClrCounters s = .next t ∧ (∀ i, i < 10 → t.f (RAS_CNT_COUNT i) = 0) ∧
      (∀ d, d < 48 → t.f (RAS_DIE_ERR_CORRECTED d) = 0 ∧ t.f (RAS_DIE_ERR_UNCORRECTABLE d) = 0 ∧ t.f (RAS_DIE_ERR_DEAD d) = 0) ∧
      OnlyChanges [.regs] s t)

/-- A step is the command at the front of the queue. With `c` at the front, step of `s` is exec of `c` on `s` with the queue's rest; on an
empty queue the block idles (the model's choice, log 10). -/
def Obligations.StepRunsTheFrontCommand : Prop :=
  (∀ (s : State) (c : Instr) (rest : List Instr), s.pending = c :: rest → step s = exec c { s with pending := rest }) ∧
  (∀ s : State, s.pending = [] → step s = .next s)

/-- What a command can do at all, for every constructor of Instr. A command that names no cell, or a cell of the variant's grid,
completes from every state: exec answers a next state, which differs only in the parts that the command's row of `mayChange` lists,
and the queue is as it was. One that names a cell outside the grid stops with that cell's fault (parts of R3, R7). No command is
refused. -/
def Obligations.WhatACommandCanDo : Prop :=
  (∀ (c : Instr) (s : State), (∀ x y, namedCell c = some (x, y) → s.inGrid x y = true) →
    ∃ t, exec c s = .next t ∧ OnlyChanges (mayChange c) s t ∧ t.pending = s.pending) ∧
  (∀ (c : Instr) (s : State) (x y : Nat), namedCell c = some (x, y) → s.inGrid x y = false → exec c s = .fault (.absentCell x y)) ∧
  (∀ (c : Instr) (s : State) (r : Refusal), exec c s ≠ .refused r)

/-- The machine right after reset (parts of R10, R63, R76, R77, R348, R354, R389, R418, R445, R447): every register field at its
Reset column, the ring UNLOCKED, the root die on its oscillator, RUN, no link to the host, no graft and no job, no record, no grant,
Bark unsealed, boot at stage 0, nothing armed, no command waiting; the stores are in canonical form and the ring unit is sound. -/
def Obligations.ResetState : Prop :=
  (∀ F : Fld, State.reset.f F = F.reset) ∧ State.reset.ring.lock = .unlocked ∧ State.reset.clk.xtal = false ∧ State.reset.clk.code = 48 ∧
  State.reset.power.state = .run ∧ State.reset.modl.mains = false ∧ State.reset.host.up = false ∧ State.reset.graft.active = none ∧
  State.reset.job.cur = none ∧ State.reset.ras.log = [] ∧ State.reset.bark.grant = none ∧ State.reset.bark.sealed = false ∧
  State.reset.bark.meas = List.replicate 9 (List.replicate 48 0) ∧ State.reset.boot.stage = 0 ∧ State.reset.pending = [] ∧
  State.reset.noInjection ∧ State.reset.storesWf ∧ State.reset.ringOk

/-- Every step keeps the machine sound: from any state whose stores are in canonical form and whose ring unit is sound (RING_NUMBER
has 48 bits, an edge is due only in LOCKED or HOLDOVER), whatever command is at the front, a step that answers a next state answers
one that is sound again (parts of R43, Table 2.5). -/
def Obligations.EveryStepKeepsTheStateSound : Prop :=
  ∀ s t : State, s.storesWf → s.ringOk → step s = .next t → t.storesWf ∧ t.ringOk
end

