-- ==== Sys2Proof/Laws/Sparse.lean ====
section
/-!
SUPPORT. Laws of sparse maps and of memory: reading back what was written, every other key left alone, and the canonical form
kept by every operation.
-/
namespace Sys2Proof.Machine

variable {α : Type} [DecidableEq α]

/-- A map whose keys start higher is canonical from a lower bound too. -/
theorem swfFrom_mono {d : α} {m : SMap α} {a b : Nat} (h : a ≤ b) (hm : swfFrom d b m = true) : swfFrom d a m = true := by
  cases m with
  | nil => rfl
  | cons p m => simp only [swfFrom, Bool.and_eq_true, decide_eq_true_eq] at hm ⊢; exact ⟨⟨by omega, hm.1.2⟩, hm.2⟩

/-- Below the first key a canonical map reads the unlisted value. -/
theorem sget_below {d : α} {m : SMap α} {a x : Nat} (hm : swfFrom d a m = true) (h : x < a) : sget d m x = d := by
  induction m generalizing a with
  | nil => rfl
  | cons p m ih =>
    simp only [swfFrom, Bool.and_eq_true, decide_eq_true_eq] at hm
    have : p.1 ≠ x := by omega
    simp only [sget, this, if_false]
    exact ih hm.2 (by omega)

/-- Writing keeps the canonical form from a bound that the key meets. -/
theorem swfFrom_sset {d : α} {m : SMap α} {a x : Nat} {v : α} (hm : swfFrom d a m = true) (h : a ≤ x) :
    swfFrom d a (sset d m x v) = true := by
  induction m generalizing a with
  | nil => simp only [sset]; split <;> simp [swfFrom, *]
  | cons p m ih =>
    simp only [swfFrom, Bool.and_eq_true, decide_eq_true_eq] at hm
    simp only [sset]
    split
    · split
      · simp only [swfFrom, Bool.and_eq_true, decide_eq_true_eq]; exact hm
      · simp only [swfFrom, Bool.and_eq_true, decide_eq_true_eq]
        exact ⟨⟨h, by assumption⟩, ⟨by omega, hm.1.2⟩, hm.2⟩
    · split
      · split
        · exact swfFrom_mono (by omega) hm.2
        · simp only [swfFrom, Bool.and_eq_true, decide_eq_true_eq]
          exact ⟨⟨by omega, by assumption⟩, by subst_vars; exact hm.2⟩
      · simp only [swfFrom, Bool.and_eq_true, decide_eq_true_eq]
        exact ⟨hm.1, ih hm.2 (by omega)⟩

/-- Writing keeps the canonical form. -/
theorem swf_sset {d : α} {m : SMap α} {x : Nat} {v : α} (hm : swf d m = true) : swf d (sset d m x v) = true :=
  swfFrom_sset hm (Nat.zero_le x)

/-- Updating keeps the canonical form. -/
theorem swf_smod {d : α} {m : SMap α} {x : Nat} {f : α → α} (hm : swf d m = true) : swf d (smod d m x f) = true :=
  swf_sset hm

/-- Mapping keeps the canonical form from a bound. -/
theorem swfFrom_smap {d : α} {f : Nat → α → α} {m : SMap α} {a : Nat} (hm : swfFrom d a m = true) :
    swfFrom d a (smap d f m) = true := by
  induction m generalizing a with
  | nil => rfl
  | cons p m ih =>
    simp only [swfFrom, Bool.and_eq_true, decide_eq_true_eq] at hm
    simp only [smap]
    split
    · exact swfFrom_mono (by omega) (ih hm.2)
    · simp only [swfFrom, Bool.and_eq_true, decide_eq_true_eq]; exact ⟨⟨hm.1.1, by assumption⟩, ih hm.2⟩

/-- Mapping keeps the canonical form. -/
theorem swf_smap {d : α} {f : Nat → α → α} {m : SMap α} (hm : swf d m = true) : swf d (smap d f m) = true :=
  swfFrom_smap hm

/-- Dropping entries keeps the canonical form from a bound. -/
theorem swfFrom_skeep {d : α} {p : Nat → Bool} {m : SMap α} {a : Nat} (hm : swfFrom d a m = true) :
    swfFrom d a (skeep p m) = true := by
  induction m generalizing a with
  | nil => rfl
  | cons q m ih =>
    simp only [swfFrom, Bool.and_eq_true, decide_eq_true_eq] at hm
    simp only [skeep]
    split
    · simp only [swfFrom, Bool.and_eq_true, decide_eq_true_eq]; exact ⟨hm.1, ih hm.2⟩
    · exact swfFrom_mono (by omega) (ih hm.2)

/-- Dropping entries keeps the canonical form. -/
theorem swf_skeep {d : α} {p : Nat → Bool} {m : SMap α} (hm : swf d m = true) : swf d (skeep p m) = true :=
  swfFrom_skeep hm

/-- A read of another key is unchanged by a write. -/
theorem sget_sset_ne {d : α} {m : SMap α} {x y : Nat} {v : α} (h : y ≠ x) : sget d (sset d m x v) y = sget d m y := by
  induction m with
  | nil => simp only [sset]; split <;> simp [sget, h.symm]
  | cons p m ih =>
    simp only [sset]
    split
    · split <;> simp [sget, h.symm]
    · split
      · subst_vars; split <;> simp [sget, h.symm]
      · simp [sget, ih]

/-- In a canonical map a read gives what was written. -/
theorem sget_sset_self {d : α} {m : SMap α} {x a : Nat} {v : α} (hm : swfFrom d a m = true) :
    sget d (sset d m x v) x = v := by
  induction m generalizing a with
  | nil => simp only [sset]; split <;> simp [sget, *]
  | cons p m ih =>
    simp only [swfFrom, Bool.and_eq_true, decide_eq_true_eq] at hm
    simp only [sset]
    split
    · split
      · have h1 : p.1 ≠ x := by omega
        simp only [sget, h1, if_false]
        exact (sget_below hm.2 (by omega)).trans (by simp [*])
      · simp [sget]
    · split
      · split
        · subst_vars; exact (sget_below hm.2 (by omega))
        · simp [sget]
      · have h1 : p.1 ≠ x := by omega
        simp only [sget, h1, if_false]; exact ih hm.2

/-- A mapped store reads the function of what it read, when the function keeps the unlisted value. -/
theorem sget_smap {d : α} {f : Nat → α → α} {m : SMap α} {x a : Nat} (hm : swfFrom d a m = true) (hd : f x d = d) :
    sget d (smap d f m) x = f x (sget d m x) := by
  induction m generalizing a with
  | nil => simp [smap, sget, hd]
  | cons p m ih =>
    simp only [swfFrom, Bool.and_eq_true, decide_eq_true_eq] at hm
    have key : p.1 = x → sget d (smap d f m) x = d := fun h => sget_below (swfFrom_smap hm.2) (by omega)
    simp only [smap]
    split
    · rename_i hv
      by_cases hx : p.1 = x
      · simp only [sget, hx, if_true]; rw [key hx]; exact hv.symm.trans (by rw [hx])
      · simp only [sget, hx, if_false]; exact ih hm.2
    · by_cases hx : p.1 = x
      · simp [sget, hx]
      · simp only [sget, hx, if_false]; exact ih hm.2

/-- A kept entry reads as before; a dropped one reads the unlisted value. -/
theorem sget_skeep {d : α} {p : Nat → Bool} {m : SMap α} {x a : Nat} (hm : swfFrom d a m = true) :
    sget d (skeep p m) x = if p x then sget d m x else d := by
  induction m generalizing a with
  | nil => simp [skeep, sget]
  | cons q m ih =>
    simp only [swfFrom, Bool.and_eq_true, decide_eq_true_eq] at hm
    simp only [skeep]
    by_cases hq : p q.1 = true
    · simp only [hq, if_true, sget]
      by_cases hx : q.1 = x
      · subst hx; simp [hq]
      · simp only [hx, if_false]; exact ih hm.2
    · rw [if_neg hq, ih hm.2]
      by_cases hx : q.1 = x
      · subst hx; simp [hq]
      · simp [sget, hx]

/-! ## Memory -/

/-- Memory with nothing listed is canonical. -/
theorem Memory.wf_nil : Memory.wf [] = true := rfl

/-- A byte write keeps the canonical form. -/
theorem Memory.wf_write {m : Memory} {a : Nat} {b : Byte} (h : m.wf = true) : (m.write a b).wf = true := swf_sset h

/-- Writing bytes keeps the canonical form. -/
theorem Memory.wf_writeBytes {m : Memory} {a : Nat} {bs : List Byte} (h : m.wf = true) : (m.writeBytes a bs).wf = true := by
  induction bs generalizing m a with
  | nil => exact h
  | cons b bs ih => exact ih (Memory.wf_write h)

/-- Zeroing bytes keeps the canonical form. -/
theorem Memory.wf_clear {m : Memory} {p : Nat → Bool} (h : m.wf = true) : (m.clear p).wf = true := swf_skeep h

/-- A byte reads back what was written. -/
theorem Memory.read_write_self {m : Memory} {a : Nat} {b : Byte} (h : m.wf = true) : (m.write a b).read a = b :=
  sget_sset_self h

/-- A write leaves every other byte alone. -/
theorem Memory.read_write_ne {m : Memory} {a c : Nat} {b : Byte} (h : c ≠ a) : (m.write a b).read c = m.read c :=
  sget_sset_ne h

/-- A write of several bytes leaves every byte outside them alone. -/
theorem Memory.read_writeBytes_outside {m : Memory} {a c : Nat} {bs : List Byte} (h : c < a ∨ a + bs.length ≤ c) :
    (m.writeBytes a bs).read c = m.read c := by
  induction bs generalizing m a with
  | nil => rfl
  | cons b bs ih =>
    simp only [List.length_cons] at h
    exact (ih (by omega)).trans (Memory.read_write_ne (by omega))

/-- A write of several bytes reads back each of them. -/
theorem Memory.read_writeBytes_inside {m : Memory} {a i : Nat} {bs : List Byte} (hm : m.wf = true) (h : i < bs.length) :
    (m.writeBytes a bs).read (a + i) = bs.getD i 0 := by
  induction bs generalizing m a i with
  | nil => simp at h
  | cons b bs ih =>
    cases i with
    | zero =>
      simp only [Memory.writeBytes]
      exact (Memory.read_writeBytes_outside (by omega)).trans (Memory.read_write_self hm)
    | succ i =>
      have := ih (a := a + 1) (i := i) (Memory.wf_write (a := a) (b := b) hm) (by simpa using h)
      rw [show a + (i + 1) = a + 1 + i by omega]
      simpa [Memory.writeBytes] using this

end Sys2Proof.Machine
end

