-- ==== Sys2Proof/Laws/Aes.lean ====
section
/-! SUPPORT. What AES-256-GCM opens of what it sealed, and the frames and envelopes built on it (R264, R270, R360). -/

namespace Sys2Proof.Machine

/-! ## Lengths -/

theorem addBytes_length {a b : List Nat} {n : Nat} (ha : a.length = n) (hb : b.length = n) : (addBytes a b).length = n := by
  simp [addBytes, ha, hb]

theorem aesKeyWord_length {k : Nat} {l : List (List Nat)} (h : ∀ i, i < 8 → (l.getD i []).length = 4) : (aesKeyWord k l).length = 4 := by
  have h7 := h 7 (by omega)
  refine addBytes_length (h 0 (by omega)) ?_
  split
  · have e : ∀ w : List Nat, w.length = 4 → (w.drop 1 ++ w.take 1).length = 4 := fun w h => by simp [h]
    exact addBytes_length (by rw [List.length_map]; exact e _ h7) rfl
  · split
    · simpa using h7
    · exact h7

theorem aesKeyWords_length {n k : Nat} {l : List (List Nat)} (h8 : l.length = 8) (h : ∀ w ∈ l, w.length = 4) :
    (aesKeyWords n k l).length = n ∧ ∀ w ∈ aesKeyWords n k l, w.length = 4 := by
  induction n generalizing k l with
  | zero => exact ⟨rfl, by simp [aesKeyWords]⟩
  | succ n ih =>
    have hw : (aesKeyWord k l).length = 4 := aesKeyWord_length fun i hi => by
      have hi : i < l.length := h8 ▸ hi
      rw [List.getD_eq_getElem?_getD, List.getElem?_eq_getElem hi]
      exact h _ (List.getElem_mem hi)
    have := ih (k := k + 1) (l := l.drop 1 ++ [aesKeyWord k l]) (by simp [h8]) (by
      intro w hm
      rcases List.mem_append.1 hm with hm | hm
      · exact h w (List.mem_of_mem_drop hm)
      · rw [List.mem_singleton.1 hm]; exact hw)
    refine ⟨congrArg Nat.succ this.1, ?_⟩
    intro w hm
    rcases List.mem_cons.1 hm with rfl | hm
    · exact hw
    · exact this.2 w hm

/-- A key of 32 bytes has 15 round keys of 16 bytes. -/
theorem aesKeys_length {key : List Nat} (hk : key.length = 32) : (aesKeys key).length = 15 ∧ ∀ k ∈ aesKeys key, k.length = 16 := by
  have h0 : ∀ w ∈ (List.range 8).map (fun k => (key.drop (4 * k)).take 4), w.length = 4 := by
    intro w hm
    obtain ⟨k, hk', rfl⟩ := List.mem_map.1 hm
    have := List.mem_range.1 hk'
    simp; omega
  have hw := aesKeyWords_length (n := 52) (k := 8) (by simp) h0
  refine ⟨by simp [aesKeys], ?_⟩
  intro k hm
  obtain ⟨r, hr, rfl⟩ := List.mem_map.1 hm
  have hr := List.mem_range.1 hr
  generalize hl : (List.range 8).map (fun k => (key.drop (4 * k)).take 4) ++ aesKeyWords 52 8 ((List.range 8).map (fun k => (key.drop (4 * k)).take 4)) = l
  have hll : l.length = 60 := by rw [← hl]; simp [hw.1]
  have hlm : ∀ w ∈ l, w.length = 4 := by
    intro w hm
    rw [← hl] at hm
    exact (List.mem_append.1 hm).elim (h0 w) (hw.2 w)
  have hs : ((l.drop (4 * r)).take 4).length = 4 := by simp; omega
  have hm : ∀ w ∈ (l.drop (4 * r)).take 4, w.length = 4 := fun w h => hlm w (List.mem_of_mem_drop (List.mem_of_mem_take h))
  revert hs hm
  generalize (l.drop (4 * r)).take 4 = q
  intro hs hm
  rw [List.length_flatten, List.map_congr_left hm, List.map_const', hs]
  rfl

theorem aesRounds_length {ks : List (List Nat)} {st : List Nat} (hk : ∀ k ∈ ks, k.length = 16) (hs : st.length = 16) :
    (aesRounds ks st).length = 16 := by
  induction ks generalizing st with
  | nil => exact hs
  | cons k ks ih =>
    cases ks with
    | nil => exact addBytes_length (by simp [shiftRows]) (hk k (by simp))
    | cons q ks => exact ih (fun x hx => hk x (by simp [hx])) (addBytes_length (by simp [mixColumns]) (hk k (by simp)))

/-- AES-256 makes 16 bytes of 16. -/
theorem aesBlock_length {ks : List (List Nat)} {blk : List Nat} (h0 : ks ≠ []) (hk : ∀ k ∈ ks, k.length = 16) (hb : blk.length = 16) :
    (aesBlock ks blk).length = 16 := by
  cases ks with
  | nil => exact absurd rfl h0
  | cons k ks => exact aesRounds_length (fun x hx => hk x (by simpa using .inr hx)) (addBytes_length hb (hk k (by simp)))

theorem beBytes_length (n v : Nat) : (beBytes n v).length = n := by
  induction n with
  | zero => rfl
  | succ n ih => simp [beBytes, ih]

theorem leBytes_length (n v : Nat) : (leBytes n v).length = n := by
  induction n generalizing v with
  | zero => rfl
  | succ n ih => simp [leBytes, ih]

theorem keySchedule_length (key : List Byte) : keySchedule key ≠ [] ∧ ∀ k ∈ keySchedule key, k.length = 16 := by
  have h := aesKeys_length (key := ((key ++ List.replicate 32 0).take 32).map (fun (b : Byte) => b.toNat)) (by simp)
  refine ⟨fun e => ?_, h.2⟩
  have h1 := h.1
  unfold keySchedule at e
  rw [e] at h1
  cases h1

theorem gcmBlock_length {key iv : List Byte} (hi : iv.length = 12) (k : Nat) : (gcmBlock (keySchedule key) iv k).length = 16 := by
  have h := keySchedule_length key
  have := aesBlock_length (blk := (iv.take 12 ++ beBytes 4 (k % 2 ^ 32)).map (·.toNat)) h.1 h.2 (by simp [hi, beBytes_length])
  simpa [gcmBlock] using this

/-- A tag has 16 bytes (SP 800-38D). -/
theorem gcmTag_length {key iv : List Byte} (hi : iv.length = 12) (aad ct : List Byte) : (gcmTag (keySchedule key) iv aad ct).length = 16 := by
  simp [gcmTag, beBytes_length, gcmBlock_length hi]

theorem gcmStream_length {key iv : List Byte} (hi : iv.length = 12) {n k : Nat} {bs : List Byte} (h : bs.length ≤ 16 * n) :
    (gcmStream (keySchedule key) iv n k bs).length = bs.length := by
  induction n generalizing k bs with
  | zero => exact (Nat.le_zero.1 h).symm
  | succ n ih =>
    simp only [gcmStream, List.length_append, List.length_zipWith, gcmBlock_length hi, List.length_take]
    rw [ih (by simp; omega)]
    simp; omega

/-! ## Opening what was sealed -/

theorem zipWith_xor_self {a b : List Byte} (h : a.length ≤ b.length) : List.zipWith (· ^^^ ·) (List.zipWith (· ^^^ ·) a b) b = a := by
  induction a generalizing b with
  | nil => simp
  | cons x a ih =>
    cases b with
    | nil => simp at h
    | cons y b => simp [ih (by simpa using h)]

/-- Adding the key stream twice gives the text back. -/
theorem gcmStream_twice {key iv : List Byte} (hi : iv.length = 12) {n k : Nat} {bs : List Byte} (h : bs.length ≤ 16 * n) :
    gcmStream (keySchedule key) iv n k (gcmStream (keySchedule key) iv n k bs) = bs := by
  induction n generalizing k bs with
  | zero => cases bs with
    | nil => rfl
    | cons => simp at h
  | succ n ih =>
    have hb := gcmBlock_length (key := key) hi k
    simp only [gcmStream]
    by_cases hs : bs.length ≤ 16
    · have hd : bs.drop 16 = [] := List.drop_eq_nil_of_le hs
      have e : ∀ m j, gcmStream (keySchedule key) iv m j [] = [] := fun m j => by
        have := gcmStream_length (key := key) (n := m) (k := j) hi (bs := []) (by simp)
        exact List.eq_nil_of_length_eq_zero (by simpa using this)
      rw [hd, e, List.append_nil, List.take_of_length_le (by simp), List.drop_eq_nil_of_le (by simp), e, List.append_nil]
      rw [List.take_of_length_le hs, zipWith_xor_self (by omega)]
    · have hl : (List.zipWith (· ^^^ ·) (bs.take 16) (gcmBlock (keySchedule key) iv k)).length = 16 := by simp [hb]; omega
      rw [List.take_left' hl, List.drop_left' hl, zipWith_xor_self (by simp [hb]), ih (by simp; omega), List.take_append_drop]

theorem gcmSeal_eq (key iv aad text : List Byte) :
    gcmSeal key iv aad text = (gcmStream (keySchedule key) iv (blocks16 text) 2 text,
      gcmTag (keySchedule key) iv aad (gcmStream (keySchedule key) iv (blocks16 text) 2 text)) := by
  simp only [gcmSeal]

theorem gcmSeal_lengths {key iv : List Byte} (hi : iv.length = 12) (aad text : List Byte) :
    (gcmSeal key iv aad text).1.length = text.length ∧ (gcmSeal key iv aad text).2.length = 16 := by
  rw [gcmSeal_eq]
  dsimp only
  exact ⟨gcmStream_length hi (by unfold blocks16; omega), gcmTag_length hi _ _⟩

/-- AES-256-GCM opens what it sealed. -/
theorem gcmOpen_gcmSeal {key iv : List Byte} (hi : iv.length = 12) (aad text : List Byte) :
    gcmOpen key iv aad (gcmSeal key iv aad text).1 (gcmSeal key iv aad text).2 = some text := by
  have hl := (gcmSeal_lengths (key := key) hi aad text).1
  have ht : blocks16 (gcmSeal key iv aad text).1 = blocks16 text := congrArg (fun n => (n + 15) / 16) hl
  have hs := gcmStream_twice (key := key) hi (n := blocks16 text) (k := 2) (bs := text) (by unfold blocks16; omega)
  unfold gcmOpen
  rw [ht]
  rw [gcmSeal_eq]
  dsimp only
  rw [if_pos rfl, hs]

/-- A tag that has not 16 bytes opens nothing. -/
theorem gcmOpen_short {key iv aad ct tag : List Byte} (hi : iv.length = 12) (h : tag.length ≠ 16) : gcmOpen key iv aad ct tag = none := by
  have hn : gcmTag (keySchedule key) iv aad ct ≠ tag := fun e => h (e ▸ gcmTag_length hi aad ct)
  simp only [gcmOpen, hn, if_false]

/-! ## Frames -/

theorem rd_append {a b : List Byte} {o n : Nat} (h : o + n ≤ a.length) : rd (a ++ b) o n = rd a o n := by
  rw [rd, rd, List.drop_append_of_le_length (by omega), List.take_append_of_le_length (by simp; omega)]

/-- A field of the header of a sealed frame. -/
theorem rd_seal {f : Frame} {key : List Byte} {count space o n : Nat} (h : o + n ≤ f.header.length) :
    rd (f.seal key count space) o n = rd f.header o n := by
  rw [Frame.seal]
  exact (rd_append (by rw [List.length_append]; omega)).trans (rd_append h)

/-- A frame's fields stand in its header. -/
theorem plainFrame_append {a b p : List Byte} (h : a.length = 32) : plainFrame (a ++ b) p = plainFrame a p := by
  have e : ∀ {o n}, o + n ≤ 32 → rd (a ++ b) o n = rd a o n := fun ho => rd_append (by omega)
  simp only [plainFrame, frameOf, e (show 1 + 1 ≤ 32 by decide), e (show 2 + 2 ≤ 32 by decide), e (show 4 + 2 ≤ 32 by decide),
    e (show 6 + 2 ≤ 32 by decide), e (show 8 + 6 ≤ 32 by decide), e (show 16 + 4 ≤ 32 by decide), e (show 20 + 4 ≤ 32 by decide),
    e (show 24 + 2 ≤ 32 by decide), e (show 26 + 2 ≤ 32 by decide)]

/-- The length of a sealed frame. -/
theorem seal_length {f : Frame} {key : List Byte} {count space : Nat} :
    (f.seal key count space).length = f.header.length + (padTo (fieldLen f.typ f.resp) f.fields ++ f.data).length + 16 := by
  have hl := gcmSeal_lengths (key := key) (show (frameNonce count f.attempt space).length = 12 by simp [frameNonce, leBytes_length]) f.header
    (padTo (fieldLen f.typ f.resp) f.fields ++ f.data)
  rw [Frame.seal]
  simp only [List.length_append] at hl ⊢
  omega

/-- A sealed frame opens to its plain text (R264, R270). -/
theorem openFrame_seal {f : Frame} {key : List Byte} {count space : Nat} (hh : f.header.length = 32)
    (ha : rd f.header 2 2 / 2 ^ 7 % 8 = f.attempt) :
    openFrame key (f.seal key count space) count space =
      some (plainFrame f.header (padTo (fieldLen f.typ f.resp) f.fields ++ f.data)) := by
  have hi : (frameNonce count f.attempt space).length = 12 := by simp [frameNonce, leBytes_length]
  have hl := gcmSeal_lengths (key := key) hi f.header (padTo (fieldLen f.typ f.resp) f.fields ++ f.data)
  have hs : f.seal key count space = f.header ++ ((gcmSeal key (frameNonce count f.attempt space) f.header (padTo (fieldLen f.typ f.resp) f.fields ++ f.data)).1 ++
    (gcmSeal key (frameNonce count f.attempt space) f.header (padTo (fieldLen f.typ f.resp) f.fields ++ f.data)).2) := by
    simp [Frame.seal]
  have hb : (f.seal key count space).length = 48 + (padTo (fieldLen f.typ f.resp) f.fields ++ f.data).length := by
    rw [hs]; simp only [List.length_append, hl.1, hl.2, hh]; omega
  unfold openFrame bodyText bodyTag
  rw [hb]
  rw [show rd (f.seal key count space) 2 2 / 2 ^ 7 % 8 = f.attempt by rw [rd_seal (by omega)]; exact ha]
  rw [show cut (f.seal key count space) 32 (48 + (padTo (fieldLen f.typ f.resp) f.fields ++ f.data).length - 48) =
      (gcmSeal key (frameNonce count f.attempt space) f.header (padTo (fieldLen f.typ f.resp) f.fields ++ f.data)).1 by
    rw [hs, cut, List.drop_left' hh, List.take_left' (by rw [hl.1]; omega)]]
  rw [show (f.seal key count space).drop (48 + (padTo (fieldLen f.typ f.resp) f.fields ++ f.data).length - 16) =
      (gcmSeal key (frameNonce count f.attempt space) f.header (padTo (fieldLen f.typ f.resp) f.fields ++ f.data)).2 by
    rw [hs, ← List.append_assoc, List.drop_left' (by rw [List.length_append, hh, hl.1]; omega)]]
  rw [show (f.seal key count space).take 32 = f.header by rw [hs, List.take_left' hh]]
  rw [gcmOpen_gcmSeal hi]
  rw [Option.map_some, hs, plainFrame_append hh]

/-- A session opens a data frame that its key opens at the count nearest the one it expects (R270, R276). -/
theorem openBody_data {q : Session} {k : List Byte × List Byte} {body : List Byte} {f : Frame} (hk : q.keys = some k)
    (ho : openFrame k.2 body (nearestCount q.expect (rd body 16 4)) 0 = some f) (hf : f.isAck = false) :
    q.openBody body = some (f, false) := by
  simp [Session.openBody, hk, ho, Option.filter, hf]

/-- The bytes of an Ethernet frame read back as its fields and its body, with a good FCS. -/
theorem rawFrame_ethBytes {dst src ty : Nat} {body : List Byte} (hd : beNat (beBytes 6 dst) = dst) (hs : beNat (beBytes 6 src) = src)
    (ht : beNat (beBytes 2 ty) = ty) (h : ty ≠ 0x8100) :
    rawFrame (ethBytes dst src none ty body) = ⟨dst, src, none, ty, body, true⟩ := by
  have hf : ∀ m, (fcs m).length = 4 := fun m => by simp [fcs, leBytes_length]
  simp only [rawFrame, ethBytes, List.append_nil]
  generalize hm : beBytes 6 dst ++ beBytes 6 src ++ beBytes 2 ty ++ body = m
  rw [show (m ++ fcs m).length - 4 = m.length by simp [hf], List.take_left' rfl, List.drop_left' rfl]
  have e12 : cut m 12 2 = beBytes 2 ty := by
    rw [← hm, cut, List.append_assoc, List.drop_left' (by simp [beBytes_length]), List.take_left' (beBytes_length _ _)]
  have e0 : cut m 0 6 = beBytes 6 dst := by
    rw [← hm, cut, List.drop_zero, List.append_assoc, List.append_assoc, List.take_left' (beBytes_length _ _)]
  have e6 : cut m 6 6 = beBytes 6 src := by
    rw [← hm, cut, List.append_assoc, List.append_assoc, List.drop_left' (beBytes_length _ _), List.take_left' (beBytes_length _ _)]
  have e14 : m.drop 14 = body := by rw [← hm, List.drop_left' (by simp [beBytes_length])]
  have hb : (ty == 0x8100) = false := by simpa using h
  simp only [e12, e0, e6, hd, hs, ht, hb, Bool.false_eq_true, if_false, e14, beq_self_eq_true]

/-! ## Envelopes -/

theorem Memory.readBytes_eq {m : Memory} {a : Nat} {bs : List Byte} (h : ∀ i, i < bs.length → m.read (a + i) = bs.getD i 0) :
    m.readBytes a bs.length = bs := by
  induction bs generalizing a with
  | nil => rfl
  | cons b bs ih =>
    have h0 := h 0 (by simp)
    have := ih (a := a + 1) (fun i hi => by
      have := h (i + 1) (by simpa using hi)
      rw [show a + 1 + i = a + (i + 1) by omega]
      simpa using this)
    simp only [List.length_cons, Memory.readBytes, this]
    simpa using h0

theorem Memory.readBytes_length (m : Memory) (a n : Nat) : (m.readBytes a n).length = n := by
  induction n generalizing a with
  | zero => rfl
  | succ n ih => simp [Memory.readBytes, ih]

/-- Bytes written read back. -/
theorem Memory.readBytes_writeBytes {m : Memory} (hm : m.wf = true) (a : Nat) (bs : List Byte) : (m.writeBytes a bs).readBytes a bs.length = bs :=
  Memory.readBytes_eq fun _ h => Memory.read_writeBytes_inside hm h

theorem sealEnvelope_length (key : List Byte) (c s : Nat) (data : List Byte) : (sealEnvelope key c s data).length = 32 + data.length := by
  have hi : (hostIv c s).length = 12 := by simp [hostIv, leBytes_length]
  simp [sealEnvelope, gcmSeal_lengths hi, leBytes_length]
  omega

/-- An envelope of the host opens to what it was sealed around (R359, R360). -/
theorem openEnvelope_seal {key data : List Byte} {c : Nat} (hc : leNat (leBytes 8 c) = c) (hn : leNat (leBytes 4 data.length) = data.length) :
    rd (sealEnvelope key c 3 data) 0 8 = c ∧ rd (sealEnvelope key c 3 data) 8 4 = data.length ∧ rd (sealEnvelope key c 3 data) 12 4 = 0 ∧
      openEnvelope key (sealEnvelope key c 3 data) = some data := by
  have hi : (hostIv c 3).length = 12 := by simp [hostIv, leBytes_length]
  generalize hg : leBytes 8 c ++ leBytes 4 data.length ++ [0, 0, 0, 0] = g
  have hs : sealEnvelope key c 3 data = g ++ ((gcmSeal key (hostIv c 3) g data).1 ++ (gcmSeal key (hostIv c 3) g data).2) := by
    simp [sealEnvelope, ← hg]
  have hl := gcmSeal_lengths (key := key) hi g data
  have ho := gcmOpen_gcmSeal (key := key) hi g data
  have hgl : g.length = 16 := by rw [← hg]; simp [leBytes_length]
  revert hs hl ho
  generalize gcmSeal key (hostIv c 3) g data = p
  intro hs hl ho
  rw [hs]
  have r0 : rd (g ++ (p.1 ++ p.2)) 0 8 = c := by
    rw [rd, ← hg, List.drop_zero, List.append_assoc, List.append_assoc, List.take_left' (leBytes_length _ _), hc]
  have r8 : rd (g ++ (p.1 ++ p.2)) 8 4 = data.length := by
    rw [rd, ← hg, List.append_assoc, List.append_assoc, List.drop_left' (leBytes_length _ _), List.take_left' (leBytes_length _ _), hn]
  have r12 : rd (g ++ (p.1 ++ p.2)) 12 4 = 0 := by
    rw [rd, ← hg, List.append_assoc, List.drop_left' (by simp [leBytes_length])]
    rfl
  refine ⟨r0, r8, r12, ?_⟩
  unfold openEnvelope
  simp only [r0, r8]
  rw [List.take_left' hgl, cut, List.drop_left' hgl, List.take_left' hl.1, cut, ← List.append_assoc,
    List.drop_left' (by rw [List.length_append, hgl, hl.1]), List.take_of_length_le (Nat.le_of_eq hl.2)]
  exact ho

end Sys2Proof.Machine
end

