-- ==== Sys2Proof/Laws/Alters.lean ====
section
/-!
SUPPORT. The vocabulary of the frame lemmas: `Alters ps s t` says that t differs from s in the parts ps at most and that the
stores keep their canonical form; how it composes, folds over lists, and holds of a record update.
-/
namespace Sys2Proof.Machine

/-- Every part of a list stands in another. -/
def Part.sub (ps qs : List Part) : Bool := ps.all (fun p => qs.contains p)

theorem Part.sub_trans {ps qs rs : List Part} (h : Part.sub ps qs = true) (k : Part.sub qs rs = true) :
    Part.sub ps rs = true := by
  simp only [Part.sub, List.all_eq_true, List.contains_iff_mem] at h k ⊢
  exact fun p hp => k p (h p hp)

/-- From s to t only the listed parts change, and the stores keep their canonical form. -/
structure Alters (ps : List Part) (s t : State) : Prop where
  only : OnlyChanges ps s t
  stores : s.storesWf → t.storesWf

theorem Part.same_refl (p : Part) (s : State) : p.same s s := by cases p <;> rfl

theorem Part.same_trans {p : Part} {s t u : State} (h : p.same s t) (k : p.same t u) : p.same s u := by
  cases p <;> exact Eq.trans k h

theorem Part.mem_of_sub {ps qs : List Part} (h : Part.sub ps qs = true) {p : Part} (hp : p ∈ ps) : p ∈ qs := by
  simpa using List.all_eq_true.mp h p hp

namespace Alters

/-- Nothing changes where the state stays. -/
theorem refl (ps : List Part) (s : State) : Alters ps s s := ⟨fun p _ => p.same_refl s, id⟩

/-- One more change, of parts among those listed. -/
theorem step {ps qs : List Part} {s t u : State} (k : Alters ps t u) (hsub : Part.sub ps qs = true) (h : Alters qs s t) :
    Alters qs s u :=
  ⟨fun p hp => Part.same_trans (h.only p hp) (k.only p (fun m => hp (Part.mem_of_sub hsub m))), k.stores ∘ h.stores⟩

/-- A fold changes what its step may change. -/
theorem foldl {α : Type} {ps : List Part} {s : State} {f : State → α → State} (hf : ∀ t x, Alters ps t (f t x))
    (l : List α) {t : State} (h : Alters ps s t) : Alters ps s (l.foldl f t) := by
  induction l generalizing t with
  | nil => exact h
  | cons x l ih =>
    exact ih ⟨fun p hp => Part.same_trans (h.only p hp) ((hf t x).only p hp), (hf t x).stores ∘ h.stores⟩

/-- A fold over pairs of the state and something else. -/
theorem foldlFst {α β : Type} {ps : List Part} {s : State} {f : State × β → α → State × β}
    (hf : ∀ p x, Alters ps p.1 (f p x).1) (l : List α) {p : State × β} (h : Alters ps s p.1) :
    Alters ps s (l.foldl f p).1 := by
  induction l generalizing p with
  | nil => exact h
  | cons x l ih =>
    exact ih ⟨fun q hq => Part.same_trans (h.only q hq) ((hf p x).only q hq), (hf p x).stores ∘ h.stores⟩

/-- A fold over pairs of something else and the state. -/
theorem foldlSnd {α β : Type} {ps : List Part} {s : State} {f : β × State → α → β × State}
    (hf : ∀ p x, Alters ps p.2 (f p x).2) (l : List α) {p : β × State} (h : Alters ps s p.2) :
    Alters ps s (l.foldl f p).2 := by
  induction l generalizing p with
  | nil => exact h
  | cons x l ih =>
    exact ih ⟨fun q hq => Part.same_trans (h.only q hq) ((hf p x).only q hq), (hf p x).stores ∘ h.stores⟩

/-- The state of a pair with a known value. -/
theorem of1 {β : Type} {ps : List Part} {s t : State} {p : State × β} {b : β} (e : p = (t, b)) (h : Alters ps s p.1) :
    Alters ps s t := by subst e; exact h

/-- The state of a pair with a known value. -/
theorem of2 {β : Type} {ps : List Part} {s t : State} {p : β × State} {b : β} (e : p = (b, t)) (h : Alters ps s p.2) :
    Alters ps s t := by subst e; exact h

/-- The state of a triple with a known value. -/
theorem of22 {β γ : Type} {ps : List Part} {s t : State} {p : β × γ × State} {b : β} {c : γ} (e : p = (b, c, t))
    (h : Alters ps s p.2.2) : Alters ps s t := by subst e; exact h

/-- The state of a quadruple with a known value. -/
theorem of222 {β γ δ : Type} {ps : List Part} {s t : State} {p : β × γ × δ × State} {b : β} {c : γ} {d : δ}
    (e : p = (b, c, d, t)) (h : Alters ps s p.2.2.2) : Alters ps s t := by subst e; exact h

/-- A state that may not be there, with another in its place. -/
theorem getD {ps : List Part} {s u : State} {o : Option State} (h : ∀ t, o = some t → Alters ps s t) (k : Alters ps s u) :
    Alters ps s (o.getD u) := by
  cases o with
  | none => exact k
  | some t => exact h t rfl

/-- A function of a state that may not be there, with another state in its place. -/
theorem getDMap {α : Type} {ps : List Part} {s u : State} {o : Option α} {f : α → State}
    (h : ∀ t, o = some t → Alters ps s (f t)) (k : Alters ps s u) : Alters ps s ((o.map f).getD u) := by
  cases o with
  | none => exact k
  | some t => exact h t rfl

/-- Both branches of a condition. -/
theorem ite {ps : List Part} {s t u : State} {c : Prop} [Decidable c] (h : Alters ps s t) (k : Alters ps s u) :
    Alters ps s (if c then t else u) := by split <;> assumption

/-- The result of a command: nothing on a stop, else the next state. -/
theorem ofNext {ps : List Part} {s t u : State} (e : (.next t : Res) = .next u) (h : Alters ps s t) : Alters ps s u := by
  cases e; exact h

/-- A record update: each part stays or is listed, and each store stays or keeps its canonical form. -/
theorem update {qs : List Part} {s0 s : State}
    {x_cert : Cert}
    {x_vendorId : Nat}
    {x_regs : SMap Nat}
    {x_modl : Module}
    {x_boot : Boot}
    {x_flash : Flash}
    {x_ring : Ring}
    {x_clk : Clk}
    {x_power : Power}
    {x_thermal : Thermal}
    {x_tel : Tel}
    {x_hw : Heartwood}
    {x_bark : Bark}
    {x_tree : Tree}
    {x_graft : GraftUnit}
    {x_job : JobUnit}
    {x_cells : SMap Cell}
    {x_taps : SMap Tap}
    {x_ports : SMap EdgePort}
    {x_sess : SMap Session}
    {x_shakes : List ShakeIn}
    {x_limbs : SMap Limb}
    {x_stream : Stream}
    {x_sessCmd : SessCmd}
    {x_host : HostPort}
    {x_mgmt : Mgmt}
    {x_ras : Ras}
    {x_journal : Journal}
    {x_pendRing : SMap Nat}
    {x_pendStep : SMap Nat}
    {x_free : Nat}
    {x_sent : List Emit}
    {x_pending : List Instr}
    (h : Alters qs s0 s)
    (h_vendorId : x_vendorId = s.vendorId ∨ Part.sub [.vendorId] qs = true := by first | exact Or.inr (by decide +kernel) | exact Or.inl rfl)
    (h_cert : x_cert = s.cert ∨ Part.sub [.cert] qs = true := by first | exact Or.inr (by decide +kernel) | exact Or.inl rfl)
    (h_regs : x_regs = s.regs ∨ (Part.sub [.regs] qs = true ∧ (swf 0 s.regs = true → swf 0 x_regs = true)) := by
      first | exact Or.inr ⟨by decide +kernel, by intro h; first | exact h | exact swf_sset h | exact swf_smap h | exact swf_skeep h | exact swf_smod h | (with_unfolding_all rfl)⟩ | exact Or.inl rfl)
    (h_modl : x_modl = s.modl ∨ Part.sub [.modl] qs = true := by first | exact Or.inr (by decide +kernel) | exact Or.inl rfl)
    (h_boot : x_boot = s.boot ∨ Part.sub [.boot] qs = true := by first | exact Or.inr (by decide +kernel) | exact Or.inl rfl)
    (h_flash : x_flash = s.flash ∨ Part.sub [.flash] qs = true := by first | exact Or.inr (by decide +kernel) | exact Or.inl rfl)
    (h_ring : x_ring = s.ring ∨ Part.sub [.ring] qs = true := by first | exact Or.inr (by decide +kernel) | exact Or.inl rfl)
    (h_clk : x_clk = s.clk ∨ Part.sub [.clk] qs = true := by first | exact Or.inr (by decide +kernel) | exact Or.inl rfl)
    (h_power : x_power = s.power ∨ Part.sub [.power] qs = true := by first | exact Or.inr (by decide +kernel) | exact Or.inl rfl)
    (h_thermal : x_thermal = s.thermal ∨ Part.sub [.thermal] qs = true := by first | exact Or.inr (by decide +kernel) | exact Or.inl rfl)
    (h_tel : x_tel = s.tel ∨ Part.sub [.tel] qs = true := by first | exact Or.inr (by decide +kernel) | exact Or.inl rfl)
    (h_hw : x_hw = s.hw ∨ Part.sub [.hw] qs = true := by first | exact Or.inr (by decide +kernel) | exact Or.inl rfl)
    (h_bark : x_bark = s.bark ∨ Part.sub [.bark] qs = true := by first | exact Or.inr (by decide +kernel) | exact Or.inl rfl)
    (h_tree : x_tree = s.tree ∨ Part.sub [.tree] qs = true := by first | exact Or.inr (by decide +kernel) | exact Or.inl rfl)
    (h_graft : x_graft = s.graft ∨ Part.sub [.graft] qs = true := by first | exact Or.inr (by decide +kernel) | exact Or.inl rfl)
    (h_job : x_job = s.job ∨ Part.sub [.job] qs = true := by first | exact Or.inr (by decide +kernel) | exact Or.inl rfl)
    (h_cells : x_cells = s.cells ∨ (Part.sub [.cells] qs = true ∧ (swf Cell.init s.cells = true → swf Cell.init x_cells = true)) := by
      first | exact Or.inr ⟨by decide +kernel, by intro h; first | exact h | exact swf_sset h | exact swf_smap h | exact swf_skeep h | exact swf_smod h | (with_unfolding_all rfl)⟩ | exact Or.inl rfl)
    (h_taps : x_taps = s.taps ∨ (Part.sub [.taps] qs = true ∧ (swf Tap.reset s.taps = true → swf Tap.reset x_taps = true)) := by
      first | exact Or.inr ⟨by decide +kernel, by intro h; first | exact h | exact swf_sset h | exact swf_smap h | exact swf_skeep h | exact swf_smod h | (with_unfolding_all rfl)⟩ | exact Or.inl rfl)
    (h_ports : x_ports = s.ports ∨ (Part.sub [.ports] qs = true ∧ (swf EdgePort.reset s.ports = true → swf EdgePort.reset x_ports = true)) := by
      first | exact Or.inr ⟨by decide +kernel, by intro h; first | exact h | exact swf_sset h | exact swf_smap h | exact swf_skeep h | exact swf_smod h | (with_unfolding_all rfl)⟩ | exact Or.inl rfl)
    (h_sess : x_sess = s.sess ∨ (Part.sub [.sess] qs = true ∧ (swf Session.reset s.sess = true → swf Session.reset x_sess = true)) := by
      first | exact Or.inr ⟨by decide +kernel, by intro h; first | exact h | exact swf_sset h | exact swf_smap h | exact swf_skeep h | exact swf_smod h | (with_unfolding_all rfl)⟩ | exact Or.inl rfl)
    (h_shakes : x_shakes = s.shakes ∨ Part.sub [.shakes] qs = true := by first | exact Or.inr (by decide +kernel) | exact Or.inl rfl)
    (h_limbs : x_limbs = s.limbs ∨ (Part.sub [.limbs] qs = true ∧ (swf Limb.reset s.limbs = true → swf Limb.reset x_limbs = true)) := by
      first | exact Or.inr ⟨by decide +kernel, by intro h; first | exact h | exact swf_sset h | exact swf_smap h | exact swf_skeep h | exact swf_smod h | (with_unfolding_all rfl)⟩ | exact Or.inl rfl)
    (h_stream : x_stream = s.stream ∨ Part.sub [.stream] qs = true := by first | exact Or.inr (by decide +kernel) | exact Or.inl rfl)
    (h_sessCmd : x_sessCmd = s.sessCmd ∨ Part.sub [.sessCmd] qs = true := by first | exact Or.inr (by decide +kernel) | exact Or.inl rfl)
    (h_host : x_host = s.host ∨ Part.sub [.host] qs = true := by first | exact Or.inr (by decide +kernel) | exact Or.inl rfl)
    (h_mgmt : x_mgmt = s.mgmt ∨ Part.sub [.mgmt] qs = true := by first | exact Or.inr (by decide +kernel) | exact Or.inl rfl)
    (h_ras : x_ras = s.ras ∨ Part.sub [.ras] qs = true := by first | exact Or.inr (by decide +kernel) | exact Or.inl rfl)
    (h_journal : x_journal = s.journal ∨ Part.sub [.journal] qs = true := by first | exact Or.inr (by decide +kernel) | exact Or.inl rfl)
    (h_pendRing : x_pendRing = s.pendRing ∨ (Part.sub [.pendRing] qs = true ∧ (swf 0 s.pendRing = true → swf 0 x_pendRing = true)) := by
      first | exact Or.inr ⟨by decide +kernel, by intro h; first | exact h | exact swf_sset h | exact swf_smap h | exact swf_skeep h | exact swf_smod h | (with_unfolding_all rfl)⟩ | exact Or.inl rfl)
    (h_pendStep : x_pendStep = s.pendStep ∨ (Part.sub [.pendStep] qs = true ∧ (swf 0 s.pendStep = true → swf 0 x_pendStep = true)) := by
      first | exact Or.inr ⟨by decide +kernel, by intro h; first | exact h | exact swf_sset h | exact swf_smap h | exact swf_skeep h | exact swf_smod h | (with_unfolding_all rfl)⟩ | exact Or.inl rfl)
    (h_free : x_free = s.free ∨ Part.sub [.free] qs = true := by first | exact Or.inr (by decide +kernel) | exact Or.inl rfl)
    (h_sent : x_sent = s.sent ∨ Part.sub [.sent] qs = true := by first | exact Or.inr (by decide +kernel) | exact Or.inl rfl)
    (h_pending : x_pending = s.pending ∨ Part.sub [.pending] qs = true := by first | exact Or.inr (by decide +kernel) | exact Or.inl rfl) :
    Alters qs s0 ⟨x_cert, x_vendorId, x_regs, x_modl, x_boot, x_flash, x_ring, x_clk, x_power, x_thermal, x_tel, x_hw, x_bark, x_tree, x_graft, x_job, x_cells, x_taps, x_ports, x_sess, x_shakes, x_limbs, x_stream, x_sessCmd, x_host, x_mgmt, x_ras, x_journal, x_pendRing, x_pendStep, x_free, x_sent, x_pending⟩ := by
  refine ⟨fun p hp => Part.same_trans (h.only p hp) ?_, fun w => ?_⟩
  · have no {q : Part} (m : Part.sub [q] qs = true) (e : q = p) : False :=
      hp (e ▸ Part.mem_of_sub m (List.mem_singleton.mpr rfl))
    cases p
    · exact h_cert.elim id (fun k => (no k rfl).elim)
    · exact h_vendorId.elim id (fun k => (no k rfl).elim)
    · exact h_regs.elim id (fun k => (no k.1 rfl).elim)
    · exact h_modl.elim id (fun k => (no k rfl).elim)
    · exact h_boot.elim id (fun k => (no k rfl).elim)
    · exact h_flash.elim id (fun k => (no k rfl).elim)
    · exact h_ring.elim id (fun k => (no k rfl).elim)
    · exact h_clk.elim id (fun k => (no k rfl).elim)
    · exact h_power.elim id (fun k => (no k rfl).elim)
    · exact h_thermal.elim id (fun k => (no k rfl).elim)
    · exact h_tel.elim id (fun k => (no k rfl).elim)
    · exact h_hw.elim id (fun k => (no k rfl).elim)
    · exact h_bark.elim id (fun k => (no k rfl).elim)
    · exact h_tree.elim id (fun k => (no k rfl).elim)
    · exact h_graft.elim id (fun k => (no k rfl).elim)
    · exact h_job.elim id (fun k => (no k rfl).elim)
    · exact h_cells.elim id (fun k => (no k.1 rfl).elim)
    · exact h_taps.elim id (fun k => (no k.1 rfl).elim)
    · exact h_ports.elim id (fun k => (no k.1 rfl).elim)
    · exact h_sess.elim id (fun k => (no k.1 rfl).elim)
    · exact h_shakes.elim id (fun k => (no k rfl).elim)
    · exact h_limbs.elim id (fun k => (no k.1 rfl).elim)
    · exact h_stream.elim id (fun k => (no k rfl).elim)
    · exact h_sessCmd.elim id (fun k => (no k rfl).elim)
    · exact h_host.elim id (fun k => (no k rfl).elim)
    · exact h_mgmt.elim id (fun k => (no k rfl).elim)
    · exact h_ras.elim id (fun k => (no k rfl).elim)
    · exact h_journal.elim id (fun k => (no k rfl).elim)
    · exact h_pendRing.elim id (fun k => (no k.1 rfl).elim)
    · exact h_pendStep.elim id (fun k => (no k.1 rfl).elim)
    · exact h_free.elim id (fun k => (no k rfl).elim)
    · exact h_sent.elim id (fun k => (no k rfl).elim)
    · exact h_pending.elim id (fun k => (no k rfl).elim)
  · obtain ⟨w0, w1, w2, w3, w4, w5, w6, w7⟩ := h.stores w
    exact ⟨h_regs.elim (fun e => e ▸ w0) (fun k => k.2 w0),
      h_cells.elim (fun e => e ▸ w1) (fun k => k.2 w1),
      h_taps.elim (fun e => e ▸ w2) (fun k => k.2 w2),
      h_ports.elim (fun e => e ▸ w3) (fun k => k.2 w3),
      h_sess.elim (fun e => e ▸ w4) (fun k => k.2 w4),
      h_limbs.elim (fun e => e ▸ w5) (fun k => k.2 w5),
      h_pendRing.elim (fun e => e ▸ w6) (fun k => k.2 w6),
      h_pendStep.elim (fun e => e ▸ w7) (fun k => k.2 w7)⟩

/-- A change of the job unit alone. -/
theorem setJob {ps : List Part} {s0 s : State} (j : JobUnit) (hs : Part.sub [.job] ps = true) (h : Alters ps s0 s) :
    Alters ps s0 { s with job := j } := .update h (h_job := Or.inr hs)

end Alters

end Sys2Proof.Machine
end

