-- ==== Sys2Proof/Laws/State.lean ====
section
/-!
SUPPORT. One lemma per field of State for each elementary update: the field it changes and every field it leaves alone; and
the reading of register fields after a write.
-/
namespace Sys2Proof.Machine

/-! ## Register fields -/

/-- The value read from a code is the value written, truncated to the field. -/
theorem Fld.read_code (F : Fld) (v : Nat) :
    (match F.code v with | 0 => F.reset | n + 1 => n) = v % 2 ^ F.width := by
  unfold Fld.code
  by_cases h : v % 2 ^ F.width = F.reset
  · rw [if_pos h]; exact h.symm
  · rw [if_neg h]

/-- A field reads what was written to it, truncated to its width. -/
theorem f_setF_self {s : State} (h : swf 0 s.regs = true) (F : Fld) (v : Nat) : (s.setF F v).f F = v % 2 ^ F.width := by
  unfold State.f State.setF
  rw [sget_sset_self h]
  exact F.read_code v

/-- Another field reads as before a write. -/
theorem f_setF_ne {s : State} {F G : Fld} {v : Nat} (h : G.key ≠ F.key) : (s.setF F v).f G = s.f G := by
  unfold State.f State.setF
  rw [sget_sset_ne h]

/-- The register store stays canonical. -/
theorem regs_setF {s : State} (h : swf 0 s.regs = true) (F : Fld) (v : Nat) : swf 0 (s.setF F v).regs = true := swf_sset h

/-- With an empty store every field reads its Reset column. -/
theorem f_empty {s : State} (h : s.regs = []) (F : Fld) : s.f F = F.reset := by
  unfold State.f; rw [h]; rfl

/-! ## setF -/

@[simp] theorem setF_regs (s : State) (F : Fld) (v : Nat) : (s.setF F v).regs = sset 0 s.regs F.key (F.code v) := rfl
@[simp] theorem setF_cert (s : State) (F : Fld) (v : Nat) : (s.setF F v).cert = s.cert := rfl
@[simp] theorem setF_vendorId (s : State) (F : Fld) (v : Nat) : (s.setF F v).vendorId = s.vendorId := rfl
@[simp] theorem setF_modl (s : State) (F : Fld) (v : Nat) : (s.setF F v).modl = s.modl := rfl
@[simp] theorem setF_boot (s : State) (F : Fld) (v : Nat) : (s.setF F v).boot = s.boot := rfl
@[simp] theorem setF_flash (s : State) (F : Fld) (v : Nat) : (s.setF F v).flash = s.flash := rfl
@[simp] theorem setF_ring (s : State) (F : Fld) (v : Nat) : (s.setF F v).ring = s.ring := rfl
@[simp] theorem setF_clk (s : State) (F : Fld) (v : Nat) : (s.setF F v).clk = s.clk := rfl
@[simp] theorem setF_power (s : State) (F : Fld) (v : Nat) : (s.setF F v).power = s.power := rfl
@[simp] theorem setF_thermal (s : State) (F : Fld) (v : Nat) : (s.setF F v).thermal = s.thermal := rfl
@[simp] theorem setF_tel (s : State) (F : Fld) (v : Nat) : (s.setF F v).tel = s.tel := rfl
@[simp] theorem setF_hw (s : State) (F : Fld) (v : Nat) : (s.setF F v).hw = s.hw := rfl
@[simp] theorem setF_bark (s : State) (F : Fld) (v : Nat) : (s.setF F v).bark = s.bark := rfl
@[simp] theorem setF_tree (s : State) (F : Fld) (v : Nat) : (s.setF F v).tree = s.tree := rfl
@[simp] theorem setF_graft (s : State) (F : Fld) (v : Nat) : (s.setF F v).graft = s.graft := rfl
@[simp] theorem setF_job (s : State) (F : Fld) (v : Nat) : (s.setF F v).job = s.job := rfl
@[simp] theorem setF_cells (s : State) (F : Fld) (v : Nat) : (s.setF F v).cells = s.cells := rfl
@[simp] theorem setF_taps (s : State) (F : Fld) (v : Nat) : (s.setF F v).taps = s.taps := rfl
@[simp] theorem setF_ports (s : State) (F : Fld) (v : Nat) : (s.setF F v).ports = s.ports := rfl
@[simp] theorem setF_sess (s : State) (F : Fld) (v : Nat) : (s.setF F v).sess = s.sess := rfl
@[simp] theorem setF_shakes (s : State) (F : Fld) (v : Nat) : (s.setF F v).shakes = s.shakes := rfl
@[simp] theorem setF_limbs (s : State) (F : Fld) (v : Nat) : (s.setF F v).limbs = s.limbs := rfl
@[simp] theorem setF_stream (s : State) (F : Fld) (v : Nat) : (s.setF F v).stream = s.stream := rfl
@[simp] theorem setF_sessCmd (s : State) (F : Fld) (v : Nat) : (s.setF F v).sessCmd = s.sessCmd := rfl
@[simp] theorem setF_host (s : State) (F : Fld) (v : Nat) : (s.setF F v).host = s.host := rfl
@[simp] theorem setF_mgmt (s : State) (F : Fld) (v : Nat) : (s.setF F v).mgmt = s.mgmt := rfl
@[simp] theorem setF_ras (s : State) (F : Fld) (v : Nat) : (s.setF F v).ras = s.ras := rfl
@[simp] theorem setF_journal (s : State) (F : Fld) (v : Nat) : (s.setF F v).journal = s.journal := rfl
@[simp] theorem setF_pendRing (s : State) (F : Fld) (v : Nat) : (s.setF F v).pendRing = s.pendRing := rfl
@[simp] theorem setF_pendStep (s : State) (F : Fld) (v : Nat) : (s.setF F v).pendStep = s.pendStep := rfl
@[simp] theorem setF_free (s : State) (F : Fld) (v : Nat) : (s.setF F v).free = s.free := rfl
@[simp] theorem setF_sent (s : State) (F : Fld) (v : Nat) : (s.setF F v).sent = s.sent := rfl
@[simp] theorem setF_pending (s : State) (F : Fld) (v : Nat) : (s.setF F v).pending = s.pending := rfl

/-! ## flag -/

@[simp] theorem flag_regs (s : State) (F : Fld) : (s.flag F).regs = sset 0 s.regs F.key (F.code 1) := rfl
@[simp] theorem flag_cert (s : State) (F : Fld) : (s.flag F).cert = s.cert := rfl
@[simp] theorem flag_vendorId (s : State) (F : Fld) : (s.flag F).vendorId = s.vendorId := rfl
@[simp] theorem flag_modl (s : State) (F : Fld) : (s.flag F).modl = s.modl := rfl
@[simp] theorem flag_boot (s : State) (F : Fld) : (s.flag F).boot = s.boot := rfl
@[simp] theorem flag_flash (s : State) (F : Fld) : (s.flag F).flash = s.flash := rfl
@[simp] theorem flag_ring (s : State) (F : Fld) : (s.flag F).ring = s.ring := rfl
@[simp] theorem flag_clk (s : State) (F : Fld) : (s.flag F).clk = s.clk := rfl
@[simp] theorem flag_power (s : State) (F : Fld) : (s.flag F).power = s.power := rfl
@[simp] theorem flag_thermal (s : State) (F : Fld) : (s.flag F).thermal = s.thermal := rfl
@[simp] theorem flag_tel (s : State) (F : Fld) : (s.flag F).tel = s.tel := rfl
@[simp] theorem flag_hw (s : State) (F : Fld) : (s.flag F).hw = s.hw := rfl
@[simp] theorem flag_bark (s : State) (F : Fld) : (s.flag F).bark = s.bark := rfl
@[simp] theorem flag_tree (s : State) (F : Fld) : (s.flag F).tree = s.tree := rfl
@[simp] theorem flag_graft (s : State) (F : Fld) : (s.flag F).graft = s.graft := rfl
@[simp] theorem flag_job (s : State) (F : Fld) : (s.flag F).job = s.job := rfl
@[simp] theorem flag_cells (s : State) (F : Fld) : (s.flag F).cells = s.cells := rfl
@[simp] theorem flag_taps (s : State) (F : Fld) : (s.flag F).taps = s.taps := rfl
@[simp] theorem flag_ports (s : State) (F : Fld) : (s.flag F).ports = s.ports := rfl
@[simp] theorem flag_sess (s : State) (F : Fld) : (s.flag F).sess = s.sess := rfl
@[simp] theorem flag_shakes (s : State) (F : Fld) : (s.flag F).shakes = s.shakes := rfl
@[simp] theorem flag_limbs (s : State) (F : Fld) : (s.flag F).limbs = s.limbs := rfl
@[simp] theorem flag_stream (s : State) (F : Fld) : (s.flag F).stream = s.stream := rfl
@[simp] theorem flag_sessCmd (s : State) (F : Fld) : (s.flag F).sessCmd = s.sessCmd := rfl
@[simp] theorem flag_host (s : State) (F : Fld) : (s.flag F).host = s.host := rfl
@[simp] theorem flag_mgmt (s : State) (F : Fld) : (s.flag F).mgmt = s.mgmt := rfl
@[simp] theorem flag_ras (s : State) (F : Fld) : (s.flag F).ras = s.ras := rfl
@[simp] theorem flag_journal (s : State) (F : Fld) : (s.flag F).journal = s.journal := rfl
@[simp] theorem flag_pendRing (s : State) (F : Fld) : (s.flag F).pendRing = s.pendRing := rfl
@[simp] theorem flag_pendStep (s : State) (F : Fld) : (s.flag F).pendStep = s.pendStep := rfl
@[simp] theorem flag_free (s : State) (F : Fld) : (s.flag F).free = s.free := rfl
@[simp] theorem flag_sent (s : State) (F : Fld) : (s.flag F).sent = s.sent := rfl
@[simp] theorem flag_pending (s : State) (F : Fld) : (s.flag F).pending = s.pending := rfl

/-! ## setCell -/

@[simp] theorem setCell_cells (s : State) (x y : Nat) (c : Cell) : (s.setCell x y c).cells = sset Cell.init s.cells (cellKey x y) c := rfl
@[simp] theorem setCell_cert (s : State) (x y : Nat) (c : Cell) : (s.setCell x y c).cert = s.cert := rfl
@[simp] theorem setCell_vendorId (s : State) (x y : Nat) (c : Cell) : (s.setCell x y c).vendorId = s.vendorId := rfl
@[simp] theorem setCell_regs (s : State) (x y : Nat) (c : Cell) : (s.setCell x y c).regs = s.regs := rfl
@[simp] theorem setCell_modl (s : State) (x y : Nat) (c : Cell) : (s.setCell x y c).modl = s.modl := rfl
@[simp] theorem setCell_boot (s : State) (x y : Nat) (c : Cell) : (s.setCell x y c).boot = s.boot := rfl
@[simp] theorem setCell_flash (s : State) (x y : Nat) (c : Cell) : (s.setCell x y c).flash = s.flash := rfl
@[simp] theorem setCell_ring (s : State) (x y : Nat) (c : Cell) : (s.setCell x y c).ring = s.ring := rfl
@[simp] theorem setCell_clk (s : State) (x y : Nat) (c : Cell) : (s.setCell x y c).clk = s.clk := rfl
@[simp] theorem setCell_power (s : State) (x y : Nat) (c : Cell) : (s.setCell x y c).power = s.power := rfl
@[simp] theorem setCell_thermal (s : State) (x y : Nat) (c : Cell) : (s.setCell x y c).thermal = s.thermal := rfl
@[simp] theorem setCell_tel (s : State) (x y : Nat) (c : Cell) : (s.setCell x y c).tel = s.tel := rfl
@[simp] theorem setCell_hw (s : State) (x y : Nat) (c : Cell) : (s.setCell x y c).hw = s.hw := rfl
@[simp] theorem setCell_bark (s : State) (x y : Nat) (c : Cell) : (s.setCell x y c).bark = s.bark := rfl
@[simp] theorem setCell_tree (s : State) (x y : Nat) (c : Cell) : (s.setCell x y c).tree = s.tree := rfl
@[simp] theorem setCell_graft (s : State) (x y : Nat) (c : Cell) : (s.setCell x y c).graft = s.graft := rfl
@[simp] theorem setCell_job (s : State) (x y : Nat) (c : Cell) : (s.setCell x y c).job = s.job := rfl
@[simp] theorem setCell_taps (s : State) (x y : Nat) (c : Cell) : (s.setCell x y c).taps = s.taps := rfl
@[simp] theorem setCell_ports (s : State) (x y : Nat) (c : Cell) : (s.setCell x y c).ports = s.ports := rfl
@[simp] theorem setCell_sess (s : State) (x y : Nat) (c : Cell) : (s.setCell x y c).sess = s.sess := rfl
@[simp] theorem setCell_shakes (s : State) (x y : Nat) (c : Cell) : (s.setCell x y c).shakes = s.shakes := rfl
@[simp] theorem setCell_limbs (s : State) (x y : Nat) (c : Cell) : (s.setCell x y c).limbs = s.limbs := rfl
@[simp] theorem setCell_stream (s : State) (x y : Nat) (c : Cell) : (s.setCell x y c).stream = s.stream := rfl
@[simp] theorem setCell_sessCmd (s : State) (x y : Nat) (c : Cell) : (s.setCell x y c).sessCmd = s.sessCmd := rfl
@[simp] theorem setCell_host (s : State) (x y : Nat) (c : Cell) : (s.setCell x y c).host = s.host := rfl
@[simp] theorem setCell_mgmt (s : State) (x y : Nat) (c : Cell) : (s.setCell x y c).mgmt = s.mgmt := rfl
@[simp] theorem setCell_ras (s : State) (x y : Nat) (c : Cell) : (s.setCell x y c).ras = s.ras := rfl
@[simp] theorem setCell_journal (s : State) (x y : Nat) (c : Cell) : (s.setCell x y c).journal = s.journal := rfl
@[simp] theorem setCell_pendRing (s : State) (x y : Nat) (c : Cell) : (s.setCell x y c).pendRing = s.pendRing := rfl
@[simp] theorem setCell_pendStep (s : State) (x y : Nat) (c : Cell) : (s.setCell x y c).pendStep = s.pendStep := rfl
@[simp] theorem setCell_free (s : State) (x y : Nat) (c : Cell) : (s.setCell x y c).free = s.free := rfl
@[simp] theorem setCell_sent (s : State) (x y : Nat) (c : Cell) : (s.setCell x y c).sent = s.sent := rfl
@[simp] theorem setCell_pending (s : State) (x y : Nat) (c : Cell) : (s.setCell x y c).pending = s.pending := rfl
@[simp] theorem setCell_f (s : State) (x y : Nat) (c : Cell) (F : Fld) : (s.setCell x y c).f F = s.f F := rfl

/-! ## setTap -/

@[simp] theorem setTap_taps (s : State) (i : Nat) (v : Tap) : (s.setTap i v).taps = sset Tap.reset s.taps i v := rfl
@[simp] theorem setTap_cert (s : State) (i : Nat) (v : Tap) : (s.setTap i v).cert = s.cert := rfl
@[simp] theorem setTap_vendorId (s : State) (i : Nat) (v : Tap) : (s.setTap i v).vendorId = s.vendorId := rfl
@[simp] theorem setTap_regs (s : State) (i : Nat) (v : Tap) : (s.setTap i v).regs = s.regs := rfl
@[simp] theorem setTap_modl (s : State) (i : Nat) (v : Tap) : (s.setTap i v).modl = s.modl := rfl
@[simp] theorem setTap_boot (s : State) (i : Nat) (v : Tap) : (s.setTap i v).boot = s.boot := rfl
@[simp] theorem setTap_flash (s : State) (i : Nat) (v : Tap) : (s.setTap i v).flash = s.flash := rfl
@[simp] theorem setTap_ring (s : State) (i : Nat) (v : Tap) : (s.setTap i v).ring = s.ring := rfl
@[simp] theorem setTap_clk (s : State) (i : Nat) (v : Tap) : (s.setTap i v).clk = s.clk := rfl
@[simp] theorem setTap_power (s : State) (i : Nat) (v : Tap) : (s.setTap i v).power = s.power := rfl
@[simp] theorem setTap_thermal (s : State) (i : Nat) (v : Tap) : (s.setTap i v).thermal = s.thermal := rfl
@[simp] theorem setTap_tel (s : State) (i : Nat) (v : Tap) : (s.setTap i v).tel = s.tel := rfl
@[simp] theorem setTap_hw (s : State) (i : Nat) (v : Tap) : (s.setTap i v).hw = s.hw := rfl
@[simp] theorem setTap_bark (s : State) (i : Nat) (v : Tap) : (s.setTap i v).bark = s.bark := rfl
@[simp] theorem setTap_tree (s : State) (i : Nat) (v : Tap) : (s.setTap i v).tree = s.tree := rfl
@[simp] theorem setTap_graft (s : State) (i : Nat) (v : Tap) : (s.setTap i v).graft = s.graft := rfl
@[simp] theorem setTap_job (s : State) (i : Nat) (v : Tap) : (s.setTap i v).job = s.job := rfl
@[simp] theorem setTap_cells (s : State) (i : Nat) (v : Tap) : (s.setTap i v).cells = s.cells := rfl
@[simp] theorem setTap_ports (s : State) (i : Nat) (v : Tap) : (s.setTap i v).ports = s.ports := rfl
@[simp] theorem setTap_sess (s : State) (i : Nat) (v : Tap) : (s.setTap i v).sess = s.sess := rfl
@[simp] theorem setTap_shakes (s : State) (i : Nat) (v : Tap) : (s.setTap i v).shakes = s.shakes := rfl
@[simp] theorem setTap_limbs (s : State) (i : Nat) (v : Tap) : (s.setTap i v).limbs = s.limbs := rfl
@[simp] theorem setTap_stream (s : State) (i : Nat) (v : Tap) : (s.setTap i v).stream = s.stream := rfl
@[simp] theorem setTap_sessCmd (s : State) (i : Nat) (v : Tap) : (s.setTap i v).sessCmd = s.sessCmd := rfl
@[simp] theorem setTap_host (s : State) (i : Nat) (v : Tap) : (s.setTap i v).host = s.host := rfl
@[simp] theorem setTap_mgmt (s : State) (i : Nat) (v : Tap) : (s.setTap i v).mgmt = s.mgmt := rfl
@[simp] theorem setTap_ras (s : State) (i : Nat) (v : Tap) : (s.setTap i v).ras = s.ras := rfl
@[simp] theorem setTap_journal (s : State) (i : Nat) (v : Tap) : (s.setTap i v).journal = s.journal := rfl
@[simp] theorem setTap_pendRing (s : State) (i : Nat) (v : Tap) : (s.setTap i v).pendRing = s.pendRing := rfl
@[simp] theorem setTap_pendStep (s : State) (i : Nat) (v : Tap) : (s.setTap i v).pendStep = s.pendStep := rfl
@[simp] theorem setTap_free (s : State) (i : Nat) (v : Tap) : (s.setTap i v).free = s.free := rfl
@[simp] theorem setTap_sent (s : State) (i : Nat) (v : Tap) : (s.setTap i v).sent = s.sent := rfl
@[simp] theorem setTap_pending (s : State) (i : Nat) (v : Tap) : (s.setTap i v).pending = s.pending := rfl
@[simp] theorem setTap_f (s : State) (i : Nat) (v : Tap) (F : Fld) : (s.setTap i v).f F = s.f F := rfl

/-! ## setPort -/

@[simp] theorem setPort_ports (s : State) (i : Nat) (v : EdgePort) : (s.setPort i v).ports = sset EdgePort.reset s.ports i v := rfl
@[simp] theorem setPort_cert (s : State) (i : Nat) (v : EdgePort) : (s.setPort i v).cert = s.cert := rfl
@[simp] theorem setPort_vendorId (s : State) (i : Nat) (v : EdgePort) : (s.setPort i v).vendorId = s.vendorId := rfl
@[simp] theorem setPort_regs (s : State) (i : Nat) (v : EdgePort) : (s.setPort i v).regs = s.regs := rfl
@[simp] theorem setPort_modl (s : State) (i : Nat) (v : EdgePort) : (s.setPort i v).modl = s.modl := rfl
@[simp] theorem setPort_boot (s : State) (i : Nat) (v : EdgePort) : (s.setPort i v).boot = s.boot := rfl
@[simp] theorem setPort_flash (s : State) (i : Nat) (v : EdgePort) : (s.setPort i v).flash = s.flash := rfl
@[simp] theorem setPort_ring (s : State) (i : Nat) (v : EdgePort) : (s.setPort i v).ring = s.ring := rfl
@[simp] theorem setPort_clk (s : State) (i : Nat) (v : EdgePort) : (s.setPort i v).clk = s.clk := rfl
@[simp] theorem setPort_power (s : State) (i : Nat) (v : EdgePort) : (s.setPort i v).power = s.power := rfl
@[simp] theorem setPort_thermal (s : State) (i : Nat) (v : EdgePort) : (s.setPort i v).thermal = s.thermal := rfl
@[simp] theorem setPort_tel (s : State) (i : Nat) (v : EdgePort) : (s.setPort i v).tel = s.tel := rfl
@[simp] theorem setPort_hw (s : State) (i : Nat) (v : EdgePort) : (s.setPort i v).hw = s.hw := rfl
@[simp] theorem setPort_bark (s : State) (i : Nat) (v : EdgePort) : (s.setPort i v).bark = s.bark := rfl
@[simp] theorem setPort_tree (s : State) (i : Nat) (v : EdgePort) : (s.setPort i v).tree = s.tree := rfl
@[simp] theorem setPort_graft (s : State) (i : Nat) (v : EdgePort) : (s.setPort i v).graft = s.graft := rfl
@[simp] theorem setPort_job (s : State) (i : Nat) (v : EdgePort) : (s.setPort i v).job = s.job := rfl
@[simp] theorem setPort_cells (s : State) (i : Nat) (v : EdgePort) : (s.setPort i v).cells = s.cells := rfl
@[simp] theorem setPort_taps (s : State) (i : Nat) (v : EdgePort) : (s.setPort i v).taps = s.taps := rfl
@[simp] theorem setPort_sess (s : State) (i : Nat) (v : EdgePort) : (s.setPort i v).sess = s.sess := rfl
@[simp] theorem setPort_shakes (s : State) (i : Nat) (v : EdgePort) : (s.setPort i v).shakes = s.shakes := rfl
@[simp] theorem setPort_limbs (s : State) (i : Nat) (v : EdgePort) : (s.setPort i v).limbs = s.limbs := rfl
@[simp] theorem setPort_stream (s : State) (i : Nat) (v : EdgePort) : (s.setPort i v).stream = s.stream := rfl
@[simp] theorem setPort_sessCmd (s : State) (i : Nat) (v : EdgePort) : (s.setPort i v).sessCmd = s.sessCmd := rfl
@[simp] theorem setPort_host (s : State) (i : Nat) (v : EdgePort) : (s.setPort i v).host = s.host := rfl
@[simp] theorem setPort_mgmt (s : State) (i : Nat) (v : EdgePort) : (s.setPort i v).mgmt = s.mgmt := rfl
@[simp] theorem setPort_ras (s : State) (i : Nat) (v : EdgePort) : (s.setPort i v).ras = s.ras := rfl
@[simp] theorem setPort_journal (s : State) (i : Nat) (v : EdgePort) : (s.setPort i v).journal = s.journal := rfl
@[simp] theorem setPort_pendRing (s : State) (i : Nat) (v : EdgePort) : (s.setPort i v).pendRing = s.pendRing := rfl
@[simp] theorem setPort_pendStep (s : State) (i : Nat) (v : EdgePort) : (s.setPort i v).pendStep = s.pendStep := rfl
@[simp] theorem setPort_free (s : State) (i : Nat) (v : EdgePort) : (s.setPort i v).free = s.free := rfl
@[simp] theorem setPort_sent (s : State) (i : Nat) (v : EdgePort) : (s.setPort i v).sent = s.sent := rfl
@[simp] theorem setPort_pending (s : State) (i : Nat) (v : EdgePort) : (s.setPort i v).pending = s.pending := rfl
@[simp] theorem setPort_f (s : State) (i : Nat) (v : EdgePort) (F : Fld) : (s.setPort i v).f F = s.f F := rfl

/-! ## setSes -/

@[simp] theorem setSes_sess (s : State) (i : Nat) (v : Session) : (s.setSes i v).sess = sset Session.reset s.sess i v := rfl
@[simp] theorem setSes_cert (s : State) (i : Nat) (v : Session) : (s.setSes i v).cert = s.cert := rfl
@[simp] theorem setSes_vendorId (s : State) (i : Nat) (v : Session) : (s.setSes i v).vendorId = s.vendorId := rfl
@[simp] theorem setSes_regs (s : State) (i : Nat) (v : Session) : (s.setSes i v).regs = s.regs := rfl
@[simp] theorem setSes_modl (s : State) (i : Nat) (v : Session) : (s.setSes i v).modl = s.modl := rfl
@[simp] theorem setSes_boot (s : State) (i : Nat) (v : Session) : (s.setSes i v).boot = s.boot := rfl
@[simp] theorem setSes_flash (s : State) (i : Nat) (v : Session) : (s.setSes i v).flash = s.flash := rfl
@[simp] theorem setSes_ring (s : State) (i : Nat) (v : Session) : (s.setSes i v).ring = s.ring := rfl
@[simp] theorem setSes_clk (s : State) (i : Nat) (v : Session) : (s.setSes i v).clk = s.clk := rfl
@[simp] theorem setSes_power (s : State) (i : Nat) (v : Session) : (s.setSes i v).power = s.power := rfl
@[simp] theorem setSes_thermal (s : State) (i : Nat) (v : Session) : (s.setSes i v).thermal = s.thermal := rfl
@[simp] theorem setSes_tel (s : State) (i : Nat) (v : Session) : (s.setSes i v).tel = s.tel := rfl
@[simp] theorem setSes_hw (s : State) (i : Nat) (v : Session) : (s.setSes i v).hw = s.hw := rfl
@[simp] theorem setSes_bark (s : State) (i : Nat) (v : Session) : (s.setSes i v).bark = s.bark := rfl
@[simp] theorem setSes_tree (s : State) (i : Nat) (v : Session) : (s.setSes i v).tree = s.tree := rfl
@[simp] theorem setSes_graft (s : State) (i : Nat) (v : Session) : (s.setSes i v).graft = s.graft := rfl
@[simp] theorem setSes_job (s : State) (i : Nat) (v : Session) : (s.setSes i v).job = s.job := rfl
@[simp] theorem setSes_cells (s : State) (i : Nat) (v : Session) : (s.setSes i v).cells = s.cells := rfl
@[simp] theorem setSes_taps (s : State) (i : Nat) (v : Session) : (s.setSes i v).taps = s.taps := rfl
@[simp] theorem setSes_ports (s : State) (i : Nat) (v : Session) : (s.setSes i v).ports = s.ports := rfl
@[simp] theorem setSes_shakes (s : State) (i : Nat) (v : Session) : (s.setSes i v).shakes = s.shakes := rfl
@[simp] theorem setSes_limbs (s : State) (i : Nat) (v : Session) : (s.setSes i v).limbs = s.limbs := rfl
@[simp] theorem setSes_stream (s : State) (i : Nat) (v : Session) : (s.setSes i v).stream = s.stream := rfl
@[simp] theorem setSes_sessCmd (s : State) (i : Nat) (v : Session) : (s.setSes i v).sessCmd = s.sessCmd := rfl
@[simp] theorem setSes_host (s : State) (i : Nat) (v : Session) : (s.setSes i v).host = s.host := rfl
@[simp] theorem setSes_mgmt (s : State) (i : Nat) (v : Session) : (s.setSes i v).mgmt = s.mgmt := rfl
@[simp] theorem setSes_ras (s : State) (i : Nat) (v : Session) : (s.setSes i v).ras = s.ras := rfl
@[simp] theorem setSes_journal (s : State) (i : Nat) (v : Session) : (s.setSes i v).journal = s.journal := rfl
@[simp] theorem setSes_pendRing (s : State) (i : Nat) (v : Session) : (s.setSes i v).pendRing = s.pendRing := rfl
@[simp] theorem setSes_pendStep (s : State) (i : Nat) (v : Session) : (s.setSes i v).pendStep = s.pendStep := rfl
@[simp] theorem setSes_free (s : State) (i : Nat) (v : Session) : (s.setSes i v).free = s.free := rfl
@[simp] theorem setSes_sent (s : State) (i : Nat) (v : Session) : (s.setSes i v).sent = s.sent := rfl
@[simp] theorem setSes_pending (s : State) (i : Nat) (v : Session) : (s.setSes i v).pending = s.pending := rfl
@[simp] theorem setSes_f (s : State) (i : Nat) (v : Session) (F : Fld) : (s.setSes i v).f F = s.f F := rfl

/-! ## setLimb -/

@[simp] theorem setLimb_limbs (s : State) (i : Nat) (v : Limb) : (s.setLimb i v).limbs = sset Limb.reset s.limbs i v := rfl
@[simp] theorem setLimb_cert (s : State) (i : Nat) (v : Limb) : (s.setLimb i v).cert = s.cert := rfl
@[simp] theorem setLimb_vendorId (s : State) (i : Nat) (v : Limb) : (s.setLimb i v).vendorId = s.vendorId := rfl
@[simp] theorem setLimb_regs (s : State) (i : Nat) (v : Limb) : (s.setLimb i v).regs = s.regs := rfl
@[simp] theorem setLimb_modl (s : State) (i : Nat) (v : Limb) : (s.setLimb i v).modl = s.modl := rfl
@[simp] theorem setLimb_boot (s : State) (i : Nat) (v : Limb) : (s.setLimb i v).boot = s.boot := rfl
@[simp] theorem setLimb_flash (s : State) (i : Nat) (v : Limb) : (s.setLimb i v).flash = s.flash := rfl
@[simp] theorem setLimb_ring (s : State) (i : Nat) (v : Limb) : (s.setLimb i v).ring = s.ring := rfl
@[simp] theorem setLimb_clk (s : State) (i : Nat) (v : Limb) : (s.setLimb i v).clk = s.clk := rfl
@[simp] theorem setLimb_power (s : State) (i : Nat) (v : Limb) : (s.setLimb i v).power = s.power := rfl
@[simp] theorem setLimb_thermal (s : State) (i : Nat) (v : Limb) : (s.setLimb i v).thermal = s.thermal := rfl
@[simp] theorem setLimb_tel (s : State) (i : Nat) (v : Limb) : (s.setLimb i v).tel = s.tel := rfl
@[simp] theorem setLimb_hw (s : State) (i : Nat) (v : Limb) : (s.setLimb i v).hw = s.hw := rfl
@[simp] theorem setLimb_bark (s : State) (i : Nat) (v : Limb) : (s.setLimb i v).bark = s.bark := rfl
@[simp] theorem setLimb_tree (s : State) (i : Nat) (v : Limb) : (s.setLimb i v).tree = s.tree := rfl
@[simp] theorem setLimb_graft (s : State) (i : Nat) (v : Limb) : (s.setLimb i v).graft = s.graft := rfl
@[simp] theorem setLimb_job (s : State) (i : Nat) (v : Limb) : (s.setLimb i v).job = s.job := rfl
@[simp] theorem setLimb_cells (s : State) (i : Nat) (v : Limb) : (s.setLimb i v).cells = s.cells := rfl
@[simp] theorem setLimb_taps (s : State) (i : Nat) (v : Limb) : (s.setLimb i v).taps = s.taps := rfl
@[simp] theorem setLimb_ports (s : State) (i : Nat) (v : Limb) : (s.setLimb i v).ports = s.ports := rfl
@[simp] theorem setLimb_sess (s : State) (i : Nat) (v : Limb) : (s.setLimb i v).sess = s.sess := rfl
@[simp] theorem setLimb_shakes (s : State) (i : Nat) (v : Limb) : (s.setLimb i v).shakes = s.shakes := rfl
@[simp] theorem setLimb_stream (s : State) (i : Nat) (v : Limb) : (s.setLimb i v).stream = s.stream := rfl
@[simp] theorem setLimb_sessCmd (s : State) (i : Nat) (v : Limb) : (s.setLimb i v).sessCmd = s.sessCmd := rfl
@[simp] theorem setLimb_host (s : State) (i : Nat) (v : Limb) : (s.setLimb i v).host = s.host := rfl
@[simp] theorem setLimb_mgmt (s : State) (i : Nat) (v : Limb) : (s.setLimb i v).mgmt = s.mgmt := rfl
@[simp] theorem setLimb_ras (s : State) (i : Nat) (v : Limb) : (s.setLimb i v).ras = s.ras := rfl
@[simp] theorem setLimb_journal (s : State) (i : Nat) (v : Limb) : (s.setLimb i v).journal = s.journal := rfl
@[simp] theorem setLimb_pendRing (s : State) (i : Nat) (v : Limb) : (s.setLimb i v).pendRing = s.pendRing := rfl
@[simp] theorem setLimb_pendStep (s : State) (i : Nat) (v : Limb) : (s.setLimb i v).pendStep = s.pendStep := rfl
@[simp] theorem setLimb_free (s : State) (i : Nat) (v : Limb) : (s.setLimb i v).free = s.free := rfl
@[simp] theorem setLimb_sent (s : State) (i : Nat) (v : Limb) : (s.setLimb i v).sent = s.sent := rfl
@[simp] theorem setLimb_pending (s : State) (i : Nat) (v : Limb) : (s.setLimb i v).pending = s.pending := rfl
@[simp] theorem setLimb_f (s : State) (i : Nat) (v : Limb) (F : Fld) : (s.setLimb i v).f F = s.f F := rfl

/-! ## setDomain -/

@[simp] theorem setDomain_power (s : State) (d : Nat) (v : Domain) : (s.setDomain d v).power = { s.power with domains := sset .off s.power.domains d v } := rfl
@[simp] theorem setDomain_cert (s : State) (d : Nat) (v : Domain) : (s.setDomain d v).cert = s.cert := rfl
@[simp] theorem setDomain_vendorId (s : State) (d : Nat) (v : Domain) : (s.setDomain d v).vendorId = s.vendorId := rfl
@[simp] theorem setDomain_regs (s : State) (d : Nat) (v : Domain) : (s.setDomain d v).regs = s.regs := rfl
@[simp] theorem setDomain_modl (s : State) (d : Nat) (v : Domain) : (s.setDomain d v).modl = s.modl := rfl
@[simp] theorem setDomain_boot (s : State) (d : Nat) (v : Domain) : (s.setDomain d v).boot = s.boot := rfl
@[simp] theorem setDomain_flash (s : State) (d : Nat) (v : Domain) : (s.setDomain d v).flash = s.flash := rfl
@[simp] theorem setDomain_ring (s : State) (d : Nat) (v : Domain) : (s.setDomain d v).ring = s.ring := rfl
@[simp] theorem setDomain_clk (s : State) (d : Nat) (v : Domain) : (s.setDomain d v).clk = s.clk := rfl
@[simp] theorem setDomain_thermal (s : State) (d : Nat) (v : Domain) : (s.setDomain d v).thermal = s.thermal := rfl
@[simp] theorem setDomain_tel (s : State) (d : Nat) (v : Domain) : (s.setDomain d v).tel = s.tel := rfl
@[simp] theorem setDomain_hw (s : State) (d : Nat) (v : Domain) : (s.setDomain d v).hw = s.hw := rfl
@[simp] theorem setDomain_bark (s : State) (d : Nat) (v : Domain) : (s.setDomain d v).bark = s.bark := rfl
@[simp] theorem setDomain_tree (s : State) (d : Nat) (v : Domain) : (s.setDomain d v).tree = s.tree := rfl
@[simp] theorem setDomain_graft (s : State) (d : Nat) (v : Domain) : (s.setDomain d v).graft = s.graft := rfl
@[simp] theorem setDomain_job (s : State) (d : Nat) (v : Domain) : (s.setDomain d v).job = s.job := rfl
@[simp] theorem setDomain_cells (s : State) (d : Nat) (v : Domain) : (s.setDomain d v).cells = s.cells := rfl
@[simp] theorem setDomain_taps (s : State) (d : Nat) (v : Domain) : (s.setDomain d v).taps = s.taps := rfl
@[simp] theorem setDomain_ports (s : State) (d : Nat) (v : Domain) : (s.setDomain d v).ports = s.ports := rfl
@[simp] theorem setDomain_sess (s : State) (d : Nat) (v : Domain) : (s.setDomain d v).sess = s.sess := rfl
@[simp] theorem setDomain_shakes (s : State) (d : Nat) (v : Domain) : (s.setDomain d v).shakes = s.shakes := rfl
@[simp] theorem setDomain_limbs (s : State) (d : Nat) (v : Domain) : (s.setDomain d v).limbs = s.limbs := rfl
@[simp] theorem setDomain_stream (s : State) (d : Nat) (v : Domain) : (s.setDomain d v).stream = s.stream := rfl
@[simp] theorem setDomain_sessCmd (s : State) (d : Nat) (v : Domain) : (s.setDomain d v).sessCmd = s.sessCmd := rfl
@[simp] theorem setDomain_host (s : State) (d : Nat) (v : Domain) : (s.setDomain d v).host = s.host := rfl
@[simp] theorem setDomain_mgmt (s : State) (d : Nat) (v : Domain) : (s.setDomain d v).mgmt = s.mgmt := rfl
@[simp] theorem setDomain_ras (s : State) (d : Nat) (v : Domain) : (s.setDomain d v).ras = s.ras := rfl
@[simp] theorem setDomain_journal (s : State) (d : Nat) (v : Domain) : (s.setDomain d v).journal = s.journal := rfl
@[simp] theorem setDomain_pendRing (s : State) (d : Nat) (v : Domain) : (s.setDomain d v).pendRing = s.pendRing := rfl
@[simp] theorem setDomain_pendStep (s : State) (d : Nat) (v : Domain) : (s.setDomain d v).pendStep = s.pendStep := rfl
@[simp] theorem setDomain_free (s : State) (d : Nat) (v : Domain) : (s.setDomain d v).free = s.free := rfl
@[simp] theorem setDomain_sent (s : State) (d : Nat) (v : Domain) : (s.setDomain d v).sent = s.sent := rfl
@[simp] theorem setDomain_pending (s : State) (d : Nat) (v : Domain) : (s.setDomain d v).pending = s.pending := rfl
@[simp] theorem setDomain_f (s : State) (d : Nat) (v : Domain) (F : Fld) : (s.setDomain d v).f F = s.f F := rfl

/-! ## setHwReg -/

@[simp] theorem setHwReg_hw (s : State) (r : Nat) (h : HwReg) : (s.setHwReg r h).hw = { s.hw with regs := sset HwReg.zero s.hw.regs r h } := rfl
@[simp] theorem setHwReg_cert (s : State) (r : Nat) (h : HwReg) : (s.setHwReg r h).cert = s.cert := rfl
@[simp] theorem setHwReg_vendorId (s : State) (r : Nat) (h : HwReg) : (s.setHwReg r h).vendorId = s.vendorId := rfl
@[simp] theorem setHwReg_regs (s : State) (r : Nat) (h : HwReg) : (s.setHwReg r h).regs = s.regs := rfl
@[simp] theorem setHwReg_modl (s : State) (r : Nat) (h : HwReg) : (s.setHwReg r h).modl = s.modl := rfl
@[simp] theorem setHwReg_boot (s : State) (r : Nat) (h : HwReg) : (s.setHwReg r h).boot = s.boot := rfl
@[simp] theorem setHwReg_flash (s : State) (r : Nat) (h : HwReg) : (s.setHwReg r h).flash = s.flash := rfl
@[simp] theorem setHwReg_ring (s : State) (r : Nat) (h : HwReg) : (s.setHwReg r h).ring = s.ring := rfl
@[simp] theorem setHwReg_clk (s : State) (r : Nat) (h : HwReg) : (s.setHwReg r h).clk = s.clk := rfl
@[simp] theorem setHwReg_power (s : State) (r : Nat) (h : HwReg) : (s.setHwReg r h).power = s.power := rfl
@[simp] theorem setHwReg_thermal (s : State) (r : Nat) (h : HwReg) : (s.setHwReg r h).thermal = s.thermal := rfl
@[simp] theorem setHwReg_tel (s : State) (r : Nat) (h : HwReg) : (s.setHwReg r h).tel = s.tel := rfl
@[simp] theorem setHwReg_bark (s : State) (r : Nat) (h : HwReg) : (s.setHwReg r h).bark = s.bark := rfl
@[simp] theorem setHwReg_tree (s : State) (r : Nat) (h : HwReg) : (s.setHwReg r h).tree = s.tree := rfl
@[simp] theorem setHwReg_graft (s : State) (r : Nat) (h : HwReg) : (s.setHwReg r h).graft = s.graft := rfl
@[simp] theorem setHwReg_job (s : State) (r : Nat) (h : HwReg) : (s.setHwReg r h).job = s.job := rfl
@[simp] theorem setHwReg_cells (s : State) (r : Nat) (h : HwReg) : (s.setHwReg r h).cells = s.cells := rfl
@[simp] theorem setHwReg_taps (s : State) (r : Nat) (h : HwReg) : (s.setHwReg r h).taps = s.taps := rfl
@[simp] theorem setHwReg_ports (s : State) (r : Nat) (h : HwReg) : (s.setHwReg r h).ports = s.ports := rfl
@[simp] theorem setHwReg_sess (s : State) (r : Nat) (h : HwReg) : (s.setHwReg r h).sess = s.sess := rfl
@[simp] theorem setHwReg_shakes (s : State) (r : Nat) (h : HwReg) : (s.setHwReg r h).shakes = s.shakes := rfl
@[simp] theorem setHwReg_limbs (s : State) (r : Nat) (h : HwReg) : (s.setHwReg r h).limbs = s.limbs := rfl
@[simp] theorem setHwReg_stream (s : State) (r : Nat) (h : HwReg) : (s.setHwReg r h).stream = s.stream := rfl
@[simp] theorem setHwReg_sessCmd (s : State) (r : Nat) (h : HwReg) : (s.setHwReg r h).sessCmd = s.sessCmd := rfl
@[simp] theorem setHwReg_host (s : State) (r : Nat) (h : HwReg) : (s.setHwReg r h).host = s.host := rfl
@[simp] theorem setHwReg_mgmt (s : State) (r : Nat) (h : HwReg) : (s.setHwReg r h).mgmt = s.mgmt := rfl
@[simp] theorem setHwReg_ras (s : State) (r : Nat) (h : HwReg) : (s.setHwReg r h).ras = s.ras := rfl
@[simp] theorem setHwReg_journal (s : State) (r : Nat) (h : HwReg) : (s.setHwReg r h).journal = s.journal := rfl
@[simp] theorem setHwReg_pendRing (s : State) (r : Nat) (h : HwReg) : (s.setHwReg r h).pendRing = s.pendRing := rfl
@[simp] theorem setHwReg_pendStep (s : State) (r : Nat) (h : HwReg) : (s.setHwReg r h).pendStep = s.pendStep := rfl
@[simp] theorem setHwReg_free (s : State) (r : Nat) (h : HwReg) : (s.setHwReg r h).free = s.free := rfl
@[simp] theorem setHwReg_sent (s : State) (r : Nat) (h : HwReg) : (s.setHwReg r h).sent = s.sent := rfl
@[simp] theorem setHwReg_pending (s : State) (r : Nat) (h : HwReg) : (s.setHwReg r h).pending = s.pending := rfl
@[simp] theorem setHwReg_f (s : State) (r : Nat) (h : HwReg) (F : Fld) : (s.setHwReg r h).f F = s.f F := rfl

/-! ## send -/

@[simp] theorem send_sent (s : State) (e : Emit) : (s.send e).sent = s.sent ++ [e] := rfl
@[simp] theorem send_cert (s : State) (e : Emit) : (s.send e).cert = s.cert := rfl
@[simp] theorem send_vendorId (s : State) (e : Emit) : (s.send e).vendorId = s.vendorId := rfl
@[simp] theorem send_regs (s : State) (e : Emit) : (s.send e).regs = s.regs := rfl
@[simp] theorem send_modl (s : State) (e : Emit) : (s.send e).modl = s.modl := rfl
@[simp] theorem send_boot (s : State) (e : Emit) : (s.send e).boot = s.boot := rfl
@[simp] theorem send_flash (s : State) (e : Emit) : (s.send e).flash = s.flash := rfl
@[simp] theorem send_ring (s : State) (e : Emit) : (s.send e).ring = s.ring := rfl
@[simp] theorem send_clk (s : State) (e : Emit) : (s.send e).clk = s.clk := rfl
@[simp] theorem send_power (s : State) (e : Emit) : (s.send e).power = s.power := rfl
@[simp] theorem send_thermal (s : State) (e : Emit) : (s.send e).thermal = s.thermal := rfl
@[simp] theorem send_tel (s : State) (e : Emit) : (s.send e).tel = s.tel := rfl
@[simp] theorem send_hw (s : State) (e : Emit) : (s.send e).hw = s.hw := rfl
@[simp] theorem send_bark (s : State) (e : Emit) : (s.send e).bark = s.bark := rfl
@[simp] theorem send_tree (s : State) (e : Emit) : (s.send e).tree = s.tree := rfl
@[simp] theorem send_graft (s : State) (e : Emit) : (s.send e).graft = s.graft := rfl
@[simp] theorem send_job (s : State) (e : Emit) : (s.send e).job = s.job := rfl
@[simp] theorem send_cells (s : State) (e : Emit) : (s.send e).cells = s.cells := rfl
@[simp] theorem send_taps (s : State) (e : Emit) : (s.send e).taps = s.taps := rfl
@[simp] theorem send_ports (s : State) (e : Emit) : (s.send e).ports = s.ports := rfl
@[simp] theorem send_sess (s : State) (e : Emit) : (s.send e).sess = s.sess := rfl
@[simp] theorem send_shakes (s : State) (e : Emit) : (s.send e).shakes = s.shakes := rfl
@[simp] theorem send_limbs (s : State) (e : Emit) : (s.send e).limbs = s.limbs := rfl
@[simp] theorem send_stream (s : State) (e : Emit) : (s.send e).stream = s.stream := rfl
@[simp] theorem send_sessCmd (s : State) (e : Emit) : (s.send e).sessCmd = s.sessCmd := rfl
@[simp] theorem send_host (s : State) (e : Emit) : (s.send e).host = s.host := rfl
@[simp] theorem send_mgmt (s : State) (e : Emit) : (s.send e).mgmt = s.mgmt := rfl
@[simp] theorem send_ras (s : State) (e : Emit) : (s.send e).ras = s.ras := rfl
@[simp] theorem send_journal (s : State) (e : Emit) : (s.send e).journal = s.journal := rfl
@[simp] theorem send_pendRing (s : State) (e : Emit) : (s.send e).pendRing = s.pendRing := rfl
@[simp] theorem send_pendStep (s : State) (e : Emit) : (s.send e).pendStep = s.pendStep := rfl
@[simp] theorem send_free (s : State) (e : Emit) : (s.send e).free = s.free := rfl
@[simp] theorem send_pending (s : State) (e : Emit) : (s.send e).pending = s.pending := rfl
@[simp] theorem send_f (s : State) (e : Emit) (F : Fld) : (s.send e).f F = s.f F := rfl

/-! ## setJob -/

@[simp] theorem setJob_job (s : State) (f : Job → Job) : (s.setJob f).job = { s.job with cur := s.job.cur.map f } := rfl
@[simp] theorem setJob_cert (s : State) (f : Job → Job) : (s.setJob f).cert = s.cert := rfl
@[simp] theorem setJob_vendorId (s : State) (f : Job → Job) : (s.setJob f).vendorId = s.vendorId := rfl
@[simp] theorem setJob_regs (s : State) (f : Job → Job) : (s.setJob f).regs = s.regs := rfl
@[simp] theorem setJob_modl (s : State) (f : Job → Job) : (s.setJob f).modl = s.modl := rfl
@[simp] theorem setJob_boot (s : State) (f : Job → Job) : (s.setJob f).boot = s.boot := rfl
@[simp] theorem setJob_flash (s : State) (f : Job → Job) : (s.setJob f).flash = s.flash := rfl
@[simp] theorem setJob_ring (s : State) (f : Job → Job) : (s.setJob f).ring = s.ring := rfl
@[simp] theorem setJob_clk (s : State) (f : Job → Job) : (s.setJob f).clk = s.clk := rfl
@[simp] theorem setJob_power (s : State) (f : Job → Job) : (s.setJob f).power = s.power := rfl
@[simp] theorem setJob_thermal (s : State) (f : Job → Job) : (s.setJob f).thermal = s.thermal := rfl
@[simp] theorem setJob_tel (s : State) (f : Job → Job) : (s.setJob f).tel = s.tel := rfl
@[simp] theorem setJob_hw (s : State) (f : Job → Job) : (s.setJob f).hw = s.hw := rfl
@[simp] theorem setJob_bark (s : State) (f : Job → Job) : (s.setJob f).bark = s.bark := rfl
@[simp] theorem setJob_tree (s : State) (f : Job → Job) : (s.setJob f).tree = s.tree := rfl
@[simp] theorem setJob_graft (s : State) (f : Job → Job) : (s.setJob f).graft = s.graft := rfl
@[simp] theorem setJob_cells (s : State) (f : Job → Job) : (s.setJob f).cells = s.cells := rfl
@[simp] theorem setJob_taps (s : State) (f : Job → Job) : (s.setJob f).taps = s.taps := rfl
@[simp] theorem setJob_ports (s : State) (f : Job → Job) : (s.setJob f).ports = s.ports := rfl
@[simp] theorem setJob_sess (s : State) (f : Job → Job) : (s.setJob f).sess = s.sess := rfl
@[simp] theorem setJob_shakes (s : State) (f : Job → Job) : (s.setJob f).shakes = s.shakes := rfl
@[simp] theorem setJob_limbs (s : State) (f : Job → Job) : (s.setJob f).limbs = s.limbs := rfl
@[simp] theorem setJob_stream (s : State) (f : Job → Job) : (s.setJob f).stream = s.stream := rfl
@[simp] theorem setJob_sessCmd (s : State) (f : Job → Job) : (s.setJob f).sessCmd = s.sessCmd := rfl
@[simp] theorem setJob_host (s : State) (f : Job → Job) : (s.setJob f).host = s.host := rfl
@[simp] theorem setJob_mgmt (s : State) (f : Job → Job) : (s.setJob f).mgmt = s.mgmt := rfl
@[simp] theorem setJob_ras (s : State) (f : Job → Job) : (s.setJob f).ras = s.ras := rfl
@[simp] theorem setJob_journal (s : State) (f : Job → Job) : (s.setJob f).journal = s.journal := rfl
@[simp] theorem setJob_pendRing (s : State) (f : Job → Job) : (s.setJob f).pendRing = s.pendRing := rfl
@[simp] theorem setJob_pendStep (s : State) (f : Job → Job) : (s.setJob f).pendStep = s.pendStep := rfl
@[simp] theorem setJob_free (s : State) (f : Job → Job) : (s.setJob f).free = s.free := rfl
@[simp] theorem setJob_sent (s : State) (f : Job → Job) : (s.setJob f).sent = s.sent := rfl
@[simp] theorem setJob_pending (s : State) (f : Job → Job) : (s.setJob f).pending = s.pending := rfl
@[simp] theorem setJob_f (s : State) (f : Job → Job) (F : Fld) : (s.setJob f).f F = s.f F := rfl

/-! ## setRecov -/

@[simp] theorem setRecov_ras (s : State) (f : Recovery → Recovery) : (s.setRecov f).ras = { s.ras with recov := f s.ras.recov } := rfl
@[simp] theorem setRecov_cert (s : State) (f : Recovery → Recovery) : (s.setRecov f).cert = s.cert := rfl
@[simp] theorem setRecov_vendorId (s : State) (f : Recovery → Recovery) : (s.setRecov f).vendorId = s.vendorId := rfl
@[simp] theorem setRecov_regs (s : State) (f : Recovery → Recovery) : (s.setRecov f).regs = s.regs := rfl
@[simp] theorem setRecov_modl (s : State) (f : Recovery → Recovery) : (s.setRecov f).modl = s.modl := rfl
@[simp] theorem setRecov_boot (s : State) (f : Recovery → Recovery) : (s.setRecov f).boot = s.boot := rfl
@[simp] theorem setRecov_flash (s : State) (f : Recovery → Recovery) : (s.setRecov f).flash = s.flash := rfl
@[simp] theorem setRecov_ring (s : State) (f : Recovery → Recovery) : (s.setRecov f).ring = s.ring := rfl
@[simp] theorem setRecov_clk (s : State) (f : Recovery → Recovery) : (s.setRecov f).clk = s.clk := rfl
@[simp] theorem setRecov_power (s : State) (f : Recovery → Recovery) : (s.setRecov f).power = s.power := rfl
@[simp] theorem setRecov_thermal (s : State) (f : Recovery → Recovery) : (s.setRecov f).thermal = s.thermal := rfl
@[simp] theorem setRecov_tel (s : State) (f : Recovery → Recovery) : (s.setRecov f).tel = s.tel := rfl
@[simp] theorem setRecov_hw (s : State) (f : Recovery → Recovery) : (s.setRecov f).hw = s.hw := rfl
@[simp] theorem setRecov_bark (s : State) (f : Recovery → Recovery) : (s.setRecov f).bark = s.bark := rfl
@[simp] theorem setRecov_tree (s : State) (f : Recovery → Recovery) : (s.setRecov f).tree = s.tree := rfl
@[simp] theorem setRecov_graft (s : State) (f : Recovery → Recovery) : (s.setRecov f).graft = s.graft := rfl
@[simp] theorem setRecov_job (s : State) (f : Recovery → Recovery) : (s.setRecov f).job = s.job := rfl
@[simp] theorem setRecov_cells (s : State) (f : Recovery → Recovery) : (s.setRecov f).cells = s.cells := rfl
@[simp] theorem setRecov_taps (s : State) (f : Recovery → Recovery) : (s.setRecov f).taps = s.taps := rfl
@[simp] theorem setRecov_ports (s : State) (f : Recovery → Recovery) : (s.setRecov f).ports = s.ports := rfl
@[simp] theorem setRecov_sess (s : State) (f : Recovery → Recovery) : (s.setRecov f).sess = s.sess := rfl
@[simp] theorem setRecov_shakes (s : State) (f : Recovery → Recovery) : (s.setRecov f).shakes = s.shakes := rfl
@[simp] theorem setRecov_limbs (s : State) (f : Recovery → Recovery) : (s.setRecov f).limbs = s.limbs := rfl
@[simp] theorem setRecov_stream (s : State) (f : Recovery → Recovery) : (s.setRecov f).stream = s.stream := rfl
@[simp] theorem setRecov_sessCmd (s : State) (f : Recovery → Recovery) : (s.setRecov f).sessCmd = s.sessCmd := rfl
@[simp] theorem setRecov_host (s : State) (f : Recovery → Recovery) : (s.setRecov f).host = s.host := rfl
@[simp] theorem setRecov_mgmt (s : State) (f : Recovery → Recovery) : (s.setRecov f).mgmt = s.mgmt := rfl
@[simp] theorem setRecov_journal (s : State) (f : Recovery → Recovery) : (s.setRecov f).journal = s.journal := rfl
@[simp] theorem setRecov_pendRing (s : State) (f : Recovery → Recovery) : (s.setRecov f).pendRing = s.pendRing := rfl
@[simp] theorem setRecov_pendStep (s : State) (f : Recovery → Recovery) : (s.setRecov f).pendStep = s.pendStep := rfl
@[simp] theorem setRecov_free (s : State) (f : Recovery → Recovery) : (s.setRecov f).free = s.free := rfl
@[simp] theorem setRecov_sent (s : State) (f : Recovery → Recovery) : (s.setRecov f).sent = s.sent := rfl
@[simp] theorem setRecov_pending (s : State) (f : Recovery → Recovery) : (s.setRecov f).pending = s.pending := rfl
@[simp] theorem setRecov_f (s : State) (f : Recovery → Recovery) (F : Fld) : (s.setRecov f).f F = s.f F := rfl

/-! ## modGroup -/

@[simp] theorem modGroup_job (s : State) (g : Nat) (f : GroupRun → GroupRun) : (s.modGroup g f).job = { s.job with groups := smod GroupRun.fresh s.job.groups g f } := rfl
@[simp] theorem modGroup_cert (s : State) (g : Nat) (f : GroupRun → GroupRun) : (s.modGroup g f).cert = s.cert := rfl
@[simp] theorem modGroup_vendorId (s : State) (g : Nat) (f : GroupRun → GroupRun) : (s.modGroup g f).vendorId = s.vendorId := rfl
@[simp] theorem modGroup_regs (s : State) (g : Nat) (f : GroupRun → GroupRun) : (s.modGroup g f).regs = s.regs := rfl
@[simp] theorem modGroup_modl (s : State) (g : Nat) (f : GroupRun → GroupRun) : (s.modGroup g f).modl = s.modl := rfl
@[simp] theorem modGroup_boot (s : State) (g : Nat) (f : GroupRun → GroupRun) : (s.modGroup g f).boot = s.boot := rfl
@[simp] theorem modGroup_flash (s : State) (g : Nat) (f : GroupRun → GroupRun) : (s.modGroup g f).flash = s.flash := rfl
@[simp] theorem modGroup_ring (s : State) (g : Nat) (f : GroupRun → GroupRun) : (s.modGroup g f).ring = s.ring := rfl
@[simp] theorem modGroup_clk (s : State) (g : Nat) (f : GroupRun → GroupRun) : (s.modGroup g f).clk = s.clk := rfl
@[simp] theorem modGroup_power (s : State) (g : Nat) (f : GroupRun → GroupRun) : (s.modGroup g f).power = s.power := rfl
@[simp] theorem modGroup_thermal (s : State) (g : Nat) (f : GroupRun → GroupRun) : (s.modGroup g f).thermal = s.thermal := rfl
@[simp] theorem modGroup_tel (s : State) (g : Nat) (f : GroupRun → GroupRun) : (s.modGroup g f).tel = s.tel := rfl
@[simp] theorem modGroup_hw (s : State) (g : Nat) (f : GroupRun → GroupRun) : (s.modGroup g f).hw = s.hw := rfl
@[simp] theorem modGroup_bark (s : State) (g : Nat) (f : GroupRun → GroupRun) : (s.modGroup g f).bark = s.bark := rfl
@[simp] theorem modGroup_tree (s : State) (g : Nat) (f : GroupRun → GroupRun) : (s.modGroup g f).tree = s.tree := rfl
@[simp] theorem modGroup_graft (s : State) (g : Nat) (f : GroupRun → GroupRun) : (s.modGroup g f).graft = s.graft := rfl
@[simp] theorem modGroup_cells (s : State) (g : Nat) (f : GroupRun → GroupRun) : (s.modGroup g f).cells = s.cells := rfl
@[simp] theorem modGroup_taps (s : State) (g : Nat) (f : GroupRun → GroupRun) : (s.modGroup g f).taps = s.taps := rfl
@[simp] theorem modGroup_ports (s : State) (g : Nat) (f : GroupRun → GroupRun) : (s.modGroup g f).ports = s.ports := rfl
@[simp] theorem modGroup_sess (s : State) (g : Nat) (f : GroupRun → GroupRun) : (s.modGroup g f).sess = s.sess := rfl
@[simp] theorem modGroup_shakes (s : State) (g : Nat) (f : GroupRun → GroupRun) : (s.modGroup g f).shakes = s.shakes := rfl
@[simp] theorem modGroup_limbs (s : State) (g : Nat) (f : GroupRun → GroupRun) : (s.modGroup g f).limbs = s.limbs := rfl
@[simp] theorem modGroup_stream (s : State) (g : Nat) (f : GroupRun → GroupRun) : (s.modGroup g f).stream = s.stream := rfl
@[simp] theorem modGroup_sessCmd (s : State) (g : Nat) (f : GroupRun → GroupRun) : (s.modGroup g f).sessCmd = s.sessCmd := rfl
@[simp] theorem modGroup_host (s : State) (g : Nat) (f : GroupRun → GroupRun) : (s.modGroup g f).host = s.host := rfl
@[simp] theorem modGroup_mgmt (s : State) (g : Nat) (f : GroupRun → GroupRun) : (s.modGroup g f).mgmt = s.mgmt := rfl
@[simp] theorem modGroup_ras (s : State) (g : Nat) (f : GroupRun → GroupRun) : (s.modGroup g f).ras = s.ras := rfl
@[simp] theorem modGroup_journal (s : State) (g : Nat) (f : GroupRun → GroupRun) : (s.modGroup g f).journal = s.journal := rfl
@[simp] theorem modGroup_pendRing (s : State) (g : Nat) (f : GroupRun → GroupRun) : (s.modGroup g f).pendRing = s.pendRing := rfl
@[simp] theorem modGroup_pendStep (s : State) (g : Nat) (f : GroupRun → GroupRun) : (s.modGroup g f).pendStep = s.pendStep := rfl
@[simp] theorem modGroup_free (s : State) (g : Nat) (f : GroupRun → GroupRun) : (s.modGroup g f).free = s.free := rfl
@[simp] theorem modGroup_sent (s : State) (g : Nat) (f : GroupRun → GroupRun) : (s.modGroup g f).sent = s.sent := rfl
@[simp] theorem modGroup_pending (s : State) (g : Nat) (f : GroupRun → GroupRun) : (s.modGroup g f).pending = s.pending := rfl
@[simp] theorem modGroup_f (s : State) (g : Nat) (f : GroupRun → GroupRun) (F : Fld) : (s.modGroup g f).f F = s.f F := rfl

/-! ## setBark -/

@[simp] theorem setBark_bark (s : State) (f : Bark → Bark) : (s.setBark f).bark = f s.bark := rfl
@[simp] theorem setBark_cert (s : State) (f : Bark → Bark) : (s.setBark f).cert = s.cert := rfl
@[simp] theorem setBark_vendorId (s : State) (f : Bark → Bark) : (s.setBark f).vendorId = s.vendorId := rfl
@[simp] theorem setBark_regs (s : State) (f : Bark → Bark) : (s.setBark f).regs = s.regs := rfl
@[simp] theorem setBark_modl (s : State) (f : Bark → Bark) : (s.setBark f).modl = s.modl := rfl
@[simp] theorem setBark_boot (s : State) (f : Bark → Bark) : (s.setBark f).boot = s.boot := rfl
@[simp] theorem setBark_flash (s : State) (f : Bark → Bark) : (s.setBark f).flash = s.flash := rfl
@[simp] theorem setBark_ring (s : State) (f : Bark → Bark) : (s.setBark f).ring = s.ring := rfl
@[simp] theorem setBark_clk (s : State) (f : Bark → Bark) : (s.setBark f).clk = s.clk := rfl
@[simp] theorem setBark_power (s : State) (f : Bark → Bark) : (s.setBark f).power = s.power := rfl
@[simp] theorem setBark_thermal (s : State) (f : Bark → Bark) : (s.setBark f).thermal = s.thermal := rfl
@[simp] theorem setBark_tel (s : State) (f : Bark → Bark) : (s.setBark f).tel = s.tel := rfl
@[simp] theorem setBark_hw (s : State) (f : Bark → Bark) : (s.setBark f).hw = s.hw := rfl
@[simp] theorem setBark_tree (s : State) (f : Bark → Bark) : (s.setBark f).tree = s.tree := rfl
@[simp] theorem setBark_graft (s : State) (f : Bark → Bark) : (s.setBark f).graft = s.graft := rfl
@[simp] theorem setBark_job (s : State) (f : Bark → Bark) : (s.setBark f).job = s.job := rfl
@[simp] theorem setBark_cells (s : State) (f : Bark → Bark) : (s.setBark f).cells = s.cells := rfl
@[simp] theorem setBark_taps (s : State) (f : Bark → Bark) : (s.setBark f).taps = s.taps := rfl
@[simp] theorem setBark_ports (s : State) (f : Bark → Bark) : (s.setBark f).ports = s.ports := rfl
@[simp] theorem setBark_sess (s : State) (f : Bark → Bark) : (s.setBark f).sess = s.sess := rfl
@[simp] theorem setBark_shakes (s : State) (f : Bark → Bark) : (s.setBark f).shakes = s.shakes := rfl
@[simp] theorem setBark_limbs (s : State) (f : Bark → Bark) : (s.setBark f).limbs = s.limbs := rfl
@[simp] theorem setBark_stream (s : State) (f : Bark → Bark) : (s.setBark f).stream = s.stream := rfl
@[simp] theorem setBark_sessCmd (s : State) (f : Bark → Bark) : (s.setBark f).sessCmd = s.sessCmd := rfl
@[simp] theorem setBark_host (s : State) (f : Bark → Bark) : (s.setBark f).host = s.host := rfl
@[simp] theorem setBark_mgmt (s : State) (f : Bark → Bark) : (s.setBark f).mgmt = s.mgmt := rfl
@[simp] theorem setBark_ras (s : State) (f : Bark → Bark) : (s.setBark f).ras = s.ras := rfl
@[simp] theorem setBark_journal (s : State) (f : Bark → Bark) : (s.setBark f).journal = s.journal := rfl
@[simp] theorem setBark_pendRing (s : State) (f : Bark → Bark) : (s.setBark f).pendRing = s.pendRing := rfl
@[simp] theorem setBark_pendStep (s : State) (f : Bark → Bark) : (s.setBark f).pendStep = s.pendStep := rfl
@[simp] theorem setBark_free (s : State) (f : Bark → Bark) : (s.setBark f).free = s.free := rfl
@[simp] theorem setBark_sent (s : State) (f : Bark → Bark) : (s.setBark f).sent = s.sent := rfl
@[simp] theorem setBark_pending (s : State) (f : Bark → Bark) : (s.setBark f).pending = s.pending := rfl
@[simp] theorem setBark_f (s : State) (f : Bark → Bark) (F : Fld) : (s.setBark f).f F = s.f F := rfl

/-! ## setClk -/

@[simp] theorem setClk_clk (s : State) (f : Clk → Clk) : (s.setClk f).clk = f s.clk := rfl
@[simp] theorem setClk_cert (s : State) (f : Clk → Clk) : (s.setClk f).cert = s.cert := rfl
@[simp] theorem setClk_vendorId (s : State) (f : Clk → Clk) : (s.setClk f).vendorId = s.vendorId := rfl
@[simp] theorem setClk_regs (s : State) (f : Clk → Clk) : (s.setClk f).regs = s.regs := rfl
@[simp] theorem setClk_modl (s : State) (f : Clk → Clk) : (s.setClk f).modl = s.modl := rfl
@[simp] theorem setClk_boot (s : State) (f : Clk → Clk) : (s.setClk f).boot = s.boot := rfl
@[simp] theorem setClk_flash (s : State) (f : Clk → Clk) : (s.setClk f).flash = s.flash := rfl
@[simp] theorem setClk_ring (s : State) (f : Clk → Clk) : (s.setClk f).ring = s.ring := rfl
@[simp] theorem setClk_power (s : State) (f : Clk → Clk) : (s.setClk f).power = s.power := rfl
@[simp] theorem setClk_thermal (s : State) (f : Clk → Clk) : (s.setClk f).thermal = s.thermal := rfl
@[simp] theorem setClk_tel (s : State) (f : Clk → Clk) : (s.setClk f).tel = s.tel := rfl
@[simp] theorem setClk_hw (s : State) (f : Clk → Clk) : (s.setClk f).hw = s.hw := rfl
@[simp] theorem setClk_bark (s : State) (f : Clk → Clk) : (s.setClk f).bark = s.bark := rfl
@[simp] theorem setClk_tree (s : State) (f : Clk → Clk) : (s.setClk f).tree = s.tree := rfl
@[simp] theorem setClk_graft (s : State) (f : Clk → Clk) : (s.setClk f).graft = s.graft := rfl
@[simp] theorem setClk_job (s : State) (f : Clk → Clk) : (s.setClk f).job = s.job := rfl
@[simp] theorem setClk_cells (s : State) (f : Clk → Clk) : (s.setClk f).cells = s.cells := rfl
@[simp] theorem setClk_taps (s : State) (f : Clk → Clk) : (s.setClk f).taps = s.taps := rfl
@[simp] theorem setClk_ports (s : State) (f : Clk → Clk) : (s.setClk f).ports = s.ports := rfl
@[simp] theorem setClk_sess (s : State) (f : Clk → Clk) : (s.setClk f).sess = s.sess := rfl
@[simp] theorem setClk_shakes (s : State) (f : Clk → Clk) : (s.setClk f).shakes = s.shakes := rfl
@[simp] theorem setClk_limbs (s : State) (f : Clk → Clk) : (s.setClk f).limbs = s.limbs := rfl
@[simp] theorem setClk_stream (s : State) (f : Clk → Clk) : (s.setClk f).stream = s.stream := rfl
@[simp] theorem setClk_sessCmd (s : State) (f : Clk → Clk) : (s.setClk f).sessCmd = s.sessCmd := rfl
@[simp] theorem setClk_host (s : State) (f : Clk → Clk) : (s.setClk f).host = s.host := rfl
@[simp] theorem setClk_mgmt (s : State) (f : Clk → Clk) : (s.setClk f).mgmt = s.mgmt := rfl
@[simp] theorem setClk_ras (s : State) (f : Clk → Clk) : (s.setClk f).ras = s.ras := rfl
@[simp] theorem setClk_journal (s : State) (f : Clk → Clk) : (s.setClk f).journal = s.journal := rfl
@[simp] theorem setClk_pendRing (s : State) (f : Clk → Clk) : (s.setClk f).pendRing = s.pendRing := rfl
@[simp] theorem setClk_pendStep (s : State) (f : Clk → Clk) : (s.setClk f).pendStep = s.pendStep := rfl
@[simp] theorem setClk_free (s : State) (f : Clk → Clk) : (s.setClk f).free = s.free := rfl
@[simp] theorem setClk_sent (s : State) (f : Clk → Clk) : (s.setClk f).sent = s.sent := rfl
@[simp] theorem setClk_pending (s : State) (f : Clk → Clk) : (s.setClk f).pending = s.pending := rfl
@[simp] theorem setClk_f (s : State) (f : Clk → Clk) (F : Fld) : (s.setClk f).f F = s.f F := rfl

/-! ## setBoot -/

@[simp] theorem setBoot_boot (s : State) (f : Boot → Boot) : (s.setBoot f).boot = f s.boot := rfl
@[simp] theorem setBoot_cert (s : State) (f : Boot → Boot) : (s.setBoot f).cert = s.cert := rfl
@[simp] theorem setBoot_vendorId (s : State) (f : Boot → Boot) : (s.setBoot f).vendorId = s.vendorId := rfl
@[simp] theorem setBoot_regs (s : State) (f : Boot → Boot) : (s.setBoot f).regs = s.regs := rfl
@[simp] theorem setBoot_modl (s : State) (f : Boot → Boot) : (s.setBoot f).modl = s.modl := rfl
@[simp] theorem setBoot_flash (s : State) (f : Boot → Boot) : (s.setBoot f).flash = s.flash := rfl
@[simp] theorem setBoot_ring (s : State) (f : Boot → Boot) : (s.setBoot f).ring = s.ring := rfl
@[simp] theorem setBoot_clk (s : State) (f : Boot → Boot) : (s.setBoot f).clk = s.clk := rfl
@[simp] theorem setBoot_power (s : State) (f : Boot → Boot) : (s.setBoot f).power = s.power := rfl
@[simp] theorem setBoot_thermal (s : State) (f : Boot → Boot) : (s.setBoot f).thermal = s.thermal := rfl
@[simp] theorem setBoot_tel (s : State) (f : Boot → Boot) : (s.setBoot f).tel = s.tel := rfl
@[simp] theorem setBoot_hw (s : State) (f : Boot → Boot) : (s.setBoot f).hw = s.hw := rfl
@[simp] theorem setBoot_bark (s : State) (f : Boot → Boot) : (s.setBoot f).bark = s.bark := rfl
@[simp] theorem setBoot_tree (s : State) (f : Boot → Boot) : (s.setBoot f).tree = s.tree := rfl
@[simp] theorem setBoot_graft (s : State) (f : Boot → Boot) : (s.setBoot f).graft = s.graft := rfl
@[simp] theorem setBoot_job (s : State) (f : Boot → Boot) : (s.setBoot f).job = s.job := rfl
@[simp] theorem setBoot_cells (s : State) (f : Boot → Boot) : (s.setBoot f).cells = s.cells := rfl
@[simp] theorem setBoot_taps (s : State) (f : Boot → Boot) : (s.setBoot f).taps = s.taps := rfl
@[simp] theorem setBoot_ports (s : State) (f : Boot → Boot) : (s.setBoot f).ports = s.ports := rfl
@[simp] theorem setBoot_sess (s : State) (f : Boot → Boot) : (s.setBoot f).sess = s.sess := rfl
@[simp] theorem setBoot_shakes (s : State) (f : Boot → Boot) : (s.setBoot f).shakes = s.shakes := rfl
@[simp] theorem setBoot_limbs (s : State) (f : Boot → Boot) : (s.setBoot f).limbs = s.limbs := rfl
@[simp] theorem setBoot_stream (s : State) (f : Boot → Boot) : (s.setBoot f).stream = s.stream := rfl
@[simp] theorem setBoot_sessCmd (s : State) (f : Boot → Boot) : (s.setBoot f).sessCmd = s.sessCmd := rfl
@[simp] theorem setBoot_host (s : State) (f : Boot → Boot) : (s.setBoot f).host = s.host := rfl
@[simp] theorem setBoot_mgmt (s : State) (f : Boot → Boot) : (s.setBoot f).mgmt = s.mgmt := rfl
@[simp] theorem setBoot_ras (s : State) (f : Boot → Boot) : (s.setBoot f).ras = s.ras := rfl
@[simp] theorem setBoot_journal (s : State) (f : Boot → Boot) : (s.setBoot f).journal = s.journal := rfl
@[simp] theorem setBoot_pendRing (s : State) (f : Boot → Boot) : (s.setBoot f).pendRing = s.pendRing := rfl
@[simp] theorem setBoot_pendStep (s : State) (f : Boot → Boot) : (s.setBoot f).pendStep = s.pendStep := rfl
@[simp] theorem setBoot_free (s : State) (f : Boot → Boot) : (s.setBoot f).free = s.free := rfl
@[simp] theorem setBoot_sent (s : State) (f : Boot → Boot) : (s.setBoot f).sent = s.sent := rfl
@[simp] theorem setBoot_pending (s : State) (f : Boot → Boot) : (s.setBoot f).pending = s.pending := rfl
@[simp] theorem setBoot_f (s : State) (f : Boot → Boot) (F : Fld) : (s.setBoot f).f F = s.f F := rfl

/-! ## setGraft -/

@[simp] theorem setGraft_graft (s : State) (f : GraftUnit → GraftUnit) : (s.setGraft f).graft = f s.graft := rfl
@[simp] theorem setGraft_cert (s : State) (f : GraftUnit → GraftUnit) : (s.setGraft f).cert = s.cert := rfl
@[simp] theorem setGraft_vendorId (s : State) (f : GraftUnit → GraftUnit) : (s.setGraft f).vendorId = s.vendorId := rfl
@[simp] theorem setGraft_regs (s : State) (f : GraftUnit → GraftUnit) : (s.setGraft f).regs = s.regs := rfl
@[simp] theorem setGraft_modl (s : State) (f : GraftUnit → GraftUnit) : (s.setGraft f).modl = s.modl := rfl
@[simp] theorem setGraft_boot (s : State) (f : GraftUnit → GraftUnit) : (s.setGraft f).boot = s.boot := rfl
@[simp] theorem setGraft_flash (s : State) (f : GraftUnit → GraftUnit) : (s.setGraft f).flash = s.flash := rfl
@[simp] theorem setGraft_ring (s : State) (f : GraftUnit → GraftUnit) : (s.setGraft f).ring = s.ring := rfl
@[simp] theorem setGraft_clk (s : State) (f : GraftUnit → GraftUnit) : (s.setGraft f).clk = s.clk := rfl
@[simp] theorem setGraft_power (s : State) (f : GraftUnit → GraftUnit) : (s.setGraft f).power = s.power := rfl
@[simp] theorem setGraft_thermal (s : State) (f : GraftUnit → GraftUnit) : (s.setGraft f).thermal = s.thermal := rfl
@[simp] theorem setGraft_tel (s : State) (f : GraftUnit → GraftUnit) : (s.setGraft f).tel = s.tel := rfl
@[simp] theorem setGraft_hw (s : State) (f : GraftUnit → GraftUnit) : (s.setGraft f).hw = s.hw := rfl
@[simp] theorem setGraft_bark (s : State) (f : GraftUnit → GraftUnit) : (s.setGraft f).bark = s.bark := rfl
@[simp] theorem setGraft_tree (s : State) (f : GraftUnit → GraftUnit) : (s.setGraft f).tree = s.tree := rfl
@[simp] theorem setGraft_job (s : State) (f : GraftUnit → GraftUnit) : (s.setGraft f).job = s.job := rfl
@[simp] theorem setGraft_cells (s : State) (f : GraftUnit → GraftUnit) : (s.setGraft f).cells = s.cells := rfl
@[simp] theorem setGraft_taps (s : State) (f : GraftUnit → GraftUnit) : (s.setGraft f).taps = s.taps := rfl
@[simp] theorem setGraft_ports (s : State) (f : GraftUnit → GraftUnit) : (s.setGraft f).ports = s.ports := rfl
@[simp] theorem setGraft_sess (s : State) (f : GraftUnit → GraftUnit) : (s.setGraft f).sess = s.sess := rfl
@[simp] theorem setGraft_shakes (s : State) (f : GraftUnit → GraftUnit) : (s.setGraft f).shakes = s.shakes := rfl
@[simp] theorem setGraft_limbs (s : State) (f : GraftUnit → GraftUnit) : (s.setGraft f).limbs = s.limbs := rfl
@[simp] theorem setGraft_stream (s : State) (f : GraftUnit → GraftUnit) : (s.setGraft f).stream = s.stream := rfl
@[simp] theorem setGraft_sessCmd (s : State) (f : GraftUnit → GraftUnit) : (s.setGraft f).sessCmd = s.sessCmd := rfl
@[simp] theorem setGraft_host (s : State) (f : GraftUnit → GraftUnit) : (s.setGraft f).host = s.host := rfl
@[simp] theorem setGraft_mgmt (s : State) (f : GraftUnit → GraftUnit) : (s.setGraft f).mgmt = s.mgmt := rfl
@[simp] theorem setGraft_ras (s : State) (f : GraftUnit → GraftUnit) : (s.setGraft f).ras = s.ras := rfl
@[simp] theorem setGraft_journal (s : State) (f : GraftUnit → GraftUnit) : (s.setGraft f).journal = s.journal := rfl
@[simp] theorem setGraft_pendRing (s : State) (f : GraftUnit → GraftUnit) : (s.setGraft f).pendRing = s.pendRing := rfl
@[simp] theorem setGraft_pendStep (s : State) (f : GraftUnit → GraftUnit) : (s.setGraft f).pendStep = s.pendStep := rfl
@[simp] theorem setGraft_free (s : State) (f : GraftUnit → GraftUnit) : (s.setGraft f).free = s.free := rfl
@[simp] theorem setGraft_sent (s : State) (f : GraftUnit → GraftUnit) : (s.setGraft f).sent = s.sent := rfl
@[simp] theorem setGraft_pending (s : State) (f : GraftUnit → GraftUnit) : (s.setGraft f).pending = s.pending := rfl
@[simp] theorem setGraft_f (s : State) (f : GraftUnit → GraftUnit) (F : Fld) : (s.setGraft f).f F = s.f F := rfl

/-! ## setHost -/

@[simp] theorem setHost_host (s : State) (f : HostPort → HostPort) : (s.setHost f).host = f s.host := rfl
@[simp] theorem setHost_cert (s : State) (f : HostPort → HostPort) : (s.setHost f).cert = s.cert := rfl
@[simp] theorem setHost_vendorId (s : State) (f : HostPort → HostPort) : (s.setHost f).vendorId = s.vendorId := rfl
@[simp] theorem setHost_regs (s : State) (f : HostPort → HostPort) : (s.setHost f).regs = s.regs := rfl
@[simp] theorem setHost_modl (s : State) (f : HostPort → HostPort) : (s.setHost f).modl = s.modl := rfl
@[simp] theorem setHost_boot (s : State) (f : HostPort → HostPort) : (s.setHost f).boot = s.boot := rfl
@[simp] theorem setHost_flash (s : State) (f : HostPort → HostPort) : (s.setHost f).flash = s.flash := rfl
@[simp] theorem setHost_ring (s : State) (f : HostPort → HostPort) : (s.setHost f).ring = s.ring := rfl
@[simp] theorem setHost_clk (s : State) (f : HostPort → HostPort) : (s.setHost f).clk = s.clk := rfl
@[simp] theorem setHost_power (s : State) (f : HostPort → HostPort) : (s.setHost f).power = s.power := rfl
@[simp] theorem setHost_thermal (s : State) (f : HostPort → HostPort) : (s.setHost f).thermal = s.thermal := rfl
@[simp] theorem setHost_tel (s : State) (f : HostPort → HostPort) : (s.setHost f).tel = s.tel := rfl
@[simp] theorem setHost_hw (s : State) (f : HostPort → HostPort) : (s.setHost f).hw = s.hw := rfl
@[simp] theorem setHost_bark (s : State) (f : HostPort → HostPort) : (s.setHost f).bark = s.bark := rfl
@[simp] theorem setHost_tree (s : State) (f : HostPort → HostPort) : (s.setHost f).tree = s.tree := rfl
@[simp] theorem setHost_graft (s : State) (f : HostPort → HostPort) : (s.setHost f).graft = s.graft := rfl
@[simp] theorem setHost_job (s : State) (f : HostPort → HostPort) : (s.setHost f).job = s.job := rfl
@[simp] theorem setHost_cells (s : State) (f : HostPort → HostPort) : (s.setHost f).cells = s.cells := rfl
@[simp] theorem setHost_taps (s : State) (f : HostPort → HostPort) : (s.setHost f).taps = s.taps := rfl
@[simp] theorem setHost_ports (s : State) (f : HostPort → HostPort) : (s.setHost f).ports = s.ports := rfl
@[simp] theorem setHost_sess (s : State) (f : HostPort → HostPort) : (s.setHost f).sess = s.sess := rfl
@[simp] theorem setHost_shakes (s : State) (f : HostPort → HostPort) : (s.setHost f).shakes = s.shakes := rfl
@[simp] theorem setHost_limbs (s : State) (f : HostPort → HostPort) : (s.setHost f).limbs = s.limbs := rfl
@[simp] theorem setHost_stream (s : State) (f : HostPort → HostPort) : (s.setHost f).stream = s.stream := rfl
@[simp] theorem setHost_sessCmd (s : State) (f : HostPort → HostPort) : (s.setHost f).sessCmd = s.sessCmd := rfl
@[simp] theorem setHost_mgmt (s : State) (f : HostPort → HostPort) : (s.setHost f).mgmt = s.mgmt := rfl
@[simp] theorem setHost_ras (s : State) (f : HostPort → HostPort) : (s.setHost f).ras = s.ras := rfl
@[simp] theorem setHost_journal (s : State) (f : HostPort → HostPort) : (s.setHost f).journal = s.journal := rfl
@[simp] theorem setHost_pendRing (s : State) (f : HostPort → HostPort) : (s.setHost f).pendRing = s.pendRing := rfl
@[simp] theorem setHost_pendStep (s : State) (f : HostPort → HostPort) : (s.setHost f).pendStep = s.pendStep := rfl
@[simp] theorem setHost_free (s : State) (f : HostPort → HostPort) : (s.setHost f).free = s.free := rfl
@[simp] theorem setHost_sent (s : State) (f : HostPort → HostPort) : (s.setHost f).sent = s.sent := rfl
@[simp] theorem setHost_pending (s : State) (f : HostPort → HostPort) : (s.setHost f).pending = s.pending := rfl
@[simp] theorem setHost_f (s : State) (f : HostPort → HostPort) (F : Fld) : (s.setHost f).f F = s.f F := rfl

/-! ## setJournal -/

@[simp] theorem setJournal_journal (s : State) (f : Journal → Journal) : (s.setJournal f).journal = f s.journal := rfl
@[simp] theorem setJournal_cert (s : State) (f : Journal → Journal) : (s.setJournal f).cert = s.cert := rfl
@[simp] theorem setJournal_vendorId (s : State) (f : Journal → Journal) : (s.setJournal f).vendorId = s.vendorId := rfl
@[simp] theorem setJournal_regs (s : State) (f : Journal → Journal) : (s.setJournal f).regs = s.regs := rfl
@[simp] theorem setJournal_modl (s : State) (f : Journal → Journal) : (s.setJournal f).modl = s.modl := rfl
@[simp] theorem setJournal_boot (s : State) (f : Journal → Journal) : (s.setJournal f).boot = s.boot := rfl
@[simp] theorem setJournal_flash (s : State) (f : Journal → Journal) : (s.setJournal f).flash = s.flash := rfl
@[simp] theorem setJournal_ring (s : State) (f : Journal → Journal) : (s.setJournal f).ring = s.ring := rfl
@[simp] theorem setJournal_clk (s : State) (f : Journal → Journal) : (s.setJournal f).clk = s.clk := rfl
@[simp] theorem setJournal_power (s : State) (f : Journal → Journal) : (s.setJournal f).power = s.power := rfl
@[simp] theorem setJournal_thermal (s : State) (f : Journal → Journal) : (s.setJournal f).thermal = s.thermal := rfl
@[simp] theorem setJournal_tel (s : State) (f : Journal → Journal) : (s.setJournal f).tel = s.tel := rfl
@[simp] theorem setJournal_hw (s : State) (f : Journal → Journal) : (s.setJournal f).hw = s.hw := rfl
@[simp] theorem setJournal_bark (s : State) (f : Journal → Journal) : (s.setJournal f).bark = s.bark := rfl
@[simp] theorem setJournal_tree (s : State) (f : Journal → Journal) : (s.setJournal f).tree = s.tree := rfl
@[simp] theorem setJournal_graft (s : State) (f : Journal → Journal) : (s.setJournal f).graft = s.graft := rfl
@[simp] theorem setJournal_job (s : State) (f : Journal → Journal) : (s.setJournal f).job = s.job := rfl
@[simp] theorem setJournal_cells (s : State) (f : Journal → Journal) : (s.setJournal f).cells = s.cells := rfl
@[simp] theorem setJournal_taps (s : State) (f : Journal → Journal) : (s.setJournal f).taps = s.taps := rfl
@[simp] theorem setJournal_ports (s : State) (f : Journal → Journal) : (s.setJournal f).ports = s.ports := rfl
@[simp] theorem setJournal_sess (s : State) (f : Journal → Journal) : (s.setJournal f).sess = s.sess := rfl
@[simp] theorem setJournal_shakes (s : State) (f : Journal → Journal) : (s.setJournal f).shakes = s.shakes := rfl
@[simp] theorem setJournal_limbs (s : State) (f : Journal → Journal) : (s.setJournal f).limbs = s.limbs := rfl
@[simp] theorem setJournal_stream (s : State) (f : Journal → Journal) : (s.setJournal f).stream = s.stream := rfl
@[simp] theorem setJournal_sessCmd (s : State) (f : Journal → Journal) : (s.setJournal f).sessCmd = s.sessCmd := rfl
@[simp] theorem setJournal_host (s : State) (f : Journal → Journal) : (s.setJournal f).host = s.host := rfl
@[simp] theorem setJournal_mgmt (s : State) (f : Journal → Journal) : (s.setJournal f).mgmt = s.mgmt := rfl
@[simp] theorem setJournal_ras (s : State) (f : Journal → Journal) : (s.setJournal f).ras = s.ras := rfl
@[simp] theorem setJournal_pendRing (s : State) (f : Journal → Journal) : (s.setJournal f).pendRing = s.pendRing := rfl
@[simp] theorem setJournal_pendStep (s : State) (f : Journal → Journal) : (s.setJournal f).pendStep = s.pendStep := rfl
@[simp] theorem setJournal_free (s : State) (f : Journal → Journal) : (s.setJournal f).free = s.free := rfl
@[simp] theorem setJournal_sent (s : State) (f : Journal → Journal) : (s.setJournal f).sent = s.sent := rfl
@[simp] theorem setJournal_pending (s : State) (f : Journal → Journal) : (s.setJournal f).pending = s.pending := rfl
@[simp] theorem setJournal_f (s : State) (f : Journal → Journal) (F : Fld) : (s.setJournal f).f F = s.f F := rfl

/-! ## setModl -/

@[simp] theorem setModl_modl (s : State) (f : Module → Module) : (s.setModl f).modl = f s.modl := rfl
@[simp] theorem setModl_cert (s : State) (f : Module → Module) : (s.setModl f).cert = s.cert := rfl
@[simp] theorem setModl_vendorId (s : State) (f : Module → Module) : (s.setModl f).vendorId = s.vendorId := rfl
@[simp] theorem setModl_regs (s : State) (f : Module → Module) : (s.setModl f).regs = s.regs := rfl
@[simp] theorem setModl_boot (s : State) (f : Module → Module) : (s.setModl f).boot = s.boot := rfl
@[simp] theorem setModl_flash (s : State) (f : Module → Module) : (s.setModl f).flash = s.flash := rfl
@[simp] theorem setModl_ring (s : State) (f : Module → Module) : (s.setModl f).ring = s.ring := rfl
@[simp] theorem setModl_clk (s : State) (f : Module → Module) : (s.setModl f).clk = s.clk := rfl
@[simp] theorem setModl_power (s : State) (f : Module → Module) : (s.setModl f).power = s.power := rfl
@[simp] theorem setModl_thermal (s : State) (f : Module → Module) : (s.setModl f).thermal = s.thermal := rfl
@[simp] theorem setModl_tel (s : State) (f : Module → Module) : (s.setModl f).tel = s.tel := rfl
@[simp] theorem setModl_hw (s : State) (f : Module → Module) : (s.setModl f).hw = s.hw := rfl
@[simp] theorem setModl_bark (s : State) (f : Module → Module) : (s.setModl f).bark = s.bark := rfl
@[simp] theorem setModl_tree (s : State) (f : Module → Module) : (s.setModl f).tree = s.tree := rfl
@[simp] theorem setModl_graft (s : State) (f : Module → Module) : (s.setModl f).graft = s.graft := rfl
@[simp] theorem setModl_job (s : State) (f : Module → Module) : (s.setModl f).job = s.job := rfl
@[simp] theorem setModl_cells (s : State) (f : Module → Module) : (s.setModl f).cells = s.cells := rfl
@[simp] theorem setModl_taps (s : State) (f : Module → Module) : (s.setModl f).taps = s.taps := rfl
@[simp] theorem setModl_ports (s : State) (f : Module → Module) : (s.setModl f).ports = s.ports := rfl
@[simp] theorem setModl_sess (s : State) (f : Module → Module) : (s.setModl f).sess = s.sess := rfl
@[simp] theorem setModl_shakes (s : State) (f : Module → Module) : (s.setModl f).shakes = s.shakes := rfl
@[simp] theorem setModl_limbs (s : State) (f : Module → Module) : (s.setModl f).limbs = s.limbs := rfl
@[simp] theorem setModl_stream (s : State) (f : Module → Module) : (s.setModl f).stream = s.stream := rfl
@[simp] theorem setModl_sessCmd (s : State) (f : Module → Module) : (s.setModl f).sessCmd = s.sessCmd := rfl
@[simp] theorem setModl_host (s : State) (f : Module → Module) : (s.setModl f).host = s.host := rfl
@[simp] theorem setModl_mgmt (s : State) (f : Module → Module) : (s.setModl f).mgmt = s.mgmt := rfl
@[simp] theorem setModl_ras (s : State) (f : Module → Module) : (s.setModl f).ras = s.ras := rfl
@[simp] theorem setModl_journal (s : State) (f : Module → Module) : (s.setModl f).journal = s.journal := rfl
@[simp] theorem setModl_pendRing (s : State) (f : Module → Module) : (s.setModl f).pendRing = s.pendRing := rfl
@[simp] theorem setModl_pendStep (s : State) (f : Module → Module) : (s.setModl f).pendStep = s.pendStep := rfl
@[simp] theorem setModl_free (s : State) (f : Module → Module) : (s.setModl f).free = s.free := rfl
@[simp] theorem setModl_sent (s : State) (f : Module → Module) : (s.setModl f).sent = s.sent := rfl
@[simp] theorem setModl_pending (s : State) (f : Module → Module) : (s.setModl f).pending = s.pending := rfl
@[simp] theorem setModl_f (s : State) (f : Module → Module) (F : Fld) : (s.setModl f).f F = s.f F := rfl

/-! ## setPower -/

@[simp] theorem setPower_power (s : State) (f : Power → Power) : (s.setPower f).power = f s.power := rfl
@[simp] theorem setPower_cert (s : State) (f : Power → Power) : (s.setPower f).cert = s.cert := rfl
@[simp] theorem setPower_vendorId (s : State) (f : Power → Power) : (s.setPower f).vendorId = s.vendorId := rfl
@[simp] theorem setPower_regs (s : State) (f : Power → Power) : (s.setPower f).regs = s.regs := rfl
@[simp] theorem setPower_modl (s : State) (f : Power → Power) : (s.setPower f).modl = s.modl := rfl
@[simp] theorem setPower_boot (s : State) (f : Power → Power) : (s.setPower f).boot = s.boot := rfl
@[simp] theorem setPower_flash (s : State) (f : Power → Power) : (s.setPower f).flash = s.flash := rfl
@[simp] theorem setPower_ring (s : State) (f : Power → Power) : (s.setPower f).ring = s.ring := rfl
@[simp] theorem setPower_clk (s : State) (f : Power → Power) : (s.setPower f).clk = s.clk := rfl
@[simp] theorem setPower_thermal (s : State) (f : Power → Power) : (s.setPower f).thermal = s.thermal := rfl
@[simp] theorem setPower_tel (s : State) (f : Power → Power) : (s.setPower f).tel = s.tel := rfl
@[simp] theorem setPower_hw (s : State) (f : Power → Power) : (s.setPower f).hw = s.hw := rfl
@[simp] theorem setPower_bark (s : State) (f : Power → Power) : (s.setPower f).bark = s.bark := rfl
@[simp] theorem setPower_tree (s : State) (f : Power → Power) : (s.setPower f).tree = s.tree := rfl
@[simp] theorem setPower_graft (s : State) (f : Power → Power) : (s.setPower f).graft = s.graft := rfl
@[simp] theorem setPower_job (s : State) (f : Power → Power) : (s.setPower f).job = s.job := rfl
@[simp] theorem setPower_cells (s : State) (f : Power → Power) : (s.setPower f).cells = s.cells := rfl
@[simp] theorem setPower_taps (s : State) (f : Power → Power) : (s.setPower f).taps = s.taps := rfl
@[simp] theorem setPower_ports (s : State) (f : Power → Power) : (s.setPower f).ports = s.ports := rfl
@[simp] theorem setPower_sess (s : State) (f : Power → Power) : (s.setPower f).sess = s.sess := rfl
@[simp] theorem setPower_shakes (s : State) (f : Power → Power) : (s.setPower f).shakes = s.shakes := rfl
@[simp] theorem setPower_limbs (s : State) (f : Power → Power) : (s.setPower f).limbs = s.limbs := rfl
@[simp] theorem setPower_stream (s : State) (f : Power → Power) : (s.setPower f).stream = s.stream := rfl
@[simp] theorem setPower_sessCmd (s : State) (f : Power → Power) : (s.setPower f).sessCmd = s.sessCmd := rfl
@[simp] theorem setPower_host (s : State) (f : Power → Power) : (s.setPower f).host = s.host := rfl
@[simp] theorem setPower_mgmt (s : State) (f : Power → Power) : (s.setPower f).mgmt = s.mgmt := rfl
@[simp] theorem setPower_ras (s : State) (f : Power → Power) : (s.setPower f).ras = s.ras := rfl
@[simp] theorem setPower_journal (s : State) (f : Power → Power) : (s.setPower f).journal = s.journal := rfl
@[simp] theorem setPower_pendRing (s : State) (f : Power → Power) : (s.setPower f).pendRing = s.pendRing := rfl
@[simp] theorem setPower_pendStep (s : State) (f : Power → Power) : (s.setPower f).pendStep = s.pendStep := rfl
@[simp] theorem setPower_free (s : State) (f : Power → Power) : (s.setPower f).free = s.free := rfl
@[simp] theorem setPower_sent (s : State) (f : Power → Power) : (s.setPower f).sent = s.sent := rfl
@[simp] theorem setPower_pending (s : State) (f : Power → Power) : (s.setPower f).pending = s.pending := rfl
@[simp] theorem setPower_f (s : State) (f : Power → Power) (F : Fld) : (s.setPower f).f F = s.f F := rfl

/-! ## setRing -/

@[simp] theorem setRing_ring (s : State) (f : Ring → Ring) : (s.setRing f).ring = f s.ring := rfl
@[simp] theorem setRing_cert (s : State) (f : Ring → Ring) : (s.setRing f).cert = s.cert := rfl
@[simp] theorem setRing_vendorId (s : State) (f : Ring → Ring) : (s.setRing f).vendorId = s.vendorId := rfl
@[simp] theorem setRing_regs (s : State) (f : Ring → Ring) : (s.setRing f).regs = s.regs := rfl
@[simp] theorem setRing_modl (s : State) (f : Ring → Ring) : (s.setRing f).modl = s.modl := rfl
@[simp] theorem setRing_boot (s : State) (f : Ring → Ring) : (s.setRing f).boot = s.boot := rfl
@[simp] theorem setRing_flash (s : State) (f : Ring → Ring) : (s.setRing f).flash = s.flash := rfl
@[simp] theorem setRing_clk (s : State) (f : Ring → Ring) : (s.setRing f).clk = s.clk := rfl
@[simp] theorem setRing_power (s : State) (f : Ring → Ring) : (s.setRing f).power = s.power := rfl
@[simp] theorem setRing_thermal (s : State) (f : Ring → Ring) : (s.setRing f).thermal = s.thermal := rfl
@[simp] theorem setRing_tel (s : State) (f : Ring → Ring) : (s.setRing f).tel = s.tel := rfl
@[simp] theorem setRing_hw (s : State) (f : Ring → Ring) : (s.setRing f).hw = s.hw := rfl
@[simp] theorem setRing_bark (s : State) (f : Ring → Ring) : (s.setRing f).bark = s.bark := rfl
@[simp] theorem setRing_tree (s : State) (f : Ring → Ring) : (s.setRing f).tree = s.tree := rfl
@[simp] theorem setRing_graft (s : State) (f : Ring → Ring) : (s.setRing f).graft = s.graft := rfl
@[simp] theorem setRing_job (s : State) (f : Ring → Ring) : (s.setRing f).job = s.job := rfl
@[simp] theorem setRing_cells (s : State) (f : Ring → Ring) : (s.setRing f).cells = s.cells := rfl
@[simp] theorem setRing_taps (s : State) (f : Ring → Ring) : (s.setRing f).taps = s.taps := rfl
@[simp] theorem setRing_ports (s : State) (f : Ring → Ring) : (s.setRing f).ports = s.ports := rfl
@[simp] theorem setRing_sess (s : State) (f : Ring → Ring) : (s.setRing f).sess = s.sess := rfl
@[simp] theorem setRing_shakes (s : State) (f : Ring → Ring) : (s.setRing f).shakes = s.shakes := rfl
@[simp] theorem setRing_limbs (s : State) (f : Ring → Ring) : (s.setRing f).limbs = s.limbs := rfl
@[simp] theorem setRing_stream (s : State) (f : Ring → Ring) : (s.setRing f).stream = s.stream := rfl
@[simp] theorem setRing_sessCmd (s : State) (f : Ring → Ring) : (s.setRing f).sessCmd = s.sessCmd := rfl
@[simp] theorem setRing_host (s : State) (f : Ring → Ring) : (s.setRing f).host = s.host := rfl
@[simp] theorem setRing_mgmt (s : State) (f : Ring → Ring) : (s.setRing f).mgmt = s.mgmt := rfl
@[simp] theorem setRing_ras (s : State) (f : Ring → Ring) : (s.setRing f).ras = s.ras := rfl
@[simp] theorem setRing_journal (s : State) (f : Ring → Ring) : (s.setRing f).journal = s.journal := rfl
@[simp] theorem setRing_pendRing (s : State) (f : Ring → Ring) : (s.setRing f).pendRing = s.pendRing := rfl
@[simp] theorem setRing_pendStep (s : State) (f : Ring → Ring) : (s.setRing f).pendStep = s.pendStep := rfl
@[simp] theorem setRing_free (s : State) (f : Ring → Ring) : (s.setRing f).free = s.free := rfl
@[simp] theorem setRing_sent (s : State) (f : Ring → Ring) : (s.setRing f).sent = s.sent := rfl
@[simp] theorem setRing_pending (s : State) (f : Ring → Ring) : (s.setRing f).pending = s.pending := rfl
@[simp] theorem setRing_f (s : State) (f : Ring → Ring) (F : Fld) : (s.setRing f).f F = s.f F := rfl

/-! ## setTel -/

@[simp] theorem setTel_tel (s : State) (f : Tel → Tel) : (s.setTel f).tel = f s.tel := rfl
@[simp] theorem setTel_cert (s : State) (f : Tel → Tel) : (s.setTel f).cert = s.cert := rfl
@[simp] theorem setTel_vendorId (s : State) (f : Tel → Tel) : (s.setTel f).vendorId = s.vendorId := rfl
@[simp] theorem setTel_regs (s : State) (f : Tel → Tel) : (s.setTel f).regs = s.regs := rfl
@[simp] theorem setTel_modl (s : State) (f : Tel → Tel) : (s.setTel f).modl = s.modl := rfl
@[simp] theorem setTel_boot (s : State) (f : Tel → Tel) : (s.setTel f).boot = s.boot := rfl
@[simp] theorem setTel_flash (s : State) (f : Tel → Tel) : (s.setTel f).flash = s.flash := rfl
@[simp] theorem setTel_ring (s : State) (f : Tel → Tel) : (s.setTel f).ring = s.ring := rfl
@[simp] theorem setTel_clk (s : State) (f : Tel → Tel) : (s.setTel f).clk = s.clk := rfl
@[simp] theorem setTel_power (s : State) (f : Tel → Tel) : (s.setTel f).power = s.power := rfl
@[simp] theorem setTel_thermal (s : State) (f : Tel → Tel) : (s.setTel f).thermal = s.thermal := rfl
@[simp] theorem setTel_hw (s : State) (f : Tel → Tel) : (s.setTel f).hw = s.hw := rfl
@[simp] theorem setTel_bark (s : State) (f : Tel → Tel) : (s.setTel f).bark = s.bark := rfl
@[simp] theorem setTel_tree (s : State) (f : Tel → Tel) : (s.setTel f).tree = s.tree := rfl
@[simp] theorem setTel_graft (s : State) (f : Tel → Tel) : (s.setTel f).graft = s.graft := rfl
@[simp] theorem setTel_job (s : State) (f : Tel → Tel) : (s.setTel f).job = s.job := rfl
@[simp] theorem setTel_cells (s : State) (f : Tel → Tel) : (s.setTel f).cells = s.cells := rfl
@[simp] theorem setTel_taps (s : State) (f : Tel → Tel) : (s.setTel f).taps = s.taps := rfl
@[simp] theorem setTel_ports (s : State) (f : Tel → Tel) : (s.setTel f).ports = s.ports := rfl
@[simp] theorem setTel_sess (s : State) (f : Tel → Tel) : (s.setTel f).sess = s.sess := rfl
@[simp] theorem setTel_shakes (s : State) (f : Tel → Tel) : (s.setTel f).shakes = s.shakes := rfl
@[simp] theorem setTel_limbs (s : State) (f : Tel → Tel) : (s.setTel f).limbs = s.limbs := rfl
@[simp] theorem setTel_stream (s : State) (f : Tel → Tel) : (s.setTel f).stream = s.stream := rfl
@[simp] theorem setTel_sessCmd (s : State) (f : Tel → Tel) : (s.setTel f).sessCmd = s.sessCmd := rfl
@[simp] theorem setTel_host (s : State) (f : Tel → Tel) : (s.setTel f).host = s.host := rfl
@[simp] theorem setTel_mgmt (s : State) (f : Tel → Tel) : (s.setTel f).mgmt = s.mgmt := rfl
@[simp] theorem setTel_ras (s : State) (f : Tel → Tel) : (s.setTel f).ras = s.ras := rfl
@[simp] theorem setTel_journal (s : State) (f : Tel → Tel) : (s.setTel f).journal = s.journal := rfl
@[simp] theorem setTel_pendRing (s : State) (f : Tel → Tel) : (s.setTel f).pendRing = s.pendRing := rfl
@[simp] theorem setTel_pendStep (s : State) (f : Tel → Tel) : (s.setTel f).pendStep = s.pendStep := rfl
@[simp] theorem setTel_free (s : State) (f : Tel → Tel) : (s.setTel f).free = s.free := rfl
@[simp] theorem setTel_sent (s : State) (f : Tel → Tel) : (s.setTel f).sent = s.sent := rfl
@[simp] theorem setTel_pending (s : State) (f : Tel → Tel) : (s.setTel f).pending = s.pending := rfl
@[simp] theorem setTel_f (s : State) (f : Tel → Tel) (F : Fld) : (s.setTel f).f F = s.f F := rfl

/-! ## setThermal -/

@[simp] theorem setThermal_thermal (s : State) (f : Thermal → Thermal) : (s.setThermal f).thermal = f s.thermal := rfl
@[simp] theorem setThermal_cert (s : State) (f : Thermal → Thermal) : (s.setThermal f).cert = s.cert := rfl
@[simp] theorem setThermal_vendorId (s : State) (f : Thermal → Thermal) : (s.setThermal f).vendorId = s.vendorId := rfl
@[simp] theorem setThermal_regs (s : State) (f : Thermal → Thermal) : (s.setThermal f).regs = s.regs := rfl
@[simp] theorem setThermal_modl (s : State) (f : Thermal → Thermal) : (s.setThermal f).modl = s.modl := rfl
@[simp] theorem setThermal_boot (s : State) (f : Thermal → Thermal) : (s.setThermal f).boot = s.boot := rfl
@[simp] theorem setThermal_flash (s : State) (f : Thermal → Thermal) : (s.setThermal f).flash = s.flash := rfl
@[simp] theorem setThermal_ring (s : State) (f : Thermal → Thermal) : (s.setThermal f).ring = s.ring := rfl
@[simp] theorem setThermal_clk (s : State) (f : Thermal → Thermal) : (s.setThermal f).clk = s.clk := rfl
@[simp] theorem setThermal_power (s : State) (f : Thermal → Thermal) : (s.setThermal f).power = s.power := rfl
@[simp] theorem setThermal_tel (s : State) (f : Thermal → Thermal) : (s.setThermal f).tel = s.tel := rfl
@[simp] theorem setThermal_hw (s : State) (f : Thermal → Thermal) : (s.setThermal f).hw = s.hw := rfl
@[simp] theorem setThermal_bark (s : State) (f : Thermal → Thermal) : (s.setThermal f).bark = s.bark := rfl
@[simp] theorem setThermal_tree (s : State) (f : Thermal → Thermal) : (s.setThermal f).tree = s.tree := rfl
@[simp] theorem setThermal_graft (s : State) (f : Thermal → Thermal) : (s.setThermal f).graft = s.graft := rfl
@[simp] theorem setThermal_job (s : State) (f : Thermal → Thermal) : (s.setThermal f).job = s.job := rfl
@[simp] theorem setThermal_cells (s : State) (f : Thermal → Thermal) : (s.setThermal f).cells = s.cells := rfl
@[simp] theorem setThermal_taps (s : State) (f : Thermal → Thermal) : (s.setThermal f).taps = s.taps := rfl
@[simp] theorem setThermal_ports (s : State) (f : Thermal → Thermal) : (s.setThermal f).ports = s.ports := rfl
@[simp] theorem setThermal_sess (s : State) (f : Thermal → Thermal) : (s.setThermal f).sess = s.sess := rfl
@[simp] theorem setThermal_shakes (s : State) (f : Thermal → Thermal) : (s.setThermal f).shakes = s.shakes := rfl
@[simp] theorem setThermal_limbs (s : State) (f : Thermal → Thermal) : (s.setThermal f).limbs = s.limbs := rfl
@[simp] theorem setThermal_stream (s : State) (f : Thermal → Thermal) : (s.setThermal f).stream = s.stream := rfl
@[simp] theorem setThermal_sessCmd (s : State) (f : Thermal → Thermal) : (s.setThermal f).sessCmd = s.sessCmd := rfl
@[simp] theorem setThermal_host (s : State) (f : Thermal → Thermal) : (s.setThermal f).host = s.host := rfl
@[simp] theorem setThermal_mgmt (s : State) (f : Thermal → Thermal) : (s.setThermal f).mgmt = s.mgmt := rfl
@[simp] theorem setThermal_ras (s : State) (f : Thermal → Thermal) : (s.setThermal f).ras = s.ras := rfl
@[simp] theorem setThermal_journal (s : State) (f : Thermal → Thermal) : (s.setThermal f).journal = s.journal := rfl
@[simp] theorem setThermal_pendRing (s : State) (f : Thermal → Thermal) : (s.setThermal f).pendRing = s.pendRing := rfl
@[simp] theorem setThermal_pendStep (s : State) (f : Thermal → Thermal) : (s.setThermal f).pendStep = s.pendStep := rfl
@[simp] theorem setThermal_free (s : State) (f : Thermal → Thermal) : (s.setThermal f).free = s.free := rfl
@[simp] theorem setThermal_sent (s : State) (f : Thermal → Thermal) : (s.setThermal f).sent = s.sent := rfl
@[simp] theorem setThermal_pending (s : State) (f : Thermal → Thermal) : (s.setThermal f).pending = s.pending := rfl
@[simp] theorem setThermal_f (s : State) (f : Thermal → Thermal) (F : Fld) : (s.setThermal f).f F = s.f F := rfl

end Sys2Proof.Machine
end

