-- ==== Sys2Proof/Laws/Fields.lean ====
section
/-!
SUPPORT. Register fields under the operations that write them: which field reads what, and which fields are kept; injections that
are not armed do nothing.
-/
namespace Sys2Proof.Machine

/-- Bits of a word that belong to a field fit it. -/
theorem Fld.of_mod (F : Fld) (w : Word64) : F.of w % 2 ^ F.width = F.of w := Nat.mod_mod_of_dvd _ (Nat.dvd_refl _)

/-- A field reads what a written word holds for it. -/
theorem f_put_self {s : State} (h : swf 0 s.regs = true) (F : Fld) (w : Word64) : (s.put F w).f F = F.of w :=
  (f_setF_self h F _).trans (F.of_mod w)

/-- Another field is left alone by a written word. -/
theorem f_put_ne {s : State} {F G : Fld} {w : Word64} (h : G.key ≠ F.key) : (s.put F w).f G = s.f G := f_setF_ne h

/-- The register store stays canonical. -/
theorem regs_put {s : State} (h : swf 0 s.regs = true) (F : Fld) (w : Word64) : swf 0 (s.put F w).regs = true := swf_sset h

/-- A cleared field reads its Reset column, truncated to its width. -/
theorem f_clearF_self {s : State} (h : swf 0 s.regs = true) (F : Fld) : (s.clearF F).f F = F.reset % 2 ^ F.width := f_setF_self h F _

namespace FieldsKept

theorem refl (l : List Fld) (s : State) : FieldsKept l s s := fun _ _ => rfl

/-- A write of a listed field keeps the others. -/
theorem setF {l : List Fld} {s t : State} {F : Fld} {v : Nat} (m : F.key ∈ l.map Fld.key) (h : FieldsKept l s t) :
    FieldsKept l s (t.setF F v) :=
  fun G hG => (f_setF_ne (fun e => hG (by rw [e]; exact m))).trans (h G hG)

/-- Writes of listed fields keep the others. -/
theorem foldl {α : Type} {l : List Fld} {s : State} {f : State → α → State} (xs : List α)
    (hf : ∀ t x, x ∈ xs → FieldsKept l s t → FieldsKept l s (f t x)) {t : State} (h : FieldsKept l s t) :
    FieldsKept l s (xs.foldl f t) := by
  induction xs generalizing t with
  | nil => exact h
  | cons x xs ih => exact ih (fun t y hy => hf t y (List.mem_cons_of_mem _ hy)) (hf t x (List.mem_cons_self ..) h)

/-- States with the same register store read every field the same. -/
theorem ofRegs {l : List Fld} {s t u : State} (e : u.regs = t.regs) (h : FieldsKept l s t) : FieldsKept l s u :=
  fun G hG => (show u.f G = t.f G by unfold State.f; rw [e]).trans (h G hG)

end FieldsKept

/-- An event changes the cause register and the count of messages, no other field. -/
theorem f_event {s : State} {v : Nat} {F : Fld} (h : F.key ≠ ID_INT_CAUSE_CAUSE.key) (k : F.key ≠ (ID_HOST_CNT_COUNT 7).key) :
    (s.event v).f F = s.f F := by
  unfold State.event State.signal State.inc
  dsimp only
  repeat' split
  all_goals first
    | rfl
    | exact f_setF_ne h
    | exact (f_setF_ne k).trans (f_setF_ne h)

/-- A root-die injection that is not armed does nothing. -/
theorem fireRoot_none {s : State} (h : s.noInjection) (d : Option Nat) (n : Nat) (ok : Nat → Bool) :
    s.fireRoot d n ok = (none, s) := by unfold State.fireRoot; rw [h.2.2.2]

/-- A cell injection that is not armed does nothing. -/
theorem fireCell_none {s : State} (h : s.noInjection) (x y n : Nat) (ok : Nat → Bool) :
    s.fireCell x y n ok = (none, s) := by unfold State.fireCell; rw [h.1]

/-- A network injection that is not armed does nothing. -/
theorem fireNet_none {s : State} (h : s.noInjection) (x y n p d : Nat) : s.fireNet x y n p d = (none, s) := by
  unfold State.fireNet; rw [h.2.1]

/-- An edge injection that is not armed does nothing. -/
theorem fireEdge_none {s : State} (h : s.noInjection) (l d : Nat) : s.fireEdge l d = (none, s) := by
  unfold State.fireEdge; rw [h.2.2.1]

/-- What a command can change, as a statement says it. -/
theorem OnlyChanges.of {ps qs : List Part} {s t : State} (h : Alters ps s t) (k : Part.sub ps qs = true) : OnlyChanges qs s t :=
  fun p hp => h.only p (fun m => hp (Part.mem_of_sub k m))

end Sys2Proof.Machine
end

