-- ==== Sys2Proof/Laws/Cells.lean ====
section
/-!
SUPPORT. Cells under the operations that replace one: the cell reads back, every other cell of the grid is left alone, and what a cell
reads depends on.
-/
namespace Sys2Proof.Machine

/-- Cell keys are unique over the grid. -/
theorem cellKey_inj {a b x y : Nat} (ha : a < 1152) (hx : x < 1152) (h : cellKey a b = cellKey x y) : a = x ∧ b = y := by
  unfold cellKey at h; omega

/-- A column of the grid is below 1,152. -/
theorem inGrid_lt {s : State} {x y : Nat} (h : s.inGrid x y = true) : x < 1152 := by
  have h1 : x < s.cert.width := by
    unfold State.inGrid at h
    simp only [Bool.and_eq_true, decide_eq_true_eq] at h
    exact h.1
  have h2 : s.cert.width ≤ 1152 := by unfold Cert.width; split <;> decide
  omega

/-- A cell depends on the cells, the lost contents of dies, and the certificate alone. -/
theorem cell_congr {s t : State} (h : t.cells = s.cells) (k : t.power = s.power) (l : t.cert = s.cert) (x y : Nat) :
    t.cell x y = s.cell x y := by unfold State.cell State.blankCell State.dieOf; rw [h, k, l]

/-- A replaced cell reads back. -/
theorem cell_setCell_self {s : State} (h : swf Cell.init s.cells = true) {x y : Nat} {c : Cell} (hc : c ≠ Cell.init) :
    (s.setCell x y c).cell x y = c := by
  show (if sget Cell.init (sset Cell.init s.cells (cellKey x y) c) (cellKey x y) = Cell.init then _
    else sget Cell.init (sset Cell.init s.cells (cellKey x y) c) (cellKey x y)) = c
  rw [sget_sset_self h, if_neg hc]

/-- Replacing a cell leaves every other cell of the grid alone. -/
theorem cell_setCell_ne {s : State} {x y a b : Nat} {c : Cell} (hx : x < 1152) (ha : a < 1152) (h : (a, b) ≠ (x, y)) :
    (s.setCell x y c).cell a b = s.cell a b := by
  have k : cellKey a b ≠ cellKey x y := fun e => h (by obtain ⟨p, q⟩ := cellKey_inj ha hx e; rw [p, q])
  show (if sget Cell.init (sset Cell.init s.cells (cellKey x y) c) (cellKey a b) = Cell.init then s.blankCell (s.dieOf a b)
    else sget Cell.init (sset Cell.init s.cells (cellKey x y) c) (cellKey a b)) = _
  rw [sget_sset_ne k]
  rfl

namespace OtherCells

theorem refl (x y : Nat) (s : State) : OtherCells x y s s := fun _ _ _ _ => rfl

/-- Replacing the named cell leaves the others alone. -/
theorem setCell {x y : Nat} {s : State} (h : s.inGrid x y = true) (c : Cell) : OtherCells x y s (s.setCell x y c) :=
  fun _ _ ha hn => cell_setCell_ne (inGrid_lt h) (inGrid_lt ha) hn

/-- What leaves the cells alone leaves the others alone. -/
theorem after {x y : Nat} {s t u : State} (h : OtherCells x y s t) (k : u.cells = t.cells) (l : u.power = t.power)
    (m : u.cert = t.cert) : OtherCells x y s u := fun a b ha hn => (cell_congr k l m a b).trans (h a b ha hn)

end OtherCells

/-- A configured cell is not the one after a reset. -/
theorem ne_init_of_configured {c : Cell} (h : c.active.configured = true) : c ≠ Cell.init := fun e => by
  rw [e] at h; exact absurd h (by decide)

/-- A working cell is configured. -/
theorem works_configured {s : State} {x y : Nat} (h : s.works x y) : (s.cell x y).active.configured = true := by
  have := h.2; unfold State.live at this; simp only [Bool.and_eq_true] at this; exact this.2

/-- A command on a working cell has its effect. -/
theorem onLive_works {s : State} {x y : Nat} (h : s.works x y) (f : State → State) : s.onLive x y f = .next (f s) := by
  unfold State.onLive State.withCell; rw [h.1]; simp [h.2]

/-- A cell outside the grid stops a command that names it. -/
theorem withCell_absent {s : State} {x y : Nat} (h : s.inGrid x y = false) (f : State → State) :
    s.withCell x y f = .fault (.absentCell x y) := by unfold State.withCell; rw [h]; rfl

end Sys2Proof.Machine
end

