-- ==== Sys2Proof/Laws/FramesRegs.lean ====
section
/-!
SUPPORT. What each operation can change, one lemma each: register fields, flags, waiting counts and the shared operations.
-/
namespace Sys2Proof.Machine

set_option Elab.async false

/-! ## Regs -/

theorem State.setF_alters (s : State) (F : Fld) (v : Nat) :
    Alters [.regs] s (State.setF s F v) := by
  unfold State.setF
  repeat' (with_reducible first
    | apply Alters.refl | dsimp only | refine Alters.update ?_)

theorem State.incHi_alters (s : State) (F : Fld) (n : Nat) :
    Alters [.regs] s (State.incHi s F n) := by
  unfold State.incHi
  repeat' (with_reducible first
    | apply Alters.refl | apply Alters.step (State.setF_alters _ _ _) (by decide +kernel))

theorem State.inc_alters (s : State) (F : Fld) (n : Nat) :
    Alters [.regs] s (State.inc s F n) := by
  unfold State.inc
  repeat' (with_reducible first
    | apply Alters.refl | apply Alters.step (State.setF_alters _ _ _) (by decide +kernel))

theorem State.setSes_alters (s : State) (i : Nat) (v : Session) :
    Alters [.sess] s (State.setSes s i v) := by
  unfold State.setSes
  repeat' (with_reducible first
    | apply Alters.refl | dsimp only | refine Alters.update ?_)

theorem State.send_alters (s : State) (e : Emit) :
    Alters [.sent] s (State.send s e) := by
  unfold State.send
  repeat' (with_reducible first
    | apply Alters.refl | dsimp only | refine Alters.update ?_)

theorem State.flag_alters (s : State) (F : Fld) :
    Alters [.regs] s (State.flag s F) := by
  unfold State.flag
  repeat' (with_reducible first
    | apply Alters.refl | apply Alters.step (State.setF_alters _ _ _) (by decide +kernel))

theorem State.incSat_alters (s : State) (F : Fld) (n : Nat) :
    Alters [.regs] s (State.incSat s F n) := by
  unfold State.incSat
  repeat' (with_reducible first
    | apply Alters.refl | apply Alters.step (State.setF_alters _ _ _) (by decide +kernel))

theorem State.draw_alters (s : State) :
    Alters [.free] s (State.draw s).2 := by
  unfold State.draw
  repeat' (with_reducible first
    | apply Alters.refl | dsimp only | refine Alters.update ?_)

theorem State.incLo_alters (s : State) (F : Fld) (n : Nat) :
    Alters [.regs] s (State.incLo s F n) := by
  unfold State.incLo
  repeat' (with_reducible first
    | apply Alters.refl | apply Alters.step (State.setF_alters _ _ _) (by decide +kernel))

theorem State.setLimb_alters (s : State) (k : Nat) (v : Limb) :
    Alters [.limbs] s (State.setLimb s k v) := by
  unfold State.setLimb
  repeat' (with_reducible first
    | apply Alters.refl | dsimp only | refine Alters.update ?_)

theorem State.setTap_alters (s : State) (t : Nat) (v : Tap) :
    Alters [.taps] s (State.setTap s t v) := by
  unfold State.setTap
  repeat' (with_reducible first
    | apply Alters.refl | dsimp only | refine Alters.update ?_)

theorem State.setCell_alters (s : State) (x : Nat) (y : Nat) (c : Cell) :
    Alters [.cells] s (State.setCell s x y c) := by
  unfold State.setCell
  repeat' (with_reducible first
    | apply Alters.refl | dsimp only | refine Alters.update ?_)

theorem State.setPort_alters (s : State) (p : Nat) (v : EdgePort) :
    Alters [.ports] s (State.setPort s p v) := by
  unfold State.setPort
  repeat' (with_reducible first
    | apply Alters.refl | dsimp only | refine Alters.update ?_)

theorem State.setDomain_alters (s : State) (d : Nat) (v : Domain) :
    Alters [.power] s (State.setDomain s d v) := by
  unfold State.setDomain
  repeat' (with_reducible first
    | apply Alters.refl | dsimp only | refine Alters.update ?_)

theorem State.clearF_alters (s : State) (F : Fld) :
    Alters [.regs] s (State.clearF s F) := by
  unfold State.clearF
  repeat' (with_reducible first
    | apply Alters.refl | apply Alters.step (State.setF_alters _ _ _) (by decide +kernel))

theorem State.clearArr_alters (s : State) (F : Nat → Fld) (n : Nat) :
    Alters [.regs] s (State.clearArr s F n) := by
  unfold State.clearArr
  repeat' (with_reducible first
    | apply Alters.refl | apply Alters.step (State.clearF_alters _ _) (by decide +kernel) | apply Alters.foldl
    | apply Alters.foldlFst | apply Alters.foldlSnd | intro _)

theorem State.clearFs_alters (s : State) (l : List Fld) :
    Alters [.regs] s (State.clearFs s l) := by
  unfold State.clearFs
  repeat' (with_reducible first
    | apply Alters.refl | apply Alters.step (State.clearF_alters _ _) (by decide +kernel) | apply Alters.foldl
    | apply Alters.foldlFst | apply Alters.foldlSnd | intro _)

theorem State.put_alters (s : State) (F : Fld) (w : Word64) :
    Alters [.regs] s (State.put s F w) := by
  unfold State.put
  repeat' (with_reducible first
    | apply Alters.refl | apply Alters.step (State.setF_alters _ _ _) (by decide +kernel))

theorem State.w1c_alters (s : State) (F : Fld) (w : Word64) :
    Alters [.regs] s (State.w1c s F w) := by
  unfold State.w1c
  repeat' (with_reducible first
    | apply Alters.refl | apply Alters.step (State.setF_alters _ _ _) (by decide +kernel) | apply Alters.ite)

/-! ## Flags -/

theorem State.queueReq_alters (s : State) (i : Nat) (f : Frame) (due : Option Nat) (req : Option (Nat × Nat)) :
    Alters [.sess] s (State.queueReq s i f due req) := by
  unfold State.queueReq
  repeat' (with_reducible first
    | apply Alters.refl | apply Alters.step (State.setSes_alters _ _ _) (by decide +kernel))

theorem State.queueFrame_alters (s : State) (i : Nat) (f : Frame) :
    Alters [.sess] s (State.queueFrame s i f) := by
  unfold State.queueFrame
  repeat' (with_reducible first
    | apply Alters.refl | apply Alters.step (State.queueReq_alters _ _ _ _ _) (by decide +kernel))

theorem State.signal_alters (s : State) (v : Nat) :
    Alters [.regs, .host, .sent] s (State.signal s v) := by
  unfold State.signal
  repeat' (with_reducible first
    | apply Alters.refl | apply Alters.step (State.inc_alters _ _ _) (by decide +kernel)
    | apply Alters.step (State.send_alters _ _) (by decide +kernel) | apply Alters.ite | dsimp only | split
    | refine Alters.update ?_)

theorem State.event_alters (s : State) (v : Nat) :
    Alters [.regs, .host, .sent] s (State.event s v) := by
  unfold State.event
  repeat' (with_reducible first
    | apply Alters.refl | apply Alters.step (State.setF_alters _ _ _) (by decide +kernel)
    | apply Alters.step (State.signal_alters _ _) (by decide +kernel) | apply Alters.ite)

theorem State.setWrites_alters (s : State) (f : List StoreWrite → List StoreWrite) :
    Alters [.regs, .stream, .host, .sent] s (State.setWrites s f) := by
  unfold State.setWrites
  repeat' (with_reducible first
    | apply Alters.refl | apply Alters.step (State.event_alters _ _) (by decide +kernel) | apply Alters.ite | dsimp only
    | split | refine Alters.update ?_)

theorem State.syncBut_alters (s : State) (skip : List Nat) (promote : Bool) (group : Nat) :
    Alters [.regs, .tree, .sess, .limbs, .stream, .host, .sent] s (State.syncBut s skip promote group) := by
  unfold State.syncBut
  repeat' (with_reducible first
    | apply Alters.refl | apply Alters.step (State.queueFrame_alters _ _ _) (by decide +kernel)
    | apply Alters.step (State.inc_alters _ _ _) (by decide +kernel)
    | apply Alters.step (State.setWrites_alters _ _) (by decide +kernel) | apply Alters.ite | apply Alters.foldl
    | apply Alters.foldlFst | apply Alters.foldlSnd | intro _ | dsimp only | split | refine Alters.update ?_)

theorem State.syncStores_alters (s : State) (promote : Bool) (group : Nat) :
    Alters [.regs, .tree, .sess, .limbs, .stream, .host, .sent] s (State.syncStores s promote group) := by
  unfold State.syncStores
  repeat' (with_reducible first
    | apply Alters.refl | apply Alters.step (State.syncBut_alters _ _ _ _) (by decide +kernel))

theorem State.journalStop_alters (s : State) :
    Alters [.regs, .host, .journal, .sent] s (State.journalStop s) := by
  unfold State.journalStop
  repeat' (with_reducible first
    | apply Alters.refl | apply Alters.step (State.flag_alters _ _) (by decide +kernel)
    | apply Alters.step (State.event_alters _ _) (by decide +kernel) | dsimp only | refine Alters.update ?_)

theorem State.record_alters (s : State) (kind : Nat) (inj : Bool) (body : List Byte) :
    Alters [.regs, .host, .journal, .free, .sent] s (State.record s kind inj body) := by
  unfold State.record
  repeat' (with_reducible first
    | apply Alters.refl | apply Alters.step (State.draw_alters _) (by decide +kernel)
    | apply Alters.step (State.journalStop_alters _) (by decide +kernel)
    | apply Alters.step (State.inc_alters _ _ _) (by decide +kernel)
    | apply Alters.step (State.flag_alters _ _) (by decide +kernel)
    | apply Alters.step (State.event_alters _ _) (by decide +kernel) | apply Alters.of2 (by assumption) | apply Alters.ite
    | dsimp only | split | refine Alters.update ?_)

theorem State.settleF_alters (s : State) (m : SMap Nat) (sat : Bool) (F : Fld) :
    Alters [.regs] s (State.settleF s m sat F) := by
  unfold State.settleF
  repeat' (with_reducible first
    | apply Alters.refl | apply Alters.step (State.incSat_alters _ _ _) (by decide +kernel)
    | apply Alters.step (State.inc_alters _ _ _) (by decide +kernel) | apply Alters.ite)

theorem State.settleStep_alters (s : State) :
    Alters [.regs, .pendStep] s (State.settleStep s) := by
  unfold State.settleStep
  repeat' (with_reducible first
    | apply Alters.refl | apply Alters.step (State.settleF_alters _ _ _ _) (by decide +kernel) | apply Alters.foldl
    | apply Alters.foldlFst | apply Alters.foldlSnd | intro _ | dsimp only | refine Alters.update ?_)

theorem State.inBand_alters (s : State) :
    Alters [.sent] s (State.inBand s) := by
  unfold State.inBand
  repeat' (with_reducible first
    | apply Alters.refl | apply Alters.step (State.send_alters _ _) (by decide +kernel) | apply Alters.ite)

theorem State.faultN_alters (s : State) :
    Alters [.modl, .sent] s (State.faultN s) := by
  unfold State.faultN
  repeat' (with_reducible first
    | apply Alters.refl | apply Alters.step (State.inBand_alters _) (by decide +kernel) | apply Alters.ite | dsimp only
    | split | refine Alters.update ?_)

theorem State.syncPeers_alters (s : State) (kind : Nat) (ring : Nat) (jobId : Nat) (step : Nat) :
    Alters [.sess] s (State.syncPeers s kind ring jobId step) := by
  unfold State.syncPeers
  repeat' (with_reducible first
    | apply Alters.refl | apply Alters.step (State.queueFrame_alters _ _ _) (by decide +kernel) | apply Alters.ite
    | apply Alters.foldl | apply Alters.foldlFst | apply Alters.foldlSnd | intro _)

theorem State.hwWrite_alters (s : State) (reg : Nat) (value : Nat) (last : Bool) :
    Alters [.regs, .hw] s (State.hwWrite s reg value last) := by
  unfold State.hwWrite
  repeat' (with_reducible first
    | apply Alters.refl | apply Alters.step (State.inc_alters _ _ _) (by decide +kernel) | apply Alters.ite | dsimp only
    | split | refine Alters.update ?_)

theorem State.atStep_alters (s : State) (F : Fld) (n : Nat) :
    Alters [.pendStep] s (State.atStep s F n) := by
  unfold State.atStep
  repeat' (with_reducible first
    | apply Alters.refl | dsimp only | refine Alters.update ?_)

theorem State.later_alters (s : State) (F : Fld) (n : Nat) :
    Alters [.pendRing] s (State.later s F n) := by
  unfold State.later
  repeat' (with_reducible first
    | apply Alters.refl | dsimp only | refine Alters.update ?_)

theorem State.settleRing_alters (s : State) :
    Alters [.regs, .pendRing] s (State.settleRing s) := by
  unfold State.settleRing
  repeat' (with_reducible first
    | apply Alters.refl | apply Alters.step (State.settleF_alters _ _ _ _) (by decide +kernel) | apply Alters.foldl
    | apply Alters.foldlFst | apply Alters.foldlSnd | intro _ | dsimp only | refine Alters.update ?_)

theorem State.settleFaultN_alters (s : State) :
    Alters [.modl] s (State.settleFaultN s) := by
  unfold State.settleFaultN
  repeat' (with_reducible first
    | apply Alters.refl | apply Alters.ite | dsimp only | split | refine Alters.update ?_)

theorem State.flushPending_alters (s : State) :
    Alters [.regs, .host, .sent] s (State.flushPending s) := by
  unfold State.flushPending
  repeat' (with_reducible first
    | apply Alters.refl | apply Alters.step (State.signal_alters _ _) (by decide +kernel) | apply Alters.ite
    | apply Alters.foldl | apply Alters.foldlFst | apply Alters.foldlSnd | intro _ | dsimp only | split
    | refine Alters.update ?_)

theorem State.lastGasp_alters (s : State) (cls : Nat) (code : Nat) :
    Alters [.regs, .hw] s (State.lastGasp s cls code) := by
  unfold State.lastGasp
  repeat' (with_reducible first
    | apply Alters.refl | apply Alters.step (State.inc_alters _ _ _) (by decide +kernel) | apply Alters.ite | dsimp only
    | split | refine Alters.update ?_)

/-! ## Ops -/

theorem State.countEnd_alters (s : State) (status : Nat) :
    Alters [.regs] s (State.countEnd s status) := by
  unfold State.countEnd
  repeat' (with_reducible first
    | apply Alters.refl | apply Alters.step (State.inc_alters _ _ _) (by decide +kernel) | apply Alters.ite)

theorem State.writeTags_alters (s : State) (addr : Nat) :
    Alters [.sent] s (State.writeTags s addr) := by
  unfold State.writeTags
  repeat' (with_reducible first
    | apply Alters.refl | apply Alters.step (State.send_alters _ _) (by decide +kernel) | apply Alters.ite)

theorem State.endTags_alters (s : State) (journal : Bool) :
    Alters [.bark, .sent] s (State.endTags s journal) := by
  unfold State.endTags
  repeat' (with_reducible first
    | apply Alters.refl | apply Alters.step (State.writeTags_alters _ _) (by decide +kernel) | apply Alters.foldl
    | apply Alters.foldlFst | apply Alters.foldlSnd | intro _ | dsimp only | refine Alters.update ?_)

theorem State.endJob_alters (s : State) (status : Nat) (reason : Nat) (last : Nat) :
    Alters [.regs, .bark, .job, .cells, .stream, .host, .ras, .journal, .pendStep, .free, .sent] s (State.endJob s status reason last) := by
  unfold State.endJob
  repeat' (with_reducible first
    | apply Alters.refl | apply Alters.step (State.endTags_alters _ _) (by decide +kernel)
    | apply Alters.step (State.settleStep_alters _) (by decide +kernel)
    | apply Alters.step (State.record_alters _ _ _ _) (by decide +kernel)
    | apply Alters.step (State.countEnd_alters _ _) (by decide +kernel)
    | apply Alters.step (State.event_alters _ _) (by decide +kernel) | apply Alters.ite | dsimp only | split
    | refine Alters.update ?_)

theorem State.lastRegs_alters (s : State) (fc : FaultCode) (src : Src) (detail : Nat) :
    Alters [.regs, .modl, .host, .sent] s (State.lastRegs s fc src detail) := by
  unfold State.lastRegs
  repeat' (with_reducible first
    | apply Alters.refl | apply Alters.step (State.setF_alters _ _ _) (by decide +kernel)
    | apply Alters.step (State.faultN_alters _) (by decide +kernel)
    | apply Alters.step (State.inc_alters _ _ _) (by decide +kernel)
    | apply Alters.step (State.flag_alters _ _) (by decide +kernel)
    | apply Alters.step (State.event_alters _ _) (by decide +kernel) | apply Alters.ite | dsimp only | split)

theorem State.setJob_alters (s : State) (f : Job → Job) :
    Alters [.job] s (State.setJob s f) := by
  unfold State.setJob
  repeat' (with_reducible first
    | apply Alters.refl | dsimp only | refine Alters.update ?_)

theorem State.whenOf_alters (s : State) (a1 : When) :
    Alters [.free] s (State.whenOf s a1).2.2 := by
  unfold State.whenOf
  repeat' (with_reducible first
    | apply Alters.refl | apply Alters.step (State.draw_alters _) (by decide +kernel) | apply Alters.of2 (by assumption)
    | dsimp only | split)

theorem State.writeRec_alters (s : State) (fc : FaultCode) (src : Src) (detail : Nat) (blocks : Bool) (w : When) (inj : Bool) :
    Alters [.regs, .tel, .job, .host, .ras, .journal, .free, .sent] s (State.writeRec s fc src detail blocks w inj) := by
  unfold State.writeRec
  repeat' (with_reducible first
    | apply Alters.refl | apply Alters.step (State.record_alters _ _ _ _) (by decide +kernel)
    | apply Alters.step (State.setJob_alters _ _) (by decide +kernel)
    | apply Alters.step (State.inc_alters _ _ _) (by decide +kernel)
    | apply Alters.step (State.whenOf_alters _ _) (by decide +kernel)
    | apply Alters.step (State.event_alters _ _) (by decide +kernel) | apply Alters.of22 (by assumption)
    | apply Alters.ite | dsimp only | split | refine Alters.update ?_)

theorem State.raiseEnd_alters (s : State) (fc : FaultCode) (src : Src) (detail : Nat) (w : When) (inj : Bool) :
    Alters [.regs, .modl, .tel, .bark, .tree, .job, .cells, .sess, .limbs, .stream, .host, .ras, .journal, .pendStep, .free, .sent] s (State.raiseEnd s fc src detail w inj) := by
  unfold State.raiseEnd
  repeat' (with_reducible first
    | apply Alters.refl | apply Alters.step (State.writeRec_alters _ _ _ _ _ _ _) (by decide +kernel)
    | apply Alters.step (State.lastRegs_alters _ _ _ _) (by decide +kernel)
    | apply Alters.step (State.syncStores_alters _ _ _) (by decide +kernel)
    | apply Alters.step (State.endJob_alters _ _ _ _) (by decide +kernel) | apply Alters.ite | dsimp only | split)

theorem State.recoveryFails_alters (s : State) (result : Nat) :
    Alters [.regs] s (State.recoveryFails s result) := by
  unfold State.recoveryFails
  repeat' (with_reducible first
    | apply Alters.refl | apply Alters.step (State.setF_alters _ _ _) (by decide +kernel)
    | apply Alters.step (State.inc_alters _ _ _) (by decide +kernel))

theorem State.recoveryFault_alters (s : State) (code : Nat) (result : Nat) :
    Alters [.regs, .modl, .tel, .bark, .tree, .job, .cells, .sess, .limbs, .stream, .host, .ras, .journal, .pendStep, .free, .sent] s (State.recoveryFault s code result) := by
  unfold State.recoveryFault
  repeat' (with_reducible first
    | apply Alters.refl | apply Alters.step (State.recoveryFails_alters _ _) (by decide +kernel)
    | apply Alters.step (State.raiseEnd_alters _ _ _ _ _ _) (by decide +kernel))

theorem State.abortQueued_alters (s : State) (jobId : Nat) (reason : Nat) :
    Alters [.regs, .job] s (State.abortQueued s jobId reason) := by
  unfold State.abortQueued
  repeat' (with_reducible first
    | apply Alters.refl | apply Alters.step (State.incLo_alters _ _ _) (by decide +kernel)
    | apply Alters.step (State.countEnd_alters _ _) (by decide +kernel) | dsimp only | split | refine Alters.update ?_)

theorem State.registerAbort_alters (s : State) (jobId : Nat) (reason : Nat) (ring : Nat) :
    Alters [.regs, .job, .host, .journal, .free, .sent] s (State.registerAbort s jobId reason ring) := by
  unfold State.registerAbort
  repeat' (with_reducible first
    | apply Alters.refl | apply Alters.step (State.record_alters _ _ _ _) (by decide +kernel)
    | apply Alters.step (State.setJob_alters _ _) (by decide +kernel)
    | apply Alters.step (State.abortQueued_alters _ _ _) (by decide +kernel) | apply Alters.ite | dsimp only | split)

theorem State.modSes_alters (s : State) (i : Nat) (f : Session → Session) :
    Alters [.sess] s (State.modSes s i f) := by
  unfold State.modSes
  repeat' (with_reducible first
    | apply Alters.refl | apply Alters.step (State.setSes_alters _ _ _) (by decide +kernel))

theorem State.sesTo_alters (s : State) (i : Nat) (st : SessState) :
    Alters [.regs, .sess, .host, .sent] s (State.sesTo s i st) := by
  unfold State.sesTo
  repeat' (with_reducible first
    | apply Alters.refl | apply Alters.step (State.event_alters _ _) (by decide +kernel)
    | apply Alters.step (State.modSes_alters _ _ _) (by decide +kernel) | apply Alters.ite)

theorem State.updateFault_alters (s : State) (w : When) :
    Alters [.regs, .bark, .tree, .job, .cells, .sess, .limbs, .stream, .host, .ras, .journal, .pendStep, .free, .sent] s (State.updateFault s w) := by
  unfold State.updateFault
  repeat' (with_reducible first
    | apply Alters.refl | apply Alters.step (State.syncStores_alters _ _ _) (by decide +kernel)
    | apply Alters.step (State.endJob_alters _ _ _ _) (by decide +kernel))

theorem State.raise_alters (s : State) (fc : FaultCode) (src : Src) (detail : Nat) (stops : Bool) (w : When) (inj : Bool) :
    Alters [.regs, .modl, .tel, .bark, .tree, .job, .cells, .sess, .limbs, .stream, .host, .ras, .journal, .pendStep, .free, .sent] s (State.raise s fc src detail stops w inj) := by
  unfold State.raise
  repeat' (with_reducible first
    | apply Alters.refl | apply Alters.step (State.writeRec_alters _ _ _ _ _ _ _) (by decide +kernel)
    | apply Alters.step (State.lastRegs_alters _ _ _ _) (by decide +kernel)
    | apply Alters.step (State.setJob_alters _ _) (by decide +kernel)
    | apply Alters.step (State.updateFault_alters _ _) (by decide +kernel) | apply Alters.ite | dsimp only | split)

theorem State.firedCount_alters (s : State) (off : Nat) (word : Nat) :
    Alters [.regs, .tel, .bark, .host, .journal, .free, .sent] s (State.firedCount s off word) := by
  unfold State.firedCount
  repeat' (with_reducible first
    | apply Alters.refl | apply Alters.step (State.incSat_alters _ _ _) (by decide +kernel)
    | apply Alters.step (State.draw_alters _) (by decide +kernel)
    | apply Alters.step (State.record_alters _ _ _ _) (by decide +kernel) | apply Alters.of2 (by assumption) | dsimp only
    | split | refine Alters.update ?_)

theorem State.fireRoot_alters (s : State) (die : Option Nat) (det : Nat) (ok : Nat → Bool) :
    Alters [.regs, .tel, .bark, .host, .ras, .journal, .free, .sent] s (State.fireRoot s die det ok).2 := by
  unfold State.fireRoot
  repeat' (with_reducible first
    | apply Alters.refl | apply Alters.step (State.firedCount_alters _ _ _) (by decide +kernel) | apply Alters.ite
    | dsimp only | split | refine Alters.update ?_)

theorem State.declareDead_alters (s : State) (x : Nat) (y : Nat) (code : Nat) (cause : Option Nat) (w : When) (inj : Bool) :
    Alters [.regs, .modl, .tel, .bark, .tree, .job, .cells, .sess, .limbs, .stream, .host, .ras, .journal, .pendRing, .pendStep, .free, .sent] s (State.declareDead s x y code cause w inj) := by
  unfold State.declareDead
  repeat' (with_reducible first
    | apply Alters.refl | apply Alters.step (State.setCell_alters _ _ _ _) (by decide +kernel)
    | apply Alters.step (State.setF_alters _ _ _) (by decide +kernel)
    | apply Alters.step (State.setJob_alters _ _) (by decide +kernel)
    | apply Alters.step (State.raise_alters _ _ _ _ _ _ _) (by decide +kernel)
    | apply Alters.step (State.raiseEnd_alters _ _ _ _ _ _) (by decide +kernel)
    | apply Alters.step (State.inc_alters _ _ _) (by decide +kernel)
    | apply Alters.step (State.later_alters _ _ _) (by decide +kernel)
    | apply Alters.step (State.updateFault_alters _ _) (by decide +kernel)
    | apply Alters.step (State.endJob_alters _ _ _ _) (by decide +kernel) | apply Alters.ite | dsimp only | split
    | refine Alters.update ?_)

theorem State.tileDone_alters (s : State) (x : Nat) (y : Nat) (w : TileWork) (hash : Nat) (inj : Bool) :
    Alters [.job, .cells] s (State.tileDone s x y w hash inj) := by
  unfold State.tileDone
  repeat' (with_reducible first
    | apply Alters.refl | apply Alters.step (State.setCell_alters _ _ _ _) (by decide +kernel) | apply Alters.ite
    | apply Alters.getDMap | apply Alters.getD | intro _ | dsimp only | split | refine Alters.update ?_)

theorem State.cellEvent_alters (s : State) (x : Nat) (y : Nat) (inj : Bool) (a4 : CellEv) :
    Alters [.regs, .modl, .tel, .bark, .tree, .job, .cells, .sess, .limbs, .stream, .host, .ras, .journal, .pendRing, .pendStep, .free, .sent] s (State.cellEvent s x y inj a4) := by
  unfold State.cellEvent
  repeat' (with_reducible first
    | apply Alters.refl | apply Alters.step (State.tileDone_alters _ _ _ _ _ _) (by decide +kernel)
    | apply Alters.step (State.setJob_alters _ _) (by decide +kernel)
    | apply Alters.step (State.raise_alters _ _ _ _ _ _ _) (by decide +kernel)
    | apply Alters.step (State.declareDead_alters _ _ _ _ _ _ _) (by decide +kernel)
    | apply Alters.step (State.inc_alters _ _ _) (by decide +kernel)
    | apply Alters.step (State.later_alters _ _ _) (by decide +kernel)
    | apply Alters.step (State.atStep_alters _ _ _) (by decide +kernel) | apply Alters.ite | dsimp only | split
    | refine Alters.update ?_)

theorem State.cellEvents_alters (s : State) (x : Nat) (y : Nat) (inj : Bool) (evs : List CellEv) :
    Alters [.regs, .modl, .tel, .bark, .tree, .job, .cells, .sess, .limbs, .stream, .host, .ras, .journal, .pendRing, .pendStep, .free, .sent] s (State.cellEvents s x y inj evs) := by
  unfold State.cellEvents
  repeat' (with_reducible first
    | apply Alters.refl | apply Alters.step (State.cellEvent_alters _ _ _ _ _) (by decide +kernel) | apply Alters.foldl
    | apply Alters.foldlFst | apply Alters.foldlSnd | intro _)

theorem State.cellStep_alters (s : State) (x : Nat) (y : Nat) (inj : Bool) (r : Cell × List CellEv) :
    Alters [.regs, .modl, .tel, .bark, .tree, .job, .cells, .sess, .limbs, .stream, .host, .ras, .journal, .pendRing, .pendStep, .free, .sent] s (State.cellStep s x y inj r) := by
  unfold State.cellStep
  repeat' (with_reducible first
    | apply Alters.refl | apply Alters.step (State.setCell_alters _ _ _ _) (by decide +kernel)
    | apply Alters.step (State.cellEvents_alters _ _ _ _ _) (by decide +kernel))

theorem State.fireNet_alters (s : State) (x : Nat) (y : Nat) (net : Nat) (port : Nat) (det : Nat) :
    Alters [.regs, .tel, .bark, .host, .ras, .journal, .free, .sent] s (State.fireNet s x y net port det).2 := by
  unfold State.fireNet
  repeat' (with_reducible first
    | apply Alters.refl | apply Alters.step (State.firedCount_alters _ _ _) (by decide +kernel) | apply Alters.ite
    | dsimp only | split | refine Alters.update ?_)

theorem State.fireEdge_alters (s : State) (loc : Nat) (det : Nat) :
    Alters [.regs, .tel, .bark, .host, .ras, .journal, .free, .sent] s (State.fireEdge s loc det).2 := by
  unfold State.fireEdge
  repeat' (with_reducible first
    | apply Alters.refl | apply Alters.step (State.firedCount_alters _ _ _) (by decide +kernel) | apply Alters.ite
    | dsimp only | split | refine Alters.update ?_)

theorem State.linkTo_alters (s : State) (p : Nat) (half : Bool) (st : LinkState) :
    Alters [.regs, .ports, .host, .sent] s (State.linkTo s p half st) := by
  unfold State.linkTo
  repeat' (with_reducible first
    | apply Alters.refl | apply Alters.step (State.setPort_alters _ _ _) (by decide +kernel)
    | apply Alters.step (State.event_alters _ _) (by decide +kernel) | apply Alters.ite)

theorem State.modPort_alters (s : State) (p : Nat) (f : EdgePort → EdgePort) :
    Alters [.ports] s (State.modPort s p f) := by
  unfold State.modPort
  repeat' (with_reducible first
    | apply Alters.refl | apply Alters.step (State.setPort_alters _ _ _) (by decide +kernel))

theorem State.lifeAdd_alters (s : State) (k : Nat) (n : Nat) :
    Alters [.regs, .hw] s (State.lifeAdd s k n) := by
  unfold State.lifeAdd
  repeat' (with_reducible first
    | apply Alters.refl | apply Alters.step (State.hwWrite_alters _ _ _ _) (by decide +kernel))

theorem State.writeBand_alters (s : State) (n : Nat) (e : Nat) :
    Alters [.regs, .hw] s (State.writeBand s n e) := by
  unfold State.writeBand
  repeat' (with_reducible first
    | apply Alters.refl | apply Alters.step (State.hwWrite_alters _ _ _ _) (by decide +kernel))

theorem State.writeSpare_alters (s : State) (n : Nat) (m : Nat) (after : Bool) :
    Alters [.regs, .hw] s (State.writeSpare s n m after) := by
  unfold State.writeSpare
  repeat' (with_reducible first
    | apply Alters.refl | apply Alters.step (State.hwWrite_alters _ _ _ _) (by decide +kernel))

theorem State.retireRows_alters (s : State) (n : Nat) (rows : List Nat) :
    Alters [.regs, .hw, .host, .sent] s (State.retireRows s n rows).1 := by
  unfold State.retireRows
  repeat' (with_reducible first
    | apply Alters.refl | apply Alters.step (State.writeSpare_alters _ _ _ _) (by decide +kernel)
    | apply Alters.step (State.lifeAdd_alters _ _ _) (by decide +kernel)
    | apply Alters.step (State.inc_alters _ _ _) (by decide +kernel)
    | apply Alters.step (State.writeBand_alters _ _ _) (by decide +kernel)
    | apply Alters.step (State.event_alters _ _) (by decide +kernel) | apply Alters.ite | dsimp only | split)

theorem State.raiseAbort_alters (s : State) (fc : FaultCode) (src : Src) (detail : Nat) (w : When) (inj : Bool) :
    Alters [.regs, .modl, .tel, .bark, .tree, .job, .cells, .sess, .limbs, .stream, .host, .ras, .journal, .pendStep, .free, .sent] s (State.raiseAbort s fc src detail w inj) := by
  unfold State.raiseAbort
  repeat' (with_reducible first
    | apply Alters.refl | apply Alters.step (State.raise_alters _ _ _ _ _ _ _) (by decide +kernel)
    | apply Alters.step (State.raiseEnd_alters _ _ _ _ _ _) (by decide +kernel) | dsimp only | split)

theorem State.breach_alters (s : State) (src : Src) (detail : Nat) :
    Alters [.regs, .modl, .tel, .bark, .tree, .job, .cells, .sess, .limbs, .stream, .host, .ras, .journal, .pendStep, .free, .sent] s (State.breach s src detail) := by
  unfold State.breach
  repeat' (with_reducible first
    | apply Alters.refl | apply Alters.step (State.raiseAbort_alters _ _ _ _ _ _) (by decide +kernel))

theorem State.fireCell_alters (s : State) (x : Nat) (y : Nat) (det : Nat) (ok : Nat → Bool) :
    Alters [.regs, .tel, .bark, .host, .ras, .journal, .free, .sent] s (State.fireCell s x y det ok).2 := by
  unfold State.fireCell
  repeat' (with_reducible first
    | apply Alters.refl | apply Alters.step (State.firedCount_alters _ _ _) (by decide +kernel) | apply Alters.ite
    | dsimp only | split | refine Alters.update ?_)

theorem State.sealBlock_alters (s : State) (base : Nat) (i : Nat) (suffix : Nat) (data : List Byte) :
    Alters [.bark, .sent] s (State.sealBlock s base i suffix data).2 := by
  unfold State.sealBlock
  repeat' (with_reducible first
    | apply Alters.refl | apply Alters.step (State.send_alters _ _) (by decide +kernel) | dsimp only | split
    | refine Alters.update ?_)

theorem State.hostBlock_alters (s : State) (base : Nat) (i : Nat) (suffix : Nat) (data : List Byte) :
    Alters [.bark, .sent] s (State.hostBlock s base i suffix data) := by
  unfold State.hostBlock
  repeat' (with_reducible first
    | apply Alters.refl | apply Alters.step (State.writeTags_alters _ _) (by decide +kernel)
    | apply Alters.step (State.sealBlock_alters _ _ _ _ _) (by decide +kernel) | apply Alters.of2 (by assumption)
    | apply Alters.ite | dsimp only | split | refine Alters.update ?_)

theorem State.withCell_alters {ps : List Part} {s u : State} {x y : Nat} {f : State → State} (hf : ∀ t, Alters ps t (f t))
    (e : s.withCell x y f = .next u) : Alters ps s u := by
  unfold State.withCell at e
  split at e
  · exact .ofNext e (hf s)
  · cases e

theorem State.rewriteBlock_alters (s : State) (base : Nat) (i : Nat) (suffix : Nat) (data : List Byte) :
    Alters [.bark, .sent] s (State.rewriteBlock s base i suffix data) := by
  unfold State.rewriteBlock
  repeat' (with_reducible first
    | apply Alters.refl | apply Alters.step (State.sealBlock_alters _ _ _ _ _) (by decide +kernel)
    | apply Alters.step (State.send_alters _ _) (by decide +kernel) | apply Alters.of2 (by assumption) | dsimp only
    | split)

end Sys2Proof.Machine
end

