-- ==== Sys2Proof/Laws/FramesCells.lean ====
section
/-!
SUPPORT. What each operation can change, one lemma each: the commands of cells and of the fabric.
-/
namespace Sys2Proof.Machine

set_option Elab.async false

/-! ## CellExec -/

theorem State.probe_alters (s : State) (x : Nat) (y : Nat) (net : Net) (p : InPort) (stall : Bool) :
    Alters [.regs] s (State.probe s x y net p stall) := by
  unfold State.probe
  repeat' (with_reducible first
    | apply Alters.refl | apply Alters.step (State.incSat_alters _ _ _) (by decide +kernel) | apply Alters.ite)

theorem State.probeAll_alters (s : State) (x : Nat) (y : Nat) (l : List (Net × InPort)) :
    Alters [.regs] s (State.probeAll s x y l) := by
  unfold State.probeAll
  repeat' (with_reducible first
    | apply Alters.refl | apply Alters.step (State.probe_alters _ _ _ _ _ _) (by decide +kernel) | apply Alters.foldl
    | apply Alters.foldlFst | apply Alters.foldlSnd | intro _)

theorem State.onLive_alters {ps : List Part} {s u : State} {x y : Nat} {f : State → State} (hf : ∀ t, Alters ps t (f t))
    (e : s.onLive x y f = .next u) : Alters ps s u := by
  unfold State.onLive at e
  exact State.withCell_alters (fun t => .ite (hf t) (.refl _ _)) e

theorem State.reading_alters (s : State) (x : Nat) (y : Nat) (inj : Bool) (f : Bool → Cell → Cell × List CellEv) :
    Alters [.regs, .modl, .tel, .bark, .tree, .job, .cells, .sess, .limbs, .stream, .host, .ras, .journal, .pendRing, .pendStep, .free, .sent] s (State.reading s x y inj f) := by
  unfold State.reading
  repeat' (with_reducible first
    | apply Alters.refl | apply Alters.step (State.setCell_alters _ _ _ _) (by decide +kernel)
    | apply Alters.step (State.cellStep_alters _ _ _ _ _) (by decide +kernel)
    | apply Alters.step (State.cellEvents_alters _ _ _ _ _) (by decide +kernel) | dsimp only | split)

theorem State.settleScore_alters (s : State) (x : Nat) (y : Nat) :
    Alters [.cells] s (State.settleScore s x y) := by
  unfold State.settleScore
  repeat' (with_reducible first
    | apply Alters.refl | apply Alters.step (State.setCell_alters _ _ _ _) (by decide +kernel) | apply Alters.ite)

theorem execBankAccess_alters (x : Nat) (y : Nat) (clients : List Client) (upsets : List (Nat × Nat)) (s : State) {u : State}
    (e : execBankAccess x y clients upsets s = .next u) : Alters [.regs, .modl, .tel, .bark, .tree, .job, .cells, .sess, .limbs, .stream, .host, .ras, .journal, .pendRing, .pendStep, .free, .sent] s u := by
  refine State.onLive_alters (fun _ => ?_) e
  repeat' (with_reducible first
    | apply Alters.refl | assumption | apply Alters.step (State.setCell_alters _ _ _ _) (by decide +kernel)
    | apply Alters.step (State.cellStep_alters _ _ _ _ _) (by decide +kernel)
    | apply Alters.step (State.fireCell_alters _ _ _ _ _) (by decide +kernel)
    | apply Alters.step (State.reading_alters _ _ _ _ _) (by decide +kernel)
    | apply Alters.step (State.settleScore_alters _ _ _) (by decide +kernel) | apply Alters.of2 (by assumption)
    | apply Alters.ite)

theorem execBlockParse_alters (x : Nat) (y : Nat) (s : State) {u : State}
    (e : execBlockParse x y s = .next u) : Alters [.regs, .modl, .tel, .bark, .tree, .job, .cells, .sess, .limbs, .stream, .host, .ras, .journal, .pendRing, .pendStep, .free, .sent] s u := by
  refine State.onLive_alters (fun _ => ?_) e
  repeat' (with_reducible first
    | apply Alters.refl | assumption | apply Alters.step (State.cellStep_alters _ _ _ _ _) (by decide +kernel)
    | apply Alters.step (State.fireCell_alters _ _ _ _ _) (by decide +kernel)
    | apply Alters.step (State.settleScore_alters _ _ _) (by decide +kernel) | apply Alters.of2 (by assumption)
    | apply Alters.ite)

theorem execGroupIssue_alters (x : Nat) (y : Nat) (lane : Nat) (s : State) {u : State}
    (e : execGroupIssue x y lane s = .next u) : Alters [.regs, .modl, .tel, .bark, .tree, .job, .cells, .sess, .limbs, .stream, .host, .ras, .journal, .pendRing, .pendStep, .free, .sent] s u := by
  refine State.onLive_alters (fun _ => ?_) e
  repeat' (with_reducible first
    | apply Alters.refl | assumption | apply Alters.step (State.cellStep_alters _ _ _ _ _) (by decide +kernel))

theorem execGroupSteal_alters (x : Nat) (y : Nat) (lane : Nat) (s : State) {u : State}
    (e : execGroupSteal x y lane s = .next u) : Alters [.regs, .modl, .tel, .bark, .tree, .job, .cells, .sess, .limbs, .stream, .host, .ras, .journal, .pendRing, .pendStep, .free, .sent] s u := by
  refine State.onLive_alters (fun _ => ?_) e
  repeat' (with_reducible first
    | apply Alters.refl | assumption | apply Alters.step (State.cellStep_alters _ _ _ _ _) (by decide +kernel))

theorem execOutputComplete_alters (x : Nat) (y : Nat) (row : Nat) (s : State) {u : State}
    (e : execOutputComplete x y row s = .next u) : Alters [.cells] s u := by
  refine State.onLive_alters (fun _ => ?_) e
  repeat' (with_reducible first
    | apply Alters.refl | assumption | apply Alters.step (State.setCell_alters _ _ _ _) (by decide +kernel))

theorem execOutputSetActivate_alters (x : Nat) (y : Nat) (s : State) {u : State}
    (e : execOutputSetActivate x y s = .next u) : Alters [.regs, .modl, .tel, .bark, .tree, .job, .cells, .sess, .limbs, .stream, .host, .ras, .journal, .pendRing, .pendStep, .free, .sent] s u := by
  refine State.onLive_alters (fun _ => ?_) e
  repeat' (with_reducible first
    | apply Alters.refl | assumption | apply Alters.step (State.fireCell_alters _ _ _ _ _) (by decide +kernel)
    | apply Alters.step (State.reading_alters _ _ _ _ _) (by decide +kernel))

theorem execPack_alters (x : Nat) (y : Nat) (s : State) {u : State}
    (e : execPack x y s = .next u) : Alters [.regs, .modl, .tel, .bark, .tree, .job, .cells, .sess, .limbs, .stream, .host, .ras, .journal, .pendRing, .pendStep, .free, .sent] s u := by
  refine State.onLive_alters (fun _ => ?_) e
  repeat' (with_reducible first
    | apply Alters.refl | assumption | apply Alters.step (State.probeAll_alters _ _ _ _) (by decide +kernel)
    | apply Alters.step (State.cellStep_alters _ _ _ _ _) (by decide +kernel)
    | apply Alters.step (State.fireCell_alters _ _ _ _ _) (by decide +kernel))

theorem execPredictScore_alters (x : Nat) (y : Nat) (s : State) {u : State}
    (e : execPredictScore x y s = .next u) : Alters [.regs, .modl, .tel, .bark, .tree, .job, .cells, .sess, .limbs, .stream, .host, .ras, .journal, .pendRing, .pendStep, .free, .sent] s u := by
  refine State.onLive_alters (fun _ => ?_) e
  repeat' (with_reducible first
    | apply Alters.refl | assumption | apply Alters.step (State.fireCell_alters _ _ _ _ _) (by decide +kernel)
    | apply Alters.step (State.reading_alters _ _ _ _ _) (by decide +kernel) | apply Alters.of2 (by assumption)
    | apply Alters.ite | intro _ | dsimp only | split)

theorem execScrubAccess_alters (x : Nat) (y : Nat) (cycle : Nat) (ended : Bool) (upsets : List (Nat × Nat)) (s : State) {u : State}
    (e : execScrubAccess x y cycle ended upsets s = .next u) : Alters [.regs, .modl, .tel, .bark, .tree, .job, .cells, .sess, .limbs, .stream, .host, .ras, .journal, .pendRing, .pendStep, .free, .sent] s u := by
  refine State.withCell_alters (fun _ => ?_) e
  repeat' (with_reducible first
    | apply Alters.refl | assumption | apply Alters.step (State.cellStep_alters _ _ _ _ _) (by decide +kernel)
    | apply Alters.step (State.fireCell_alters _ _ _ _ _) (by decide +kernel) | apply Alters.of2 (by assumption)
    | apply Alters.ite)

theorem execSpanLoad_alters (x : Nat) (y : Nat) (s : State) {u : State}
    (e : execSpanLoad x y s = .next u) : Alters [.cells] s u := by
  refine State.onLive_alters (fun _ => ?_) e
  repeat' (with_reducible first
    | apply Alters.refl | assumption | apply Alters.step (State.setCell_alters _ _ _ _) (by decide +kernel))

theorem execSparseClrCounters_alters (s : State) {u : State}
    (e : execSparseClrCounters s = .next u) : Alters [.regs, .pendStep] s u := by
  refine .ofNext e ?_
  repeat' (with_reducible first
    | apply Alters.refl | apply Alters.step (State.clearFs_alters _ _) (by decide +kernel)
    | apply Alters.step (State.clearArr_alters _ _ _) (by decide +kernel) | dsimp only | refine Alters.update ?_)

theorem execTermAccept_alters (x : Nat) (y : Nat) (row : Nat) (net : Bool) (s : State) {u : State}
    (e : execTermAccept x y row net s = .next u) : Alters [.regs, .modl, .tel, .bark, .tree, .job, .cells, .sess, .limbs, .stream, .host, .ras, .journal, .pendRing, .pendStep, .free, .sent] s u := by
  refine State.onLive_alters (fun _ => ?_) e
  repeat' (with_reducible first
    | apply Alters.refl | assumption | apply Alters.step (State.cellStep_alters _ _ _ _ _) (by decide +kernel)
    | apply Alters.step (State.fireCell_alters _ _ _ _ _) (by decide +kernel) | apply Alters.of2 (by assumption) | intro _
    | dsimp only | split)

/-! ## Fabric -/

theorem State.staleDrop_alters (s : State) (x : Nat) (y : Nat) (net : Net) (p : InPort) (u : NetUnit) (inj : Bool) :
    Alters [.regs, .modl, .tel, .bark, .tree, .graft, .job, .cells, .sess, .limbs, .stream, .host, .ras, .journal, .pendRing, .pendStep, .free, .sent] s (State.staleDrop s x y net p u inj) := by
  unfold State.staleDrop
  repeat' (with_reducible first
    | apply Alters.refl | apply Alters.step (State.raise_alters _ _ _ _ _ _ _) (by decide +kernel)
    | apply Alters.step (State.later_alters _ _ _) (by decide +kernel) | apply Alters.ite | dsimp only | split
    | refine Alters.update ?_)

theorem State.intake_alters (s : State) (x : Nat) (y : Nat) (net : Net) (p : InPort) (u : NetUnit) (miss : Bool) (inj : Bool) :
    Alters [.regs, .modl, .tel, .bark, .tree, .graft, .job, .cells, .sess, .limbs, .stream, .host, .ras, .journal, .pendRing, .pendStep, .free, .sent] s (State.intake s x y net p u miss inj) := by
  unfold State.intake
  repeat' (with_reducible first
    | apply Alters.refl | apply Alters.step (State.setCell_alters _ _ _ _) (by decide +kernel)
    | apply Alters.step (State.cellStep_alters _ _ _ _ _) (by decide +kernel)
    | apply Alters.step (State.staleDrop_alters _ _ _ _ _ _ _) (by decide +kernel)
    | apply Alters.step (State.probe_alters _ _ _ _ _ _) (by decide +kernel) | apply Alters.ite | dsimp only | split)

theorem State.linkError_alters (s : State) (x : Nat) (y : Nat) (net : Net) (p : InPort) (u : NetUnit) (inj : Bool) :
    Alters [.regs, .modl, .tel, .bark, .tree, .job, .cells, .sess, .limbs, .stream, .host, .ras, .journal, .pendRing, .pendStep, .free, .sent] s (State.linkError s x y net p u inj) := by
  unfold State.linkError
  repeat' (with_reducible first
    | apply Alters.refl | apply Alters.step (State.cellStep_alters _ _ _ _ _) (by decide +kernel))

theorem State.linkCheck_alters (s : State) (x : Nat) (y : Nat) (net : Net) (p : InPort) (u : NetUnit) (errs : Nat) (inj : Bool) :
    Alters [.regs, .modl, .tel, .bark, .tree, .job, .cells, .sess, .limbs, .stream, .host, .ras, .journal, .pendRing, .pendStep, .free, .sent] s (State.linkCheck s x y net p u errs inj).2 := by
  unfold State.linkCheck
  repeat' (with_reducible first
    | apply Alters.refl | apply Alters.step (State.draw_alters _) (by decide +kernel)
    | apply Alters.step (State.linkError_alters _ _ _ _ _ _ _) (by decide +kernel)
    | apply Alters.step (State.later_alters _ _ _) (by decide +kernel) | apply Alters.of2 (by assumption)
    | apply Alters.ite | dsimp only | split)

theorem State.netInject_alters (s : State) (x : Nat) (y : Nat) (net : Net) (p : InPort) :
    Alters [.regs, .tel, .bark, .host, .ras, .journal, .free, .sent] s (State.netInject s x y net p).2.2.2 := by
  unfold State.netInject
  repeat' (with_reducible first
    | apply Alters.refl | apply Alters.step (State.fireNet_alters _ _ _ _ _ _) (by decide +kernel))

theorem State.arrive_alters (s : State) (x : Nat) (y : Nat) (net : Net) (p : InPort) (u : NetUnit) (errs : Nat) :
    Alters [.regs, .modl, .tel, .bark, .tree, .graft, .job, .cells, .sess, .limbs, .stream, .host, .ras, .journal, .pendRing, .pendStep, .free, .sent] s (State.arrive s x y net p u errs) := by
  unfold State.arrive
  repeat' (with_reducible first
    | apply Alters.refl | apply Alters.step (State.linkCheck_alters _ _ _ _ _ _ _ _) (by decide +kernel)
    | apply Alters.step (State.intake_alters _ _ _ _ _ _ _ _) (by decide +kernel)
    | apply Alters.step (State.netInject_alters _ _ _ _ _) (by decide +kernel))

theorem State.pumpCell_alters (s : State) (x : Nat) (y : Nat) :
    Alters [.regs, .modl, .tel, .bark, .tree, .job, .cells, .sess, .limbs, .stream, .host, .ras, .journal, .pendRing, .pendStep, .free, .sent] s (State.pumpCell s x y) := by
  unfold State.pumpCell
  repeat' (with_reducible first
    | apply Alters.refl | apply Alters.step (State.probeAll_alters _ _ _ _) (by decide +kernel)
    | apply Alters.step (State.cellStep_alters _ _ _ _ _) (by decide +kernel))

theorem State.probeSelect_alters (s : State) :
    Alters [.regs] s (State.probeSelect s) := by
  unfold State.probeSelect
  repeat' (with_reducible first
    | apply Alters.refl | apply Alters.step (State.clearFs_alters _ _) (by decide +kernel)
    | apply Alters.step (State.put_alters _ _ _) (by decide +kernel) | apply Alters.of1 (by assumption)
    | apply Alters.of2 (by assumption) | apply Alters.foldl | apply Alters.foldlFst | apply Alters.foldlSnd | intro _
    | dsimp only | split)

theorem State.passTo_alters (s : State) (x : Nat) (y : Nat) (net : Net) (e : RouteEntry) (p : InPort) (u : NetUnit) (inj : Bool) (o : OutPort) :
    Alters [.regs, .modl, .tel, .bark, .tree, .job, .cells, .taps, .sess, .limbs, .stream, .host, .ras, .journal, .pendRing, .pendStep, .free, .sent] s (State.passTo s x y net e p u inj o) := by
  unfold State.passTo
  repeat' (with_reducible first
    | apply Alters.refl | apply Alters.step (State.setCell_alters _ _ _ _) (by decide +kernel)
    | apply Alters.step (State.cellStep_alters _ _ _ _ _) (by decide +kernel)
    | apply Alters.step (State.setTap_alters _ _ _) (by decide +kernel) | dsimp only | split)

theorem State.forward_alters (s : State) (x : Nat) (y : Nat) (net : Net) (p : InPort) (u : NetUnit) (e : RouteEntry) (outs : List OutPort) :
    Alters [.regs, .modl, .tel, .bark, .tree, .job, .cells, .taps, .sess, .limbs, .stream, .host, .ras, .journal, .pendRing, .pendStep, .free, .sent] s (State.forward s x y net p u e outs) := by
  unfold State.forward
  repeat' (with_reducible first
    | apply Alters.refl | apply Alters.step (State.setCell_alters _ _ _ _) (by decide +kernel)
    | apply Alters.step (State.passTo_alters _ _ _ _ _ _ _ _ _) (by decide +kernel) | apply Alters.ite
    | apply Alters.foldl | apply Alters.foldlFst | apply Alters.foldlSnd | intro _)

theorem State.purgeLocal_alters (s : State) (x : Nat) (y : Nat) (net : Net) :
    Alters [.regs, .modl, .tel, .bark, .tree, .job, .cells, .sess, .limbs, .stream, .host, .ras, .journal, .pendRing, .pendStep, .free, .sent] s (State.purgeLocal s x y net) := by
  unfold State.purgeLocal
  repeat' (with_reducible first
    | apply Alters.refl | apply Alters.step (State.cellStep_alters _ _ _ _ _) (by decide +kernel)
    | apply Alters.of1 (by assumption) | apply Alters.of2 (by assumption) | apply Alters.ite | apply Alters.foldl
    | apply Alters.foldlFst | apply Alters.foldlSnd | intro _ | dsimp only | split)

theorem execFabClrCounters_alters (s : State) {u : State}
    (e : execFabClrCounters s = .next u) : Alters [.regs, .taps, .pendRing] s u := by
  refine .ofNext e ?_
  repeat' (with_reducible first
    | apply Alters.refl | apply Alters.step (State.clearFs_alters _ _) (by decide +kernel)
    | apply Alters.step (State.clearArr_alters _ _ _) (by decide +kernel) | dsimp only | refine Alters.update ?_)

theorem execFabProbeSelWrite_alters (w : Word64) (s : State) {u : State}
    (e : execFabProbeSelWrite w s = .next u) : Alters [.regs, .pendRing] s u := by
  refine .ofNext e ?_
  repeat' (with_reducible first
    | apply Alters.refl | apply Alters.step (State.flag_alters _ _) (by decide +kernel) | apply Alters.ite | dsimp only
    | split | refine Alters.update ?_)

theorem execPortGrant_alters (x : Nat) (y : Nat) (net : Net) (out : OutPort) (s : State) {u : State}
    (e : execPortGrant x y net out s = .next u) : Alters [.regs, .modl, .tel, .bark, .tree, .job, .cells, .taps, .sess, .limbs, .stream, .host, .ras, .journal, .pendRing, .pendStep, .free, .sent] s u := by
  refine State.onLive_alters (fun _ => ?_) e
  repeat' (with_reducible first
    | apply Alters.refl | assumption | apply Alters.step (State.purgeLocal_alters _ _ _ _) (by decide +kernel)
    | apply Alters.step (State.forward_alters _ _ _ _ _ _ _ _) (by decide +kernel)
    | apply Alters.step (State.pumpCell_alters _ _ _) (by decide +kernel)
    | apply Alters.step (State.probe_alters _ _ _ _ _ _) (by decide +kernel) | apply Alters.of1 (by assumption)
    | apply Alters.of2 (by assumption) | apply Alters.ite | apply Alters.foldl | apply Alters.foldlFst
    | apply Alters.foldlSnd | intro _ | dsimp only | split)

theorem execSteerAct_alters (x : Nat) (y : Nat) (unit : Bool) (s : State) {u : State}
    (e : execSteerAct x y unit s = .next u) : Alters [.regs, .modl, .tel, .bark, .tree, .job, .cells, .taps, .sess, .limbs, .stream, .host, .ras, .journal, .pendRing, .pendStep, .free, .sent] s u := by
  refine State.onLive_alters (fun _ => ?_) e
  repeat' (with_reducible first
    | apply Alters.refl | assumption | apply Alters.step (State.setCell_alters _ _ _ _) (by decide +kernel)
    | apply Alters.step (State.cellStep_alters _ _ _ _ _) (by decide +kernel)
    | apply Alters.step (State.forward_alters _ _ _ _ _ _ _ _) (by decide +kernel)
    | apply Alters.step (State.pumpCell_alters _ _ _) (by decide +kernel)
    | apply Alters.step (State.probe_alters _ _ _ _ _ _) (by decide +kernel) | apply Alters.ite | intro _ | dsimp only
    | split)

theorem execTapChannelDeliver_alters (tap : Nat) (net : Net) (toCell : Bool) (errs : Nat) (s : State) {u : State}
    (e : execTapChannelDeliver tap net toCell errs s = .next u) : Alters [.regs, .modl, .tel, .bark, .tree, .graft, .job, .cells, .taps, .sess, .limbs, .stream, .host, .ras, .journal, .pendRing, .pendStep, .free, .sent] s u := by
  refine .ofNext e ?_
  repeat' (with_reducible first
    | apply Alters.refl | apply Alters.step (State.setTap_alters _ _ _) (by decide +kernel)
    | apply Alters.step (State.arrive_alters _ _ _ _ _ _ _) (by decide +kernel) | apply Alters.ite | dsimp only | split)

theorem execTokenArrive_alters (x : Nat) (y : Nat) (port : InPort) (err : Bool) (s : State) {u : State}
    (e : execTokenArrive x y port err s = .next u) : Alters [.regs, .modl, .tel, .bark, .tree, .graft, .job, .cells, .sess, .limbs, .stream, .host, .ras, .journal, .pendRing, .pendStep, .free, .sent] s u := by
  refine State.withCell_alters (fun _ => ?_) e
  repeat' (with_reducible first
    | apply Alters.refl | assumption | apply Alters.step (State.setCell_alters _ _ _ _) (by decide +kernel)
    | apply Alters.step (State.cellStep_alters _ _ _ _ _) (by decide +kernel)
    | apply Alters.step (State.staleDrop_alters _ _ _ _ _ _ _) (by decide +kernel)
    | apply Alters.step (State.linkError_alters _ _ _ _ _ _ _) (by decide +kernel)
    | apply Alters.step (State.netInject_alters _ _ _ _ _) (by decide +kernel)
    | apply Alters.step (State.probe_alters _ _ _ _ _ _) (by decide +kernel)
    | apply Alters.step (State.fireNet_alters _ _ _ _ _ _) (by decide +kernel) | apply Alters.of2 (by assumption)
    | apply Alters.of222 (by assumption) | apply Alters.ite | intro _ | dsimp only | split)

theorem execUnitArrive_alters (x : Nat) (y : Nat) (net : Net) (port : InPort) (errs : Nat) (s : State) {u : State}
    (e : execUnitArrive x y net port errs s = .next u) : Alters [.regs, .modl, .tel, .bark, .tree, .graft, .job, .cells, .sess, .limbs, .stream, .host, .ras, .journal, .pendRing, .pendStep, .free, .sent] s u := by
  refine State.withCell_alters (fun _ => ?_) e
  repeat' (with_reducible first
    | apply Alters.refl | assumption | apply Alters.step (State.setCell_alters _ _ _ _) (by decide +kernel)
    | apply Alters.step (State.arrive_alters _ _ _ _ _ _ _) (by decide +kernel) | apply Alters.ite | intro _ | dsimp only
    | split)

theorem execWatchdog_alters (x : Nat) (y : Nat) (s : State) {u : State}
    (e : execWatchdog x y s = .next u) : Alters [.regs, .modl, .tel, .bark, .tree, .job, .cells, .sess, .limbs, .stream, .host, .ras, .journal, .pendRing, .pendStep, .free, .sent] s u := by
  refine State.onLive_alters (fun _ => ?_) e
  repeat' (with_reducible first
    | apply Alters.refl | assumption | apply Alters.step (State.declareDead_alters _ _ _ _ _ _ _) (by decide +kernel))

/-! ## Remote -/

theorem State.sendUnits_alters (s : State) (x : Nat) (y : Nat) (net : Net) (us : List NetUnit) :
    Alters [.regs, .modl, .tel, .bark, .tree, .job, .cells, .sess, .limbs, .stream, .host, .ras, .journal, .pendRing, .pendStep, .free, .sent] s (State.sendUnits s x y net us) := by
  unfold State.sendUnits
  repeat' (with_reducible first
    | apply Alters.refl | apply Alters.step (State.setCell_alters _ _ _ _) (by decide +kernel)
    | apply Alters.step (State.pumpCell_alters _ _ _) (by decide +kernel))

theorem State.bindWriter_alters (s : State) (x : Nat) (y : Nat) (q : Credit) :
    Alters [.cells] s (State.bindWriter s x y q) := by
  unfold State.bindWriter
  repeat' (with_reducible first
    | apply Alters.refl | apply Alters.step (State.setCell_alters _ _ _ _) (by decide +kernel) | apply Alters.ite
    | dsimp only | split)

theorem State.sendNack_alters (s : State) (x : Nat) (y : Nat) (a3 : MemReply) :
    Alters [.regs, .modl, .tel, .bark, .tree, .job, .cells, .sess, .limbs, .stream, .host, .ras, .journal, .pendRing, .pendStep, .free, .sent] s (State.sendNack s x y a3) := by
  unfold State.sendNack
  repeat' (with_reducible first
    | apply Alters.refl | apply Alters.step (State.sendUnits_alters _ _ _ _ _) (by decide +kernel) | dsimp only | split)

theorem State.recallThen_alters (s : State) (x : Nat) (y : Nat) (window : Nat) (cycle : Nat) (f : Cell → MemUnit) :
    Alters [.regs, .modl, .tel, .bark, .tree, .job, .cells, .sess, .limbs, .stream, .host, .ras, .journal, .pendRing, .pendStep, .free, .sent] s (State.recallThen s x y window cycle f) := by
  unfold State.recallThen
  repeat' (with_reducible first
    | apply Alters.refl | apply Alters.step (State.setCell_alters _ _ _ _) (by decide +kernel)
    | apply Alters.step (State.cellStep_alters _ _ _ _ _) (by decide +kernel)
    | apply Alters.step (State.sendNack_alters _ _ _ _) (by decide +kernel) | apply Alters.of1 (by assumption)
    | apply Alters.of2 (by assumption) | apply Alters.foldl | apply Alters.foldlFst | apply Alters.foldlSnd | intro _
    | dsimp only | split)

theorem State.refreshCell_alters (s : State) (x : Nat) (y : Nat) :
    Alters [.cells] s (State.refreshCell s x y) := by
  unfold State.refreshCell
  repeat' (with_reducible first
    | apply Alters.refl | apply Alters.step (State.setCell_alters _ _ _ _) (by decide +kernel)
    | apply Alters.step (State.bindWriter_alters _ _ _ _) (by decide +kernel) | apply Alters.foldl | apply Alters.foldlFst
    | apply Alters.foldlSnd | intro _)

theorem State.toLimbDie_alters (s : State) (x : Nat) (y : Nat) (net : Net) (us : List NetUnit) :
    Alters [.cells, .taps] s (State.toLimbDie s x y net us) := by
  unfold State.toLimbDie
  repeat' (with_reducible first
    | apply Alters.refl | apply Alters.step (State.setCell_alters _ _ _ _) (by decide +kernel)
    | apply Alters.step (State.setTap_alters _ _ _) (by decide +kernel) | apply Alters.of1 (by assumption)
    | apply Alters.of2 (by assumption) | apply Alters.ite | apply Alters.foldl | apply Alters.foldlFst
    | apply Alters.foldlSnd | intro _ | dsimp only | split)

theorem execCreditGrant_alters (x : Nat) (y : Nat) (s : State) {u : State}
    (e : execCreditGrant x y s = .next u) : Alters [.cells, .taps] s u := by
  refine State.onLive_alters (fun _ => ?_) e
  repeat' (with_reducible first
    | apply Alters.refl | assumption | apply Alters.step (State.setCell_alters _ _ _ _) (by decide +kernel)
    | apply Alters.step (State.toLimbDie_alters _ _ _ _ _) (by decide +kernel) | apply Alters.ite | intro _ | dsimp only
    | split)

theorem execCreditRefresh_alters (x : Nat) (y : Nat) (s : State) {u : State}
    (e : execCreditRefresh x y s = .next u) : Alters [.cells] s u := by
  refine State.onLive_alters (fun _ => ?_) e
  repeat' (with_reducible first
    | apply Alters.refl | assumption | apply Alters.step (State.refreshCell_alters _ _ _) (by decide +kernel)
    | apply Alters.ite | intro _ | dsimp only | split)

theorem execCreditRelease_alters (x : Nat) (y : Nat) (window : Nat) (units : Nat) (s : State) {u : State}
    (e : execCreditRelease x y window units s = .next u) : Alters [.cells] s u := by
  refine State.onLive_alters (fun _ => ?_) e
  repeat' (with_reducible first
    | apply Alters.refl | assumption | apply Alters.step (State.setCell_alters _ _ _ _) (by decide +kernel))

theorem execCreditReq_alters (x : Nat) (y : Nat) (s : State) {u : State}
    (e : execCreditReq x y s = .next u) : Alters [.regs, .modl, .tel, .bark, .tree, .job, .cells, .sess, .limbs, .stream, .host, .ras, .journal, .pendRing, .pendStep, .free, .sent] s u := by
  refine State.onLive_alters (fun _ => ?_) e
  repeat' (with_reducible first
    | apply Alters.refl | assumption | apply Alters.step (State.cellStep_alters _ _ _ _ _) (by decide +kernel)
    | apply Alters.step (State.fireCell_alters _ _ _ _ _) (by decide +kernel)
    | apply Alters.step (State.sendUnits_alters _ _ _ _ _) (by decide +kernel) | apply Alters.of1 (by assumption)
    | apply Alters.of2 (by assumption) | apply Alters.ite | apply Alters.foldl | apply Alters.foldlFst
    | apply Alters.foldlSnd | intro _ | dsimp only | split)

theorem execNackReceive_alters (x : Nat) (y : Nat) (s : State) {u : State}
    (e : execNackReceive x y s = .next u) : Alters [.cells, .taps] s u := by
  refine State.onLive_alters (fun _ => ?_) e
  repeat' (with_reducible first
    | apply Alters.refl | assumption | apply Alters.step (State.setCell_alters _ _ _ _) (by decide +kernel)
    | apply Alters.step (State.toLimbDie_alters _ _ _ _ _) (by decide +kernel) | apply Alters.ite | intro _ | dsimp only
    | split)

theorem execReadData_alters (x : Nat) (y : Nat) (s : State) {u : State}
    (e : execReadData x y s = .next u) : Alters [.cells, .taps] s u := by
  refine State.onLive_alters (fun _ => ?_) e
  repeat' (with_reducible first
    | apply Alters.refl | assumption | apply Alters.step (State.setCell_alters _ _ _ _) (by decide +kernel)
    | apply Alters.step (State.toLimbDie_alters _ _ _ _ _) (by decide +kernel) | apply Alters.ite | intro _ | dsimp only
    | split)

theorem execReadReq_alters (x : Nat) (y : Nat) (s : State) {u : State}
    (e : execReadReq x y s = .next u) : Alters [.regs, .modl, .tel, .bark, .tree, .job, .cells, .sess, .limbs, .stream, .host, .ras, .journal, .pendRing, .pendStep, .free, .sent] s u := by
  refine State.onLive_alters (fun _ => ?_) e
  repeat' (with_reducible first
    | apply Alters.refl | assumption | apply Alters.step (State.cellStep_alters _ _ _ _ _) (by decide +kernel)
    | apply Alters.step (State.sendUnits_alters _ _ _ _ _) (by decide +kernel)
    | apply Alters.step (State.pumpCell_alters _ _ _) (by decide +kernel) | apply Alters.ite | intro _ | dsimp only
    | split)

theorem execRemoteWriteBeat_alters (x : Nat) (y : Nat) (s : State) {u : State}
    (e : execRemoteWriteBeat x y s = .next u) : Alters [.regs, .modl, .tel, .bark, .tree, .job, .cells, .sess, .limbs, .stream, .host, .ras, .journal, .pendRing, .pendStep, .free, .sent] s u := by
  refine State.onLive_alters (fun _ => ?_) e
  repeat' (with_reducible first
    | apply Alters.refl | assumption | apply Alters.step (State.setCell_alters _ _ _ _) (by decide +kernel)
    | apply Alters.step (State.cellStep_alters _ _ _ _ _) (by decide +kernel) | apply Alters.ite | intro _ | dsimp only
    | split)

theorem execRemoteWriteHeader_alters (x : Nat) (y : Nat) (cycle : Nat) (s : State) {u : State}
    (e : execRemoteWriteHeader x y cycle s = .next u) : Alters [.regs, .modl, .tel, .bark, .tree, .job, .cells, .sess, .limbs, .stream, .host, .ras, .journal, .pendRing, .pendStep, .free, .sent] s u := by
  refine State.onLive_alters (fun _ => ?_) e
  repeat' (with_reducible first
    | apply Alters.refl | assumption | apply Alters.step (State.cellStep_alters _ _ _ _ _) (by decide +kernel)
    | apply Alters.step (State.sendNack_alters _ _ _ _) (by decide +kernel)
    | apply Alters.step (State.fireCell_alters _ _ _ _ _) (by decide +kernel) | apply Alters.of1 (by assumption)
    | apply Alters.of2 (by assumption) | apply Alters.ite | apply Alters.foldl | apply Alters.foldlFst
    | apply Alters.foldlSnd | intro _ | dsimp only | split)

theorem execWindowClose_alters (x : Nat) (y : Nat) (window : Nat) (cycle : Nat) (s : State) {u : State}
    (e : execWindowClose x y window cycle s = .next u) : Alters [.regs, .modl, .tel, .bark, .tree, .job, .cells, .sess, .limbs, .stream, .host, .ras, .journal, .pendRing, .pendStep, .free, .sent] s u := by
  refine State.onLive_alters (fun _ => ?_) e
  repeat' (with_reducible first
    | apply Alters.refl | assumption | apply Alters.step (State.recallThen_alters _ _ _ _ _ _) (by decide +kernel)
    | apply Alters.ite)

theorem execWindowClosed_alters (x : Nat) (y : Nat) (window : Nat) (s : State) {u : State}
    (e : execWindowClosed x y window s = .next u) : Alters [.cells] s u := by
  refine State.onLive_alters (fun _ => ?_) e
  repeat' (with_reducible first
    | apply Alters.refl | assumption | apply Alters.step (State.setCell_alters _ _ _ _) (by decide +kernel))

theorem execWindowOpen_alters (x : Nat) (y : Nat) (window : Nat) (s : State) {u : State}
    (e : execWindowOpen x y window s = .next u) : Alters [.cells] s u := by
  refine State.onLive_alters (fun _ => ?_) e
  repeat' (with_reducible first
    | apply Alters.refl | assumption | apply Alters.step (State.setCell_alters _ _ _ _) (by decide +kernel))

theorem execWindowReopen_alters (x : Nat) (y : Nat) (window : Nat) (cycle : Nat) (s : State) {u : State}
    (e : execWindowReopen x y window cycle s = .next u) : Alters [.regs, .modl, .tel, .bark, .tree, .job, .cells, .sess, .limbs, .stream, .host, .ras, .journal, .pendRing, .pendStep, .free, .sent] s u := by
  refine State.onLive_alters (fun _ => ?_) e
  repeat' (with_reducible first
    | apply Alters.refl | assumption | apply Alters.step (State.recallThen_alters _ _ _ _ _ _) (by decide +kernel)
    | apply Alters.step (State.refreshCell_alters _ _ _) (by decide +kernel) | apply Alters.ite)

end Sys2Proof.Machine
end

