-- ==== Sys2Proof/Laws/FramesLinks.lean ====
section
/-!
SUPPORT. What each operation can change, one lemma each: edge ports, sessions, the ring receiver and the parts of power and Bark they use.
-/
namespace Sys2Proof.Machine

set_option Elab.async false

/-! ## Gating -/

theorem State.regate_alters (s : State) :
    Alters [.clk] s (State.regate s) := by
  unfold State.regate
  repeat' (with_reducible first
    | apply Alters.refl | dsimp only | refine Alters.update ?_)

/-! ## SapCore -/

theorem State.modPend_alters (s : State) (k : Nat) (tag : Nat) (f : PendReq → PendReq) :
    Alters [.limbs] s (State.modPend s k tag f) := by
  unfold State.modPend
  repeat' (with_reducible first
    | apply Alters.refl | apply Alters.step (State.setLimb_alters _ _ _) (by decide +kernel))

theorem State.closeSes_alters (s : State) (i : Nat) (grace : Bool) :
    Alters [.regs, .sess, .host, .sent] s (State.closeSes s i grace) := by
  unfold State.closeSes
  repeat' (with_reducible first
    | apply Alters.refl | apply Alters.step (State.sesTo_alters _ _ _) (by decide +kernel)
    | apply Alters.step (State.setSes_alters _ _ _) (by decide +kernel))

theorem State.cmdDone_alters (s : State) (i : Nat) (result : Nat) :
    Alters [.sessCmd] s (State.cmdDone s i result) := by
  unfold State.cmdDone
  repeat' (with_reducible first
    | apply Alters.refl | apply Alters.ite | dsimp only | split | refine Alters.update ?_)

theorem State.peerFault_alters (s : State) (code : Nat) (i : Nat) (seq : Nat) (stops : Bool) (inj : Bool) :
    Alters [.regs, .modl, .tel, .bark, .tree, .job, .cells, .sess, .limbs, .stream, .host, .ras, .journal, .pendStep, .free, .sent] s (State.peerFault s code i seq stops inj) := by
  unfold State.peerFault
  repeat' (with_reducible first
    | apply Alters.refl | apply Alters.step (State.raise_alters _ _ _ _ _ _ _) (by decide +kernel))

theorem State.advanceEpoch_alters (s : State) (i : Nat) :
    Alters [.regs, .sess, .stream] s (State.advanceEpoch s i) := by
  unfold State.advanceEpoch
  repeat' (with_reducible first
    | apply Alters.refl | apply Alters.step (State.inc_alters _ _ _) (by decide +kernel)
    | apply Alters.step (State.setSes_alters _ _ _) (by decide +kernel)
    | apply Alters.step (State.modSes_alters _ _ _) (by decide +kernel) | apply Alters.ite | dsimp only | split
    | refine Alters.update ?_)

theorem State.opened_alters (s : State) (i : Nat) (secret : List Byte) (initiator : Bool) :
    Alters [.regs, .sess, .stream, .sessCmd, .host, .sent] s (State.opened s i secret initiator) := by
  unfold State.opened
  repeat' (with_reducible first
    | apply Alters.refl | apply Alters.step (State.advanceEpoch_alters _ _) (by decide +kernel)
    | apply Alters.step (State.sesTo_alters _ _ _) (by decide +kernel)
    | apply Alters.step (State.cmdDone_alters _ _ _) (by decide +kernel)
    | apply Alters.step (State.inc_alters _ _ _) (by decide +kernel)
    | apply Alters.step (State.modSes_alters _ _ _) (by decide +kernel) | apply Alters.ite)

theorem State.addPend_alters (s : State) (k : Nat) (r : PendReq) {u : State} {b : Nat}
    (e : s.addPend k r = some (u, b)) : Alters [.limbs] s u := by
  unfold State.addPend at e
  simp only [Option.map_eq_some_iff] at e
  obtain ⟨_, _, e⟩ := e
  cases e
  exact .step (State.setLimb_alters _ _ _) (by decide +kernel) (.refl _ _)

theorem State.dropPend_alters (s : State) (k : Nat) (tag : Nat) :
    Alters [.limbs] s (State.dropPend s k tag) := by
  unfold State.dropPend
  repeat' (with_reducible first
    | apply Alters.refl | apply Alters.step (State.setLimb_alters _ _ _) (by decide +kernel))

theorem State.fromTap_alters (s : State) (func : Nat) (t : Nat) (net : Net) (us : List NetUnit) :
    Alters [.taps] s (State.fromTap s func t net us) := by
  unfold State.fromTap
  repeat' (with_reducible first
    | apply Alters.refl | apply Alters.step (State.setTap_alters _ _ _) (by decide +kernel) | apply Alters.ite)

theorem State.fillChunk_alters (s : State) (r : PendReq) (n : Nat) (data : Option (List Byte)) :
    Alters [.taps] s (State.fillChunk s r n data) := by
  unfold State.fillChunk
  repeat' (with_reducible first
    | apply Alters.refl | apply Alters.step (State.fromTap_alters _ _ _ _ _) (by decide +kernel))

theorem State.advance_alters (a0 : Nat) (a1 : State) (a2 : Nat) (a3 : Nat) :
    Alters [.taps, .limbs] a1 (State.advance a0 a1 a2 a3) := by
  induction a0 generalizing a1 a2 a3 with
  | zero => exact .refl _ _
  | succ n ih =>
    unfold State.advance
    repeat' (with_reducible first
      | apply Alters.refl | apply Alters.step (ih _ _ _) (by decide +kernel) | apply Alters.step (State.dropPend_alters _ _ _) (by decide +kernel)
      | apply Alters.step (State.modPend_alters _ _ _ _) (by decide +kernel)
      | apply Alters.step (State.fillChunk_alters _ _ _ _) (by decide +kernel) | dsimp only | split)

theorem State.answerCredit_alters (s : State) (r : PendReq) (disp : Nat) (reason : Nat) (units : Nat) (gen : Nat) (rings : Nat) :
    Alters [.taps] s (State.answerCredit s r disp reason units gen rings) := by
  unfold State.answerCredit
  repeat' (with_reducible first
    | apply Alters.refl | apply Alters.step (State.fromTap_alters _ _ _ _ _) (by decide +kernel))

theorem State.answerRead_alters (s : State) (r : PendReq) (gen : Nat) (nack : Bool) (data : List Byte) :
    Alters [.taps] s (State.answerRead s r gen nack data) := by
  unfold State.answerRead
  repeat' (with_reducible first
    | apply Alters.refl | apply Alters.step (State.fromTap_alters _ _ _ _ _) (by decide +kernel))

theorem State.failTree_alters (s : State) (t : Nat) :
    Alters [.taps, .limbs] s (State.failTree s t) := by
  unfold State.failTree
  repeat' (with_reducible first
    | apply Alters.refl | apply Alters.step (State.modPend_alters _ _ _ _) (by decide +kernel)
    | apply Alters.step (State.advance_alters _ _ _ _) (by decide +kernel) | apply Alters.ite | apply Alters.foldl
    | apply Alters.foldlFst | apply Alters.foldlSnd | intro _)

theorem State.setChunks_alters (s : State) (k : Nat) (tag : Nat) (lo : Nat) (n : Nat) (c : ChunkSt) :
    Alters [.taps, .limbs] s (State.setChunks s k tag lo n c) := by
  unfold State.setChunks
  repeat' (with_reducible first
    | apply Alters.refl | apply Alters.step (State.modPend_alters _ _ _ _) (by decide +kernel)
    | apply Alters.step (State.advance_alters _ _ _ _) (by decide +kernel))

theorem State.refuseResult_alters (s : State) (r : PendReq) (reason : Nat) :
    Alters [.taps, .limbs] s (State.refuseResult s r reason) := by
  unfold State.refuseResult
  repeat' (with_reducible first
    | apply Alters.refl | apply Alters.step (State.setChunks_alters _ _ _ _ _ _) (by decide +kernel)
    | apply Alters.step (State.answerCredit_alters _ _ _ _ _ _ _) (by decide +kernel)
    | apply Alters.step (State.answerRead_alters _ _ _ _ _) (by decide +kernel)
    | apply Alters.step (State.failTree_alters _ _) (by decide +kernel) | apply Alters.getDMap | apply Alters.getD
    | intro _ | dsimp only | split)

theorem State.refusedFault_alters (s : State) (i : Nat) (reason : Nat) (inj : Bool) :
    Alters [.regs, .modl, .tel, .bark, .tree, .job, .cells, .sess, .limbs, .stream, .host, .ras, .journal, .pendStep, .free, .sent] s (State.refusedFault s i reason inj) := by
  unfold State.refusedFault
  repeat' (with_reducible first
    | apply Alters.refl | apply Alters.step (State.raise_alters _ _ _ _ _ _ _) (by decide +kernel))

theorem State.sendPend_alters (s : State) (k : Nat) (tag : Nat) (r : PendReq) :
    Alters [.sess] s (State.sendPend s k tag r) := by
  unfold State.sendPend
  repeat' (with_reducible first
    | apply Alters.refl | apply Alters.step (State.queueReq_alters _ _ _ _ _) (by decide +kernel))

theorem State.deadlineFault_alters (s : State) (code : Nat) (i : Nat) (ring : Nat) (w : When) (inj : Bool) :
    Alters [.regs, .modl, .tel, .bark, .tree, .job, .cells, .sess, .limbs, .stream, .host, .ras, .journal, .pendStep, .free, .sent] s (State.deadlineFault s code i ring w inj) := by
  unfold State.deadlineFault
  repeat' (with_reducible first
    | apply Alters.refl | apply Alters.step (State.raise_alters _ _ _ _ _ _ _) (by decide +kernel) | apply Alters.ite
    | dsimp only | split | refine Alters.update ?_)

theorem State.emitUnder_alters (s : State) (i : Nat) (f : Frame) (key : List Byte) (count : Nat) (space : Nat) :
    Alters [.sess, .sent] s (State.emitUnder s i f key count space) := by
  unfold State.emitUnder
  repeat' (with_reducible first
    | apply Alters.refl | apply Alters.step (State.setSes_alters _ _ _) (by decide +kernel)
    | apply Alters.step (State.send_alters _ _) (by decide +kernel))

theorem State.emit_alters (s : State) (i : Nat) (f : Frame) (count : Nat) (space : Nat) :
    Alters [.sess, .sent] s (State.emit s i f count space) := by
  unfold State.emit
  repeat' (with_reducible first
    | apply Alters.refl | apply Alters.step (State.emitUnder_alters _ _ _ _ _ _) (by decide +kernel) | dsimp only | split)

theorem State.sendAck_alters (s : State) (i : Nat) (nak : Bool) :
    Alters [.regs, .sess, .sent] s (State.sendAck s i nak) := by
  unfold State.sendAck
  repeat' (with_reducible first
    | apply Alters.refl | apply Alters.step (State.inc_alters _ _ _) (by decide +kernel)
    | apply Alters.step (State.emit_alters _ _ _ _ _) (by decide +kernel)
    | apply Alters.step (State.modSes_alters _ _ _) (by decide +kernel) | apply Alters.ite)

theorem State.completeLocal_alters (s : State) (i : Nat) (own : Bool) (inj : Bool) :
    Alters [.regs, .modl, .tel, .bark, .tree, .job, .cells, .taps, .sess, .limbs, .stream, .host, .ras, .journal, .pendStep, .free, .sent] s (State.completeLocal s i own inj) := by
  unfold State.completeLocal
  repeat' (with_reducible first
    | apply Alters.refl | apply Alters.step (State.setLimb_alters _ _ _) (by decide +kernel)
    | apply Alters.step (State.syncBut_alters _ _ _ _) (by decide +kernel)
    | apply Alters.step (State.peerFault_alters _ _ _ _ _ _) (by decide +kernel)
    | apply Alters.step (State.inc_alters _ _ _) (by decide +kernel)
    | apply Alters.step (State.refuseResult_alters _ _ _) (by decide +kernel) | apply Alters.ite | apply Alters.foldl
    | apply Alters.foldlFst | apply Alters.foldlSnd | intro _ | dsimp only | split | refine Alters.update ?_)

theorem State.transmit_alters (s : State) (i : Nat) (t : TxFrame) :
    Alters [.regs, .sess, .limbs, .sent] s (State.transmit s i t) := by
  unfold State.transmit
  repeat' (with_reducible first
    | apply Alters.refl | apply Alters.step (State.modPend_alters _ _ _ _) (by decide +kernel)
    | apply Alters.step (State.setLimb_alters _ _ _) (by decide +kernel)
    | apply Alters.step (State.inc_alters _ _ _) (by decide +kernel)
    | apply Alters.step (State.emit_alters _ _ _ _ _) (by decide +kernel)
    | apply Alters.step (State.modSes_alters _ _ _) (by decide +kernel) | apply Alters.ite | dsimp only | split)

theorem State.sendNow_alters (s : State) (i : Nat) (f : Frame) :
    Alters [.regs, .sess, .limbs, .sent] s (State.sendNow s i f) := by
  unfold State.sendNow
  repeat' (with_reducible first
    | apply Alters.refl | apply Alters.step (State.transmit_alters _ _ _) (by decide +kernel))

theorem State.epochReset_alters (s : State) (i : Nat) (cause : Nat) (inj : Bool) :
    Alters [.regs, .modl, .tel, .bark, .tree, .job, .cells, .taps, .sess, .limbs, .stream, .host, .ras, .journal, .pendStep, .free, .sent] s (State.epochReset s i cause inj) := by
  unfold State.epochReset
  repeat' (with_reducible first
    | apply Alters.refl | apply Alters.step (State.sendNow_alters _ _ _) (by decide +kernel)
    | apply Alters.step (State.modSes_alters _ _ _) (by decide +kernel)
    | apply Alters.step (State.completeLocal_alters _ _ _ _) (by decide +kernel) | apply Alters.ite)

theorem State.loseSes_alters (s : State) (i : Nat) (code : Nat) (seq : Nat) (inj : Bool) :
    Alters [.regs, .modl, .tel, .bark, .tree, .job, .cells, .taps, .sess, .limbs, .stream, .host, .ras, .journal, .pendStep, .free, .sent] s (State.loseSes s i code seq inj) := by
  unfold State.loseSes
  repeat' (with_reducible first
    | apply Alters.refl | apply Alters.step (State.closeSes_alters _ _ _) (by decide +kernel)
    | apply Alters.step (State.peerFault_alters _ _ _ _ _ _) (by decide +kernel)
    | apply Alters.step (State.completeLocal_alters _ _ _ _) (by decide +kernel))

theorem State.sessionBoundary_alters (s : State) :
    Alters [.regs, .sess, .sessCmd, .host, .sent] s (State.sessionBoundary s) := by
  unfold State.sessionBoundary
  repeat' (with_reducible first
    | apply Alters.refl | apply Alters.step (State.sesTo_alters _ _ _) (by decide +kernel)
    | apply Alters.step (State.cmdDone_alters _ _ _) (by decide +kernel)
    | apply Alters.step (State.modSes_alters _ _ _) (by decide +kernel) | apply Alters.ite | apply Alters.foldl
    | apply Alters.foldlFst | apply Alters.foldlSnd | intro _)

/-! ## EdgeExec -/

theorem State.dropFrame_alters (s : State) (k : Nat) :
    Alters [.regs] s (State.dropFrame s k) := by
  unfold State.dropFrame
  repeat' (with_reducible first
    | apply Alters.refl | apply Alters.step (State.inc_alters _ _ _) (by decide +kernel))

theorem State.peerRecord_alters (s : State) (i : Nat) (count : Nat) (f : Frame) (inj : Bool) :
    Alters [.regs, .host, .journal, .free, .sent] s (State.peerRecord s i count f inj) := by
  unfold State.peerRecord
  repeat' (with_reducible first
    | apply Alters.refl | apply Alters.step (State.record_alters _ _ _ _) (by decide +kernel))

theorem State.replayHash_alters (s : State) (i : Nat) (count : Nat) (f : Frame) :
    Alters [.regs, .modl, .tel, .bark, .tree, .job, .cells, .sess, .limbs, .stream, .host, .ras, .journal, .pendStep, .free, .sent] s (State.replayHash s i count f) := by
  unfold State.replayHash
  repeat' (with_reducible first
    | apply Alters.refl | apply Alters.step (State.peerFault_alters _ _ _ _ _ _) (by decide +kernel)
    | apply Alters.step (State.inc_alters _ _ _) (by decide +kernel) | apply Alters.ite | dsimp only | split
    | refine Alters.update ?_)

theorem State.deliver_alters (s : State) (i : Nat) (f : Frame) :
    Alters [.regs, .modl, .tel, .bark, .tree, .job, .cells, .sess, .limbs, .stream, .host, .ras, .journal, .pendStep, .free, .sent] s (State.deliver s i f) := by
  unfold State.deliver
  repeat' (with_reducible first
    | apply Alters.refl | apply Alters.step (State.dropFrame_alters _ _) (by decide +kernel)
    | apply Alters.step (State.peerRecord_alters _ _ _ _ _) (by decide +kernel)
    | apply Alters.step (State.deadlineFault_alters _ _ _ _ _ _) (by decide +kernel)
    | apply Alters.step (State.fireEdge_alters _ _ _) (by decide +kernel)
    | apply Alters.step (State.inc_alters _ _ _) (by decide +kernel)
    | apply Alters.step (State.replayHash_alters _ _ _ _) (by decide +kernel)
    | apply Alters.step (State.modSes_alters _ _ _) (by decide +kernel) | apply Alters.of2 (by assumption)
    | apply Alters.ite | dsimp only | split)

theorem State.release_alters (a0 : Nat) (a1 : State) (a2 : Nat) :
    Alters [.regs, .modl, .tel, .bark, .tree, .job, .cells, .sess, .limbs, .stream, .host, .ras, .journal, .pendStep, .free, .sent] a1 (State.release a0 a1 a2) := by
  induction a0 generalizing a1 a2 with
  | zero => exact .refl _ _
  | succ n ih =>
    unfold State.release
    repeat' (with_reducible first
      | apply Alters.refl | apply Alters.step (ih _ _) (by decide +kernel) | apply Alters.step (State.deliver_alters _ _ _) (by decide +kernel)
      | apply Alters.step (State.modSes_alters _ _ _) (by decide +kernel) | dsimp only | split)

theorem State.sequence_alters (s : State) (port : Nat) (half : Bool) (i : Nat) (f : Frame) :
    Alters [.regs, .modl, .tel, .bark, .tree, .job, .cells, .sess, .limbs, .stream, .host, .ras, .journal, .pendStep, .free, .sent] s (State.sequence s port half i f) := by
  unfold State.sequence
  repeat' (with_reducible first
    | apply Alters.refl | apply Alters.step (State.dropFrame_alters _ _) (by decide +kernel)
    | apply Alters.step (State.sendAck_alters _ _ _) (by decide +kernel)
    | apply Alters.step (State.deliver_alters _ _ _) (by decide +kernel)
    | apply Alters.step (State.release_alters _ _ _) (by decide +kernel)
    | apply Alters.step (State.modSes_alters _ _ _) (by decide +kernel) | apply Alters.ite)

theorem State.retransmit_alters (s : State) (i : Nat) (count : Nat) :
    Alters [.regs, .sess, .sent] s (State.retransmit s i count) := by
  unfold State.retransmit
  repeat' (with_reducible first
    | apply Alters.refl | apply Alters.step (State.inc_alters _ _ _) (by decide +kernel)
    | apply Alters.step (State.emit_alters _ _ _ _ _) (by decide +kernel)
    | apply Alters.step (State.modSes_alters _ _ _) (by decide +kernel) | apply Alters.ite | dsimp only | split)

theorem State.unacked_alters (s : State) (i : Nat) (count : Nat) (w : When) (ring : Nat) :
    Alters [.regs, .modl, .tel, .bark, .tree, .job, .cells, .sess, .limbs, .stream, .host, .ras, .journal, .pendStep, .free, .sent] s (State.unacked s i count w ring) := by
  unfold State.unacked
  repeat' (with_reducible first
    | apply Alters.refl | apply Alters.step (State.deadlineFault_alters _ _ _ _ _ _) (by decide +kernel)
    | apply Alters.step (State.inc_alters _ _ _) (by decide +kernel)
    | apply Alters.step (State.modSes_alters _ _ _) (by decide +kernel))

theorem State.takeAck_alters (s : State) (i : Nat) (f : Frame) :
    Alters [.regs, .modl, .tel, .bark, .tree, .job, .cells, .sess, .limbs, .stream, .host, .ras, .journal, .pendStep, .free, .sent] s (State.takeAck s i f) := by
  unfold State.takeAck
  repeat' (with_reducible first
    | apply Alters.refl | apply Alters.step (State.retransmit_alters _ _ _) (by decide +kernel)
    | apply Alters.step (State.unacked_alters _ _ _ _ _) (by decide +kernel)
    | apply Alters.step (State.modSes_alters _ _ _) (by decide +kernel) | apply Alters.ite | apply Alters.foldl
    | apply Alters.foldlFst | apply Alters.foldlSnd | intro _)

theorem State.authentic_alters (s : State) (port : Nat) (half : Bool) (i : Nat) (f : Frame) (isAck : Bool) :
    Alters [.regs, .modl, .tel, .bark, .tree, .job, .cells, .sess, .limbs, .stream, .host, .ras, .journal, .pendStep, .free, .sent] s (State.authentic s port half i f isAck) := by
  unfold State.authentic
  repeat' (with_reducible first
    | apply Alters.refl | apply Alters.step (State.dropFrame_alters _ _) (by decide +kernel)
    | apply Alters.step (State.takeAck_alters _ _ _) (by decide +kernel)
    | apply Alters.step (State.fireEdge_alters _ _ _) (by decide +kernel)
    | apply Alters.step (State.peerFault_alters _ _ _ _ _ _) (by decide +kernel)
    | apply Alters.step (State.sequence_alters _ _ _ _ _) (by decide +kernel)
    | apply Alters.step (State.modSes_alters _ _ _) (by decide +kernel) | apply Alters.of2 (by assumption)
    | apply Alters.ite)

theorem State.detect_alters (s : State) (p : Nat) (half : Bool) :
    Alters [.regs, .ports, .host, .sent] s (State.detect s p half) := by
  unfold State.detect
  repeat' (with_reducible first
    | apply Alters.refl | apply Alters.step (State.modPort_alters _ _ _) (by decide +kernel)
    | apply Alters.step (State.linkTo_alters _ _ _ _) (by decide +kernel) | apply Alters.ite)

theorem State.linkFault_alters (s : State) (p : Nat) (half : Bool) (code : Nat) (cause : Nat) (inj : Bool) :
    Alters [.regs, .modl, .tel, .bark, .tree, .job, .cells, .ports, .sess, .limbs, .stream, .host, .ras, .journal, .pendStep, .free, .sent] s (State.linkFault s p half code cause inj) := by
  unfold State.linkFault
  repeat' (with_reducible first
    | apply Alters.refl | apply Alters.step (State.modPort_alters _ _ _) (by decide +kernel)
    | apply Alters.step (State.raise_alters _ _ _ _ _ _ _) (by decide +kernel))

theorem State.auxOver_alters (s : State) (port : Nat) (inj : Bool) :
    Alters [.regs, .modl, .tel, .bark, .tree, .job, .cells, .ports, .sess, .limbs, .stream, .host, .ras, .journal, .pendStep, .free, .sent] s (State.auxOver s port inj) := by
  unfold State.auxOver
  repeat' (with_reducible first
    | apply Alters.refl | apply Alters.step (State.modPort_alters _ _ _) (by decide +kernel)
    | apply Alters.step (State.detect_alters _ _ _) (by decide +kernel)
    | apply Alters.step (State.linkFault_alters _ _ _ _ _ _) (by decide +kernel)
    | apply Alters.step (State.linkTo_alters _ _ _ _) (by decide +kernel) | apply Alters.ite | apply Alters.foldl
    | apply Alters.foldlFst | apply Alters.foldlSnd | intro _)

theorem State.leaveUp_alters (s : State) (p : Nat) (half : Bool) (st : LinkState) (cause : DownCause) (inj : Bool) :
    Alters [.regs, .modl, .tel, .bark, .tree, .job, .cells, .ports, .sess, .limbs, .stream, .host, .ras, .journal, .pendStep, .free, .sent] s (State.leaveUp s p half st cause inj) := by
  unfold State.leaveUp
  repeat' (with_reducible first
    | apply Alters.refl | apply Alters.step (State.linkFault_alters _ _ _ _ _ _) (by decide +kernel)
    | apply Alters.step (State.linkTo_alters _ _ _ _) (by decide +kernel) | apply Alters.ite)

theorem State.handshakeFrame_alters (s : State) (port : Nat) (half : Bool) (mac : Nat) (f : Frame) :
    Alters [.shakes] s (State.handshakeFrame s port half mac f) := by
  unfold State.handshakeFrame
  repeat' (with_reducible first
    | apply Alters.refl | apply Alters.ite | dsimp only | split | refine Alters.update ?_)

theorem State.oldEpoch_alters (s : State) (i : Nat) (p : PrevEpoch) (f : Frame) :
    Alters [.regs, .sess, .sent] s (State.oldEpoch s i p f) := by
  unfold State.oldEpoch
  repeat' (with_reducible first
    | apply Alters.refl | apply Alters.step (State.dropFrame_alters _ _) (by decide +kernel)
    | apply Alters.step (State.emitUnder_alters _ _ _ _ _ _) (by decide +kernel)
    | apply Alters.step (State.inc_alters _ _ _) (by decide +kernel)
    | apply Alters.step (State.modSes_alters _ _ _) (by decide +kernel) | apply Alters.ite)

theorem State.tagFail_alters (s : State) (i : Nat) (seq : Nat) (inj : Bool) :
    Alters [.regs, .modl, .tel, .bark, .tree, .job, .cells, .taps, .sess, .limbs, .stream, .host, .ras, .journal, .pendStep, .free, .sent] s (State.tagFail s i seq inj) := by
  unfold State.tagFail
  repeat' (with_reducible first
    | apply Alters.refl | apply Alters.step (State.dropFrame_alters _ _) (by decide +kernel)
    | apply Alters.step (State.loseSes_alters _ _ _ _ _) (by decide +kernel)
    | apply Alters.step (State.modSes_alters _ _ _) (by decide +kernel) | apply Alters.ite)

theorem State.sessionFrame_alters (s : State) (port : Nat) (half : Bool) (i : Nat) (body : List Byte) :
    Alters [.regs, .modl, .tel, .bark, .tree, .job, .cells, .taps, .sess, .limbs, .stream, .host, .ras, .journal, .pendStep, .free, .sent] s (State.sessionFrame s port half i body) := by
  unfold State.sessionFrame
  repeat' (with_reducible first
    | apply Alters.refl | apply Alters.step (State.dropFrame_alters _ _) (by decide +kernel)
    | apply Alters.step (State.authentic_alters _ _ _ _ _ _) (by decide +kernel)
    | apply Alters.step (State.oldEpoch_alters _ _ _ _) (by decide +kernel)
    | apply Alters.step (State.fireEdge_alters _ _ _) (by decide +kernel)
    | apply Alters.step (State.peerFault_alters _ _ _ _ _ _) (by decide +kernel)
    | apply Alters.step (State.tagFail_alters _ _ _ _) (by decide +kernel) | apply Alters.of2 (by assumption)
    | apply Alters.ite | dsimp only | split)

theorem State.takeShake_alters (s : State) (pick : ShakeIn → Bool) {u : State} {b : ShakeIn}
    (e : s.takeShake pick = some (b, u)) : Alters [.shakes] s u := by
  unfold State.takeShake at e
  simp only [Option.map_eq_some_iff] at e
  obtain ⟨_, _, e⟩ := e
  cases e
  exact .update (.refl _ _)

theorem State.trainFails_alters (s : State) (port : Nat) (half : Bool) (inj : Bool) :
    Alters [.regs, .modl, .tel, .bark, .tree, .job, .cells, .ports, .sess, .limbs, .stream, .host, .ras, .journal, .pendStep, .free, .sent] s (State.trainFails s port half inj) := by
  unfold State.trainFails
  repeat' (with_reducible first
    | apply Alters.refl | apply Alters.step (State.detect_alters _ _ _) (by decide +kernel)
    | apply Alters.step (State.linkFault_alters _ _ _ _ _ _) (by decide +kernel)
    | apply Alters.step (State.linkTo_alters _ _ _ _) (by decide +kernel))

theorem execAckFrameSend_alters (i : Nat) (s : State) {u : State}
    (e : execAckFrameSend i s = .next u) : Alters [.regs, .sess, .sent] s u := by
  refine .ofNext e ?_
  repeat' (with_reducible first
    | apply Alters.refl | apply Alters.step (State.sendAck_alters _ _ _) (by decide +kernel) | apply Alters.ite)

theorem execAckReceive_alters (i : Nat) (s : State) {u : State}
    (e : execAckReceive i s = .next u) : Alters [.regs, .modl, .tel, .bark, .tree, .job, .cells, .sess, .limbs, .stream, .host, .ras, .journal, .pendStep, .free, .sent] s u := by
  refine .ofNext e ?_
  repeat' (with_reducible first
    | apply Alters.refl | apply Alters.step (State.takeAck_alters _ _ _) (by decide +kernel)
    | apply Alters.step (State.modSes_alters _ _ _) (by decide +kernel) | apply Alters.ite | dsimp only | split)

theorem execAdminEnWrite_alters (port : Nat) (b : Bool) (s : State) {u : State}
    (e : execAdminEnWrite port b s = .next u) : Alters [.regs, .ports, .host, .sent] s u := by
  refine .ofNext e ?_
  repeat' (with_reducible first
    | apply Alters.refl | apply Alters.step (State.setF_alters _ _ _) (by decide +kernel)
    | apply Alters.step (State.detect_alters _ _ _) (by decide +kernel)
    | apply Alters.step (State.linkTo_alters _ _ _ _) (by decide +kernel) | apply Alters.ite | apply Alters.foldl
    | apply Alters.foldlFst | apply Alters.foldlSnd | intro _)

theorem execAuxOvercurrent_alters (port : Nat) (s : State) {u : State}
    (e : execAuxOvercurrent port s = .next u) : Alters [.regs, .modl, .tel, .bark, .tree, .job, .cells, .ports, .sess, .limbs, .stream, .host, .ras, .journal, .pendStep, .free, .sent] s u := by
  refine .ofNext e ?_
  repeat' (with_reducible first
    | apply Alters.refl | apply Alters.step (State.auxOver_alters _ _ _) (by decide +kernel) | apply Alters.ite)

theorem execDeadlineUnacked_alters (i : Nat) (count : Nat) (s : State) {u : State}
    (e : execDeadlineUnacked i count s = .next u) : Alters [.regs, .modl, .tel, .bark, .tree, .job, .cells, .sess, .limbs, .stream, .host, .ras, .journal, .pendStep, .free, .sent] s u := by
  refine .ofNext e ?_
  repeat' (with_reducible first
    | apply Alters.refl | apply Alters.step (State.unacked_alters _ _ _ _ _) (by decide +kernel) | apply Alters.ite
    | dsimp only | split)

theorem execEdgeClrCounters_alters (s : State) {u : State}
    (e : execEdgeClrCounters s = .next u) : Alters [.regs, .ports] s u := by
  refine .ofNext e ?_
  repeat' (with_reducible first
    | apply Alters.refl | apply Alters.step (State.modPort_alters _ _ _) (by decide +kernel)
    | apply Alters.step (State.clearF_alters _ _) (by decide +kernel) | apply Alters.foldl | apply Alters.foldlFst
    | apply Alters.foldlSnd | intro _)

theorem execFrameReceive_alters (port : Nat) (half : Bool) (bytes : List Byte) (s : State) {u : State}
    (e : execFrameReceive port half bytes s = .next u) : Alters [.regs, .modl, .tel, .bark, .tree, .job, .cells, .taps, .sess, .shakes, .limbs, .stream, .host, .ras, .journal, .pendStep, .free, .sent] s u := by
  refine .ofNext e ?_
  repeat' (with_reducible first
    | apply Alters.refl | apply Alters.step (State.incSat_alters _ _ _) (by decide +kernel)
    | apply Alters.step (State.dropFrame_alters _ _) (by decide +kernel)
    | apply Alters.step (State.handshakeFrame_alters _ _ _ _ _) (by decide +kernel)
    | apply Alters.step (State.sessionFrame_alters _ _ _ _ _) (by decide +kernel) | apply Alters.ite)

theorem execFrameTransmit_alters (port : Nat) (half : Bool) (s : State) {u : State}
    (e : execFrameTransmit port half s = .next u) : Alters [.regs, .ports, .sess, .limbs, .sent] s u := by
  refine .ofNext e ?_
  repeat' (with_reducible first
    | apply Alters.refl | apply Alters.step (State.modPort_alters _ _ _) (by decide +kernel)
    | apply Alters.step (State.transmit_alters _ _ _) (by decide +kernel)
    | apply Alters.step (State.inc_alters _ _ _) (by decide +kernel) | apply Alters.ite | dsimp only | split)

theorem execGapNakRepeat_alters (i : Nat) (s : State) {u : State}
    (e : execGapNakRepeat i s = .next u) : Alters [.regs, .sess, .sent] s u := by
  refine .ofNext e ?_
  repeat' (with_reducible first
    | apply Alters.refl | apply Alters.step (State.sendAck_alters _ _ _) (by decide +kernel) | apply Alters.ite)

theorem execLinkDown_alters (port : Nat) (half : Bool) (codewords : Bool) (s : State) {u : State}
    (e : execLinkDown port half codewords s = .next u) : Alters [.regs, .modl, .tel, .bark, .tree, .job, .cells, .ports, .sess, .limbs, .stream, .host, .ras, .journal, .pendStep, .free, .sent] s u := by
  refine .ofNext e ?_
  repeat' (with_reducible first
    | apply Alters.refl | apply Alters.step (State.leaveUp_alters _ _ _ _ _ _) (by decide +kernel))

theorem execNegotiationDone_alters (port : Nat) (half : Bool) (split : Bool) (s : State) {u : State}
    (e : execNegotiationDone port half split s = .next u) : Alters [.regs, .ports, .host, .sent] s u := by
  refine .ofNext e ?_
  repeat' (with_reducible first
    | apply Alters.refl | apply Alters.step (State.linkTo_alters _ _ _ _) (by decide +kernel) | apply Alters.ite)

theorem execNegotiationTimeout_alters (port : Nat) (half : Bool) (s : State) {u : State}
    (e : execNegotiationTimeout port half s = .next u) : Alters [.regs, .modl, .tel, .bark, .tree, .job, .cells, .ports, .sess, .limbs, .stream, .host, .ras, .journal, .pendStep, .free, .sent] s u := by
  refine .ofNext e ?_
  repeat' (with_reducible first
    | apply Alters.refl | apply Alters.step (State.detect_alters _ _ _) (by decide +kernel)
    | apply Alters.step (State.linkFault_alters _ _ _ _ _ _) (by decide +kernel)
    | apply Alters.step (State.linkTo_alters _ _ _ _) (by decide +kernel) | apply Alters.ite)

theorem execPresenceChange_alters (port : Nat) (b : Bool) (s : State) {u : State}
    (e : execPresenceChange port b s = .next u) : Alters [.regs, .modl, .tel, .bark, .tree, .job, .cells, .ports, .sess, .limbs, .stream, .host, .ras, .journal, .pendStep, .free, .sent] s u := by
  refine .ofNext e ?_
  repeat' (with_reducible first
    | apply Alters.refl | apply Alters.step (State.leaveUp_alters _ _ _ _ _ _) (by decide +kernel)
    | apply Alters.step (State.modPort_alters _ _ _) (by decide +kernel)
    | apply Alters.step (State.detect_alters _ _ _) (by decide +kernel)
    | apply Alters.step (State.linkTo_alters _ _ _ _) (by decide +kernel) | apply Alters.ite | apply Alters.foldl
    | apply Alters.foldlFst | apply Alters.foldlSnd | intro _)

theorem execRetrain_alters (port : Nat) (s : State) {u : State}
    (e : execRetrain port s = .next u) : Alters [.regs, .modl, .tel, .bark, .tree, .job, .cells, .ports, .sess, .limbs, .stream, .host, .ras, .journal, .pendStep, .free, .sent] s u := by
  refine .ofNext e ?_
  repeat' (with_reducible first
    | apply Alters.refl | apply Alters.step (State.leaveUp_alters _ _ _ _ _ _) (by decide +kernel) | apply Alters.foldl
    | apply Alters.foldlFst | apply Alters.foldlSnd | intro _)

theorem execRtoExpiry_alters (i : Nat) (s : State) {u : State}
    (e : execRtoExpiry i s = .next u) : Alters [.regs, .modl, .tel, .bark, .tree, .job, .cells, .taps, .sess, .limbs, .stream, .host, .ras, .journal, .pendStep, .free, .sent] s u := by
  refine .ofNext e ?_
  repeat' (with_reducible first
    | apply Alters.refl | apply Alters.step (State.loseSes_alters _ _ _ _ _) (by decide +kernel)
    | apply Alters.step (State.retransmit_alters _ _ _) (by decide +kernel) | apply Alters.ite | dsimp only | split)

theorem execTrainDone_alters (port : Nat) (half : Bool) (s : State) {u : State}
    (e : execTrainDone port half s = .next u) : Alters [.regs, .modl, .tel, .bark, .tree, .job, .cells, .ports, .sess, .limbs, .stream, .host, .ras, .journal, .pendStep, .free, .sent] s u := by
  refine .ofNext e ?_
  repeat' (with_reducible first
    | apply Alters.refl | apply Alters.step (State.fireEdge_alters _ _ _) (by decide +kernel)
    | apply Alters.step (State.trainFails_alters _ _ _ _) (by decide +kernel)
    | apply Alters.step (State.linkTo_alters _ _ _ _) (by decide +kernel) | apply Alters.of2 (by assumption)
    | apply Alters.ite)

theorem execTrainTimeout_alters (port : Nat) (half : Bool) (s : State) {u : State}
    (e : execTrainTimeout port half s = .next u) : Alters [.regs, .modl, .tel, .bark, .tree, .job, .cells, .ports, .sess, .limbs, .stream, .host, .ras, .journal, .pendStep, .free, .sent] s u := by
  refine .ofNext e ?_
  repeat' (with_reducible first
    | apply Alters.refl | apply Alters.step (State.trainFails_alters _ _ _ _) (by decide +kernel) | apply Alters.ite)

/-! ## PowerCore -/

theorem State.setPower_alters (s : State) (f : Power → Power) :
    Alters [.power] s (State.setPower s f) := by
  unfold State.setPower
  repeat' (with_reducible first
    | apply Alters.refl | dsimp only | refine Alters.update ?_)

theorem State.wakeEvent_alters (s : State) :
    Alters [.regs, .power] s (State.wakeEvent s) := by
  unfold State.wakeEvent
  repeat' (with_reducible first
    | apply Alters.refl | apply Alters.step (State.inc_alters _ _ _) (by decide +kernel)
    | apply Alters.step (State.setPower_alters _ _) (by decide +kernel) | dsimp only | split)

theorem State.dropRails_alters (s : State) :
    Alters [.regs, .modl, .power, .bark, .tree, .graft, .job, .cells, .taps, .ports, .sess, .limbs, .stream, .sessCmd, .host, .sent] s (State.dropRails s) := by
  unfold State.dropRails
  have h : Alters [.regs, .modl, .power, .bark, .tree, .graft, .job, .cells, .taps, .ports, .sess, .limbs, .stream, .sessCmd, .host, .sent] s
      ((List.range 72).foldl (fun s p => [false, true].foldl (fun s h => s.linkTo p h .disabled) s) s) := by
    refine .foldl (fun t p => .foldl (fun t h => ?_) _ (.refl _ _)) _ (.refl _ _)
    exact .step (State.linkTo_alters _ _ _ _) (by decide +kernel) (.refl _ _)
  revert h
  generalize ((List.range 72).foldl (fun s p => [false, true].foldl (fun s h => s.linkTo p h .disabled) s) s) = t
  intro h
  exact .update h

theorem State.powerRequest_alters (s : State) (st : PState) :
    Alters [.regs, .power] s (State.powerRequest s st) := by
  unfold State.powerRequest
  repeat' (with_reducible first
    | apply Alters.refl | apply Alters.step (State.wakeEvent_alters _) (by decide +kernel)
    | apply Alters.step (State.setPower_alters _ _) (by decide +kernel) | apply Alters.ite | dsimp only | split)

/-! ## Ring -/

theorem State.setRing_alters (s : State) (f : Ring → Ring) :
    Alters [.ring] s (State.setRing s f) := by
  unfold State.setRing
  repeat' (with_reducible first
    | apply Alters.refl | dsimp only | refine Alters.update ?_)

theorem State.changePassed_alters (s : State) (n : Nat) :
    Alters [.regs, .ring, .host, .sent] s (State.changePassed s n) := by
  unfold State.changePassed
  repeat' (with_reducible first
    | apply Alters.refl | apply Alters.step (State.setRing_alters _ _) (by decide +kernel)
    | apply Alters.step (State.event_alters _ _) (by decide +kernel) | apply Alters.ite)

theorem State.timeRecord_alters (s : State) (code : Nat) (flags : Nat) (num : Nat) :
    Alters [.regs, .host, .journal, .free, .sent] s (State.timeRecord s code flags num) := by
  unfold State.timeRecord
  repeat' (with_reducible first
    | apply Alters.refl | apply Alters.step (State.record_alters _ _ _ _) (by decide +kernel))

theorem State.emergFlag_alters (s : State) (f : RingFrame) (n : Nat) :
    Alters [.regs, .ring, .job, .host, .journal, .free, .sent] s (State.emergFlag s f n) := by
  unfold State.emergFlag
  repeat' (with_reducible first
    | apply Alters.refl | apply Alters.step (State.registerAbort_alters _ _ _ _) (by decide +kernel)
    | apply Alters.step (State.setRing_alters _ _) (by decide +kernel)
    | apply Alters.step (State.timeRecord_alters _ _ _ _) (by decide +kernel) | apply Alters.ite | dsimp only | split)

theorem State.changeFlag_alters (s : State) (f : RingFrame) (n : Nat) :
    Alters [.regs, .ring, .host, .sent] s (State.changeFlag s f n) := by
  unfold State.changeFlag
  repeat' (with_reducible first
    | apply Alters.refl | apply Alters.step (State.setRing_alters _ _) (by decide +kernel)
    | apply Alters.step (State.event_alters _ _) (by decide +kernel) | apply Alters.ite)

theorem State.frameFlags_alters (s : State) (f : RingFrame) (n : Nat) :
    Alters [.regs, .ring, .job, .host, .journal, .free, .sent] s (State.frameFlags s f n) := by
  unfold State.frameFlags
  repeat' (with_reducible first
    | apply Alters.refl | apply Alters.step (State.emergFlag_alters _ _ _) (by decide +kernel)
    | apply Alters.step (State.changeFlag_alters _ _ _) (by decide +kernel))

theorem State.acquireFlags_alters (s : State) (f : RingFrame) (n : Nat) :
    Alters [.regs, .ring, .job, .host, .journal, .free, .sent] s (State.acquireFlags s f n) := by
  unfold State.acquireFlags
  repeat' (with_reducible first
    | apply Alters.refl | apply Alters.step (State.changePassed_alters _ _) (by decide +kernel)
    | apply Alters.step (State.emergFlag_alters _ _ _) (by decide +kernel)
    | apply Alters.step (State.frameFlags_alters _ _ _) (by decide +kernel) | apply Alters.ite)

theorem State.noFrame_alters (s : State) :
    Alters [.ring] s (State.noFrame s) := by
  unfold State.noFrame
  repeat' (with_reducible first
    | apply Alters.refl | apply Alters.step (State.setRing_alters _ _) (by decide +kernel))

theorem State.countFrame_alters (s : State) (v : FrameVerdict) :
    Alters [.regs, .ring] s (State.countFrame s v) := by
  unfold State.countFrame
  repeat' (with_reducible first
    | apply Alters.refl | apply Alters.step (State.incSat_alters _ _ _) (by decide +kernel)
    | apply Alters.step (State.noFrame_alters _) (by decide +kernel) | dsimp only | split)

theorem State.lockTo_alters (s : State) (l : LockState) :
    Alters [.regs, .ring, .host, .sent] s (State.lockTo s l) := by
  unfold State.lockTo
  repeat' (with_reducible first
    | apply Alters.refl | apply Alters.step (State.setRing_alters _ _) (by decide +kernel)
    | apply Alters.step (State.event_alters _ _) (by decide +kernel) | apply Alters.ite)

theorem State.acquireFrame_alters (s : State) (f : RingFrame) (v : FrameVerdict) :
    Alters [.regs, .ring, .job, .host, .journal, .free, .sent] s (State.acquireFrame s f v) := by
  unfold State.acquireFrame
  repeat' (with_reducible first
    | apply Alters.refl | apply Alters.step (State.lockTo_alters _ _) (by decide +kernel)
    | apply Alters.step (State.acquireFlags_alters _ _ _) (by decide +kernel)
    | apply Alters.step (State.setRing_alters _ _) (by decide +kernel)
    | apply Alters.step (State.countFrame_alters _ _) (by decide +kernel) | apply Alters.ite | dsimp only | split)

theorem State.dropLock_alters (s : State) (l : LockState) :
    Alters [.regs, .ring, .host, .sent] s (State.dropLock s l) := by
  unfold State.dropLock
  repeat' (with_reducible first
    | apply Alters.refl | apply Alters.step (State.lockTo_alters _ _) (by decide +kernel)
    | apply Alters.step (State.setRing_alters _ _) (by decide +kernel)
    | apply Alters.step (State.event_alters _ _) (by decide +kernel) | apply Alters.ite)

theorem State.holdRing_alters (s : State) (inj : Bool) :
    Alters [.regs, .modl, .ring, .tel, .bark, .tree, .job, .cells, .sess, .limbs, .stream, .host, .ras, .journal, .pendStep, .free, .sent] s (State.holdRing s inj) := by
  unfold State.holdRing
  repeat' (with_reducible first
    | apply Alters.refl | apply Alters.step (State.raiseAbort_alters _ _ _ _ _ _) (by decide +kernel)
    | apply Alters.step (State.setRing_alters _ _) (by decide +kernel)
    | apply Alters.step (State.dropLock_alters _ _) (by decide +kernel) | apply Alters.ite)

theorem State.holdFrame_alters (s : State) (f : RingFrame) (v : FrameVerdict) (inj : Bool) :
    Alters [.regs, .modl, .ring, .tel, .bark, .tree, .job, .cells, .sess, .limbs, .stream, .host, .ras, .journal, .pendStep, .free, .sent] s (State.holdFrame s f v inj) := by
  unfold State.holdFrame
  repeat' (with_reducible first
    | apply Alters.refl | apply Alters.step (State.holdRing_alters _ _) (by decide +kernel)
    | apply Alters.step (State.lockTo_alters _ _) (by decide +kernel)
    | apply Alters.step (State.raiseAbort_alters _ _ _ _ _ _) (by decide +kernel)
    | apply Alters.step (State.emergFlag_alters _ _ _) (by decide +kernel)
    | apply Alters.step (State.setRing_alters _ _) (by decide +kernel)
    | apply Alters.step (State.dropLock_alters _ _) (by decide +kernel)
    | apply Alters.step (State.timeRecord_alters _ _ _ _) (by decide +kernel)
    | apply Alters.step (State.countFrame_alters _ _) (by decide +kernel)
    | apply Alters.step (State.frameFlags_alters _ _ _) (by decide +kernel) | apply Alters.ite | dsimp only | split)

theorem State.lockedFrame_alters (s : State) (f : RingFrame) (v : FrameVerdict) (inj : Bool) :
    Alters [.regs, .modl, .ring, .tel, .bark, .tree, .job, .cells, .sess, .limbs, .stream, .host, .ras, .journal, .pendStep, .free, .sent] s (State.lockedFrame s f v inj) := by
  unfold State.lockedFrame
  repeat' (with_reducible first
    | apply Alters.refl | apply Alters.step (State.lockTo_alters _ _) (by decide +kernel)
    | apply Alters.step (State.raiseAbort_alters _ _ _ _ _ _) (by decide +kernel)
    | apply Alters.step (State.emergFlag_alters _ _ _) (by decide +kernel)
    | apply Alters.step (State.setRing_alters _ _) (by decide +kernel)
    | apply Alters.step (State.dropLock_alters _ _) (by decide +kernel)
    | apply Alters.step (State.timeRecord_alters _ _ _ _) (by decide +kernel)
    | apply Alters.step (State.countFrame_alters _ _) (by decide +kernel)
    | apply Alters.step (State.frameFlags_alters _ _ _) (by decide +kernel) | apply Alters.ite | dsimp only | split)

theorem State.note_alters (s : State) (lo : Nat) (c : ChunkSeen) :
    Alters [.ring] s (State.note s lo c) := by
  unfold State.note
  repeat' (with_reducible first
    | apply Alters.refl | apply Alters.step (State.setRing_alters _ _) (by decide +kernel))

theorem State.missing_alters (s : State) (inj : Bool) :
    Alters [.regs, .modl, .ring, .tel, .bark, .tree, .job, .cells, .sess, .limbs, .stream, .host, .ras, .journal, .pendStep, .free, .sent] s (State.missing s inj) := by
  unfold State.missing
  repeat' (with_reducible first
    | apply Alters.refl | apply Alters.step (State.incSat_alters _ _ _) (by decide +kernel)
    | apply Alters.step (State.note_alters _ _ _) (by decide +kernel)
    | apply Alters.step (State.holdRing_alters _ _) (by decide +kernel)
    | apply Alters.step (State.lockTo_alters _ _) (by decide +kernel)
    | apply Alters.step (State.setRing_alters _ _) (by decide +kernel)
    | apply Alters.step (State.noFrame_alters _) (by decide +kernel)
    | apply Alters.step (State.timeRecord_alters _ _ _ _) (by decide +kernel) | apply Alters.ite | dsimp only | split)

theorem State.noteFrame_alters (s : State) (f : RingFrame) (lo : Nat) :
    Alters [.ring] s (State.noteFrame s f lo) := by
  unfold State.noteFrame
  repeat' (with_reducible first
    | apply Alters.refl | apply Alters.step (State.note_alters _ _ _) (by decide +kernel) | apply Alters.ite)

theorem State.ptpPeriod_alters (s : State) (code : Nat) :
    Alters [.ring] s (State.ptpPeriod s code) := by
  unfold State.ptpPeriod
  repeat' (with_reducible first
    | apply Alters.refl | apply Alters.step (State.setRing_alters _ _) (by decide +kernel) | apply Alters.ite)

theorem State.ptpSteer_alters (s : State) (o : PtpObs) :
    Alters [.regs, .ring, .host, .sent] s (State.ptpSteer s o) := by
  unfold State.ptpSteer
  repeat' (with_reducible first
    | apply Alters.refl | apply Alters.step (State.ptpPeriod_alters _ _) (by decide +kernel)
    | apply Alters.step (State.lockTo_alters _ _) (by decide +kernel)
    | apply Alters.step (State.setRing_alters _ _) (by decide +kernel) | apply Alters.ite | dsimp only | split)

theorem execClrStats_alters (s : State) {u : State}
    (e : execClrStats s = .next u) : Alters [.regs] s u := by
  refine .ofNext e ?_
  repeat' (with_reducible first
    | apply Alters.refl | apply Alters.step (State.clearFs_alters _ _) (by decide +kernel))

theorem execDelimiterMissing_alters (s : State) {u : State}
    (e : execDelimiterMissing s = .next u) : Alters [.regs, .modl, .ring, .tel, .bark, .tree, .job, .cells, .sess, .limbs, .stream, .host, .ras, .journal, .pendStep, .free, .sent] s u := by
  refine .ofNext e ?_
  repeat' (with_reducible first
    | apply Alters.refl | apply Alters.step (State.missing_alters _ _) (by decide +kernel)
    | apply Alters.step (State.setRing_alters _ _) (by decide +kernel) | apply Alters.ite)

theorem execPtpSync_alters (o : PtpObs) (s : State) {u : State}
    (e : execPtpSync o s = .next u) : Alters [.regs, .modl, .ring, .tel, .bark, .tree, .job, .cells, .sess, .limbs, .stream, .host, .ras, .journal, .pendStep, .free, .sent] s u := by
  refine .ofNext e ?_
  repeat' (with_reducible first
    | apply Alters.refl | apply Alters.step (State.ptpSteer_alters _ _) (by decide +kernel)
    | apply Alters.step (State.setF_alters _ _ _) (by decide +kernel)
    | apply Alters.step (State.raiseAbort_alters _ _ _ _ _ _) (by decide +kernel)
    | apply Alters.step (State.breach_alters _ _ _) (by decide +kernel)
    | apply Alters.step (State.dropLock_alters _ _) (by decide +kernel) | apply Alters.ite)

theorem execRingConfigWrite_alters (w : Word64) (s : State) {u : State}
    (e : execRingConfigWrite w s = .next u) : Alters [.regs] s u := by
  refine .ofNext e ?_
  repeat' (with_reducible first
    | apply Alters.refl | apply Alters.step (State.put_alters _ _ _) (by decide +kernel)
    | apply Alters.step (State.flag_alters _ _) (by decide +kernel) | apply Alters.ite | apply Alters.foldl
    | apply Alters.foldlFst | apply Alters.foldlSnd | intro _)

theorem execRingEnableWrite_alters (b : Bool) (s : State) {u : State}
    (e : execRingEnableWrite b s = .next u) : Alters [.regs, .modl, .ring, .tel, .bark, .tree, .job, .cells, .sess, .limbs, .stream, .host, .ras, .journal, .pendStep, .free, .sent] s u := by
  refine .ofNext e ?_
  repeat' (with_reducible first
    | apply Alters.refl | apply Alters.step (State.setF_alters _ _ _) (by decide +kernel)
    | apply Alters.step (State.raiseAbort_alters _ _ _ _ _ _) (by decide +kernel)
    | apply Alters.step (State.setRing_alters _ _) (by decide +kernel)
    | apply Alters.step (State.dropLock_alters _ _) (by decide +kernel) | apply Alters.ite)

theorem execRingSourceWrite_alters (b : Bool) (s : State) {u : State}
    (e : execRingSourceWrite b s = .next u) : Alters [.regs, .ring, .host, .sent] s u := by
  refine .ofNext e ?_
  repeat' (with_reducible first
    | apply Alters.refl | apply Alters.step (State.setF_alters _ _ _) (by decide +kernel)
    | apply Alters.step (State.setRing_alters _ _) (by decide +kernel)
    | apply Alters.step (State.dropLock_alters _ _) (by decide +kernel) | apply Alters.ite)

theorem execTimecodeFrame_alters (f : RingFrame) (s : State) {u : State}
    (e : execTimecodeFrame f s = .next u) : Alters [.regs, .modl, .ring, .tel, .bark, .tree, .job, .cells, .sess, .limbs, .stream, .host, .ras, .journal, .pendStep, .free, .sent] s u := by
  refine .ofNext e ?_
  repeat' (with_reducible first
    | apply Alters.refl | apply Alters.step (State.lockTo_alters _ _) (by decide +kernel)
    | apply Alters.step (State.missing_alters _ _) (by decide +kernel)
    | apply Alters.step (State.lockedFrame_alters _ _ _ _) (by decide +kernel)
    | apply Alters.step (State.holdFrame_alters _ _ _ _) (by decide +kernel)
    | apply Alters.step (State.noteFrame_alters _ _ _) (by decide +kernel)
    | apply Alters.step (State.setRing_alters _ _) (by decide +kernel)
    | apply Alters.step (State.acquireFrame_alters _ _ _) (by decide +kernel)
    | apply Alters.step (State.fireRoot_alters _ _ _ _) (by decide +kernel) | apply Alters.of2 (by assumption)
    | apply Alters.ite | dsimp only | split)

/-! ## BarkCore -/

theorem State.abandonM7_alters (s : State) :
    Alters [.regs, .bark] s (State.abandonM7 s) := by
  unfold State.abandonM7
  repeat' (with_reducible first
    | apply Alters.refl | apply Alters.step (State.setF_alters _ _ _) (by decide +kernel) | apply Alters.ite | dsimp only
    | split | refine Alters.update ?_)

theorem State.objectCount_alters (s : State) (ok : Bool) :
    Alters [.regs] s (State.objectCount s ok) := by
  unfold State.objectCount
  repeat' (with_reducible first
    | apply Alters.refl | apply Alters.step (State.inc_alters _ _ _) (by decide +kernel))

theorem State.security_alters (s : State) (code : Nat) (detail : Nat) (inj : Bool) :
    Alters [.regs, .modl, .tel, .bark, .tree, .job, .cells, .sess, .limbs, .stream, .host, .ras, .journal, .pendStep, .free, .sent] s (State.security s code detail inj) := by
  unfold State.security
  repeat' (with_reducible first
    | apply Alters.refl | apply Alters.step (State.raise_alters _ _ _ _ _ _ _) (by decide +kernel))

theorem State.sigForce_alters (s : State) :
    Alters [.regs, .tel, .bark, .host, .ras, .journal, .free, .sent] s (State.sigForce s).2.2 := by
  unfold State.sigForce
  repeat' (with_reducible first
    | apply Alters.refl | apply Alters.step (State.fireRoot_alters _ _ _ _) (by decide +kernel))

theorem State.random_alters (s : State) (n : Nat) :
    Alters [.bark] s (State.random s n).2 := by
  unfold State.random
  repeat' (with_reducible first
    | apply Alters.refl | dsimp only | refine Alters.update ?_)

theorem State.ecdhKey_alters (s : State) :
    Alters [.bark] s (State.ecdhKey s).2 := by
  unfold State.ecdhKey
  repeat' (with_reducible first
    | apply Alters.refl | apply Alters.step (State.random_alters _ _) (by decide +kernel))

theorem State.entropy_alters (s : State) :
    Alters [.regs, .tel, .bark, .host, .ras, .journal, .free, .sent] s (State.entropy s).2 := by
  unfold State.entropy
  repeat' (with_reducible first
    | apply Alters.refl | apply Alters.step (State.fireRoot_alters _ _ _ _) (by decide +kernel)
    | apply Alters.of2 (by assumption) | apply Alters.ite | dsimp only | split | refine Alters.update ?_)

theorem State.lmsSpent_alters (s : State) (report : Bool) :
    Alters [.regs, .modl, .tel, .bark, .tree, .job, .cells, .sess, .limbs, .stream, .host, .ras, .journal, .pendStep, .free, .sent] s (State.lmsSpent s report) := by
  unfold State.lmsSpent
  repeat' (with_reducible first
    | apply Alters.refl | apply Alters.step (State.security_alters _ _ _ _) (by decide +kernel) | apply Alters.ite
    | dsimp only | split | refine Alters.update ?_)

theorem State.setMeas_alters (s : State) (n : Nat) (v : List Byte) :
    Alters [.bark] s (State.setMeas s n v) := by
  unfold State.setMeas
  repeat' (with_reducible first
    | apply Alters.refl | dsimp only | refine Alters.update ?_)

theorem State.measureConfig_alters (s : State) :
    Alters [.bark] s (State.measureConfig s) := by
  unfold State.measureConfig
  repeat' (with_reducible first
    | apply Alters.refl | apply Alters.step (State.setMeas_alters _ _ _) (by decide +kernel))

theorem State.hwFault_alters (s : State) (r : Nat) (code : Nat) (inj : Bool) :
    Alters [.regs, .modl, .tel, .bark, .tree, .job, .cells, .sess, .limbs, .stream, .host, .ras, .journal, .pendStep, .free, .sent] s (State.hwFault s r code inj) := by
  unfold State.hwFault
  repeat' (with_reducible first
    | apply Alters.refl | apply Alters.step (State.raise_alters _ _ _ _ _ _ _) (by decide +kernel))

theorem State.setHwReg_alters (s : State) (r : Nat) (h : HwReg) :
    Alters [.hw] s (State.setHwReg s r h) := by
  unfold State.setHwReg
  repeat' (with_reducible first
    | apply Alters.refl | dsimp only | refine Alters.update ?_)

theorem State.slotFails_alters (s : State) (r : Nat) (k : Nat) (word : Nat) :
    Alters [.regs, .modl, .tel, .hw, .bark, .tree, .job, .cells, .sess, .limbs, .stream, .host, .ras, .journal, .pendStep, .free, .sent] s (State.slotFails s r k word) := by
  unfold State.slotFails
  repeat' (with_reducible first
    | apply Alters.refl | apply Alters.step (State.setHwReg_alters _ _ _) (by decide +kernel)
    | apply Alters.step (State.inc_alters _ _ _) (by decide +kernel)
    | apply Alters.step (State.hwFault_alters _ _ _ _) (by decide +kernel))

theorem State.slotHolds_alters (s : State) (r : Nat) (k : Nat) (value : Nat) (refresh : Bool) :
    Alters [.regs, .hw] s (State.slotHolds s r k value refresh) := by
  unfold State.slotHolds
  repeat' (with_reducible first
    | apply Alters.refl | apply Alters.step (State.setHwReg_alters _ _ _) (by decide +kernel)
    | apply Alters.step (State.inc_alters _ _ _) (by decide +kernel) | apply Alters.ite)

theorem State.wear_alters (s : State) (r : Nat) :
    Alters [.regs, .modl, .tel, .hw, .bark, .tree, .job, .cells, .sess, .limbs, .stream, .host, .ras, .journal, .pendStep, .free, .sent] s (State.wear s r) := by
  unfold State.wear
  repeat' (with_reducible first
    | apply Alters.refl | apply Alters.step (State.setHwReg_alters _ _ _) (by decide +kernel)
    | apply Alters.step (State.hwFault_alters _ _ _ _) (by decide +kernel) | apply Alters.ite)

theorem State.hwPersist_alters (s : State) (r : Nat) (value : Nat) (refresh : Bool) (first : Option Nat) (second : Option Nat) :
    Alters [.regs, .modl, .tel, .hw, .bark, .tree, .job, .cells, .sess, .limbs, .stream, .host, .ras, .journal, .pendStep, .free, .sent] s (State.hwPersist s r value refresh first second) := by
  unfold State.hwPersist
  repeat' (with_reducible first
    | apply Alters.refl | apply Alters.step (State.measureConfig_alters _) (by decide +kernel)
    | apply Alters.step (State.wear_alters _ _) (by decide +kernel)
    | apply Alters.step (State.inc_alters _ _ _) (by decide +kernel)
    | apply Alters.step (State.slotFails_alters _ _ _ _) (by decide +kernel)
    | apply Alters.step (State.slotHolds_alters _ _ _ _ _) (by decide +kernel) | apply Alters.ite | apply Alters.getDMap
    | apply Alters.getD | intro _ | dsimp only | split)

theorem State.hwWait_alters (s : State) (r : Nat) (value : Nat) :
    Alters [.regs, .modl, .tel, .hw, .bark, .tree, .job, .cells, .sess, .limbs, .stream, .host, .ras, .journal, .pendStep, .free, .sent] s (State.hwWait s r value) := by
  unfold State.hwWait
  repeat' (with_reducible first
    | apply Alters.refl | apply Alters.step (State.hwPersist_alters _ _ _ _ _ _) (by decide +kernel) | dsimp only
    | refine Alters.update ?_)

theorem State.lmsReserve_alters (s : State) :
    Alters [.regs, .modl, .tel, .hw, .bark, .tree, .job, .cells, .sess, .limbs, .stream, .host, .ras, .journal, .pendStep, .free, .sent] s (State.lmsReserve s) := by
  unfold State.lmsReserve
  repeat' (with_reducible first
    | apply Alters.refl | apply Alters.step (State.hwWait_alters _ _ _) (by decide +kernel)
    | apply Alters.step (State.inc_alters _ _ _) (by decide +kernel)
    | apply Alters.step (State.lmsSpent_alters _ _) (by decide +kernel) | apply Alters.ite | dsimp only | split
    | refine Alters.update ?_)

theorem State.signReady_alters (s : State) :
    Alters [.regs, .modl, .tel, .hw, .bark, .tree, .job, .cells, .sess, .limbs, .stream, .host, .ras, .journal, .pendStep, .free, .sent] s (State.signReady s) := by
  unfold State.signReady
  repeat' (with_reducible first
    | apply Alters.refl | apply Alters.step (State.lmsReserve_alters _) (by decide +kernel) | apply Alters.ite)

theorem State.sign_alters (s : State) (msg : List Byte) (chained : Bool) :
    Alters [.regs, .modl, .tel, .hw, .bark, .tree, .job, .cells, .sess, .limbs, .stream, .host, .ras, .journal, .pendStep, .free, .sent] s (State.sign s msg chained).2 := by
  unfold State.sign
  repeat' (with_reducible first
    | apply Alters.refl | apply Alters.step (State.signReady_alters _) (by decide +kernel)
    | apply Alters.step (State.random_alters _ _) (by decide +kernel)
    | apply Alters.step (State.inc_alters _ _ _) (by decide +kernel)
    | apply Alters.step (State.lmsSpent_alters _ _) (by decide +kernel) | apply Alters.of2 (by assumption)
    | apply Alters.ite | apply Alters.getDMap | apply Alters.getD | intro _ | dsimp only | split
    | refine Alters.update ?_)

theorem State.advanceCounter_alters (s : State) (n : Nat) (svn : Nat) :
    Alters [.regs, .hw] s (State.advanceCounter s n svn) := by
  unfold State.advanceCounter
  repeat' (with_reducible first
    | apply Alters.refl | apply Alters.step (State.hwWrite_alters _ _ _ _) (by decide +kernel) | apply Alters.ite)

theorem State.measure_alters (s : State) (n : Nat) (digest : List Byte) :
    Alters [.bark] s (State.measure s n digest) := by
  unfold State.measure
  repeat' (with_reducible first
    | apply Alters.refl | dsimp only | refine Alters.update ?_)

theorem State.endGrant_alters (s : State) (mark : Bool) :
    Alters [.bark, .ras] s (State.endGrant s mark) := by
  unfold State.endGrant
  repeat' (with_reducible first
    | apply Alters.refl | apply Alters.step (State.measure_alters _ _ _) (by decide +kernel) | apply Alters.ite
    | dsimp only | split | refine Alters.update ?_)

/-! ## SapExec -/

theorem State.takeTap_alters (s : State) (t : Nat) (net : Net) (n : Nat) :
    Alters [.taps] s (State.takeTap s t net n) := by
  unfold State.takeTap
  repeat' (with_reducible first
    | apply Alters.refl | apply Alters.step (State.setTap_alters _ _ _) (by decide +kernel))

theorem State.authFail_alters (s : State) (i : Nat) (check : Nat) :
    Alters [.regs, .modl, .tel, .bark, .tree, .job, .cells, .sess, .limbs, .stream, .sessCmd, .host, .ras, .journal, .pendStep, .free, .sent] s (State.authFail s i check) := by
  unfold State.authFail
  repeat' (with_reducible first
    | apply Alters.refl | apply Alters.step (State.cmdDone_alters _ _ _) (by decide +kernel)
    | apply Alters.step (State.closeSes_alters _ _ _) (by decide +kernel)
    | apply Alters.step (State.peerFault_alters _ _ _ _ _ _) (by decide +kernel))

theorem State.checkHandshake_alters (s : State) (before : List Byte) (m : List Byte) (store : Bool) :
    Alters [.regs, .modl, .tel, .bark, .tree, .job, .cells, .sess, .limbs, .stream, .host, .ras, .journal, .pendStep, .free, .sent] s (State.checkHandshake s before m store).2 := by
  unfold State.checkHandshake
  repeat' (with_reducible first
    | apply Alters.refl | apply Alters.step (State.security_alters _ _ _ _) (by decide +kernel)
    | apply Alters.step (State.objectCount_alters _ _) (by decide +kernel)
    | apply Alters.step (State.sigForce_alters _) (by decide +kernel) | apply Alters.of22 (by assumption)
    | apply Alters.ite)

theorem State.handshakeMsg_alters (s : State) (before : List Byte) (point : List Byte) (kem : List Byte) :
    Alters [.regs, .modl, .tel, .hw, .bark, .tree, .job, .cells, .sess, .limbs, .stream, .host, .ras, .journal, .pendStep, .free, .sent] s (State.handshakeMsg s before point kem).2 := by
  unfold State.handshakeMsg
  repeat' (with_reducible first
    | apply Alters.refl | apply Alters.step (State.sign_alters _ _ _) (by decide +kernel)
    | apply Alters.step (State.random_alters _ _) (by decide +kernel))

theorem State.sendHandshake_alters (s : State) (port : Nat) (half : Bool) (mac : Nat) (op : Nat) (index : Nat) (remote : Nat) (epoch : Nat) (msg : List Byte) :
    Alters [.sent] s (State.sendHandshake s port half mac op index remote epoch msg) := by
  unfold State.sendHandshake
  repeat' (with_reducible first
    | apply Alters.refl | apply Alters.step (State.send_alters _ _) (by decide +kernel) | apply Alters.foldl
    | apply Alters.foldlFst | apply Alters.foldlSnd | intro _)

theorem State.accept_alters (s : State) (i : Nat) (port : Nat) (half : Bool) (mac : Nat) (index : Nat) (opn : List Byte) :
    Alters [.regs, .modl, .tel, .hw, .bark, .tree, .job, .cells, .sess, .limbs, .stream, .sessCmd, .host, .ras, .journal, .pendStep, .free, .sent] s (State.accept s i port half mac index opn) := by
  unfold State.accept
  repeat' (with_reducible first
    | apply Alters.refl | apply Alters.step (State.authFail_alters _ _ _) (by decide +kernel)
    | apply Alters.step (State.random_alters _ _) (by decide +kernel)
    | apply Alters.step (State.entropy_alters _) (by decide +kernel)
    | apply Alters.step (State.sesTo_alters _ _ _) (by decide +kernel)
    | apply Alters.step (State.handshakeMsg_alters _ _ _ _) (by decide +kernel)
    | apply Alters.step (State.ecdhKey_alters _) (by decide +kernel)
    | apply Alters.step (State.opened_alters _ _ _ _) (by decide +kernel)
    | apply Alters.step (State.checkHandshake_alters _ _ _ _) (by decide +kernel)
    | apply Alters.step (State.sendHandshake_alters _ _ _ _ _ _ _ _ _) (by decide +kernel)
    | apply Alters.step (State.objectCount_alters _ _) (by decide +kernel)
    | apply Alters.step (State.modSes_alters _ _ _) (by decide +kernel) | apply Alters.of2 (by assumption)
    | apply Alters.ite | apply Alters.getDMap | apply Alters.getD | intro _ | dsimp only | split)

theorem State.aloneEgress_alters (s : State) (t : Nat) (h : VHead) (a : AddrFlit) (count : Nat) :
    Alters [.taps, .limbs] s (State.aloneEgress s t h a count) := by
  unfold State.aloneEgress
  repeat' (with_reducible first
    | apply Alters.refl | apply Alters.step (State.answerCredit_alters _ _ _ _ _ _ _) (by decide +kernel)
    | apply Alters.step (State.addPend_alters _ _ _ (by assumption)) (by decide +kernel) | apply Alters.ite
    | apply Alters.getDMap | apply Alters.getD | intro _)

theorem State.refusedReq_alters (s : State) (i : Nat) (r : PendReq) (reason : Nat) (inj : Bool) :
    Alters [.regs, .modl, .tel, .bark, .tree, .job, .cells, .taps, .sess, .limbs, .stream, .host, .ras, .journal, .pendStep, .free, .sent] s (State.refusedReq s i r reason inj) := by
  unfold State.refusedReq
  repeat' (with_reducible first
    | apply Alters.refl | apply Alters.step (State.inc_alters _ _ _) (by decide +kernel)
    | apply Alters.step (State.refuseResult_alters _ _ _) (by decide +kernel)
    | apply Alters.step (State.refusedFault_alters _ _ _ _) (by decide +kernel))

theorem State.request_alters (s : State) (k : Nat) (r : PendReq) {u : State}
    (e : s.request k r = some u) : Alters [.regs, .modl, .tel, .bark, .tree, .job, .cells, .taps, .sess, .limbs, .stream, .host, .ras, .journal, .pendStep, .free, .sent] s u := by
  unfold State.request at e
  have h1 : Alters [.regs, .modl, .tel, .bark, .tree, .job, .cells, .taps, .sess, .limbs, .stream, .host, .ras, .journal, .pendStep, .free, .sent] s (if r.cls = 0 then s.fireEdge r.session 24 else (none, s)).2 := by
    split
    · exact .step (State.fireEdge_alters _ _ _) (by decide +kernel) (.refl _ _)
    · exact .refl _ _
  revert e h1
  generalize (if r.cls = 0 then s.fireEdge r.session 24 else (none, s)) = p
  intro e h1
  dsimp only at e
  split at e
  · cases e; exact .step (State.refusedReq_alters _ _ _ _ _) (by decide +kernel) h1
  · split at e
    · simp only [Option.map_eq_some_iff] at e
      obtain ⟨q, hq, rfl⟩ := e
      exact .step (State.sendPend_alters _ _ _ _) (by decide +kernel)
        (.step (State.addPend_alters _ _ _ hq) (by decide +kernel) h1)
    · cases e

theorem State.badTap_alters (s : State) (t : Nat) :
    Alters [.regs, .modl, .tel, .bark, .tree, .job, .cells, .sess, .limbs, .stream, .host, .ras, .journal, .pendStep, .free, .sent] s (State.badTap s t) := by
  unfold State.badTap
  repeat' (with_reducible first
    | apply Alters.refl | apply Alters.step (State.raise_alters _ _ _ _ _ _ _) (by decide +kernel))

theorem State.beginClose_alters (s : State) (i : Nat) :
    Alters [.regs, .sess, .host, .sent] s (State.beginClose s i) := by
  unfold State.beginClose
  repeat' (with_reducible first
    | apply Alters.refl | apply Alters.step (State.sesTo_alters _ _ _) (by decide +kernel)
    | apply Alters.step (State.modSes_alters _ _ _) (by decide +kernel) | apply Alters.ite)

theorem State.egress_alters (s : State) (t : Nat) (us : List NetUnit) (h : VHead) :
    Alters [.regs, .modl, .tel, .bark, .tree, .job, .cells, .taps, .sess, .limbs, .stream, .host, .ras, .journal, .pendStep, .free, .sent] s (State.egress s t us h) := by
  unfold State.egress
  repeat' (with_reducible first
    | apply Alters.refl | apply Alters.step (State.takeTap_alters _ _ _ _) (by decide +kernel)
    | apply Alters.step (State.aloneEgress_alters _ _ _ _ _) (by decide +kernel)
    | apply Alters.step (State.queueFrame_alters _ _ _) (by decide +kernel)
    | apply Alters.step (State.request_alters _ _ _ (by assumption)) (by decide +kernel)
    | apply Alters.step (State.badTap_alters _ _) (by decide +kernel)
    | apply Alters.step (State.modSes_alters _ _ _) (by decide +kernel) | apply Alters.ite | dsimp only | split)

theorem State.respond_alters (s : State) (i : Nat) (typ : Nat) (cls : Nat) (due : Option Nat) (fields : List Byte) (data : List Byte) :
    Alters [.regs, .sess] s (State.respond s i typ cls due fields data) := by
  unfold State.respond
  repeat' (with_reducible first
    | apply Alters.refl | apply Alters.step (State.queueReq_alters _ _ _ _ _) (by decide +kernel)
    | apply Alters.step (State.inc_alters _ _ _) (by decide +kernel) | apply Alters.ite)

theorem State.egressS_alters (s : State) (t : Nat) (us : List NetUnit) :
    Alters [.regs, .modl, .tel, .bark, .tree, .job, .cells, .taps, .sess, .limbs, .stream, .host, .ras, .journal, .pendStep, .free, .sent] s (State.egressS s t us) := by
  unfold State.egressS
  repeat' (with_reducible first
    | apply Alters.refl | apply Alters.step (State.dropPend_alters _ _ _) (by decide +kernel)
    | apply Alters.step (State.takeTap_alters _ _ _ _) (by decide +kernel)
    | apply Alters.step (State.setLimb_alters _ _ _) (by decide +kernel)
    | apply Alters.step (State.queueFrame_alters _ _ _) (by decide +kernel)
    | apply Alters.step (State.respond_alters _ _ _ _ _ _ _) (by decide +kernel)
    | apply Alters.step (State.badTap_alters _ _) (by decide +kernel) | apply Alters.ite | apply Alters.getDMap
    | apply Alters.getD | intro _ | dsimp only | split)

theorem State.notServed_alters (s : State) (i : Nat) (k : Nat) (r : PendReq) (f : Frame) :
    Alters [.regs, .modl, .tel, .bark, .tree, .job, .cells, .taps, .sess, .limbs, .stream, .host, .ras, .journal, .pendStep, .free, .sent] s (State.notServed s i k r f) := by
  unfold State.notServed
  repeat' (with_reducible first
    | apply Alters.refl | apply Alters.step (State.dropPend_alters _ _ _) (by decide +kernel)
    | apply Alters.step (State.modPend_alters _ _ _ _) (by decide +kernel)
    | apply Alters.step (State.inc_alters _ _ _) (by decide +kernel)
    | apply Alters.step (State.refuseResult_alters _ _ _) (by decide +kernel)
    | apply Alters.step (State.refusedFault_alters _ _ _ _) (by decide +kernel) | apply Alters.ite)

theorem State.placeWrite_alters (s : State) (i : Nat) (f : Frame) :
    Alters [.regs, .modl, .tel, .bark, .tree, .job, .cells, .taps, .sess, .limbs, .stream, .host, .ras, .journal, .pendStep, .free, .sent] s (State.placeWrite s i f) := by
  unfold State.placeWrite
  repeat' (with_reducible first
    | apply Alters.refl | apply Alters.step (State.setLimb_alters _ _ _) (by decide +kernel)
    | apply Alters.step (State.fromTap_alters _ _ _ _ _) (by decide +kernel)
    | apply Alters.step (State.peerFault_alters _ _ _ _ _ _) (by decide +kernel) | apply Alters.ite)

theorem State.putCmd_alters (s : State) (w : Word64) :
    Alters [.regs] s (State.putCmd s w) := by
  unfold State.putCmd
  repeat' (with_reducible first
    | apply Alters.refl | apply Alters.step (State.put_alters _ _ _) (by decide +kernel) | apply Alters.foldl
    | apply Alters.foldlFst | apply Alters.foldlSnd | intro _)

theorem State.readBack_alters (s : State) (t : Nat) (us : List NetUnit) (h : VHead) :
    Alters [.regs, .taps, .sess, .limbs] s (State.readBack s t us h) := by
  unfold State.readBack
  repeat' (with_reducible first
    | apply Alters.refl | apply Alters.step (State.dropPend_alters _ _ _) (by decide +kernel)
    | apply Alters.step (State.modPend_alters _ _ _ _) (by decide +kernel)
    | apply Alters.step (State.takeTap_alters _ _ _ _) (by decide +kernel)
    | apply Alters.step (State.respond_alters _ _ _ _ _ _ _) (by decide +kernel) | apply Alters.ite | apply Alters.getDMap
    | apply Alters.getD | intro _ | dsimp only | split)

theorem State.refuseOpen_alters (s : State) (port : Nat) (half : Bool) (mac : Nat) (remote : Nat) :
    Alters [.sent] s (State.refuseOpen s port half mac remote) := by
  unfold State.refuseOpen
  repeat' (with_reducible first
    | apply Alters.refl | apply Alters.step (State.send_alters _ _) (by decide +kernel))

theorem State.result_alters (s : State) (r : Nat) :
    Alters [.sessCmd] s (State.result s r) := by
  unfold State.result
  repeat' (with_reducible first
    | apply Alters.refl | dsimp only | refine Alters.update ?_)

theorem State.serve_alters (s : State) (i : Nat) (f : Frame) (units : Nat) (words : Nat → Nat × Nat → List Nat) :
    Alters [.regs, .modl, .tel, .bark, .tree, .job, .cells, .taps, .sess, .limbs, .stream, .host, .ras, .journal, .pendStep, .free, .sent] s (State.serve s i f units words) := by
  unfold State.serve
  repeat' (with_reducible first
    | apply Alters.refl | apply Alters.step (State.fromTap_alters _ _ _ _ _) (by decide +kernel)
    | apply Alters.step (State.peerFault_alters _ _ _ _ _ _) (by decide +kernel)
    | apply Alters.step (State.respond_alters _ _ _ _ _ _ _) (by decide +kernel)
    | apply Alters.step (State.addPend_alters _ _ _ (by assumption)) (by decide +kernel) | apply Alters.ite | dsimp only
    | split)

theorem State.takeAnswer_alters (s : State) (i op : Nat) {u : State} {b : ShakeIn}
    (e : s.takeAnswer i op = some (b, u)) : Alters [.shakes] s u := by
  unfold State.takeAnswer at e
  dsimp only at e
  split at e
  · cases e
  · exact State.takeShake_alters _ _ e

theorem State.takeInbox_alters (s : State) (i : Nat) (want : Frame → Bool) {u : State} {b : Frame}
    (e : s.takeInbox i want = some (b, u)) : Alters [.sess] s u := by
  unfold State.takeInbox at e
  split at e
  · split at e
    · cases e; exact .step (State.modSes_alters _ _ _) (by decide +kernel) (.refl _ _)
    · cases e
  · cases e

theorem execClosingDone_alters (i : Nat) (s : State) {u : State}
    (e : execClosingDone i s = .next u) : Alters [.regs, .sess, .limbs, .host, .sent] s u := by
  refine .ofNext e ?_
  repeat' (with_reducible first
    | apply Alters.refl | apply Alters.step (State.closeSes_alters _ _ _) (by decide +kernel)
    | apply Alters.step (State.sendNow_alters _ _ _) (by decide +kernel) | apply Alters.ite)

theorem execControlClose_alters (i : Nat) (s : State) {u : State}
    (e : execControlClose i s = .next u) : Alters [.regs, .sess, .limbs, .host, .sent] s u := by
  refine .ofNext e ?_
  repeat' (with_reducible first
    | apply Alters.refl | apply Alters.step (State.beginClose_alters _ _) (by decide +kernel)
    | apply Alters.step (State.sendNow_alters _ _ _) (by decide +kernel)
    | apply Alters.step (State.takeInbox_alters _ _ _ (by assumption)) (by decide +kernel) | apply Alters.ite
    | apply Alters.getDMap | apply Alters.getD | intro _ | dsimp only | split)

theorem execControlEpoch_alters (i : Nat) (s : State) {u : State}
    (e : execControlEpoch i s = .next u) : Alters [.regs, .modl, .tel, .bark, .tree, .job, .cells, .taps, .sess, .limbs, .stream, .host, .ras, .journal, .pendStep, .free, .sent] s u := by
  refine .ofNext e ?_
  repeat' (with_reducible first
    | apply Alters.refl | apply Alters.step (State.advanceEpoch_alters _ _) (by decide +kernel)
    | apply Alters.step (State.sendNow_alters _ _ _) (by decide +kernel)
    | apply Alters.step (State.takeInbox_alters _ _ _ (by assumption)) (by decide +kernel)
    | apply Alters.step (State.completeLocal_alters _ _ _ _) (by decide +kernel) | apply Alters.ite | dsimp only | split)

theorem execControlOpen_alters (port : Nat) (half : Bool) (s : State) {u : State}
    (e : execControlOpen port half s = .next u) : Alters [.regs, .modl, .tel, .hw, .bark, .tree, .job, .cells, .sess, .shakes, .limbs, .stream, .sessCmd, .host, .ras, .journal, .pendStep, .free, .sent] s u := by
  refine .ofNext e ?_
  repeat' (with_reducible first
    | apply Alters.refl | apply Alters.step (State.refuseOpen_alters _ _ _ _ _) (by decide +kernel)
    | apply Alters.step (State.takeShake_alters _ _ (by assumption)) (by decide +kernel)
    | apply Alters.step (State.accept_alters _ _ _ _ _ _ _) (by decide +kernel) | apply Alters.ite | dsimp only | split)

theorem execCreditReceive_alters (i : Nat) (s : State) {u : State}
    (e : execCreditReceive i s = .next u) : Alters [.regs, .modl, .tel, .bark, .tree, .job, .cells, .taps, .sess, .limbs, .stream, .host, .ras, .journal, .pendStep, .free, .sent] s u := by
  refine .ofNext e ?_
  repeat' (with_reducible first
    | apply Alters.refl | apply Alters.step (State.dropFrame_alters _ _) (by decide +kernel)
    | apply Alters.step (State.serve_alters _ _ _ _ _) (by decide +kernel)
    | apply Alters.step (State.takeInbox_alters _ _ _ (by assumption)) (by decide +kernel) | apply Alters.ite | dsimp only
    | split)

theorem execEpochAck_alters (i : Nat) (s : State) {u : State}
    (e : execEpochAck i s = .next u) : Alters [.regs, .sess, .stream] s u := by
  refine .ofNext e ?_
  repeat' (with_reducible first
    | apply Alters.refl | apply Alters.step (State.advanceEpoch_alters _ _) (by decide +kernel)
    | apply Alters.step (State.takeInbox_alters _ _ _ (by assumption)) (by decide +kernel) | apply Alters.ite | dsimp only
    | split)

theorem execGraceExpiry_alters (i : Nat) (s : State) {u : State}
    (e : execGraceExpiry i s = .next u) : Alters [.sess] s u := by
  refine .ofNext e ?_
  repeat' (with_reducible first
    | apply Alters.refl | apply Alters.step (State.modSes_alters _ _ _) (by decide +kernel) | apply Alters.ite
    | dsimp only | split)

theorem execHandshakeTimeout_alters (i : Nat) (s : State) {u : State}
    (e : execHandshakeTimeout i s = .next u) : Alters [.regs, .sess, .sessCmd, .host, .sent] s u := by
  refine .ofNext e ?_
  repeat' (with_reducible first
    | apply Alters.refl | apply Alters.step (State.cmdDone_alters _ _ _) (by decide +kernel)
    | apply Alters.step (State.closeSes_alters _ _ _) (by decide +kernel) | apply Alters.ite)

theorem execHoldExpiry_alters (i : Nat) (s : State) {u : State}
    (e : execHoldExpiry i s = .next u) : Alters [.regs, .modl, .tel, .bark, .tree, .job, .cells, .taps, .sess, .limbs, .stream, .host, .ras, .journal, .pendStep, .free, .sent] s u := by
  refine .ofNext e ?_
  repeat' (with_reducible first
    | apply Alters.refl | apply Alters.step (State.loseSes_alters _ _ _ _ _) (by decide +kernel) | apply Alters.ite)

theorem execKeepalive_alters (i : Nat) (s : State) {u : State}
    (e : execKeepalive i s = .next u) : Alters [.sess] s u := by
  refine .ofNext e ?_
  repeat' (with_reducible first
    | apply Alters.refl | apply Alters.step (State.queueFrame_alters _ _ _) (by decide +kernel) | apply Alters.ite)

theorem execNoticeReceive_alters (i : Nat) (s : State) {u : State}
    (e : execNoticeReceive i s = .next u) : Alters [.regs, .cells, .sess] s u := by
  refine .ofNext e ?_
  repeat' (with_reducible first
    | apply Alters.refl | apply Alters.step (State.setCell_alters _ _ _ _) (by decide +kernel)
    | apply Alters.step (State.dropFrame_alters _ _) (by decide +kernel)
    | apply Alters.step (State.takeInbox_alters _ _ _ (by assumption)) (by decide +kernel) | apply Alters.ite | dsimp only
    | split)

theorem execOpenAck_alters (i : Nat) (s : State) {u : State}
    (e : execOpenAck i s = .next u) : Alters [.regs, .modl, .tel, .bark, .tree, .job, .cells, .sess, .shakes, .limbs, .stream, .sessCmd, .host, .ras, .journal, .pendStep, .free, .sent] s u := by
  refine .ofNext e ?_
  repeat' (with_reducible first
    | apply Alters.refl | apply Alters.step (State.authFail_alters _ _ _) (by decide +kernel)
    | apply Alters.step (State.opened_alters _ _ _ _) (by decide +kernel)
    | apply Alters.step (State.checkHandshake_alters _ _ _ _) (by decide +kernel)
    | apply Alters.step (State.takeAnswer_alters _ _ _ (by assumption)) (by decide +kernel)
    | apply Alters.step (State.modSes_alters _ _ _) (by decide +kernel) | apply Alters.of2 (by assumption)
    | apply Alters.getDMap | apply Alters.getD | intro _ | dsimp only | split)

theorem execOpenRefuse_alters (i : Nat) (s : State) {u : State}
    (e : execOpenRefuse i s = .next u) : Alters [.regs, .sess, .shakes, .sessCmd, .host, .sent] s u := by
  refine .ofNext e ?_
  repeat' (with_reducible first
    | apply Alters.refl | apply Alters.step (State.cmdDone_alters _ _ _) (by decide +kernel)
    | apply Alters.step (State.closeSes_alters _ _ _) (by decide +kernel)
    | apply Alters.step (State.takeAnswer_alters _ _ _ (by assumption)) (by decide +kernel) | dsimp only | split)

theorem execReadReceive_alters (i : Nat) (s : State) {u : State}
    (e : execReadReceive i s = .next u) : Alters [.regs, .modl, .tel, .bark, .tree, .job, .cells, .taps, .sess, .limbs, .stream, .host, .ras, .journal, .pendStep, .free, .sent] s u := by
  refine .ofNext e ?_
  repeat' (with_reducible first
    | apply Alters.refl | apply Alters.step (State.dropFrame_alters _ _) (by decide +kernel)
    | apply Alters.step (State.serve_alters _ _ _ _ _) (by decide +kernel)
    | apply Alters.step (State.takeInbox_alters _ _ _ (by assumption)) (by decide +kernel) | apply Alters.ite | dsimp only
    | split)

theorem execResponseReceive_alters (i : Nat) (s : State) {u : State}
    (e : execResponseReceive i s = .next u) : Alters [.regs, .modl, .tel, .bark, .tree, .job, .cells, .taps, .sess, .limbs, .stream, .host, .ras, .journal, .pendStep, .free, .sent] s u := by
  refine .ofNext e ?_
  repeat' (with_reducible first
    | apply Alters.refl | apply Alters.step (State.dropFrame_alters _ _) (by decide +kernel)
    | apply Alters.step (State.dropPend_alters _ _ _) (by decide +kernel)
    | apply Alters.step (State.answerCredit_alters _ _ _ _ _ _ _) (by decide +kernel)
    | apply Alters.step (State.takeInbox_alters _ _ _ (by assumption)) (by decide +kernel)
    | apply Alters.step (State.notServed_alters _ _ _ _ _) (by decide +kernel)
    | apply Alters.step (State.answerRead_alters _ _ _ _ _) (by decide +kernel) | apply Alters.ite | dsimp only | split)

theorem execSapClrCounters_alters (s : State) {u : State}
    (e : execSapClrCounters s = .next u) : Alters [.regs] s u := by
  refine .ofNext e ?_
  repeat' (with_reducible first
    | apply Alters.refl | apply Alters.step (State.clearArr_alters _ _ _) (by decide +kernel))

theorem execSapConfigWrite_alters (w : Word64) (s : State) {u : State}
    (e : execSapConfigWrite w s = .next u) : Alters [.regs] s u := by
  refine .ofNext e ?_
  repeat' (with_reducible first
    | apply Alters.refl | apply Alters.step (State.put_alters _ _ _) (by decide +kernel)
    | apply Alters.step (State.flag_alters _ _) (by decide +kernel) | apply Alters.ite | apply Alters.foldl
    | apply Alters.foldlFst | apply Alters.foldlSnd | intro _)

theorem execSapEgress_alters (tap : Nat) (net : Net) (s : State) {u : State}
    (e : execSapEgress tap net s = .next u) : Alters [.regs, .modl, .tel, .bark, .tree, .job, .cells, .taps, .sess, .limbs, .stream, .host, .ras, .journal, .pendStep, .free, .sent] s u := by
  refine .ofNext e ?_
  repeat' (with_reducible first
    | apply Alters.refl | apply Alters.step (State.egress_alters _ _ _ _) (by decide +kernel)
    | apply Alters.step (State.egressS_alters _ _ _) (by decide +kernel)
    | apply Alters.step (State.readBack_alters _ _ _ _) (by decide +kernel) | apply Alters.ite | dsimp only | split)

theorem execSessionClose_alters (w : Word64) (s : State) {u : State}
    (e : execSessionClose w s = .next u) : Alters [.regs, .sess, .sessCmd, .host, .sent] s u := by
  refine .ofNext e ?_
  repeat' (with_reducible first
    | apply Alters.refl | apply Alters.step (State.beginClose_alters _ _) (by decide +kernel)
    | apply Alters.step (State.result_alters _ _) (by decide +kernel)
    | apply Alters.step (State.putCmd_alters _ _) (by decide +kernel) | apply Alters.ite | dsimp only | split
    | refine Alters.update ?_)

theorem execSessionListen_alters (w : Word64) (s : State) {u : State}
    (e : execSessionListen w s = .next u) : Alters [.regs, .sess, .sessCmd, .host, .sent] s u := by
  refine .ofNext e ?_
  repeat' (with_reducible first
    | apply Alters.refl | apply Alters.step (State.sesTo_alters _ _ _) (by decide +kernel)
    | apply Alters.step (State.result_alters _ _) (by decide +kernel)
    | apply Alters.step (State.putCmd_alters _ _) (by decide +kernel)
    | apply Alters.step (State.modSes_alters _ _ _) (by decide +kernel) | apply Alters.ite | dsimp only | split
    | refine Alters.update ?_)

theorem execSessionOpen_alters (w : Word64) (s : State) {u : State}
    (e : execSessionOpen w s = .next u) : Alters [.regs, .modl, .tel, .hw, .bark, .tree, .job, .cells, .sess, .limbs, .stream, .sessCmd, .host, .ras, .journal, .pendStep, .free, .sent] s u := by
  refine .ofNext e ?_
  repeat' (with_reducible first
    | apply Alters.refl | apply Alters.step (State.random_alters _ _) (by decide +kernel)
    | apply Alters.step (State.entropy_alters _) (by decide +kernel)
    | apply Alters.step (State.sesTo_alters _ _ _) (by decide +kernel)
    | apply Alters.step (State.handshakeMsg_alters _ _ _ _) (by decide +kernel)
    | apply Alters.step (State.ecdhKey_alters _) (by decide +kernel)
    | apply Alters.step (State.result_alters _ _) (by decide +kernel)
    | apply Alters.step (State.sendHandshake_alters _ _ _ _ _ _ _ _ _) (by decide +kernel)
    | apply Alters.step (State.putCmd_alters _ _) (by decide +kernel)
    | apply Alters.step (State.modSes_alters _ _ _) (by decide +kernel) | apply Alters.of2 (by assumption)
    | apply Alters.ite | dsimp only | split | refine Alters.update ?_)

theorem execSyncReceive_alters (i : Nat) (s : State) {u : State}
    (e : execSyncReceive i s = .next u) : Alters [.regs, .modl, .tel, .bark, .tree, .job, .cells, .sess, .limbs, .stream, .host, .ras, .journal, .pendStep, .free, .sent] s u := by
  refine .ofNext e ?_
  repeat' (with_reducible first
    | apply Alters.refl | apply Alters.step (State.dropFrame_alters _ _) (by decide +kernel)
    | apply Alters.step (State.peerFault_alters _ _ _ _ _ _) (by decide +kernel)
    | apply Alters.step (State.takeInbox_alters _ _ _ (by assumption)) (by decide +kernel)
    | apply Alters.step (State.inc_alters _ _ _) (by decide +kernel) | apply Alters.ite | dsimp only | split)

theorem execWriteReceive_alters (i : Nat) (s : State) {u : State}
    (e : execWriteReceive i s = .next u) : Alters [.regs, .modl, .tel, .bark, .tree, .job, .cells, .taps, .sess, .limbs, .stream, .host, .ras, .journal, .pendStep, .free, .sent] s u := by
  refine .ofNext e ?_
  repeat' (with_reducible first
    | apply Alters.refl | apply Alters.step (State.takeInbox_alters _ _ _ (by assumption)) (by decide +kernel)
    | apply Alters.step (State.placeWrite_alters _ _ _) (by decide +kernel) | dsimp only | split)

end Sys2Proof.Machine
end

