-- ==== Sys2Proof/Laws/FramesStream.lean ====
section
/-!
SUPPORT. What each operation can change, one lemma each: grafts and the stream unit.
-/
namespace Sys2Proof.Machine

set_option Elab.async false

/-! ## GraftExec -/

theorem State.bindTaps_alters (s : State) (old : State) (g : Graft) :
    Alters [.regs, .taps, .ports, .host, .sent] s (State.bindTaps s old g) := by
  unfold State.bindTaps
  repeat' (with_reducible first
    | apply Alters.refl | apply Alters.step (State.setPort_alters _ _ _) (by decide +kernel)
    | apply Alters.step (State.setTap_alters _ _ _) (by decide +kernel)
    | apply Alters.step (State.linkTo_alters _ _ _ _) (by decide +kernel) | apply Alters.of1 (by assumption)
    | apply Alters.of2 (by assumption) | apply Alters.ite | apply Alters.foldl | apply Alters.foldlFst
    | apply Alters.foldlSnd | intro _)

theorem State.clearShadow_alters (s : State) :
    Alters [.cells] s (State.clearShadow s) := by
  unfold State.clearShadow
  repeat' (with_reducible first
    | apply Alters.refl | dsimp only | refine Alters.update ?_)

theorem State.setGraft_alters (s : State) (f : GraftUnit → GraftUnit) :
    Alters [.graft] s (State.setGraft s f) := by
  unfold State.setGraft
  repeat' (with_reducible first
    | apply Alters.refl | dsimp only | refine Alters.update ?_)

theorem State.flushed_alters (s : State) (drops : List (Nat × Nat × Nat × Nat)) :
    Alters [.regs, .modl, .tel, .bark, .tree, .graft, .job, .cells, .sess, .limbs, .stream, .host, .ras, .journal, .pendStep, .free, .sent] s (State.flushed s drops) := by
  unfold State.flushed
  repeat' (with_reducible first
    | apply Alters.refl | apply Alters.step (State.setGraft_alters _ _) (by decide +kernel)
    | apply Alters.step (State.raise_alters _ _ _ _ _ _ _) (by decide +kernel) | apply Alters.of1 (by assumption)
    | apply Alters.of2 (by assumption) | apply Alters.foldl | apply Alters.foldlFst | apply Alters.foldlSnd | intro _
    | dsimp only | split)

theorem State.graftError_alters (s : State) (code : Nat) (check : Nat) (sec : Nat) (rec : Nat) :
    Alters [.regs] s (State.graftError s code check sec rec) := by
  unfold State.graftError
  repeat' (with_reducible first
    | apply Alters.refl | apply Alters.step (State.setF_alters _ _ _) (by decide +kernel))

theorem State.graftFlag_alters (s : State) (F : Fld) :
    Alters [.regs, .host, .sent] s (State.graftFlag s F) := by
  unfold State.graftFlag
  repeat' (with_reducible first
    | apply Alters.refl | apply Alters.step (State.flag_alters _ _) (by decide +kernel)
    | apply Alters.step (State.event_alters _ _) (by decide +kernel))

theorem State.raiseNoJob_alters (s : State) (fc : FaultCode) (src : Src) (detail : Nat) (inj : Bool) :
    Alters [.regs, .modl, .tel, .bark, .tree, .job, .cells, .sess, .limbs, .stream, .host, .ras, .journal, .pendStep, .free, .sent] s (State.raiseNoJob s fc src detail inj) := by
  unfold State.raiseNoJob
  repeat' (with_reducible first
    | apply Alters.refl | apply Alters.step (State.raise_alters _ _ _ _ _ _ _) (by decide +kernel) | dsimp only
    | refine Alters.update ?_)

theorem State.stage_alters (s : State) (mib : Nat) :
    Alters [.limbs] s (State.stage s mib) := by
  unfold State.stage
  repeat' (with_reducible first
    | apply Alters.refl | apply Alters.step (State.setLimb_alters _ _ _) (by decide +kernel) | apply Alters.foldl
    | apply Alters.foldlFst | apply Alters.foldlSnd | intro _)

theorem State.loadFails_alters (s : State) (check : Nat) (sec : Nat) (rec : Nat) (inj : Bool) :
    Alters [.regs, .modl, .tel, .bark, .tree, .graft, .job, .cells, .sess, .limbs, .stream, .host, .ras, .journal, .pendStep, .free, .sent] s (State.loadFails s check sec rec inj) := by
  unfold State.loadFails
  repeat' (with_reducible first
    | apply Alters.refl | apply Alters.step (State.graftError_alters _ _ _ _ _) (by decide +kernel)
    | apply Alters.step (State.stage_alters _ _) (by decide +kernel)
    | apply Alters.step (State.setGraft_alters _ _) (by decide +kernel)
    | apply Alters.step (State.inc_alters _ _ _) (by decide +kernel)
    | apply Alters.step (State.raiseNoJob_alters _ _ _ _ _) (by decide +kernel)
    | apply Alters.step (State.graftFlag_alters _ _) (by decide +kernel))

theorem State.loadBeat_alters (s : State) (t : Nat) (b : LoadBeat) :
    Alters [.cells] s (State.loadBeat s t b) := by
  unfold State.loadBeat
  repeat' (with_reducible first
    | apply Alters.refl | apply Alters.step (State.setCell_alters _ _ _ _) (by decide +kernel)
    | apply Alters.of1 (by assumption) | apply Alters.of2 (by assumption) | apply Alters.ite | apply Alters.foldl
    | apply Alters.foldlFst | apply Alters.foldlSnd | intro _)

theorem State.swapFails_alters (s : State) (code : Nat) :
    Alters [.regs, .modl, .tel, .bark, .tree, .graft, .job, .cells, .sess, .limbs, .stream, .host, .ras, .journal, .pendStep, .free, .sent] s (State.swapFails s code) := by
  unfold State.swapFails
  repeat' (with_reducible first
    | apply Alters.refl | apply Alters.step (State.graftError_alters _ _ _ _ _) (by decide +kernel)
    | apply Alters.step (State.setGraft_alters _ _) (by decide +kernel)
    | apply Alters.step (State.raise_alters _ _ _ _ _ _ _) (by decide +kernel)
    | apply Alters.step (State.inc_alters _ _ _) (by decide +kernel)
    | apply Alters.step (State.graftFlag_alters _ _) (by decide +kernel))

theorem State.refreshAll_alters (s : State) :
    Alters [.cells] s (State.refreshAll s) := by
  unfold State.refreshAll
  repeat' (with_reducible first
    | apply Alters.refl | apply Alters.step (State.refreshCell_alters _ _ _) (by decide +kernel) | apply Alters.foldl
    | apply Alters.foldlFst | apply Alters.foldlSnd | intro _)

theorem State.swapNow_alters (s : State) :
    Alters [.regs, .modl, .clk, .power, .tel, .bark, .tree, .graft, .job, .cells, .taps, .ports, .sess, .limbs, .stream, .host, .ras, .journal, .pendStep, .free, .sent] s (State.swapNow s) := by
  unfold State.swapNow
  repeat' (with_reducible first
    | apply Alters.refl | apply Alters.step (State.regate_alters _) (by decide +kernel)
    | apply Alters.step (State.setGraft_alters _ _) (by decide +kernel)
    | apply Alters.step (State.inc_alters _ _ _) (by decide +kernel)
    | apply Alters.step (State.bindTaps_alters _ _ _) (by decide +kernel)
    | apply Alters.step (State.flushed_alters _ _) (by decide +kernel)
    | apply Alters.step (State.measure_alters _ _ _) (by decide +kernel)
    | apply Alters.step (State.refreshAll_alters _) (by decide +kernel) | apply Alters.of1 (by assumption)
    | apply Alters.of2 (by assumption) | apply Alters.ite | apply Alters.foldl | apply Alters.foldlFst
    | apply Alters.foldlSnd | intro _ | dsimp only | split | refine Alters.update ?_)

theorem execAbortLoad_alters (s : State) {u : State}
    (e : execAbortLoad s = .next u) : Alters [.graft, .cells, .limbs] s u := by
  refine .ofNext e ?_
  repeat' (with_reducible first
    | apply Alters.refl | apply Alters.step (State.stage_alters _ _) (by decide +kernel)
    | apply Alters.step (State.setGraft_alters _ _) (by decide +kernel)
    | apply Alters.step (State.clearShadow_alters _) (by decide +kernel) | apply Alters.ite)

theorem execBroadcastDone_alters (late : Bool) (s : State) {u : State}
    (e : execBroadcastDone late s = .next u) : Alters [.regs, .modl, .tel, .bark, .tree, .graft, .job, .cells, .sess, .limbs, .stream, .host, .ras, .journal, .pendStep, .free, .sent] s u := by
  refine .ofNext e ?_
  repeat' (with_reducible first
    | apply Alters.refl | apply Alters.step (State.swapFails_alters _ _) (by decide +kernel)
    | apply Alters.step (State.stage_alters _ _) (by decide +kernel)
    | apply Alters.step (State.setGraft_alters _ _) (by decide +kernel)
    | apply Alters.step (State.inc_alters _ _ _) (by decide +kernel)
    | apply Alters.step (State.graftFlag_alters _ _) (by decide +kernel) | apply Alters.ite | dsimp only | split)

theorem execGraftClrCounters_alters (s : State) {u : State}
    (e : execGraftClrCounters s = .next u) : Alters [.regs] s u := by
  refine .ofNext e ?_
  repeat' (with_reducible first
    | apply Alters.refl | apply Alters.step (State.clearArr_alters _ _ _) (by decide +kernel))

theorem execGraftLoad_alters (s : State) {u : State}
    (e : execGraftLoad s = .next u) : Alters [.regs, .graft, .limbs, .host, .sent] s u := by
  refine .ofNext e ?_
  repeat' (with_reducible first
    | apply Alters.refl | apply Alters.step (State.stage_alters _ _) (by decide +kernel)
    | apply Alters.step (State.setGraft_alters _ _) (by decide +kernel)
    | apply Alters.step (State.graftFlag_alters _ _) (by decide +kernel) | apply Alters.ite)

theorem execLoaderWrite_alters (tap : Nat) (s : State) {u : State}
    (e : execLoaderWrite tap s = .next u) : Alters [.regs, .modl, .power, .tel, .bark, .tree, .graft, .job, .cells, .sess, .limbs, .stream, .host, .ras, .journal, .pendStep, .free, .sent] s u := by
  refine .ofNext e ?_
  repeat' (with_reducible first
    | apply Alters.refl | apply Alters.step (State.setDomain_alters _ _ _) (by decide +kernel)
    | apply Alters.step (State.loadBeat_alters _ _ _) (by decide +kernel)
    | apply Alters.step (State.loadFails_alters _ _ _ _ _) (by decide +kernel)
    | apply Alters.step (State.setGraft_alters _ _) (by decide +kernel)
    | apply Alters.step (State.inc_alters _ _ _) (by decide +kernel) | apply Alters.ite | dsimp only | split)

theorem execStagingDone_alters (bytes : List Byte) (s : State) {u : State}
    (e : execStagingDone bytes s = .next u) : Alters [.graft] s u := by
  refine .ofNext e ?_
  repeat' (with_reducible first
    | apply Alters.refl | apply Alters.step (State.setGraft_alters _ _) (by decide +kernel) | apply Alters.ite)

theorem execStagingReadError_alters (s : State) {u : State}
    (e : execStagingReadError s = .next u) : Alters [.regs, .modl, .tel, .bark, .tree, .graft, .job, .cells, .sess, .limbs, .stream, .host, .ras, .journal, .pendStep, .free, .sent] s u := by
  refine .ofNext e ?_
  repeat' (with_reducible first
    | apply Alters.refl | apply Alters.step (State.loadFails_alters _ _ _ _ _) (by decide +kernel) | apply Alters.ite)

theorem execSwap_alters (s : State) {u : State}
    (e : execSwap s = .next u) : Alters [.regs, .modl, .clk, .power, .tel, .bark, .tree, .graft, .job, .cells, .taps, .ports, .sess, .limbs, .stream, .host, .ras, .journal, .pendStep, .free, .sent] s u := by
  refine .ofNext e ?_
  repeat' (with_reducible first
    | apply Alters.refl | apply Alters.step (State.swapFails_alters _ _) (by decide +kernel)
    | apply Alters.step (State.swapNow_alters _) (by decide +kernel) | apply Alters.ite | dsimp only | split)

theorem execVerifyDone_alters (s : State) {u : State}
    (e : execVerifyDone s = .next u) : Alters [.regs, .modl, .tel, .bark, .tree, .graft, .job, .cells, .sess, .limbs, .stream, .host, .ras, .journal, .pendStep, .free, .sent] s u := by
  refine .ofNext e ?_
  repeat' (with_reducible first
    | apply Alters.refl | apply Alters.step (State.setF_alters _ _ _) (by decide +kernel)
    | apply Alters.step (State.loadFails_alters _ _ _ _ _) (by decide +kernel)
    | apply Alters.step (State.setGraft_alters _ _) (by decide +kernel)
    | apply Alters.step (State.clearShadow_alters _) (by decide +kernel)
    | apply Alters.step (State.raiseNoJob_alters _ _ _ _ _) (by decide +kernel)
    | apply Alters.step (State.fireRoot_alters _ _ _ _) (by decide +kernel)
    | apply Alters.step (State.objectCount_alters _ _) (by decide +kernel)
    | apply Alters.step (State.sigForce_alters _) (by decide +kernel) | apply Alters.of2 (by assumption)
    | apply Alters.of22 (by assumption) | apply Alters.ite | apply Alters.getDMap | apply Alters.getD | intro _
    | dsimp only | split)

/-! ## StreamExec -/

theorem State.ckptEnds_alters (s : State) :
    Alters [.job] s (State.ckptEnds s) := by
  unfold State.ckptEnds
  repeat' (with_reducible first
    | apply Alters.refl | dsimp only | split | refine Alters.update ?_)

theorem State.abandonCkpt_alters (s : State) :
    Alters [.regs, .tree, .job, .sess, .limbs, .stream, .host, .sent] s (State.abandonCkpt s) := by
  unfold State.abandonCkpt
  repeat' (with_reducible first
    | apply Alters.refl | apply Alters.step (State.ckptEnds_alters _) (by decide +kernel)
    | apply Alters.step (State.syncStores_alters _ _ _) (by decide +kernel)
    | apply Alters.step (State.incHi_alters _ _ _) (by decide +kernel) | dsimp only | split)

theorem State.absorb_alters (a0 : Nat) (a1 : State) (a2 : Nat) :
    Alters [.taps, .limbs] a1 (State.absorb a0 a1 a2) := by
  induction a0 generalizing a1 a2 with
  | zero => exact .refl _ _
  | succ n ih =>
    unfold State.absorb
    repeat' (with_reducible first
      | apply Alters.refl | apply Alters.step (ih _ _) (by decide +kernel) | apply Alters.step (State.modPend_alters _ _ _ _) (by decide +kernel)
      | apply Alters.step (State.takeTap_alters _ _ _ _) (by decide +kernel) | apply Alters.ite | dsimp only | split)

theorem State.askRun_alters (s : State) (k : Nat) (tag : Nat) (run : Nat × Nat × Nat) :
    Alters [.regs, .modl, .tel, .bark, .tree, .job, .cells, .taps, .sess, .limbs, .stream, .host, .ras, .journal, .pendStep, .free, .sent] s (State.askRun s k tag run) := by
  unfold State.askRun
  repeat' (with_reducible first
    | apply Alters.refl | apply Alters.step (State.setChunks_alters _ _ _ _ _ _) (by decide +kernel)
    | apply Alters.step (State.request_alters _ _ _ (by assumption)) (by decide +kernel) | dsimp only | split)

theorem State.chunkFails_alters (s : State) (i : Nat) (code : Nat) (inj : Bool) :
    Alters [.regs, .modl, .tel, .bark, .tree, .job, .cells, .sess, .limbs, .stream, .host, .ras, .journal, .pendStep, .free, .sent] s (State.chunkFails s i code inj) := by
  unfold State.chunkFails
  repeat' (with_reducible first
    | apply Alters.refl | apply Alters.step (State.raise_alters _ _ _ _ _ _ _) (by decide +kernel)
    | apply Alters.step (State.inc_alters _ _ _) (by decide +kernel))

theorem State.pend_alters (s : State) (c : Nat) (v : Nat) :
    Alters [.tree] s (State.pend s c v) := by
  unfold State.pend
  repeat' (with_reducible first
    | apply Alters.refl | dsimp only | refine Alters.update ?_)

theorem State.readTree_alters (s : State) (r : PendReq) (t : Nat) :
    Alters [.regs, .modl, .tel, .bark, .tree, .job, .cells, .taps, .sess, .limbs, .stream, .host, .ras, .journal, .pendStep, .free, .sent] s (State.readTree s r t) := by
  unfold State.readTree
  repeat' (with_reducible first
    | apply Alters.refl | apply Alters.step (State.peerFault_alters _ _ _ _ _ _) (by decide +kernel)
    | apply Alters.step (State.request_alters _ _ _ (by assumption)) (by decide +kernel)
    | apply Alters.step (State.failTree_alters _ _) (by decide +kernel) | apply Alters.ite | apply Alters.getDMap
    | apply Alters.getD | intro _ | dsimp only | split)

theorem State.sendWrite_alters (s : State) (k i group cls addr v : Nat) (due : Option Nat) (data : List Byte) {u : State}
    (e : s.sendWrite k i group cls addr v due data = some u) : Alters [.regs, .modl, .tel, .bark, .tree, .job, .cells, .taps, .sess, .limbs, .stream, .host, .ras, .journal, .pendStep, .free, .sent] s u := by
  unfold State.sendWrite at e
  dsimp only at e
  simp only [Option.map_eq_some_iff] at e
  obtain ⟨q, hq, rfl⟩ := e
  exact .step (State.setWrites_alters _ _) (by decide +kernel) (.step (State.request_alters _ _ _ hq) (by decide +kernel) (.refl _ _))

theorem State.ckptWrite_alters (s : State) (c : Ckpt) (n : Nat) (data : List Byte) :
    Alters [.regs, .modl, .tel, .bark, .tree, .job, .cells, .taps, .sess, .limbs, .stream, .host, .ras, .journal, .pendStep, .free, .sent] s (State.ckptWrite s c n data) := by
  unfold State.ckptWrite
  repeat' (with_reducible first
    | apply Alters.refl | apply Alters.step (State.readTree_alters _ _ _) (by decide +kernel)
    | apply Alters.step (State.sendWrite_alters _ _ _ _ _ _ _ _ _ (by assumption)) (by decide +kernel)
    | apply Alters.step (State.pend_alters _ _ _) (by decide +kernel) | apply Alters.getDMap | apply Alters.getD | intro _
    | dsimp only | split)

theorem State.hostChunk_alters (s : State) (limb : Nat) (r : PendReq) :
    Alters [.regs, .modl, .tel, .bark, .tree, .job, .cells, .sess, .limbs, .stream, .host, .ras, .journal, .pendStep, .free, .sent] s (State.hostChunk s limb r) := by
  unfold State.hostChunk
  repeat' (with_reducible first
    | apply Alters.refl | apply Alters.step (State.dropPend_alters _ _ _) (by decide +kernel)
    | apply Alters.step (State.syncStores_alters _ _ _) (by decide +kernel)
    | apply Alters.step (State.hostBlock_alters _ _ _ _ _) (by decide +kernel)
    | apply Alters.step (State.raise_alters _ _ _ _ _ _ _) (by decide +kernel) | apply Alters.ite)

theorem State.tryChunk_alters (s : State) (k : Nat) (tag : Nat) (n : Nat) :
    Alters [.regs, .modl, .tel, .bark, .tree, .job, .cells, .taps, .sess, .limbs, .stream, .host, .ras, .journal, .pendStep, .free, .sent] s (State.tryChunk s k tag n).1 := by
  unfold State.tryChunk
  repeat' (with_reducible first
    | apply Alters.refl | apply Alters.step (State.setChunks_alters _ _ _ _ _ _) (by decide +kernel)
    | apply Alters.step (State.recoveryFault_alters _ _ _) (by decide +kernel)
    | apply Alters.step (State.readTree_alters _ _ _) (by decide +kernel)
    | apply Alters.step (State.setLimb_alters _ _ _) (by decide +kernel)
    | apply Alters.step (State.inc_alters _ _ _) (by decide +kernel)
    | apply Alters.step (State.chunkFails_alters _ _ _ _) (by decide +kernel)
    | apply Alters.step (State.badTap_alters _ _) (by decide +kernel) | apply Alters.ite | dsimp only | split
    | refine Alters.update ?_)

theorem State.issue_alters (s : State) (k : Nat) (tag : Nat) :
    Alters [.regs, .modl, .tel, .bark, .tree, .job, .cells, .taps, .sess, .limbs, .stream, .host, .ras, .journal, .pendStep, .free, .sent] s (State.issue s k tag) := by
  unfold State.issue
  repeat' (with_reducible first
    | apply Alters.refl | apply Alters.step (State.askRun_alters _ _ _ _) (by decide +kernel)
    | apply Alters.step (State.tryChunk_alters _ _ _ _) (by decide +kernel) | apply Alters.of1 (by assumption)
    | apply Alters.of2 (by assumption) | apply Alters.foldl | apply Alters.foldlFst | apply Alters.foldlSnd | intro _
    | dsimp only | split)

theorem State.writeTree_alters (s : State) (group : Nat) :
    Alters [.regs, .modl, .tel, .bark, .tree, .job, .cells, .taps, .sess, .limbs, .stream, .host, .ras, .journal, .pendStep, .free, .sent] s (State.writeTree s group) := by
  unfold State.writeTree
  repeat' (with_reducible first
    | apply Alters.refl | apply Alters.step (State.peerFault_alters _ _ _ _ _ _) (by decide +kernel)
    | apply Alters.step (State.inc_alters _ _ _) (by decide +kernel)
    | apply Alters.step (State.request_alters _ _ _ (by assumption)) (by decide +kernel)
    | apply Alters.step (State.setWrites_alters _ _) (by decide +kernel) | apply Alters.of1 (by assumption)
    | apply Alters.of2 (by assumption) | apply Alters.ite | apply Alters.foldl | apply Alters.foldlFst
    | apply Alters.foldlSnd | apply Alters.getDMap | apply Alters.getD | intro _ | dsimp only | split)

theorem State.retry_alters (s : State) :
    Alters [.regs, .modl, .tel, .bark, .tree, .job, .cells, .taps, .sess, .limbs, .stream, .host, .ras, .journal, .pendStep, .free, .sent] s (State.retry s) := by
  unfold State.retry
  repeat' (with_reducible first
    | apply Alters.refl | apply Alters.step (State.issue_alters _ _ _) (by decide +kernel) | apply Alters.foldl
    | apply Alters.foldlFst | apply Alters.foldlSnd | intro _)

theorem State.streamRead_alters {ps : List Part} {s0 s s1 : State} {t : Nat} {a : StreamFlit} {base : Nat}
    (hs : Part.sub [.regs, .modl, .tel, .bark, .tree, .job, .cells, .taps, .sess, .limbs, .stream, .host, .ras, .journal, .pendStep, .free, .sent] ps = true) (h : Alters ps s0 s) (h1 : Alters ps s0 s1) : Alters ps s0 (s.streamRead s1 t a base) := by
  unfold State.streamRead
  dsimp only
  split
  · rename_i e
    exact .step (State.issue_alters _ _ _) (Part.sub_trans (by decide +kernel) hs)
      (.step (State.addPend_alters _ _ _ e) (Part.sub_trans (by decide +kernel) hs) h1)
  · exact h

theorem State.streamWrite_alters {ps : List Part} {s0 s s1 : State} {t : Nat} {a : StreamFlit} {base : Nat}
    (hs : Part.sub [.regs, .modl, .tel, .bark, .tree, .job, .cells, .taps, .sess, .limbs, .stream, .host, .ras, .journal, .pendStep, .free, .sent] ps = true) (h : Alters ps s0 s) (h1 : Alters ps s0 s1) : Alters ps s0 (s.streamWrite s1 t a base) := by
  unfold State.streamWrite
  dsimp only
  refine .ite (.step (State.inc_alters _ _ _) (Part.sub_trans (by decide +kernel) hs) h1) (.ite h1 ?_)
  split
  · exact .step (State.badTap_alters _ _) (Part.sub_trans (by decide +kernel) hs) h1
  · split
    · exact h
    · rename_i e
      exact .step (State.fromTap_alters _ _ _ _ _) (Part.sub_trans (by decide +kernel) hs)
        (.step (State.addPend_alters _ _ _ e) (Part.sub_trans (by decide +kernel) hs) h1)

theorem State.takeChunk_alters (s : State) (i : Nat) (k : Nat) (r : PendReq) (f : Frame) :
    Alters [.regs, .modl, .tel, .bark, .tree, .job, .cells, .taps, .sess, .limbs, .stream, .host, .ras, .journal, .pendStep, .free, .sent] s (State.takeChunk s i k r f) := by
  unfold State.takeChunk
  repeat' (with_reducible first
    | apply Alters.refl | apply Alters.step (State.setChunks_alters _ _ _ _ _ _) (by decide +kernel)
    | apply Alters.step (State.dropPend_alters _ _ _) (by decide +kernel)
    | apply Alters.step (State.modPend_alters _ _ _ _) (by decide +kernel)
    | apply Alters.step (State.setLimb_alters _ _ _) (by decide +kernel)
    | apply Alters.step (State.fireEdge_alters _ _ _) (by decide +kernel)
    | apply Alters.step (State.record_alters _ _ _ _) (by decide +kernel)
    | apply Alters.step (State.inc_alters _ _ _) (by decide +kernel)
    | apply Alters.step (State.chunkFails_alters _ _ _ _) (by decide +kernel) | apply Alters.of2 (by assumption)
    | apply Alters.ite | dsimp only | split)

theorem State.takeTree_alters (s : State) (t : Nat) (data : List Byte) :
    Alters [.regs, .tree] s (State.takeTree s t data) := by
  unfold State.takeTree
  repeat' (with_reducible first
    | apply Alters.refl | apply Alters.step (State.inc_alters _ _ _) (by decide +kernel)
    | apply Alters.of1 (by assumption) | apply Alters.of2 (by assumption) | apply Alters.foldl | apply Alters.foldlFst
    | apply Alters.foldlSnd | intro _ | dsimp only | split | refine Alters.update ?_)

theorem State.unpin_alters (s : State) (k : Nat) (addr : Nat) (v : Nat) :
    Alters [.limbs] s (State.unpin s k addr v) := by
  unfold State.unpin
  repeat' (with_reducible first
    | apply Alters.refl | apply Alters.step (State.setLimb_alters _ _ _) (by decide +kernel))

theorem State.writeServed_alters (s : State) (k : Nat) (r : PendReq) :
    Alters [.regs, .modl, .tel, .bark, .tree, .job, .cells, .taps, .sess, .limbs, .stream, .host, .ras, .journal, .pendStep, .free, .sent] s (State.writeServed s k r) := by
  unfold State.writeServed
  repeat' (with_reducible first
    | apply Alters.refl | apply Alters.step (State.dropPend_alters _ _ _) (by decide +kernel)
    | apply Alters.step (State.ckptEnds_alters _) (by decide +kernel)
    | apply Alters.step (State.retry_alters _) (by decide +kernel)
    | apply Alters.step (State.syncStores_alters _ _ _) (by decide +kernel)
    | apply Alters.step (State.unpin_alters _ _ _ _) (by decide +kernel)
    | apply Alters.step (State.inc_alters _ _ _) (by decide +kernel)
    | apply Alters.step (State.setWrites_alters _ _) (by decide +kernel) | apply Alters.ite | dsimp only | split
    | refine Alters.update ?_)

theorem execCacheUnpin_alters (limb : Nat) (addr : Nat) (s : State) {u : State}
    (e : execCacheUnpin limb addr s = .next u) : Alters [.regs, .modl, .tel, .bark, .tree, .job, .cells, .taps, .sess, .limbs, .stream, .host, .ras, .journal, .pendStep, .free, .sent] s u := by
  refine .ofNext e ?_
  repeat' (with_reducible first
    | apply Alters.refl | apply Alters.step (State.retry_alters _) (by decide +kernel)
    | apply Alters.step (State.unpin_alters _ _ _ _) (by decide +kernel) | dsimp only | split)

theorem execCheckpointWrite_alters (s : State) {u : State} (e : execCheckpointWrite s = .next u) : Alters [.regs, .modl, .tel, .bark, .tree, .job, .cells, .taps, .sess, .limbs, .stream, .host, .ras, .journal, .pendStep, .free, .sent] s u := by
  refine .ofNext e ?_
  split
  · exact .refl _ _
  · dsimp only
    refine .ite (.step (State.abandonCkpt_alters _) (by decide +kernel) (.step (State.raise_alters _ _ _ _ _ _ _) (by decide +kernel) (.refl _ _))) ?_
    refine .ite (.step (State.abandonCkpt_alters _) (by decide +kernel) (.step (State.raise_alters _ _ _ _ _ _ _) (by decide +kernel) (.refl _ _))) ?_
    refine .ite (.refl _ _) (.ite ?_ (.ite ?_ (.refl _ _)))
    · generalize hf : List.foldl _ _ _ = t
      have h : Alters [.regs, .modl, .tel, .bark, .tree, .job, .cells, .taps, .sess, .limbs, .stream, .host, .ras, .journal, .pendStep, .free, .sent] s t := by
        rw [← hf]
        exact .foldl (fun _ _ => .ite (.refl _ _) (.step (State.ckptWrite_alters _ _ _ _) (by decide +kernel) (.refl _ _))) _ (.refl _ _)
      exact .setJob _ (by decide +kernel) h
    · refine .ite ?_ (.step (State.ckptWrite_alters _ _ _ _) (by decide +kernel) (.refl _ _))
      exact .setJob _ (by decide +kernel) (.step (State.writeTree_alters _ _) (by decide +kernel)
        (.step (State.ckptWrite_alters _ _ _ _) (by decide +kernel) (.refl _ _)))

theorem execDeferredReissue_alters (limb : Nat) (tag : Nat) (s : State) {u : State}
    (e : execDeferredReissue limb tag s = .next u) : Alters [.sess, .limbs] s u := by
  refine .ofNext e ?_
  repeat' (with_reducible first
    | apply Alters.refl | apply Alters.step (State.modPend_alters _ _ _ _) (by decide +kernel)
    | apply Alters.step (State.sendPend_alters _ _ _ _) (by decide +kernel) | apply Alters.ite | dsimp only | split)

theorem execRootAdvance_alters (s : State) {u : State}
    (e : execRootAdvance s = .next u) : Alters [.regs, .modl, .tel, .bark, .tree, .job, .cells, .taps, .sess, .limbs, .stream, .host, .ras, .journal, .pendStep, .free, .sent] s u := by
  refine .ofNext e ?_
  repeat' (with_reducible first
    | apply Alters.refl | apply Alters.step (State.retry_alters _) (by decide +kernel)
    | apply Alters.step (State.syncStores_alters _ _ _) (by decide +kernel)
    | apply Alters.step (State.inc_alters _ _ _) (by decide +kernel) | apply Alters.ite | dsimp only | split
    | refine Alters.update ?_)

theorem execStreamClrCounters_alters (s : State) {u : State}
    (e : execStreamClrCounters s = .next u) : Alters [.regs] s u := by
  refine .ofNext e ?_
  repeat' (with_reducible first
    | apply Alters.refl | apply Alters.step (State.clearArr_alters _ _ _) (by decide +kernel))

theorem execStreamDataReceive_alters (i : Nat) (s : State) {u : State}
    (e : execStreamDataReceive i s = .next u) : Alters [.regs, .modl, .tel, .bark, .tree, .job, .cells, .taps, .sess, .limbs, .stream, .host, .ras, .journal, .pendStep, .free, .sent] s u := by
  refine .ofNext e ?_
  repeat' (with_reducible first
    | apply Alters.refl | apply Alters.step (State.dropFrame_alters _ _) (by decide +kernel)
    | apply Alters.step (State.dropPend_alters _ _ _) (by decide +kernel)
    | apply Alters.step (State.retry_alters _) (by decide +kernel)
    | apply Alters.step (State.fireEdge_alters _ _ _) (by decide +kernel)
    | apply Alters.step (State.takeInbox_alters _ _ _ (by assumption)) (by decide +kernel)
    | apply Alters.step (State.raise_alters _ _ _ _ _ _ _) (by decide +kernel)
    | apply Alters.step (State.takeChunk_alters _ _ _ _ _) (by decide +kernel)
    | apply Alters.step (State.failTree_alters _ _) (by decide +kernel)
    | apply Alters.step (State.takeTree_alters _ _ _) (by decide +kernel) | apply Alters.of2 (by assumption)
    | apply Alters.ite | dsimp only | split)

theorem execStreamExtentWrite_alters (w : Word64) (s : State) {u : State}
    (e : execStreamExtentWrite w s = .next u) : Alters [.regs, .tree, .host, .sent] s u := by
  refine .ofNext e ?_
  repeat' (with_reducible first
    | apply Alters.refl | apply Alters.step (State.setF_alters _ _ _) (by decide +kernel)
    | apply Alters.step (State.flag_alters _ _) (by decide +kernel)
    | apply Alters.step (State.event_alters _ _) (by decide +kernel) | apply Alters.ite | dsimp only | split
    | refine Alters.update ?_)

theorem execStreamFlush_alters (s : State) {u : State}
    (e : execStreamFlush s = .next u) : Alters [.limbs] s u := by
  refine .ofNext e ?_
  repeat' (with_reducible first
    | apply Alters.refl | apply Alters.ite | dsimp only | split | refine Alters.update ?_)

theorem execStreamRequest_alters (tap : Nat) (s : State) {u : State}
    (e : execStreamRequest tap s = .next u) : Alters [.regs, .modl, .tel, .bark, .tree, .job, .cells, .taps, .sess, .limbs, .stream, .host, .ras, .journal, .pendStep, .free, .sent] s u := by
  refine .ofNext e ?_
  repeat' (with_reducible first
    | apply Alters.refl | assumption | apply Alters.step (State.absorb_alters _ _ _) (by decide +kernel)
    | apply Alters.step (State.takeTap_alters _ _ _ _) (by decide +kernel)
    | apply Alters.step (State.badTap_alters _ _) (by decide +kernel) | apply State.streamRead_alters (by decide +kernel)
    | apply State.streamWrite_alters (by decide +kernel) | apply Alters.ite | intro _ | dsimp only | split)

theorem execStreamResponse_alters (i : Nat) (s : State) {u : State}
    (e : execStreamResponse i s = .next u) : Alters [.regs, .modl, .tel, .bark, .tree, .job, .cells, .taps, .sess, .limbs, .stream, .host, .ras, .journal, .pendStep, .free, .sent] s u := by
  refine .ofNext e ?_
  repeat' (with_reducible first
    | apply Alters.refl | apply Alters.step (State.dropFrame_alters _ _) (by decide +kernel)
    | apply Alters.step (State.dropPend_alters _ _ _) (by decide +kernel)
    | apply Alters.step (State.writeServed_alters _ _ _) (by decide +kernel)
    | apply Alters.step (State.syncStores_alters _ _ _) (by decide +kernel)
    | apply Alters.step (State.takeInbox_alters _ _ _ (by assumption)) (by decide +kernel)
    | apply Alters.step (State.notServed_alters _ _ _ _ _) (by decide +kernel)
    | apply Alters.step (State.inc_alters _ _ _) (by decide +kernel) | apply Alters.ite | dsimp only | split
    | refine Alters.update ?_)

theorem execStreamWrite_alters (limb : Nat) (s : State) {u : State}
    (e : execStreamWrite limb s = .next u) : Alters [.regs, .modl, .tel, .bark, .tree, .job, .cells, .taps, .sess, .limbs, .stream, .host, .ras, .journal, .pendStep, .free, .sent] s u := by
  refine .ofNext e ?_
  repeat' (with_reducible first
    | apply Alters.refl | apply Alters.step (State.dropPend_alters _ _ _) (by decide +kernel)
    | apply Alters.step (State.absorb_alters _ _ _) (by decide +kernel)
    | apply Alters.step (State.readTree_alters _ _ _) (by decide +kernel)
    | apply Alters.step (State.setLimb_alters _ _ _) (by decide +kernel)
    | apply Alters.step (State.syncStores_alters _ _ _) (by decide +kernel)
    | apply Alters.step (State.sendWrite_alters _ _ _ _ _ _ _ _ _ (by assumption)) (by decide +kernel)
    | apply Alters.step (State.hostChunk_alters _ _ _) (by decide +kernel)
    | apply Alters.step (State.raise_alters _ _ _ _ _ _ _) (by decide +kernel)
    | apply Alters.step (State.refusedFault_alters _ _ _ _) (by decide +kernel)
    | apply Alters.step (State.pend_alters _ _ _) (by decide +kernel) | apply Alters.of1 (by assumption)
    | apply Alters.of2 (by assumption) | apply Alters.ite | apply Alters.foldl | apply Alters.foldlFst
    | apply Alters.foldlSnd | intro _ | dsimp only | split | refine Alters.update ?_)

theorem execTreeWrite_alters (s : State) {u : State}
    (e : execTreeWrite s = .next u) : Alters [.regs, .modl, .tel, .bark, .tree, .job, .cells, .taps, .sess, .limbs, .stream, .host, .ras, .journal, .pendStep, .free, .sent] s u := by
  refine .ofNext e ?_
  repeat' (with_reducible first
    | apply Alters.refl | apply Alters.step (State.writeTree_alters _ _) (by decide +kernel)
    | apply Alters.step (State.setWrites_alters _ _) (by decide +kernel) | apply Alters.ite | dsimp only | split
    | refine Alters.update ?_)

end Sys2Proof.Machine
end

