-- ==== Sys2Proof/Laws/FramesPower.lean ====
section
/-!
SUPPORT. What each operation can change, one lemma each: resets, clocks, the host port, power, thermal control and the management port.
-/
namespace Sys2Proof.Machine

set_option Elab.async false

/-! ## Reset -/

theorem State.epochAll_alters (s : State) (cause : Nat) (inj : Bool) :
    Alters [.regs, .modl, .tel, .bark, .tree, .job, .cells, .taps, .sess, .limbs, .stream, .host, .ras, .journal, .pendStep, .free, .sent] s (State.epochAll s cause inj) := by
  unfold State.epochAll
  repeat' (with_reducible first
    | apply Alters.refl | apply Alters.step (State.epochReset_alters _ _ _ _) (by decide +kernel) | apply Alters.foldl
    | apply Alters.foldlFst | apply Alters.foldlSnd | intro _)

theorem State.dieReset_alters (s : State) (d : Nat) (inj : Bool) :
    Alters [.regs, .modl, .tel, .bark, .tree, .job, .cells, .taps, .sess, .limbs, .stream, .host, .ras, .journal, .pendStep, .free, .sent] s (State.dieReset s d inj) := by
  unfold State.dieReset
  repeat' (with_reducible first
    | apply Alters.refl | apply Alters.step (State.epochAll_alters _ _ _) (by decide +kernel)
    | apply Alters.step (State.inc_alters _ _ _) (by decide +kernel) | apply Alters.ite | dsimp only | split
    | refine Alters.update ?_)

theorem State.engineReset_alters (s : State) : Alters [.regs, .modl, .boot, .ring, .clk, .power, .thermal, .tel, .hw, .bark, .tree, .graft, .job, .cells, .taps, .ports, .sess, .limbs, .stream, .sessCmd, .host, .ras, .journal, .pendRing, .pendStep, .sent] s s.engineReset := by
  unfold State.engineReset
  dsimp only
  have h : Alters [.regs, .modl, .boot, .ring, .clk, .power, .thermal, .tel, .hw, .bark, .tree, .graft, .job, .cells, .taps, .ports, .sess, .limbs, .stream, .sessCmd, .host, .ras, .journal, .pendRing, .pendStep, .sent] s
      (((s.clearArr SAP_DIE_EPOCH_EPOCH 60).clearFs [INJ_COUNT_FIRED, BURL_STATUS_LAST_BAND]).dropLock .unlocked) :=
    .step (State.dropLock_alters _ _) (by decide +kernel) (.step (State.clearFs_alters _ _) (by decide +kernel)
      (.step (State.clearArr_alters _ _ _) (by decide +kernel) (.refl _ _)))
  revert h
  generalize (((s.clearArr SAP_DIE_EPOCH_EPOCH 60).clearFs [INJ_COUNT_FIRED, BURL_STATUS_LAST_BAND]).dropLock .unlocked) = t
  intro h
  exact .step (State.settleFaultN_alters _) (by decide +kernel) (.update h)

theorem State.hostReset_alters (s : State) (linkStays : Bool) :
    Alters [.regs, .modl, .tel, .bark, .tree, .graft, .job, .cells, .sess, .limbs, .stream, .host, .ras, .journal, .pendStep, .free, .sent] s (State.hostReset s linkStays) := by
  unfold State.hostReset
  repeat' (with_reducible first
    | apply Alters.refl | apply Alters.step (State.loadFails_alters _ _ _ _ _) (by decide +kernel)
    | apply Alters.step (State.inc_alters _ _ _) (by decide +kernel) | apply Alters.ite | dsimp only | split
    | refine Alters.update ?_)

theorem State.limbReset_alters (s : State) (k : Nat) (inj : Bool) :
    Alters [.regs, .modl, .tel, .bark, .tree, .job, .cells, .taps, .ports, .sess, .limbs, .stream, .host, .ras, .journal, .pendStep, .free, .sent] s (State.limbReset s k inj) := by
  unfold State.limbReset
  repeat' (with_reducible first
    | apply Alters.refl | apply Alters.step (State.setLimb_alters _ _ _) (by decide +kernel)
    | apply Alters.step (State.setTap_alters _ _ _) (by decide +kernel)
    | apply Alters.step (State.epochAll_alters _ _ _) (by decide +kernel)
    | apply Alters.step (State.inc_alters _ _ _) (by decide +kernel)
    | apply Alters.step (State.linkTo_alters _ _ _ _) (by decide +kernel) | apply Alters.foldl | apply Alters.foldlFst
    | apply Alters.foldlSnd | intro _)

theorem State.portReset_alters (s : State) (p : Nat) (inj : Bool) :
    Alters [.regs, .modl, .tel, .bark, .tree, .job, .cells, .taps, .ports, .sess, .limbs, .stream, .host, .ras, .journal, .pendStep, .free, .sent] s (State.portReset s p inj) := by
  unfold State.portReset
  repeat' (with_reducible first
    | apply Alters.refl | apply Alters.step (State.leaveUp_alters _ _ _ _ _ _) (by decide +kernel)
    | apply Alters.step (State.modPort_alters _ _ _) (by decide +kernel)
    | apply Alters.step (State.detect_alters _ _ _) (by decide +kernel)
    | apply Alters.step (State.epochReset_alters _ _ _ _) (by decide +kernel)
    | apply Alters.step (State.linkTo_alters _ _ _ _) (by decide +kernel)
    | apply Alters.step (State.modSes_alters _ _ _) (by decide +kernel) | apply Alters.ite | apply Alters.foldl
    | apply Alters.foldlFst | apply Alters.foldlSnd | intro _)

theorem State.powerOnReset_alters (s : State) (slot : Nat) : Alters [.regs, .modl, .boot, .ring, .clk, .power, .thermal, .tel, .hw, .bark, .tree, .graft, .job, .cells, .taps, .ports, .sess, .shakes, .limbs, .stream, .sessCmd, .host, .mgmt, .ras, .journal, .pendRing, .pendStep] s (s.powerOnReset slot) := by
  refine ⟨?_, fun w => ?_⟩
  · intro p hp
    cases p <;> first | exact rfl | exact absurd (by decide) hp
  · exact ⟨rfl, rfl, rfl, swf_smap w.2.2.2.1, rfl, rfl, rfl, rfl⟩

theorem execPortReset_alters (port : Nat) (s : State) {u : State}
    (e : execPortReset port s = .next u) : Alters [.regs, .modl, .tel, .bark, .tree, .job, .cells, .taps, .ports, .sess, .limbs, .stream, .host, .ras, .journal, .pendStep, .free, .sent] s u := by
  refine .ofNext e ?_
  repeat' (with_reducible first
    | apply Alters.refl | apply Alters.step (State.portReset_alters _ _ _) (by decide +kernel) | apply Alters.ite)

/-! ## Clock -/

theorem State.setClk_alters (s : State) (f : Clk → Clk) :
    Alters [.clk] s (State.setClk s f) := by
  unfold State.setClk
  repeat' (with_reducible first
    | apply Alters.refl | dsimp only | refine Alters.update ?_)

theorem State.clkReject_alters (s : State) :
    Alters [.regs, .host, .sent] s (State.clkReject s) := by
  unfold State.clkReject
  repeat' (with_reducible first
    | apply Alters.refl | apply Alters.step (State.flag_alters _ _) (by decide +kernel)
    | apply Alters.step (State.event_alters _ _) (by decide +kernel))

theorem State.newBudget_alters (s : State) :
    Alters [.ring] s (State.newBudget s) := by
  unfold State.newBudget
  repeat' (with_reducible first
    | apply Alters.refl | apply Alters.step (State.setRing_alters _ _) (by decide +kernel))

theorem State.pllLoss_alters (s : State) (n : Nat) (code : Nat) (inj : Bool) :
    Alters [.regs, .modl, .clk, .tel, .bark, .tree, .job, .cells, .sess, .limbs, .stream, .host, .ras, .journal, .pendStep, .free, .sent] s (State.pllLoss s n code inj) := by
  unfold State.pllLoss
  repeat' (with_reducible first
    | apply Alters.refl | apply Alters.step (State.setClk_alters _ _) (by decide +kernel)
    | apply Alters.step (State.raiseAbort_alters _ _ _ _ _ _) (by decide +kernel))

theorem State.sourceLoss_alters (s : State) (inj : Bool) :
    Alters [.regs, .modl, .ring, .clk, .tel, .bark, .tree, .graft, .job, .cells, .ports, .sess, .limbs, .stream, .host, .ras, .journal, .pendStep, .free, .sent] s (State.sourceLoss s inj) := by
  unfold State.sourceLoss
  repeat' (with_reducible first
    | apply Alters.refl | apply Alters.step (State.leaveUp_alters _ _ _ _ _ _) (by decide +kernel)
    | apply Alters.step (State.setClk_alters _ _) (by decide +kernel)
    | apply Alters.step (State.raiseAbort_alters _ _ _ _ _ _) (by decide +kernel)
    | apply Alters.step (State.dropLock_alters _ _) (by decide +kernel)
    | apply Alters.step (State.hostReset_alters _ _) (by decide +kernel) | apply Alters.ite | apply Alters.foldl
    | apply Alters.foldlFst | apply Alters.foldlSnd | intro _)

theorem State.refuseGrafts_alters (s : State) (n : Nat) :
    Alters [.graft] s (State.refuseGrafts s n) := by
  unfold State.refuseGrafts
  repeat' (with_reducible first
    | apply Alters.refl | apply Alters.step (State.setGraft_alters _ _) (by decide +kernel))

theorem execClkFreqWrite_alters (w : Word64) (s : State) {u : State}
    (e : execClkFreqWrite w s = .next u) : Alters [.regs, .host, .sent] s u := by
  refine .ofNext e ?_
  repeat' (with_reducible first
    | apply Alters.refl | apply Alters.step (State.put_alters _ _ _) (by decide +kernel)
    | apply Alters.step (State.clkReject_alters _) (by decide +kernel) | apply Alters.ite)

theorem execClkGateReq_alters (w : Word64) (s : State) {u : State}
    (e : execClkGateReq w s = .next u) : Alters [.regs, .clk] s u := by
  refine .ofNext e ?_
  repeat' (with_reducible first
    | apply Alters.refl | apply Alters.step (State.setClk_alters _ _) (by decide +kernel)
    | apply Alters.step (State.put_alters _ _ _) (by decide +kernel) | apply Alters.ite | apply Alters.foldl
    | apply Alters.foldlFst | apply Alters.foldlSnd | intro _)

theorem execClkMeasWindow_alters (pll : Nat) (khz : Nat) (s : State) {u : State}
    (e : execClkMeasWindow pll khz s = .next u) : Alters [.regs, .modl, .clk, .tel, .bark, .tree, .job, .cells, .sess, .limbs, .stream, .host, .ras, .journal, .pendStep, .free, .sent] s u := by
  refine .ofNext e ?_
  repeat' (with_reducible first
    | apply Alters.refl | apply Alters.step (State.setF_alters _ _ _) (by decide +kernel)
    | apply Alters.step (State.pllLoss_alters _ _ _ _) (by decide +kernel)
    | apply Alters.step (State.raise_alters _ _ _ _ _ _ _) (by decide +kernel)
    | apply Alters.step (State.fireRoot_alters _ _ _ _) (by decide +kernel) | apply Alters.of2 (by assumption)
    | apply Alters.ite)

theorem execClkSscWrite_alters (w : Word64) (s : State) {u : State}
    (e : execClkSscWrite w s = .next u) : Alters [.regs, .host, .sent] s u := by
  refine .ofNext e ?_
  repeat' (with_reducible first
    | apply Alters.refl | apply Alters.step (State.put_alters _ _ _) (by decide +kernel)
    | apply Alters.step (State.clkReject_alters _) (by decide +kernel) | apply Alters.ite)

theorem execClockHandover_alters (s : State) {u : State}
    (e : execClockHandover s = .next u) : Alters [.regs, .modl, .ring, .clk, .host, .sent] s u := by
  refine .ofNext e ?_
  repeat' (with_reducible first
    | apply Alters.refl | apply Alters.step (State.setClk_alters _ _) (by decide +kernel)
    | apply Alters.step (State.settleFaultN_alters _) (by decide +kernel)
    | apply Alters.step (State.lockTo_alters _ _) (by decide +kernel) | apply Alters.ite)

theorem execCrystalGood_alters (s : State) {u : State}
    (e : execCrystalGood s = .next u) : Alters [.modl, .clk] s u := by
  refine .ofNext e ?_
  repeat' (with_reducible first
    | apply Alters.refl | apply Alters.step (State.setClk_alters _ _) (by decide +kernel)
    | apply Alters.step (State.settleFaultN_alters _) (by decide +kernel))

theorem execCrystalLoss_alters (s : State) {u : State}
    (e : execCrystalLoss s = .next u) : Alters [.regs, .modl, .ring, .clk, .tel, .bark, .tree, .graft, .job, .cells, .ports, .sess, .limbs, .stream, .host, .ras, .journal, .pendStep, .free, .sent] s u := by
  refine .ofNext e ?_
  repeat' (with_reducible first
    | apply Alters.refl | apply Alters.step (State.setClk_alters _ _) (by decide +kernel)
    | apply Alters.step (State.sourceLoss_alters _ _) (by decide +kernel) | apply Alters.ite)

theorem execFreqChange_alters (s : State) {u : State}
    (e : execFreqChange s = .next u) : Alters [.ring, .clk] s u := by
  refine .ofNext e ?_
  repeat' (with_reducible first
    | apply Alters.refl | apply Alters.step (State.setClk_alters _ _) (by decide +kernel)
    | apply Alters.step (State.newBudget_alters _) (by decide +kernel) | apply Alters.ite | dsimp only | split)

theorem execGateRequestDone_alters (s : State) {u : State}
    (e : execGateRequestDone s = .next u) : Alters [.clk] s u := by
  refine .ofNext e ?_
  repeat' (with_reducible first
    | apply Alters.refl | apply Alters.step (State.setClk_alters _ _) (by decide +kernel) | apply Alters.ite | dsimp only
    | split)

theorem execPllRelock_alters (pll : Nat) (s : State) {u : State}
    (e : execPllRelock pll s = .next u) : Alters [.regs, .modl, .clk, .tel, .bark, .tree, .job, .cells, .taps, .sess, .limbs, .stream, .host, .ras, .journal, .pendStep, .free, .sent] s u := by
  refine .ofNext e ?_
  repeat' (with_reducible first
    | apply Alters.refl | apply Alters.step (State.setClk_alters _ _) (by decide +kernel)
    | apply Alters.step (State.setF_alters _ _ _) (by decide +kernel)
    | apply Alters.step (State.dieReset_alters _ _ _) (by decide +kernel) | apply Alters.ite)

theorem execPllUnlock_alters (pll : Nat) (s : State) {u : State}
    (e : execPllUnlock pll s = .next u) : Alters [.regs, .modl, .ring, .clk, .tel, .bark, .tree, .graft, .job, .cells, .ports, .sess, .limbs, .stream, .host, .ras, .journal, .pendStep, .free, .sent] s u := by
  refine .ofNext e ?_
  repeat' (with_reducible first
    | apply Alters.refl | apply Alters.step (State.sourceLoss_alters _ _) (by decide +kernel)
    | apply Alters.step (State.pllLoss_alters _ _ _ _) (by decide +kernel) | apply Alters.ite)

theorem execRelockTimeout_alters (pll : Nat) (s : State) {u : State}
    (e : execRelockTimeout pll s = .next u) : Alters [.clk, .power, .graft] s u := by
  refine .ofNext e ?_
  repeat' (with_reducible first
    | apply Alters.refl | apply Alters.step (State.refuseGrafts_alters _ _) (by decide +kernel)
    | apply Alters.step (State.setDomain_alters _ _ _) (by decide +kernel)
    | apply Alters.step (State.setClk_alters _ _) (by decide +kernel) | apply Alters.ite)

/-! ## Host -/

theorem State.setHost_alters (s : State) (f : HostPort → HostPort) :
    Alters [.host] s (State.setHost s f) := by
  unfold State.setHost
  repeat' (with_reducible first
    | apply Alters.refl | dsimp only | refine Alters.update ?_)

theorem State.ideFails_alters (s : State) (inj : Bool) :
    Alters [.regs, .modl, .tel, .bark, .tree, .graft, .job, .cells, .sess, .limbs, .stream, .host, .ras, .journal, .pendStep, .free, .sent] s (State.ideFails s inj) := by
  unfold State.ideFails
  repeat' (with_reducible first
    | apply Alters.refl | apply Alters.step (State.raise_alters _ _ _ _ _ _ _) (by decide +kernel)
    | apply Alters.step (State.hostReset_alters _ _) (by decide +kernel))

theorem execBar0BadAccess_alters (s : State) {u : State}
    (e : execBar0BadAccess s = .next u) : Alters [.regs] s u := by
  refine .ofNext e ?_
  repeat' (with_reducible first
    | apply Alters.refl | apply Alters.step (State.inc_alters _ _ _) (by decide +kernel)
    | apply Alters.step (State.flag_alters _ _) (by decide +kernel))

theorem execBusMasterEnable_alters (b : Bool) (s : State) {u : State}
    (e : execBusMasterEnable b s = .next u) : Alters [.regs, .host, .sent] s u := by
  refine .ofNext e ?_
  repeat' (with_reducible first
    | apply Alters.refl | apply Alters.step (State.setHost_alters _ _) (by decide +kernel)
    | apply Alters.step (State.flushPending_alters _) (by decide +kernel) | apply Alters.ite)

theorem execCompletionTimeout_alters (r : HostRead) (s : State) {u : State}
    (e : execCompletionTimeout r s = .next u) : Alters [.regs, .modl, .tel, .bark, .tree, .graft, .job, .cells, .sess, .limbs, .stream, .host, .ras, .journal, .pendStep, .free, .sent] s u := by
  refine .ofNext e ?_
  repeat' (with_reducible first
    | apply Alters.refl | apply Alters.step (State.loadFails_alters _ _ _ _ _) (by decide +kernel)
    | apply Alters.step (State.inc_alters _ _ _) (by decide +kernel)
    | apply Alters.step (State.flag_alters _ _) (by decide +kernel)
    | apply Alters.step (State.event_alters _ _) (by decide +kernel) | apply Alters.ite | dsimp only | split)

theorem execDstateChange_alters (d : DState) (s : State) {u : State}
    (e : execDstateChange d s = .next u) : Alters [.regs, .modl, .tel, .bark, .tree, .graft, .job, .cells, .sess, .limbs, .stream, .host, .ras, .journal, .pendStep, .free, .sent] s u := by
  refine .ofNext e ?_
  repeat' (with_reducible first
    | apply Alters.refl | apply Alters.step (State.setHost_alters _ _) (by decide +kernel)
    | apply Alters.step (State.hostReset_alters _ _) (by decide +kernel) | apply Alters.ite | dsimp only | split)

theorem execHostportReset_alters (cause : HostReset) (s : State) {u : State}
    (e : execHostportReset cause s = .next u) : Alters [.regs, .modl, .tel, .bark, .tree, .graft, .job, .cells, .sess, .limbs, .stream, .host, .ras, .journal, .pendStep, .free, .sent] s u := by
  refine .ofNext e ?_
  repeat' (with_reducible first
    | apply Alters.refl | apply Alters.step (State.setHost_alters _ _) (by decide +kernel)
    | apply Alters.step (State.hostReset_alters _ _) (by decide +kernel) | apply Alters.ite)

theorem execHostportUp_alters (speed : Nat) (width : Nat) (perstLow : Bool) (s0 : State) {u : State}
    (e : execHostportUp speed width perstLow s0 = .next u) : Alters [.host] s0 u := by
  refine .ofNext e ?_
  repeat' (with_reducible first
    | apply Alters.refl | apply Alters.step (State.setHost_alters _ _) (by decide +kernel) | apply Alters.ite)

theorem execIdClrCounters_alters (s : State) {u : State}
    (e : execIdClrCounters s = .next u) : Alters [.regs] s u := by
  refine .ofNext e ?_
  repeat' (with_reducible first
    | apply Alters.refl | apply Alters.step (State.clearArr_alters _ _ _) (by decide +kernel))

theorem execIdeFail_alters (s : State) {u : State}
    (e : execIdeFail s = .next u) : Alters [.regs, .modl, .tel, .bark, .tree, .graft, .job, .cells, .sess, .limbs, .stream, .host, .ras, .journal, .pendStep, .free, .sent] s u := by
  refine .ofNext e ?_
  repeat' (with_reducible first
    | apply Alters.refl | apply Alters.step (State.ideFails_alters _ _) (by decide +kernel) | apply Alters.ite)

theorem execIdeKmRequest_alters (secure : Bool) (s : State) {u : State}
    (e : execIdeKmRequest secure s = .next u) : Alters [.host, .sent] s u := by
  refine .ofNext e ?_
  repeat' (with_reducible first
    | apply Alters.refl | apply Alters.step (State.setHost_alters _ _) (by decide +kernel)
    | apply Alters.step (State.send_alters _ _) (by decide +kernel) | apply Alters.ite)

theorem execIntCauseClear_alters (w : Word64) (s : State) {u : State}
    (e : execIntCauseClear w s = .next u) : Alters [.regs] s u := by
  refine .ofNext e ?_
  repeat' (with_reducible first
    | apply Alters.refl | apply Alters.step (State.setF_alters _ _ _) (by decide +kernel) | apply Alters.ite
    | apply Alters.foldl | apply Alters.foldlFst | apply Alters.foldlSnd | intro _)

theorem execIntEnableWrite_alters (w : Word64) (s : State) {u : State}
    (e : execIntEnableWrite w s = .next u) : Alters [.regs, .host, .sent] s u := by
  refine .ofNext e ?_
  repeat' (with_reducible first
    | apply Alters.refl | apply Alters.step (State.put_alters _ _ _) (by decide +kernel)
    | apply Alters.step (State.signal_alters _ _) (by decide +kernel) | apply Alters.ite | apply Alters.foldl
    | apply Alters.foldlFst | apply Alters.foldlSnd | intro _)

/-! ## Firmware -/

theorem State.fwFault_alters (s : State) (code : Nat) (detail : Nat) (inj : Bool) :
    Alters [.regs, .modl, .boot, .tel, .bark, .tree, .job, .cells, .sess, .limbs, .stream, .host, .ras, .journal, .pendStep, .free, .sent] s (State.fwFault s code detail inj) := by
  unfold State.fwFault
  repeat' (with_reducible first
    | apply Alters.refl | apply Alters.step (State.raise_alters _ _ _ _ _ _ _) (by decide +kernel) | apply Alters.ite
    | dsimp only | split | refine Alters.update ?_)

theorem State.commitImage_alters (s : State) (kind : Nat) (raw : List Byte) :
    Alters [.flash] s (State.commitImage s kind raw) := by
  unfold State.commitImage
  repeat' (with_reducible first
    | apply Alters.refl | apply Alters.ite | dsimp only | split | refine Alters.update ?_)

theorem State.fwRecord_alters (s : State) (kind : Nat) (inj : Bool) (a3 : FwVerdict) :
    Alters [.regs, .modl, .boot, .tel, .bark, .tree, .job, .cells, .sess, .limbs, .stream, .host, .ras, .journal, .pendStep, .free, .sent] s (State.fwRecord s kind inj a3) := by
  unfold State.fwRecord
  repeat' (with_reducible first
    | apply Alters.refl | apply Alters.step (State.fwFault_alters _ _ _ _) (by decide +kernel)
    | apply Alters.step (State.objectCount_alters _ _) (by decide +kernel) | dsimp only | split)

theorem State.commitBuffer_alters (s : State) (kind : Nat) :
    Alters [.regs, .modl, .boot, .flash, .tel, .bark, .tree, .job, .cells, .sess, .limbs, .stream, .host, .ras, .journal, .pendStep, .free, .sent] s (State.commitBuffer s kind).2 := by
  unfold State.commitBuffer
  repeat' (with_reducible first
    | apply Alters.refl | apply Alters.step (State.fwRecord_alters _ _ _ _) (by decide +kernel)
    | apply Alters.step (State.sigForce_alters _) (by decide +kernel)
    | apply Alters.step (State.commitImage_alters _ _ _) (by decide +kernel) | apply Alters.of22 (by assumption)
    | dsimp only | split)

/-! ## Power -/

theorem State.capEpisode_alters (s : State) (c : Nat) (spent : Bool) :
    Alters [.regs, .modl, .power, .tel, .bark, .tree, .job, .cells, .sess, .limbs, .stream, .host, .ras, .journal, .pendStep, .free, .sent] s (State.capEpisode s c spent) := by
  unfold State.capEpisode
  repeat' (with_reducible first
    | apply Alters.refl | apply Alters.step (State.raise_alters _ _ _ _ _ _ _) (by decide +kernel)
    | apply Alters.step (State.inc_alters _ _ _) (by decide +kernel)
    | apply Alters.step (State.setPower_alters _ _) (by decide +kernel) | apply Alters.ite)

theorem State.droop_alters (s : State) (d : Nat) (inj : Bool) :
    Alters [.regs, .modl, .power, .tel, .bark, .tree, .job, .cells, .sess, .limbs, .stream, .host, .ras, .journal, .pendStep, .free, .sent] s (State.droop s d inj) := by
  unfold State.droop
  repeat' (with_reducible first
    | apply Alters.refl | apply Alters.step (State.incSat_alters _ _ _) (by decide +kernel)
    | apply Alters.step (State.raise_alters _ _ _ _ _ _ _) (by decide +kernel)
    | apply Alters.step (State.setPower_alters _ _) (by decide +kernel) | apply Alters.ite | dsimp only | split
    | refine Alters.update ?_)

theorem State.enterDeep_alters (s : State) : Alters [.regs, .cells, .taps, .ports, .sess, .limbs, .host, .free, .sent] s s.enterDeep := by
  unfold State.enterDeep
  have h : Alters [.regs, .cells, .taps, .ports, .sess, .limbs, .host, .free, .sent] s
      ((List.range 72).foldl (fun s p => [false, true].foldl (fun s h => s.linkTo p h .disabled) s)
        (s.sesKeys.foldl (fun s i => s.closeSes i false) s)).draw.2 := by
    refine .step (State.draw_alters _) (by decide +kernel) (.foldl (fun t p => .foldl (fun t h => ?_) _ (.refl _ _)) _
      (.foldl (fun t i => ?_) _ (.refl _ _)))
    · exact .step (State.linkTo_alters _ _ _ _) (by decide +kernel) (.refl _ _)
    · exact .step (State.closeSes_alters _ _ _) (by decide +kernel) (.refl _ _)
  revert h
  dsimp only
  generalize ((List.range 72).foldl (fun s p => [false, true].foldl (fun s h => s.linkTo p h .disabled) s)
        (s.sesKeys.foldl (fun s i => s.closeSes i false) s)).draw = t
  intro h
  exact .update h

theorem State.lifeTimes_alters (s : State) :
    Alters [.regs, .hw] s (State.lifeTimes s) := by
  unfold State.lifeTimes
  repeat' (with_reducible first
    | apply Alters.refl | apply Alters.step (State.lifeAdd_alters _ _ _) (by decide +kernel) | dsimp only
    | refine Alters.update ?_)

theorem State.enterOff_alters (s : State) :
    Alters [.regs, .modl, .ring, .power, .hw, .bark, .tree, .graft, .job, .cells, .taps, .ports, .sess, .limbs, .stream, .sessCmd, .host, .free, .sent] s (State.enterOff s) := by
  unfold State.enterOff
  repeat' (with_reducible first
    | apply Alters.refl | apply Alters.step (State.draw_alters _) (by decide +kernel)
    | apply Alters.step (State.dropRails_alters _) (by decide +kernel)
    | apply Alters.step (State.dropLock_alters _ _) (by decide +kernel)
    | apply Alters.step (State.lifeTimes_alters _) (by decide +kernel) | apply Alters.of2 (by assumption) | dsimp only
    | split | refine Alters.update ?_)

theorem State.loseDie_alters (s : State) (d : Nat) :
    Alters [.cells] s (State.loseDie s d) := by
  unfold State.loseDie
  repeat' (with_reducible first
    | apply Alters.refl | apply Alters.ite | dsimp only | split | refine Alters.update ?_)

theorem State.railFault_alters (s : State) (d : Nat) (inj : Bool) :
    Alters [.regs, .modl, .power, .tel, .bark, .tree, .job, .cells, .taps, .ports, .sess, .limbs, .stream, .host, .ras, .journal, .pendStep, .free, .sent] s (State.railFault s d inj) := by
  unfold State.railFault
  repeat' (with_reducible first
    | apply Alters.refl | apply Alters.step (State.modPort_alters _ _ _) (by decide +kernel)
    | apply Alters.step (State.setDomain_alters _ _ _) (by decide +kernel)
    | apply Alters.step (State.limbReset_alters _ _ _) (by decide +kernel)
    | apply Alters.step (State.loseDie_alters _ _) (by decide +kernel)
    | apply Alters.step (State.raise_alters _ _ _ _ _ _ _) (by decide +kernel) | apply Alters.ite | apply Alters.foldl
    | apply Alters.foldlFst | apply Alters.foldlSnd | intro _)

theorem State.stateDone_alters (s : State) (st : PState) :
    Alters [.regs, .power, .host, .sent] s (State.stateDone s st) := by
  unfold State.stateDone
  repeat' (with_reducible first
    | apply Alters.refl | apply Alters.step (State.inBand_alters _) (by decide +kernel)
    | apply Alters.step (State.setF_alters _ _ _) (by decide +kernel)
    | apply Alters.step (State.inc_alters _ _ _) (by decide +kernel)
    | apply Alters.step (State.setPower_alters _ _) (by decide +kernel)
    | apply Alters.step (State.event_alters _ _) (by decide +kernel))

theorem State.pulse_alters (s : State) (ns : Nat) :
    Alters [.free] s (State.pulse s ns).2 := by
  unfold State.pulse
  repeat' (with_reducible first
    | apply Alters.refl | apply Alters.ite | dsimp only | split | refine Alters.update ?_)

theorem State.scrubAll_alters (s : State) :
    Alters [.regs, .modl, .tel, .bark, .tree, .job, .cells, .sess, .limbs, .stream, .host, .ras, .journal, .pendRing, .pendStep, .free, .sent] s (State.scrubAll s) := by
  unfold State.scrubAll
  repeat' (with_reducible first
    | apply Alters.refl | apply Alters.step (State.cellStep_alters _ _ _ _ _) (by decide +kernel)
    | apply Alters.of1 (by assumption) | apply Alters.of2 (by assumption) | apply Alters.foldl | apply Alters.foldlFst
    | apply Alters.foldlSnd | intro _)

theorem State.shed_alters (s : State) (c : Nat) :
    Alters [.power] s (State.shed s c).1 := by
  unfold State.shed
  repeat' (with_reducible first
    | apply Alters.refl | apply Alters.step (State.setPower_alters _ _) (by decide +kernel))

theorem State.takeSettings_alters (s : State) :
    Alters [.power] s (State.takeSettings s) := by
  unfold State.takeSettings
  repeat' (with_reducible first
    | apply Alters.refl | apply Alters.step (State.setPower_alters _ _) (by decide +kernel))

theorem State.wakeFails_alters (s : State) (d : Nat) (inj : Bool) :
    Alters [.regs, .modl, .power, .tel, .bark, .tree, .graft, .job, .cells, .sess, .limbs, .stream, .host, .ras, .journal, .pendStep, .free, .sent] s (State.wakeFails s d inj) := by
  unfold State.wakeFails
  repeat' (with_reducible first
    | apply Alters.refl | apply Alters.step (State.setDomain_alters _ _ _) (by decide +kernel)
    | apply Alters.step (State.setF_alters _ _ _) (by decide +kernel)
    | apply Alters.step (State.loadFails_alters _ _ _ _ _) (by decide +kernel)
    | apply Alters.step (State.raise_alters _ _ _ _ _ _ _) (by decide +kernel) | apply Alters.ite | dsimp only | split
    | refine Alters.update ?_)

theorem execDomainWakeTimeout_alters (die : Nat) (s : State) {u : State}
    (e : execDomainWakeTimeout die s = .next u) : Alters [.regs, .modl, .power, .tel, .bark, .tree, .graft, .job, .cells, .sess, .limbs, .stream, .host, .ras, .journal, .pendStep, .free, .sent] s u := by
  refine .ofNext e ?_
  repeat' (with_reducible first
    | apply Alters.refl | apply Alters.step (State.wakeFails_alters _ _ _) (by decide +kernel) | apply Alters.ite)

theorem execDroopEvent_alters (die : Nat) (cycles : Nat) (s : State) {u : State}
    (e : execDroopEvent die cycles s = .next u) : Alters [.regs, .modl, .power, .tel, .bark, .tree, .job, .cells, .sess, .limbs, .stream, .host, .ras, .journal, .pendStep, .free, .sent] s u := by
  refine .ofNext e ?_
  repeat' (with_reducible first
    | apply Alters.refl | apply Alters.step (State.droop_alters _ _ _) (by decide +kernel) | apply Alters.ite)

theorem execExcursionWrite_alters (joules : Nat) (s : State) {u : State}
    (e : execExcursionWrite joules s = .next u) : Alters [.regs, .power] s u := by
  refine .ofNext e ?_
  repeat' (with_reducible first
    | apply Alters.refl | apply Alters.step (State.setF_alters _ _ _) (by decide +kernel)
    | apply Alters.step (State.flag_alters _ _) (by decide +kernel)
    | apply Alters.step (State.setPower_alters _ _) (by decide +kernel) | apply Alters.ite)

theorem execPowerEntryComplete_alters (s : State) {u : State}
    (e : execPowerEntryComplete s = .next u) : Alters [.regs, .modl, .boot, .ring, .clk, .power, .thermal, .tel, .hw, .bark, .tree, .graft, .job, .cells, .taps, .ports, .sess, .limbs, .stream, .sessCmd, .host, .ras, .journal, .pendRing, .pendStep, .free, .sent] s u := by
  refine .ofNext e ?_
  repeat' (with_reducible first
    | apply Alters.refl | apply Alters.step (State.enterDeep_alters _) (by decide +kernel)
    | apply Alters.step (State.engineReset_alters _) (by decide +kernel)
    | apply Alters.step (State.powerRequest_alters _ _) (by decide +kernel)
    | apply Alters.step (State.enterOff_alters _) (by decide +kernel)
    | apply Alters.step (State.setPower_alters _ _) (by decide +kernel)
    | apply Alters.step (State.stateDone_alters _ _) (by decide +kernel) | apply Alters.ite | dsimp only | split)

theorem execPowerRequest_alters (w : Word64) (s : State) {u : State}
    (e : execPowerRequest w s = .next u) : Alters [.regs, .power] s u := by
  refine .ofNext e ?_
  repeat' (with_reducible first
    | apply Alters.refl | apply Alters.step (State.put_alters _ _ _) (by decide +kernel)
    | apply Alters.step (State.powerRequest_alters _ _) (by decide +kernel)
    | apply Alters.step (State.flag_alters _ _) (by decide +kernel) | apply Alters.ite | dsimp only | split)

theorem execPowerReturnComplete_alters (s : State) {u : State}
    (e : execPowerReturnComplete s = .next u) : Alters [.regs, .modl, .power, .tel, .bark, .tree, .job, .cells, .ports, .sess, .limbs, .stream, .host, .ras, .journal, .pendRing, .pendStep, .free, .sent] s u := by
  refine .ofNext e ?_
  repeat' (with_reducible first
    | apply Alters.refl | apply Alters.step (State.scrubAll_alters _) (by decide +kernel)
    | apply Alters.step (State.detect_alters _ _ _) (by decide +kernel)
    | apply Alters.step (State.powerRequest_alters _ _) (by decide +kernel)
    | apply Alters.step (State.linkTo_alters _ _ _ _) (by decide +kernel)
    | apply Alters.step (State.stateDone_alters _ _) (by decide +kernel) | apply Alters.of1 (by assumption)
    | apply Alters.of2 (by assumption) | apply Alters.ite | apply Alters.foldl | apply Alters.foldlFst
    | apply Alters.foldlSnd | intro _ | dsimp only | split)

theorem execPwrClrCounters_alters (s : State) {u : State}
    (e : execPwrClrCounters s = .next u) : Alters [.regs] s u := by
  refine .ofNext e ?_
  repeat' (with_reducible first
    | apply Alters.refl | apply Alters.step (State.clearArr_alters _ _ _) (by decide +kernel))

theorem execRailFault_alters (die : Nat) (s : State) {u : State}
    (e : execRailFault die s = .next u) : Alters [.regs, .modl, .power, .tel, .bark, .tree, .job, .cells, .taps, .ports, .sess, .limbs, .stream, .host, .ras, .journal, .pendStep, .free, .sent] s u := by
  refine .ofNext e ?_
  repeat' (with_reducible first
    | apply Alters.refl | apply Alters.step (State.railFault_alters _ _ _) (by decide +kernel) | apply Alters.ite)

theorem execWakeN_alters (ns : Nat) (s : State) {u : State}
    (e : execWakeN ns s = .next u) : Alters [.regs, .modl, .boot, .ring, .clk, .power, .thermal, .tel, .hw, .bark, .tree, .graft, .job, .cells, .taps, .ports, .sess, .limbs, .stream, .sessCmd, .host, .mgmt, .ras, .journal, .pendRing, .pendStep, .free, .sent] s u := by
  refine .ofNext e ?_
  repeat' (with_reducible first
    | apply Alters.refl | apply Alters.step (State.pulse_alters _ _) (by decide +kernel)
    | apply Alters.step (State.wakeEvent_alters _) (by decide +kernel)
    | apply Alters.step (State.engineReset_alters _) (by decide +kernel) | apply Alters.of2 (by assumption)
    | apply Alters.ite | dsimp only | split | refine Alters.update ?_)

/-! ## Thermal -/

theorem State.thermTrip_alters (s : State) :
    Alters [.regs, .modl, .host, .sent] s (State.thermTrip s) := by
  unfold State.thermTrip
  repeat' (with_reducible first
    | apply Alters.refl | apply Alters.step (State.event_alters _ _) (by decide +kernel) | apply Alters.ite | dsimp only
    | split | refine Alters.update ?_)

theorem State.hardTripNow_alters (s : State) (d : Nat) (inj : Bool) :
    Alters [.regs, .modl, .power, .tel, .hw, .bark, .tree, .graft, .job, .cells, .taps, .ports, .sess, .limbs, .stream, .sessCmd, .host, .ras, .journal, .pendStep, .free, .sent] s (State.hardTripNow s d inj) := by
  unfold State.hardTripNow
  repeat' (with_reducible first
    | apply Alters.refl | apply Alters.step (State.thermTrip_alters _) (by decide +kernel)
    | apply Alters.step (State.lastGasp_alters _ _ _) (by decide +kernel)
    | apply Alters.step (State.dropRails_alters _) (by decide +kernel)
    | apply Alters.step (State.raiseEnd_alters _ _ _ _ _ _) (by decide +kernel)
    | apply Alters.step (State.faultN_alters _) (by decide +kernel) | dsimp only | refine Alters.update ?_)

theorem State.tripUnused_alters (s : State) (d : Nat) (inj : Bool) :
    Alters [.regs, .modl, .power, .tel, .bark, .tree, .graft, .job, .cells, .sess, .limbs, .stream, .host, .ras, .journal, .pendStep, .free, .sent] s (State.tripUnused s d inj) := by
  unfold State.tripUnused
  repeat' (with_reducible first
    | apply Alters.refl | apply Alters.step (State.setDomain_alters _ _ _) (by decide +kernel)
    | apply Alters.step (State.setGraft_alters _ _) (by decide +kernel)
    | apply Alters.step (State.clearShadow_alters _) (by decide +kernel)
    | apply Alters.step (State.loseDie_alters _ _) (by decide +kernel)
    | apply Alters.step (State.raise_alters _ _ _ _ _ _ _) (by decide +kernel)
    | apply Alters.step (State.inc_alters _ _ _) (by decide +kernel) | apply Alters.ite | dsimp only | split)

theorem State.setThermal_alters (s : State) (f : Thermal → Thermal) :
    Alters [.thermal] s (State.setThermal s f) := by
  unfold State.setThermal
  repeat' (with_reducible first
    | apply Alters.refl | dsimp only | refine Alters.update ?_)

theorem State.tripUsed_alters (s : State) (d : Nat) (inj : Bool) :
    Alters [.regs, .modl, .power, .thermal, .tel, .hw, .bark, .tree, .job, .cells, .sess, .limbs, .stream, .host, .ras, .journal, .pendStep, .free, .sent] s (State.tripUsed s d inj) := by
  unfold State.tripUsed
  repeat' (with_reducible first
    | apply Alters.refl | apply Alters.step (State.setThermal_alters _ _) (by decide +kernel)
    | apply Alters.step (State.thermTrip_alters _) (by decide +kernel)
    | apply Alters.step (State.raiseAbort_alters _ _ _ _ _ _) (by decide +kernel)
    | apply Alters.step (State.lifeAdd_alters _ _ _) (by decide +kernel)
    | apply Alters.step (State.inc_alters _ _ _) (by decide +kernel)
    | apply Alters.step (State.powerRequest_alters _ _) (by decide +kernel)
    | apply Alters.step (State.flag_alters _ _) (by decide +kernel)
    | apply Alters.step (State.setPower_alters _ _) (by decide +kernel)
    | apply Alters.step (State.stateDone_alters _ _) (by decide +kernel) | apply Alters.ite | dsimp only | split)

theorem State.trips_alters (s : State) (inj : Bool) (hot : List Nat) :
    Alters [.regs, .modl, .power, .thermal, .tel, .hw, .bark, .tree, .graft, .job, .cells, .sess, .limbs, .stream, .host, .ras, .journal, .pendStep, .free, .sent] s (State.trips s inj hot) := by
  unfold State.trips
  repeat' (with_reducible first
    | apply Alters.refl | apply Alters.step (State.tripUnused_alters _ _ _) (by decide +kernel)
    | apply Alters.step (State.tripUsed_alters _ _ _) (by decide +kernel) | apply Alters.ite | apply Alters.foldl
    | apply Alters.foldlFst | apply Alters.foldlSnd | intro _)

theorem State.sensorFault_alters (s : State) (d : Nat) (inj : Bool) :
    Alters [.regs, .modl, .tel, .bark, .tree, .job, .cells, .sess, .limbs, .stream, .host, .ras, .journal, .pendStep, .free, .sent] s (State.sensorFault s d inj) := by
  unfold State.sensorFault
  repeat' (with_reducible first
    | apply Alters.refl | apply Alters.step (State.raise_alters _ _ _ _ _ _ _) (by decide +kernel) | apply Alters.ite)

theorem State.sampleDie_alters (s : State) (r : List Int) (d : Nat) :
    Alters [.regs, .modl, .tel, .bark, .tree, .job, .cells, .sess, .limbs, .stream, .host, .ras, .journal, .pendStep, .free, .sent] s (State.sampleDie s r d) := by
  unfold State.sampleDie
  repeat' (with_reducible first
    | apply Alters.refl | apply Alters.step (State.setF_alters _ _ _) (by decide +kernel)
    | apply Alters.step (State.inc_alters _ _ _) (by decide +kernel)
    | apply Alters.step (State.sensorFault_alters _ _ _) (by decide +kernel) | apply Alters.of1 (by assumption)
    | apply Alters.of2 (by assumption) | apply Alters.ite | apply Alters.foldl | apply Alters.foldlFst
    | apply Alters.foldlSnd | intro _ | dsimp only | split | refine Alters.update ?_)

theorem State.thermalStep_alters (s : State) (temp : Nat → Int) (inj : Bool) :
    Alters [.regs, .modl, .thermal, .tel, .bark, .tree, .job, .cells, .sess, .limbs, .stream, .host, .ras, .journal, .pendStep, .free, .sent] s (State.thermalStep s temp inj) := by
  unfold State.thermalStep
  repeat' (with_reducible first
    | apply Alters.refl | apply Alters.step (State.setThermal_alters _ _) (by decide +kernel)
    | apply Alters.step (State.raise_alters _ _ _ _ _ _ _) (by decide +kernel)
    | apply Alters.step (State.inc_alters _ _ _) (by decide +kernel)
    | apply Alters.step (State.event_alters _ _) (by decide +kernel) | apply Alters.ite | dsimp only | split
    | refine Alters.update ?_)

theorem execClrPeak_alters (s : State) {u : State}
    (e : execClrPeak s = .next u) : Alters [.regs] s u := by
  refine .ofNext e ?_
  repeat' (with_reducible first
    | apply Alters.refl | apply Alters.step (State.clearArr_alters _ _ _) (by decide +kernel))

theorem execDecisionEdge_alters (s : State) {u : State}
    (e : execDecisionEdge s = .next u) : Alters [.regs, .modl, .power, .thermal, .tel, .hw, .bark, .tree, .graft, .job, .cells, .sess, .limbs, .stream, .host, .ras, .journal, .pendStep, .free, .sent] s u := by
  refine .ofNext e ?_
  repeat' (with_reducible first
    | apply Alters.refl | apply Alters.step (State.takeSettings_alters _) (by decide +kernel)
    | apply Alters.step (State.capEpisode_alters _ _ _) (by decide +kernel)
    | apply Alters.step (State.shed_alters _ _) (by decide +kernel)
    | apply Alters.step (State.inc_alters _ _ _) (by decide +kernel)
    | apply Alters.step (State.thermalStep_alters _ _ _) (by decide +kernel)
    | apply Alters.step (State.sensorFault_alters _ _ _) (by decide +kernel)
    | apply Alters.step (State.fireRoot_alters _ _ _ _) (by decide +kernel)
    | apply Alters.step (State.trips_alters _ _ _) (by decide +kernel) | apply Alters.of1 (by assumption)
    | apply Alters.of2 (by assumption) | apply Alters.ite)

theorem execHardTrip_alters (die : Nat) (s : State) {u : State}
    (e : execHardTrip die s = .next u) : Alters [.regs, .modl, .power, .tel, .hw, .bark, .tree, .graft, .job, .cells, .taps, .ports, .sess, .limbs, .stream, .sessCmd, .host, .ras, .journal, .pendStep, .free, .sent] s u := by
  refine .ofNext e ?_
  repeat' (with_reducible first
    | apply Alters.refl | apply Alters.step (State.hardTripNow_alters _ _ _) (by decide +kernel) | apply Alters.ite)

theorem execSensorSample_alters (r : List Int) (s : State) {u : State}
    (e : execSensorSample r s = .next u) : Alters [.regs, .modl, .tel, .bark, .tree, .job, .cells, .sess, .limbs, .stream, .host, .ras, .journal, .pendStep, .free, .sent] s u := by
  refine .ofNext e ?_
  repeat' (with_reducible first
    | apply Alters.refl | apply Alters.step (State.setF_alters _ _ _) (by decide +kernel)
    | apply Alters.step (State.sampleDie_alters _ _ _) (by decide +kernel) | apply Alters.of1 (by assumption)
    | apply Alters.of2 (by assumption) | apply Alters.ite | apply Alters.foldl | apply Alters.foldlFst
    | apply Alters.foldlSnd | intro _)

theorem execThmClrCounters_alters (s : State) {u : State}
    (e : execThmClrCounters s = .next u) : Alters [.regs] s u := by
  refine .ofNext e ?_
  repeat' (with_reducible first
    | apply Alters.refl | apply Alters.step (State.clearArr_alters _ _ _) (by decide +kernel))

theorem execTripClear_alters (s : State) {u : State}
    (e : execTripClear s = .next u) : Alters [.regs, .modl, .thermal] s u := by
  refine .ofNext e ?_
  repeat' (with_reducible first
    | apply Alters.refl | apply Alters.step (State.setF_alters _ _ _) (by decide +kernel)
    | apply Alters.step (State.setThermal_alters _ _) (by decide +kernel) | apply Alters.ite | dsimp only | split
    | refine Alters.update ?_)

/-! ## Mgmt -/

theorem State.answer_alters (s : State) (cmd : Nat) (status : Nat) (data : List Byte) :
    Alters [.regs, .mgmt] s (State.answer s cmd status data) := by
  unfold State.answer
  repeat' (with_reducible first
    | apply Alters.refl | apply Alters.step (State.setF_alters _ _ _) (by decide +kernel)
    | apply Alters.step (State.incLo_alters _ _ _) (by decide +kernel)
    | apply Alters.step (State.incHi_alters _ _ _) (by decide +kernel) | apply Alters.ite | dsimp only | split
    | refine Alters.update ?_)

theorem State.answerNotify_alters (s : State) (cmd : Nat) :
    Alters [.regs, .host, .mgmt, .sent] s (State.answerNotify s cmd) := by
  unfold State.answerNotify
  repeat' (with_reducible first
    | apply Alters.refl | apply Alters.step (State.answer_alters _ _ _ _) (by decide +kernel)
    | apply Alters.step (State.event_alters _ _) (by decide +kernel))

theorem State.answerOk_alters (s : State) (cmd : Nat) (data : List Byte) :
    Alters [.regs, .mgmt] s (State.answerOk s cmd data) := by
  unfold State.answerOk
  repeat' (with_reducible first
    | apply Alters.refl | apply Alters.step (State.answer_alters _ _ _ _) (by decide +kernel))

theorem State.answerRefused_alters (s : State) (cmd : Nat) (reason : Nat) :
    Alters [.regs, .mgmt] s (State.answerRefused s cmd reason) := by
  unfold State.answerRefused
  repeat' (with_reducible first
    | apply Alters.refl | apply Alters.step (State.answer_alters _ _ _ _) (by decide +kernel))

theorem State.mgmtAlways_alters {ps : List Part} {s0 s : State} {cmd : Nat} {f : State → State}
    (hs : Part.sub [.regs, .mgmt] ps = true) (h : Alters ps s0 s) (hf : ∀ t, Alters ps s0 t → Alters ps s0 (f t)) :
    Alters ps s0 (s.mgmtAlways cmd f) := by
  unfold State.mgmtAlways
  exact .ite h (.ite (.step (State.answer_alters _ _ _ _) (Part.sub_trans (by decide +kernel) hs) h) (hf _ h))

theorem State.mgmtTrunk_alters {ps : List Part} {s0 s : State} {cmd : Nat} {f : State → State}
    (hs : Part.sub [.regs, .mgmt] ps = true) (h : Alters ps s0 s) (hf : ∀ t, Alters ps s0 t → Alters ps s0 (f t)) :
    Alters ps s0 (s.mgmtTrunk cmd f) := by
  unfold State.mgmtTrunk
  exact State.mgmtAlways_alters (Part.sub_trans (by decide +kernel) hs) h (fun t ht =>
    .ite (hf _ ht) (.step (State.answerRefused_alters _ _ _) (Part.sub_trans (by decide +kernel) hs) ht))

theorem State.mgmtOn_alters {ps : List Part} {s0 s : State} {cmd : Nat} {f : State → State}
    (hs : Part.sub [.regs, .mgmt] ps = true) (h : Alters ps s0 s) (hf : ∀ t, Alters ps s0 t → Alters ps s0 (f t)) :
    Alters ps s0 (s.mgmtOn cmd f) := by
  unfold State.mgmtOn
  exact State.mgmtTrunk_alters (Part.sub_trans (by decide +kernel) hs) h (fun t ht =>
    .ite (.step (State.answerRefused_alters _ _ _) (Part.sub_trans (by decide +kernel) hs) ht) (hf _ ht))

theorem execAbort_alters (jobId : Nat) (s : State) {u : State}
    (e : execAbort jobId s = .next u) : Alters [.regs, .job, .host, .mgmt, .journal, .free, .sent] s u := by
  refine .ofNext e ?_
  repeat' (with_reducible first
    | apply Alters.refl | assumption | apply Alters.step (State.answerNotify_alters _ _) (by decide +kernel)
    | apply Alters.step (State.registerAbort_alters _ _ _ _) (by decide +kernel)
    | apply State.mgmtOn_alters (by decide +kernel) | intro _)

theorem execClearLoss_alters (s : State) {u : State}
    (e : execClearLoss s = .next u) : Alters [.regs, .modl, .mgmt] s u := by
  refine .ofNext e ?_
  repeat' (with_reducible first
    | apply Alters.refl | assumption | apply Alters.step (State.settleFaultN_alters _) (by decide +kernel)
    | apply Alters.step (State.setF_alters _ _ _) (by decide +kernel)
    | apply Alters.step (State.answerOk_alters _ _ _) (by decide +kernel)
    | apply State.mgmtTrunk_alters (by decide +kernel) | intro _)

theorem execDynamicAddress_alters (addr : Nat) (s : State) {u : State}
    (e : execDynamicAddress addr s = .next u) : Alters [.regs, .mgmt] s u := by
  refine .ofNext e ?_
  repeat' (with_reducible first
    | apply Alters.refl | apply Alters.step (State.setF_alters _ _ _) (by decide +kernel) | apply Alters.ite | dsimp only
    | split | refine Alters.update ?_)

theorem execGetEnv_alters (s : State) {u : State}
    (e : execGetEnv s = .next u) : Alters [.regs, .mgmt, .free] s u := by
  refine .ofNext e ?_
  repeat' (with_reducible first
    | apply Alters.refl | assumption | apply Alters.step (State.draw_alters _) (by decide +kernel)
    | apply Alters.step (State.answerOk_alters _ _ _) (by decide +kernel)
    | apply State.mgmtTrunk_alters (by decide +kernel) | intro _)

theorem execGetFault_alters (i : Nat) (s : State) {u : State}
    (e : execGetFault i s = .next u) : Alters [.regs, .mgmt] s u := by
  refine .ofNext e ?_
  repeat' (with_reducible first
    | apply Alters.refl | assumption | apply Alters.step (State.answer_alters _ _ _ _) (by decide +kernel)
    | apply Alters.step (State.answerOk_alters _ _ _) (by decide +kernel)
    | apply State.mgmtTrunk_alters (by decide +kernel) | intro _ | dsimp only | split)

theorem execGetId_alters (s : State) {u : State}
    (e : execGetId s = .next u) : Alters [.regs, .mgmt] s u := by
  refine .ofNext e ?_
  repeat' (with_reducible first
    | apply Alters.refl | assumption | apply Alters.step (State.answerOk_alters _ _ _) (by decide +kernel)
    | apply State.mgmtAlways_alters (by decide +kernel) | intro _)

theorem execGetStatus_alters (s : State) {u : State}
    (e : execGetStatus s = .next u) : Alters [.regs, .mgmt] s u := by
  refine .ofNext e ?_
  repeat' (with_reducible first
    | apply Alters.refl | assumption | apply Alters.step (State.answerOk_alters _ _ _) (by decide +kernel)
    | apply State.mgmtAlways_alters (by decide +kernel) | intro _)

theorem execRecoveryCommit_alters (kind : Nat) (s : State) {u : State}
    (e : execRecoveryCommit kind s = .next u) : Alters [.regs, .modl, .boot, .flash, .tel, .bark, .tree, .job, .cells, .sess, .limbs, .stream, .host, .mgmt, .ras, .journal, .pendStep, .free, .sent] s u := by
  refine .ofNext e ?_
  repeat' (with_reducible first
    | apply Alters.refl | assumption | apply Alters.step (State.commitBuffer_alters _ _) (by decide +kernel)
    | apply Alters.step (State.answerRefused_alters _ _ _) (by decide +kernel)
    | apply Alters.step (State.answerOk_alters _ _ _) (by decide +kernel)
    | apply State.mgmtAlways_alters (by decide +kernel) | apply Alters.of2 (by assumption) | apply Alters.ite | intro _
    | dsimp only | split | refine Alters.update ?_)

theorem execRecoveryEnter_alters (s : State) {u : State}
    (e : execRecoveryEnter s = .next u) : Alters [.regs, .boot, .host, .mgmt, .sent] s u := by
  refine .ofNext e ?_
  repeat' (with_reducible first
    | apply Alters.refl | assumption | apply Alters.step (State.answerNotify_alters _ _) (by decide +kernel)
    | apply State.mgmtAlways_alters (by decide +kernel) | intro _ | dsimp only | refine Alters.update ?_)

theorem execRecoveryReboot_alters (s : State) {u : State}
    (e : execRecoveryReboot s = .next u) : Alters [.regs, .modl, .boot, .ring, .clk, .power, .thermal, .tel, .hw, .bark, .tree, .graft, .job, .cells, .taps, .ports, .sess, .limbs, .stream, .sessCmd, .host, .ras, .journal, .pendRing, .pendStep, .sent] s u := by
  refine .ofNext e ?_
  repeat' (with_reducible first
    | apply Alters.refl | apply Alters.step (State.engineReset_alters _) (by decide +kernel) | apply Alters.ite
    | dsimp only | split | refine Alters.update ?_)

theorem execRecoveryWrite_alters (off : Nat) (data : List Byte) (s : State) {u : State}
    (e : execRecoveryWrite off data s = .next u) : Alters [.regs, .boot, .mgmt] s u := by
  refine .ofNext e ?_
  repeat' (with_reducible first
    | apply Alters.refl | assumption | apply Alters.step (State.answer_alters _ _ _ _) (by decide +kernel)
    | apply Alters.step (State.answerOk_alters _ _ _) (by decide +kernel)
    | apply State.mgmtAlways_alters (by decide +kernel) | apply Alters.ite | intro _ | dsimp only | split
    | refine Alters.update ?_)

theorem execReset_alters (kind : Nat) (s : State) {u : State}
    (e : execReset kind s = .next u) : Alters [.regs, .modl, .boot, .ring, .clk, .power, .thermal, .tel, .hw, .bark, .tree, .graft, .job, .cells, .taps, .ports, .sess, .limbs, .stream, .sessCmd, .host, .mgmt, .ras, .journal, .pendRing, .pendStep, .free, .sent] s u := by
  refine .ofNext e ?_
  repeat' (with_reducible first
    | apply Alters.refl | assumption | apply Alters.step (State.answer_alters _ _ _ _) (by decide +kernel)
    | apply Alters.step (State.answerNotify_alters _ _) (by decide +kernel)
    | apply Alters.step (State.engineReset_alters _) (by decide +kernel)
    | apply Alters.step (State.hostReset_alters _ _) (by decide +kernel) | apply State.mgmtOn_alters (by decide +kernel)
    | apply Alters.ite | intro _)

theorem execSetCap_alters (n : Nat) (s : State) {u : State}
    (e : execSetCap n s = .next u) : Alters [.regs, .power, .host, .mgmt, .sent] s u := by
  refine .ofNext e ?_
  repeat' (with_reducible first
    | apply Alters.refl | assumption | apply Alters.step (State.answer_alters _ _ _ _) (by decide +kernel)
    | apply Alters.step (State.answerNotify_alters _ _) (by decide +kernel)
    | apply Alters.step (State.setPower_alters _ _) (by decide +kernel) | apply State.mgmtOn_alters (by decide +kernel)
    | apply Alters.ite | intro _)

theorem execSetPower_alters (st : Nat) (s : State) {u : State}
    (e : execSetPower st s = .next u) : Alters [.regs, .power, .host, .mgmt, .sent] s u := by
  refine .ofNext e ?_
  repeat' (with_reducible first
    | apply Alters.refl | assumption | apply Alters.step (State.answer_alters _ _ _ _) (by decide +kernel)
    | apply Alters.step (State.answerNotify_alters _ _) (by decide +kernel)
    | apply Alters.step (State.powerRequest_alters _ _) (by decide +kernel)
    | apply State.mgmtOn_alters (by decide +kernel) | apply Alters.ite | intro _ | dsimp only | split
    | refine Alters.update ?_)

end Sys2Proof.Machine
end

