-- ==== Sys2Proof/Laws/FramesBark.lean ====
section
/-!
SUPPORT. What each operation can change, one lemma each: Bark, heartwood, firmware and boot.
-/
namespace Sys2Proof.Machine

set_option Elab.async false

/-! ## Bark -/

theorem State.abortAll_alters (s : State) :
    Alters [.regs, .job, .host, .journal, .free, .sent] s (State.abortAll s) := by
  unfold State.abortAll
  repeat' (with_reducible first
    | apply Alters.refl | apply Alters.step (State.registerAbort_alters _ _ _ _) (by decide +kernel) | apply Alters.foldl
    | apply Alters.foldlFst | apply Alters.foldlSnd | intro _)

theorem State.barkEnd_alters (s : State) (result : Nat) (detail : Nat) :
    Alters [.regs] s (State.barkEnd s result detail) := by
  unfold State.barkEnd
  repeat' (with_reducible first
    | apply Alters.refl | apply Alters.step (State.setF_alters _ _ _) (by decide +kernel))

theorem State.setBark_alters (s : State) (f : Bark → Bark) :
    Alters [.bark] s (State.setBark s f) := by
  unfold State.setBark
  repeat' (with_reducible first
    | apply Alters.refl | dsimp only | refine Alters.update ?_)

theorem State.barkOut_alters (s : State) (out : List Byte) :
    Alters [.regs, .bark] s (State.barkOut s out) := by
  unfold State.barkOut
  repeat' (with_reducible first
    | apply Alters.refl | apply Alters.step (State.setF_alters _ _ _) (by decide +kernel)
    | apply Alters.step (State.setBark_alters _ _) (by decide +kernel))

theorem State.barkReply_alters (s : State) (data : List Byte) :
    Alters [.regs, .bark] s (State.barkReply s data) := by
  unfold State.barkReply
  repeat' (with_reducible first
    | apply Alters.refl | apply Alters.step (State.setBark_alters _ _) (by decide +kernel)
    | apply Alters.step (State.barkOut_alters _ _) (by decide +kernel)
    | apply Alters.step (State.barkEnd_alters _ _ _) (by decide +kernel) | dsimp only | split)

theorem State.barkRun_alters {ps : List Part} {s0 s : State} {op len : Nat} {f : State → State}
    (hs : Part.sub [.regs] ps = true) (h : Alters ps s0 s) (hf : ∀ t, Alters ps s0 t → Alters ps s0 (f t)) :
    Alters ps s0 (s.barkRun op len f) := by
  unfold State.barkRun
  have h1 := Alters.step (State.setF_alters (s.setF BARK_CMD_OP op) BARK_CMD_LEN len) (Part.sub_trans (by decide +kernel) hs)
    (Alters.step (State.setF_alters s BARK_CMD_OP op) (Part.sub_trans (by decide +kernel) hs) h)
  exact .ite (.step (State.setF_alters _ _ _) (Part.sub_trans (by decide +kernel) hs) h1)
    (.ite (.step (State.barkEnd_alters _ _ _) (Part.sub_trans (by decide +kernel) hs) h1) (hf _ h1))

theorem State.envRun_alters {ps : List Part} {s0 s : State} {op len : Nat} {pre : State → Nat}
    {f : State → List Byte → State} (hs : Part.sub [.regs, .bark] ps = true) (h : Alters ps s0 s)
    (hf : ∀ t bs, Alters ps s0 t → Alters ps s0 (f t bs)) : Alters ps s0 (s.envRun op len pre f) := by
  unfold State.envRun
  apply State.barkRun_alters (Part.sub_trans (by decide +kernel) hs) h
  intro t ht
  have hk (a b : Nat) : Alters ps s0 (t.barkEnd a b) := .step (State.barkEnd_alters _ _ _) (Part.sub_trans (by decide +kernel) hs) ht
  split
  · exact hk _ _
  · refine .ite (hk _ _) (.ite (hk _ _) ?_)
    split
    · exact hk _ _
    · exact .ite (hk _ _) (hf _ _ (.step (State.setBark_alters _ _) (Part.sub_trans (by decide +kernel) hs) ht))

theorem State.keysChanged_alters (s : State) :
    Alters [.flash, .bark] s (State.keysChanged s) := by
  unfold State.keysChanged
  repeat' (with_reducible first
    | apply Alters.refl | apply Alters.step (State.random_alters _ _) (by decide +kernel)
    | apply Alters.of2 (by assumption) | apply Alters.getDMap | apply Alters.getD | intro _ | dsimp only | split
    | refine Alters.update ?_)

theorem State.needEntropy_alters {ps : List Part} {s0 s : State} {f : State → State}
    (hs : Part.sub [.regs, .tel, .bark, .host, .ras, .journal, .free, .sent] ps = true) (h : Alters ps s0 s) (hf : ∀ t, Alters ps s0 t → Alters ps s0 (f t)) :
    Alters ps s0 (s.needEntropy f) := by
  unfold State.needEntropy
  have h1 := Alters.step (State.entropy_alters s) (Part.sub_trans (by decide +kernel) hs) h
  split
  rename_i e
  rw [e] at h1
  exact .ite (hf _ h1) (.step (State.barkEnd_alters _ _ _) (Part.sub_trans (by decide +kernel) hs) h1)

theorem State.newNonce_alters (s : State) :
    Alters [.bark] s (State.newNonce s) := by
  unfold State.newNonce
  repeat' (with_reducible first
    | apply Alters.refl | apply Alters.step (State.random_alters _ _) (by decide +kernel)
    | apply Alters.step (State.setBark_alters _ _) (by decide +kernel))

theorem State.objVerify_alters (s : State) (kind : Nat) (body : Nat) (nonce : Bool) (obj : List Byte) (key : Option (List Byte)) (counter : Option Nat) :
    Alters [.regs, .modl, .tel, .bark, .tree, .job, .cells, .sess, .limbs, .stream, .host, .ras, .journal, .pendStep, .free, .sent] s (State.objVerify s kind body nonce obj key counter).2.2 := by
  unfold State.objVerify
  repeat' (with_reducible first
    | apply Alters.refl | apply Alters.step (State.security_alters _ _ _ _) (by decide +kernel)
    | apply Alters.step (State.objectCount_alters _ _) (by decide +kernel)
    | apply Alters.step (State.sigForce_alters _) (by decide +kernel) | apply Alters.of22 (by assumption)
    | apply Alters.ite)

theorem State.openHost_alters (s : State) (inp : List Byte) (z : List Byte) (k : List Byte) (ct : List Byte) (scalar : Nat) :
    Alters [.regs, .modl, .tel, .hw, .bark, .tree, .job, .cells, .sess, .limbs, .stream, .host, .ras, .journal, .pendStep, .free, .sent] s (State.openHost s inp z k ct scalar) := by
  unfold State.openHost
  repeat' (with_reducible first
    | apply Alters.refl | apply Alters.step (State.signReady_alters _) (by decide +kernel)
    | apply Alters.step (State.sign_alters _ _ _) (by decide +kernel)
    | apply Alters.step (State.setBark_alters _ _) (by decide +kernel)
    | apply Alters.step (State.inc_alters _ _ _) (by decide +kernel)
    | apply Alters.step (State.barkOut_alters _ _) (by decide +kernel)
    | apply Alters.step (State.barkEnd_alters _ _ _) (by decide +kernel) | apply Alters.of2 (by assumption) | dsimp only
    | split)

theorem State.report_alters (s : State) (challenge : List Byte) (m7 : Bool) :
    Alters [.regs, .modl, .tel, .hw, .bark, .tree, .job, .cells, .sess, .limbs, .stream, .host, .ras, .journal, .pendStep, .free, .sent] s (State.report s challenge m7) := by
  unfold State.report
  repeat' (with_reducible first
    | apply Alters.refl | apply Alters.step (State.signReady_alters _) (by decide +kernel)
    | apply Alters.step (State.sign_alters _ _ _) (by decide +kernel)
    | apply Alters.step (State.barkOut_alters _ _) (by decide +kernel)
    | apply Alters.step (State.barkEnd_alters _ _ _) (by decide +kernel) | apply Alters.of2 (by assumption) | dsimp only
    | split)

theorem State.scrub_alters (s : State) :
    Alters [.regs, .flash, .bark, .tree, .graft, .cells, .taps, .sess, .limbs, .host, .sent] s (State.scrub s) := by
  unfold State.scrub
  repeat' (with_reducible first
    | apply Alters.refl | apply Alters.step (State.closeSes_alters _ _ _) (by decide +kernel) | apply Alters.foldl
    | apply Alters.foldlFst | apply Alters.foldlSnd | intro _ | dsimp only | refine Alters.update ?_)

theorem State.scrubWrites_alters (s : State) :
    Alters [.regs, .hw] s (State.scrubWrites s) := by
  unfold State.scrubWrites
  repeat' (with_reducible first
    | apply Alters.refl | apply Alters.step (State.hwWrite_alters _ _ _ _) (by decide +kernel) | apply Alters.foldl
    | apply Alters.foldlFst | apply Alters.foldlSnd | intro _)

theorem State.startScrub_alters (s : State) :
    Alters [.bark, .ras] s (State.startScrub s) := by
  unfold State.startScrub
  repeat' (with_reducible first
    | apply Alters.refl | apply Alters.step (State.setBark_alters _ _) (by decide +kernel)
    | apply Alters.step (State.endGrant_alters _ _) (by decide +kernel))

theorem State.writeHash_alters (s : State) (r : Nat) (hash : List Byte) :
    Alters [.regs, .hw] s (State.writeHash s r hash) := by
  unfold State.writeHash
  repeat' (with_reducible first
    | apply Alters.refl | apply Alters.step (State.hwWrite_alters _ _ _ _) (by decide +kernel) | apply Alters.foldl
    | apply Alters.foldlFst | apply Alters.foldlSnd | intro _)

theorem execAttest_alters (len : Nat) (s : State) {u : State}
    (e : execAttest len s = .next u) : Alters [.regs, .modl, .tel, .hw, .bark, .tree, .job, .cells, .sess, .limbs, .stream, .host, .ras, .journal, .pendStep, .free, .sent] s u := by
  refine .ofNext e ?_
  repeat' (with_reducible first
    | apply Alters.refl | assumption | apply Alters.step (State.report_alters _ _ _) (by decide +kernel)
    | apply Alters.step (State.setBark_alters _ _) (by decide +kernel)
    | apply Alters.step (State.barkEnd_alters _ _ _) (by decide +kernel) | apply State.barkRun_alters (by decide +kernel)
    | apply Alters.ite | intro _)

theorem execBarkClaim_alters (len : Nat) (s : State) {u : State}
    (e : execBarkClaim len s = .next u) : Alters [.regs, .modl, .tel, .hw, .bark, .tree, .job, .cells, .sess, .limbs, .stream, .host, .ras, .journal, .pendStep, .free, .sent] s u := by
  refine .ofNext e ?_
  repeat' (with_reducible first
    | apply Alters.refl | assumption | apply Alters.step (State.writeHash_alters _ _ _) (by decide +kernel)
    | apply Alters.step (State.hwWrite_alters _ _ _ _) (by decide +kernel)
    | apply Alters.step (State.objVerify_alters _ _ _ _ _ _ _) (by decide +kernel)
    | apply Alters.step (State.newNonce_alters _) (by decide +kernel)
    | apply Alters.step (State.barkEnd_alters _ _ _) (by decide +kernel)
    | apply State.needEntropy_alters (by decide +kernel) | apply State.barkRun_alters (by decide +kernel)
    | apply Alters.of22 (by assumption) | apply Alters.ite | intro _)

theorem execBarkClrCounters_alters (s : State) {u : State}
    (e : execBarkClrCounters s = .next u) : Alters [.regs] s u := by
  refine .ofNext e ?_
  repeat' (with_reducible first
    | apply Alters.refl | apply Alters.step (State.clearArr_alters _ _ _) (by decide +kernel))

theorem execDeviceCert_alters (s : State) {u : State}
    (e : execDeviceCert s = .next u) : Alters [.regs, .bark] s u := by
  refine .ofNext e ?_
  repeat' (with_reducible first
    | apply Alters.refl | assumption | apply Alters.step (State.barkOut_alters _ _) (by decide +kernel)
    | apply State.barkRun_alters (by decide +kernel) | intro _)

theorem execDomainWakeDone_alters (die : Nat) (s : State) {u : State}
    (e : execDomainWakeDone die s = .next u) : Alters [.regs, .modl, .power, .tel, .bark, .tree, .graft, .job, .cells, .sess, .limbs, .stream, .host, .ras, .journal, .pendStep, .free, .sent] s u := by
  refine .ofNext e ?_
  repeat' (with_reducible first
    | apply Alters.refl | apply Alters.step (State.incSat_alters _ _ _) (by decide +kernel)
    | apply Alters.step (State.setDomain_alters _ _ _) (by decide +kernel)
    | apply Alters.step (State.draw_alters _) (by decide +kernel)
    | apply Alters.step (State.barkReply_alters _ _) (by decide +kernel)
    | apply Alters.step (State.loseDie_alters _ _) (by decide +kernel)
    | apply Alters.step (State.wakeFails_alters _ _ _) (by decide +kernel)
    | apply Alters.step (State.setBark_alters _ _) (by decide +kernel)
    | apply Alters.step (State.inc_alters _ _ _) (by decide +kernel)
    | apply Alters.step (State.fireRoot_alters _ _ _ _) (by decide +kernel)
    | apply Alters.step (State.barkEnd_alters _ _ _) (by decide +kernel)
    | apply Alters.step (State.setPower_alters _ _) (by decide +kernel) | apply Alters.of2 (by assumption)
    | apply Alters.ite | dsimp only | split)

theorem execEntropyHealthFail_alters (s : State) {u : State}
    (e : execEntropyHealthFail s = .next u) : Alters [.bark] s u := by
  refine .ofNext e ?_
  repeat' (with_reducible first
    | apply Alters.refl | apply Alters.step (State.setBark_alters _ _) (by decide +kernel))

theorem execGrant_alters (len : Nat) (s : State) {u : State}
    (e : execGrant len s = .next u) : Alters [.regs, .modl, .tel, .bark, .tree, .job, .cells, .sess, .limbs, .stream, .host, .ras, .journal, .pendStep, .free, .sent] s u := by
  refine .ofNext e ?_
  repeat' (with_reducible first
    | apply Alters.refl | assumption | apply Alters.step (State.setBark_alters _ _) (by decide +kernel)
    | apply Alters.step (State.endGrant_alters _ _) (by decide +kernel)
    | apply Alters.step (State.measure_alters _ _ _) (by decide +kernel)
    | apply Alters.step (State.objVerify_alters _ _ _ _ _ _ _) (by decide +kernel)
    | apply Alters.step (State.newNonce_alters _) (by decide +kernel)
    | apply Alters.step (State.barkEnd_alters _ _ _) (by decide +kernel)
    | apply State.needEntropy_alters (by decide +kernel) | apply State.barkRun_alters (by decide +kernel)
    | apply Alters.of22 (by assumption) | apply Alters.ite | intro _)

theorem execGrantExpiry_alters (s : State) {u : State}
    (e : execGrantExpiry s = .next u) : Alters [.bark, .ras] s u := by
  refine .ofNext e ?_
  repeat' (with_reducible first
    | apply Alters.refl | apply Alters.step (State.endGrant_alters _ _) (by decide +kernel) | apply Alters.ite
    | dsimp only | split)

theorem execGrantStart_alters (s : State) {u : State}
    (e : execGrantStart s = .next u) : Alters [.bark] s u := by
  refine .ofNext e ?_
  repeat' (with_reducible first
    | apply Alters.refl | apply Alters.step (State.setBark_alters _ _) (by decide +kernel) | apply Alters.ite | dsimp only
    | split)

theorem execHostOpen_alters (len : Nat) (s : State) {u : State}
    (e : execHostOpen len s = .next u) : Alters [.regs, .modl, .tel, .hw, .bark, .tree, .job, .cells, .sess, .limbs, .stream, .host, .ras, .journal, .pendStep, .free, .sent] s u := by
  refine .ofNext e ?_
  repeat' (with_reducible first
    | apply Alters.refl | assumption | apply Alters.step (State.random_alters _ _) (by decide +kernel)
    | apply Alters.step (State.openHost_alters _ _ _ _ _ _) (by decide +kernel)
    | apply Alters.step (State.ecdhKey_alters _) (by decide +kernel)
    | apply Alters.step (State.security_alters _ _ _ _) (by decide +kernel)
    | apply Alters.step (State.objectCount_alters _ _) (by decide +kernel)
    | apply Alters.step (State.objVerify_alters _ _ _ _ _ _ _) (by decide +kernel)
    | apply Alters.step (State.newNonce_alters _) (by decide +kernel)
    | apply Alters.step (State.barkEnd_alters _ _ _) (by decide +kernel)
    | apply Alters.step (State.sigForce_alters _) (by decide +kernel) | apply State.needEntropy_alters (by decide +kernel)
    | apply State.barkRun_alters (by decide +kernel) | apply Alters.of2 (by assumption)
    | apply Alters.of22 (by assumption) | apply Alters.ite | intro _ | dsimp only | split)

theorem execKeyLoad_alters (len : Nat) (s : State) {u : State}
    (e : execKeyLoad len s = .next u) : Alters [.regs, .flash, .bark] s u := by
  refine .ofNext e ?_
  repeat' (with_reducible first
    | apply Alters.refl | assumption | apply Alters.step (State.keysChanged_alters _) (by decide +kernel)
    | apply Alters.step (State.setBark_alters _ _) (by decide +kernel)
    | apply Alters.step (State.barkEnd_alters _ _ _) (by decide +kernel) | apply State.envRun_alters (by decide +kernel)
    | apply Alters.ite | intro _)

theorem execM7MeasurementDone_alters (s : State) {u : State}
    (e : execM7MeasurementDone s = .next u) : Alters [.regs, .modl, .tel, .hw, .bark, .tree, .job, .cells, .sess, .limbs, .stream, .host, .ras, .journal, .pendStep, .free, .sent] s u := by
  refine .ofNext e ?_
  repeat' (with_reducible first
    | apply Alters.refl | apply Alters.step (State.report_alters _ _ _) (by decide +kernel)
    | apply Alters.step (State.setBark_alters _ _) (by decide +kernel)
    | apply Alters.step (State.abandonM7_alters _) (by decide +kernel)
    | apply Alters.step (State.setMeas_alters _ _ _) (by decide +kernel) | apply Alters.ite | dsimp only | split)

theorem execNewNonce_alters (s : State) {u : State}
    (e : execNewNonce s = .next u) : Alters [.regs, .tel, .bark, .host, .ras, .journal, .free, .sent] s u := by
  refine .ofNext e ?_
  repeat' (with_reducible first
    | apply Alters.refl | assumption | apply Alters.step (State.newNonce_alters _) (by decide +kernel)
    | apply Alters.step (State.barkEnd_alters _ _ _) (by decide +kernel)
    | apply State.needEntropy_alters (by decide +kernel) | apply State.barkRun_alters (by decide +kernel) | intro _)

theorem execPlaneRead_alters (len : Nat) (s : State) {u : State}
    (e : execPlaneRead len s = .next u) : Alters [.regs, .power, .bark] s u := by
  refine .ofNext e ?_
  repeat' (with_reducible first
    | apply Alters.refl | assumption | apply Alters.step (State.setDomain_alters _ _ _) (by decide +kernel)
    | apply Alters.step (State.barkReply_alters _ _) (by decide +kernel)
    | apply Alters.step (State.setBark_alters _ _) (by decide +kernel)
    | apply Alters.step (State.barkEnd_alters _ _ _) (by decide +kernel) | apply State.envRun_alters (by decide +kernel)
    | apply Alters.ite | intro _ | dsimp only | split)

theorem execPufHealthCheck_alters (percent : Nat) (helperOk : Bool) (s : State) {u : State}
    (e : execPufHealthCheck percent helperOk s = .next u) : Alters [.regs, .modl, .flash, .tel, .bark, .tree, .job, .cells, .sess, .limbs, .stream, .host, .ras, .journal, .pendStep, .free, .sent] s u := by
  refine .ofNext e ?_
  repeat' (with_reducible first
    | apply Alters.refl | apply Alters.step (State.flag_alters _ _) (by decide +kernel)
    | apply Alters.step (State.security_alters _ _ _ _) (by decide +kernel)
    | apply Alters.step (State.fireRoot_alters _ _ _ _) (by decide +kernel) | apply Alters.of2 (by assumption)
    | apply Alters.ite | dsimp only | split | refine Alters.update ?_)

theorem execRecover_alters (len : Nat) (s : State) {u : State}
    (e : execRecover len s = .next u) : Alters [.regs, .modl, .flash, .tel, .hw, .bark, .tree, .job, .cells, .sess, .limbs, .stream, .host, .ras, .journal, .pendStep, .free, .sent] s u := by
  refine .ofNext e ?_
  repeat' (with_reducible first
    | apply Alters.refl | assumption | apply Alters.step (State.startScrub_alters _) (by decide +kernel)
    | apply Alters.step (State.writeHash_alters _ _ _) (by decide +kernel)
    | apply Alters.step (State.advanceCounter_alters _ _ _) (by decide +kernel)
    | apply Alters.step (State.abortAll_alters _) (by decide +kernel)
    | apply Alters.step (State.hwWrite_alters _ _ _ _) (by decide +kernel)
    | apply Alters.step (State.objVerify_alters _ _ _ _ _ _ _) (by decide +kernel)
    | apply Alters.step (State.newNonce_alters _) (by decide +kernel)
    | apply Alters.step (State.barkEnd_alters _ _ _) (by decide +kernel)
    | apply State.needEntropy_alters (by decide +kernel) | apply State.barkRun_alters (by decide +kernel)
    | apply Alters.of22 (by assumption) | apply Alters.ite | intro _ | dsimp only | split | refine Alters.update ?_)

theorem execRelease_alters (len : Nat) (s : State) {u : State}
    (e : execRelease len s = .next u) : Alters [.regs, .modl, .tel, .hw, .bark, .tree, .job, .cells, .sess, .limbs, .stream, .host, .ras, .journal, .pendStep, .free, .sent] s u := by
  refine .ofNext e ?_
  repeat' (with_reducible first
    | apply Alters.refl | assumption | apply Alters.step (State.startScrub_alters _) (by decide +kernel)
    | apply Alters.step (State.hwWrite_alters _ _ _ _) (by decide +kernel)
    | apply Alters.step (State.objVerify_alters _ _ _ _ _ _ _) (by decide +kernel)
    | apply Alters.step (State.newNonce_alters _) (by decide +kernel)
    | apply Alters.step (State.barkEnd_alters _ _ _) (by decide +kernel)
    | apply State.needEntropy_alters (by decide +kernel) | apply State.barkRun_alters (by decide +kernel)
    | apply Alters.of22 (by assumption) | apply Alters.ite | intro _)

theorem execRevoke_alters (len : Nat) (s : State) {u : State}
    (e : execRevoke len s = .next u) : Alters [.regs, .bark, .ras] s u := by
  refine .ofNext e ?_
  repeat' (with_reducible first
    | apply Alters.refl | assumption | apply Alters.step (State.endGrant_alters _ _) (by decide +kernel)
    | apply Alters.step (State.barkEnd_alters _ _ _) (by decide +kernel) | apply State.envRun_alters (by decide +kernel)
    | intro _)

theorem execRollbackAdvance_alters (len : Nat) (s : State) {u : State}
    (e : execRollbackAdvance len s = .next u) : Alters [.regs, .hw, .bark] s u := by
  refine .ofNext e ?_
  repeat' (with_reducible first
    | apply Alters.refl | assumption | apply Alters.step (State.advanceCounter_alters _ _ _) (by decide +kernel)
    | apply Alters.step (State.inc_alters _ _ _) (by decide +kernel)
    | apply Alters.step (State.barkEnd_alters _ _ _) (by decide +kernel) | apply State.envRun_alters (by decide +kernel)
    | apply Alters.ite | intro _)

theorem execRootLoad_alters (len : Nat) (top : List Byte) (s : State) {u : State}
    (e : execRootLoad len top s = .next u) : Alters [.regs, .modl, .tel, .bark, .tree, .job, .cells, .sess, .limbs, .stream, .host, .ras, .journal, .pendStep, .free, .sent] s u := by
  refine .ofNext e ?_
  repeat' (with_reducible first
    | apply Alters.refl | assumption | apply Alters.step (State.security_alters _ _ _ _) (by decide +kernel)
    | apply Alters.step (State.barkEnd_alters _ _ _) (by decide +kernel) | apply State.envRun_alters (by decide +kernel)
    | apply Alters.ite | intro _ | dsimp only | split | refine Alters.update ?_)

theorem execScrubComplete_alters (s : State) {u : State}
    (e : execScrubComplete s = .next u) : Alters [.regs, .flash, .hw, .bark, .tree, .graft, .cells, .taps, .sess, .limbs, .host, .ras, .sent] s u := by
  refine .ofNext e ?_
  repeat' (with_reducible first
    | apply Alters.refl | apply Alters.step (State.scrubWrites_alters _) (by decide +kernel)
    | apply Alters.step (State.endGrant_alters _ _) (by decide +kernel)
    | apply Alters.step (State.scrub_alters _) (by decide +kernel)
    | apply Alters.step (State.event_alters _ _) (by decide +kernel) | apply Alters.ite)

theorem execSeal_alters (s : State) {u : State}
    (e : execSeal s = .next u) : Alters [.bark] s u := by
  refine .ofNext e ?_
  repeat' (with_reducible first
    | apply Alters.refl | apply Alters.step (State.setBark_alters _ _) (by decide +kernel))

theorem execSmkExport_alters (len : Nat) (s : State) {u : State}
    (e : execSmkExport len s = .next u) : Alters [.regs, .bark] s u := by
  refine .ofNext e ?_
  repeat' (with_reducible first
    | apply Alters.refl | assumption | apply Alters.step (State.barkReply_alters _ _) (by decide +kernel)
    | apply Alters.step (State.barkEnd_alters _ _ _) (by decide +kernel) | apply State.envRun_alters (by decide +kernel)
    | apply Alters.ite | intro _ | dsimp only | split)

theorem execSmkGenerate_alters (len : Nat) (s : State) {u : State}
    (e : execSmkGenerate len s = .next u) : Alters [.regs, .flash, .tel, .bark, .host, .ras, .journal, .free, .sent] s u := by
  refine .ofNext e ?_
  repeat' (with_reducible first
    | apply Alters.refl | assumption | apply Alters.step (State.random_alters _ _) (by decide +kernel)
    | apply Alters.step (State.keysChanged_alters _) (by decide +kernel)
    | apply Alters.step (State.setBark_alters _ _) (by decide +kernel)
    | apply Alters.step (State.barkEnd_alters _ _ _) (by decide +kernel)
    | apply State.needEntropy_alters (by decide +kernel) | apply State.envRun_alters (by decide +kernel)
    | intro _)

theorem execTreeReset_alters (len : Nat) (s : State) {u : State}
    (e : execTreeReset len s = .next u) : Alters [.regs, .modl, .tel, .hw, .bark, .tree, .job, .cells, .sess, .limbs, .stream, .host, .ras, .journal, .pendStep, .free, .sent] s u := by
  refine .ofNext e ?_
  repeat' (with_reducible first
    | apply Alters.refl | assumption | apply Alters.step (State.hwWait_alters _ _ _) (by decide +kernel)
    | apply Alters.step (State.barkEnd_alters _ _ _) (by decide +kernel) | apply State.envRun_alters (by decide +kernel)
    | apply Alters.ite | intro _ | dsimp only | split | refine Alters.update ?_)

/-! ## HeartwoodExec -/

theorem State.bandMoved_alters (old : State) (s : State) (n : Nat) :
    Alters [.regs, .cells, .free] s (State.bandMoved old s n) := by
  unfold State.bandMoved
  repeat' (with_reducible first
    | apply Alters.refl | apply Alters.step (State.setCell_alters _ _ _ _) (by decide +kernel)
    | apply Alters.step (State.draw_alters _) (by decide +kernel)
    | apply Alters.step (State.setF_alters _ _ _) (by decide +kernel) | apply Alters.of1 (by assumption)
    | apply Alters.of2 (by assumption) | apply Alters.ite | apply Alters.foldl | apply Alters.foldlFst
    | apply Alters.foldlSnd | intro _ | dsimp only | split | refine Alters.update ?_)

theorem State.setRecov_alters (s : State) (f : Recovery → Recovery) :
    Alters [.ras] s (State.setRecov s f) := by
  unfold State.setRecov
  repeat' (with_reducible first
    | apply Alters.refl | dsimp only | refine Alters.update ?_)

theorem State.hostWrite_alters (s : State) (reg : Nat) (value : Nat) :
    Alters [.hw] s (State.hostWrite s reg value) := by
  unfold State.hostWrite
  repeat' (with_reducible first
    | apply Alters.refl | dsimp only | refine Alters.update ?_)

theorem State.markUnusable_alters (s : State) (n : Nat) :
    Alters [.graft] s (State.markUnusable s n) := by
  unfold State.markUnusable
  repeat' (with_reducible first
    | apply Alters.refl | apply Alters.step (State.setGraft_alters _ _) (by decide +kernel))

theorem State.settleBands_alters (s : State) :
    Alters [.regs, .modl, .tel, .hw, .bark, .tree, .job, .cells, .sess, .limbs, .stream, .host, .ras, .journal, .pendStep, .free, .sent] s (State.settleBands s) := by
  unfold State.settleBands
  repeat' (with_reducible first
    | apply Alters.refl | apply Alters.step (State.bandMoved_alters _ _ _) (by decide +kernel)
    | apply Alters.step (State.hwWait_alters _ _ _) (by decide +kernel) | apply Alters.foldl | apply Alters.foldlFst
    | apply Alters.foldlSnd | intro _)

theorem State.shiftAll_alters (s : State) :
    Alters [.regs, .hw, .graft, .host, .ras, .sent] s (State.shiftAll s).1 := by
  unfold State.shiftAll
  repeat' (with_reducible first
    | apply Alters.refl | apply Alters.step (State.setRecov_alters _ _) (by decide +kernel)
    | apply Alters.step (State.retireRows_alters _ _ _) (by decide +kernel)
    | apply Alters.step (State.markUnusable_alters _ _) (by decide +kernel) | apply Alters.of1 (by assumption)
    | apply Alters.of2 (by assumption) | apply Alters.ite | apply Alters.foldl | apply Alters.foldlFst
    | apply Alters.foldlSnd | intro _)

theorem State.shiftBands_alters (s : State) :
    Alters [.regs, .modl, .tel, .hw, .bark, .tree, .graft, .job, .cells, .sess, .limbs, .stream, .host, .ras, .journal, .pendStep, .free, .sent] s (State.shiftBands s) := by
  unfold State.shiftBands
  repeat' (with_reducible first
    | apply Alters.refl | apply Alters.step (State.settleBands_alters _) (by decide +kernel)
    | apply Alters.step (State.raise_alters _ _ _ _ _ _ _) (by decide +kernel)
    | apply Alters.step (State.shiftAll_alters _) (by decide +kernel) | apply Alters.of1 (by assumption)
    | apply Alters.of2 (by assumption) | apply Alters.ite | apply Alters.foldl | apply Alters.foldlFst
    | apply Alters.foldlSnd | intro _)

theorem execHeartwoodRefresh_alters (reg : Nat) (s : State) {u : State}
    (e : execHeartwoodRefresh reg s = .next u) : Alters [.hw] s u := by
  refine .ofNext e ?_
  repeat' (with_reducible first
    | apply Alters.refl | apply Alters.ite | dsimp only | split | refine Alters.update ?_)

theorem execHeartwoodWrite_alters (reg : Nat) (first : Option Nat) (second : Option Nat) (s : State) {u : State}
    (e : execHeartwoodWrite reg first second s = .next u) : Alters [.regs, .modl, .tel, .hw, .bark, .tree, .job, .cells, .sess, .limbs, .stream, .host, .ras, .journal, .pendStep, .free, .sent] s u := by
  refine .ofNext e ?_
  repeat' (with_reducible first
    | apply Alters.refl | apply Alters.step (State.hwPersist_alters _ _ _ _ _ _) (by decide +kernel)
    | apply Alters.step (State.bandMoved_alters _ _ _) (by decide +kernel)
    | apply Alters.step (State.hwFault_alters _ _ _ _) (by decide +kernel)
    | apply Alters.step (State.fireRoot_alters _ _ _ _) (by decide +kernel) | apply Alters.of2 (by assumption)
    | apply Alters.ite | dsimp only | split | refine Alters.update ?_)

theorem execHwClrCounters_alters (s : State) {u : State}
    (e : execHwClrCounters s = .next u) : Alters [.regs] s u := by
  refine .ofNext e ?_
  repeat' (with_reducible first
    | apply Alters.refl | apply Alters.step (State.clearArr_alters _ _ _) (by decide +kernel))

theorem execLifeCounterUpdate_alters (s : State) {u : State}
    (e : execLifeCounterUpdate s = .next u) : Alters [.regs, .hw] s u := by
  refine .ofNext e ?_
  repeat' (with_reducible first
    | apply Alters.refl | apply Alters.step (State.lifeTimes_alters _) (by decide +kernel) | dsimp only
    | refine Alters.update ?_)

theorem execRwhWrite_alters (addr : Nat) (w : Word64) (s : State) {u : State}
    (e : execRwhWrite addr w s = .next u) : Alters [.regs, .hw] s u := by
  refine .ofNext e ?_
  repeat' (with_reducible first
    | apply Alters.refl | apply Alters.step (State.incLo_alters _ _ _) (by decide +kernel)
    | apply Alters.step (State.hostWrite_alters _ _ _) (by decide +kernel)
    | apply Alters.step (State.inc_alters _ _ _) (by decide +kernel) | apply Alters.ite)

/-! ## FirmwareExec -/

theorem State.setBoot_alters (s : State) (f : Boot → Boot) :
    Alters [.boot] s (State.setBoot s f) := by
  unfold State.setBoot
  repeat' (with_reducible first
    | apply Alters.refl | dsimp only | refine Alters.update ?_)

theorem execFwActivate_alters (len : Nat) (s : State) {u : State}
    (e : execFwActivate len s = .next u) : Alters [.regs, .modl, .boot, .tel, .bark, .tree, .job, .cells, .sess, .limbs, .stream, .host, .ras, .journal, .pendStep, .free, .sent] s u := by
  refine .ofNext e ?_
  repeat' (with_reducible first
    | apply Alters.refl | assumption | apply Alters.step (State.fwRecord_alters _ _ _ _) (by decide +kernel)
    | apply Alters.step (State.barkEnd_alters _ _ _) (by decide +kernel)
    | apply Alters.step (State.sigForce_alters _) (by decide +kernel)
    | apply Alters.step (State.setBoot_alters _ _) (by decide +kernel) | apply State.envRun_alters (by decide +kernel)
    | apply Alters.of22 (by assumption) | apply Alters.ite | intro _ | dsimp only | split)

theorem execFwCommit_alters (len : Nat) (s : State) {u : State}
    (e : execFwCommit len s = .next u) : Alters [.regs, .modl, .boot, .flash, .tel, .bark, .tree, .job, .cells, .sess, .limbs, .stream, .host, .ras, .journal, .pendStep, .free, .sent] s u := by
  refine .ofNext e ?_
  repeat' (with_reducible first
    | apply Alters.refl | assumption | apply Alters.step (State.commitBuffer_alters _ _) (by decide +kernel)
    | apply Alters.step (State.barkEnd_alters _ _ _) (by decide +kernel) | apply State.envRun_alters (by decide +kernel)
    | apply Alters.of2 (by assumption) | apply Alters.ite | intro _ | dsimp only | split)

theorem execFwWrite_alters (len : Nat) (s : State) {u : State}
    (e : execFwWrite len s = .next u) : Alters [.regs, .boot, .bark] s u := by
  refine .ofNext e ?_
  repeat' (with_reducible first
    | apply Alters.refl | assumption | apply Alters.step (State.barkEnd_alters _ _ _) (by decide +kernel)
    | apply Alters.step (State.setBoot_alters _ _) (by decide +kernel) | apply State.envRun_alters (by decide +kernel)
    | apply Alters.ite | intro _)

theorem execLimbDieBoot_alters (limb : Nat) (s : State) {u : State}
    (e : execLimbDieBoot limb s = .next u) : Alters [.regs, .modl, .boot, .tel, .hw, .bark, .tree, .job, .cells, .taps, .ports, .sess, .limbs, .stream, .host, .ras, .journal, .pendStep, .free, .sent] s u := by
  refine .ofNext e ?_
  repeat' (with_reducible first
    | apply Alters.refl | apply Alters.step (State.detect_alters _ _ _) (by decide +kernel)
    | apply Alters.step (State.advanceCounter_alters _ _ _) (by decide +kernel)
    | apply Alters.step (State.limbReset_alters _ _ _) (by decide +kernel)
    | apply Alters.step (State.measure_alters _ _ _) (by decide +kernel)
    | apply Alters.step (State.linkTo_alters _ _ _ _) (by decide +kernel)
    | apply Alters.step (State.barkEnd_alters _ _ _) (by decide +kernel)
    | apply Alters.step (State.setBoot_alters _ _) (by decide +kernel) | apply Alters.of1 (by assumption)
    | apply Alters.of2 (by assumption) | apply Alters.ite | apply Alters.foldl | apply Alters.foldlFst
    | apply Alters.foldlSnd | apply Alters.getDMap | apply Alters.getD | intro _ | dsimp only | split)

theorem execTrunkHandover_alters (s : State) {u : State}
    (e : execTrunkHandover s = .next u) : Alters [.regs, .modl, .boot, .tel, .hw, .bark, .tree, .graft, .job, .cells, .sess, .limbs, .stream, .host, .ras, .journal, .pendStep, .free, .sent] s u := by
  refine .ofNext e ?_
  repeat' (with_reducible first
    | apply Alters.refl | apply Alters.step (State.advanceCounter_alters _ _ _) (by decide +kernel)
    | apply Alters.step (State.measure_alters _ _ _) (by decide +kernel)
    | apply Alters.step (State.hostReset_alters _ _) (by decide +kernel)
    | apply Alters.step (State.barkEnd_alters _ _ _) (by decide +kernel)
    | apply Alters.step (State.setBoot_alters _ _) (by decide +kernel) | apply Alters.ite | dsimp only | split)

/-! ## Boot -/

theorem State.bankFailed_alters (s : State) (kind : Nat) (v : FwVerdict) (fellBack : Bool) :
    Alters [.regs, .modl, .boot, .tel, .bark, .tree, .job, .cells, .sess, .limbs, .stream, .host, .ras, .journal, .pendStep, .free, .sent] s (State.bankFailed s kind v fellBack) := by
  unfold State.bankFailed
  repeat' (with_reducible first
    | apply Alters.refl | apply Alters.step (State.fwFault_alters _ _ _ _) (by decide +kernel)
    | apply Alters.step (State.objectCount_alters _ _) (by decide +kernel) | dsimp only | split)

theorem State.toStage_alters (s : State) (n : Nat) :
    Alters [.boot] s (State.toStage s n) := by
  unfold State.toStage
  repeat' (with_reducible first
    | apply Alters.refl | apply Alters.step (State.setBoot_alters _ _) (by decide +kernel))

theorem State.bootDies_alters (s : State) (o : BootObs) :
    Alters [.boot, .power] s (State.bootDies s o) := by
  unfold State.bootDies
  repeat' (with_reducible first
    | apply Alters.refl | apply Alters.step (State.setDomain_alters _ _ _) (by decide +kernel)
    | apply Alters.step (State.toStage_alters _ _) (by decide +kernel) | apply Alters.ite | apply Alters.foldl
    | apply Alters.foldlFst | apply Alters.foldlSnd | intro _)

theorem State.lateFault_alters (s : State) (f : Nat × Nat × Nat) :
    Alters [.regs, .modl, .tel, .bark, .tree, .job, .cells, .sess, .limbs, .stream, .host, .ras, .journal, .pendStep, .free, .sent] s (State.lateFault s f) := by
  unfold State.lateFault
  repeat' (with_reducible first
    | apply Alters.refl | apply Alters.step (State.hwFault_alters _ _ _ _) (by decide +kernel)
    | apply Alters.step (State.security_alters _ _ _ _) (by decide +kernel) | apply Alters.ite)

theorem State.stopBoot_alters (s : State) :
    Alters [.boot] s (State.stopBoot s) := by
  unfold State.stopBoot
  repeat' (with_reducible first
    | apply Alters.refl | apply Alters.step (State.setBoot_alters _ _) (by decide +kernel))

theorem State.unwrapKeys_alters (s : State) :
    Alters [.regs, .modl, .tel, .bark, .tree, .job, .cells, .sess, .limbs, .stream, .host, .ras, .journal, .pendStep, .free, .sent] s (State.unwrapKeys s) := by
  unfold State.unwrapKeys
  repeat' (with_reducible first
    | apply Alters.refl | apply Alters.step (State.security_alters _ _ _ _) (by decide +kernel) | apply Alters.getDMap
    | apply Alters.getD | intro _ | dsimp only | split | refine Alters.update ?_)

theorem State.bootEpoch_alters (s : State) :
    Alters [.regs, .modl, .boot, .tel, .hw, .bark, .tree, .job, .cells, .sess, .limbs, .stream, .host, .ras, .journal, .pendStep, .free, .sent] s (State.bootEpoch s) := by
  unfold State.bootEpoch
  repeat' (with_reducible first
    | apply Alters.refl | apply Alters.step (State.random_alters _ _) (by decide +kernel)
    | apply Alters.step (State.lateFault_alters _ _) (by decide +kernel)
    | apply Alters.step (State.toStage_alters _ _) (by decide +kernel)
    | apply Alters.step (State.hwWait_alters _ _ _) (by decide +kernel)
    | apply Alters.step (State.inc_alters _ _ _) (by decide +kernel)
    | apply Alters.step (State.unwrapKeys_alters _) (by decide +kernel)
    | apply Alters.step (State.stopBoot_alters _) (by decide +kernel)
    | apply Alters.step (State.setBoot_alters _ _) (by decide +kernel) | apply Alters.of1 (by assumption)
    | apply Alters.of2 (by assumption) | apply Alters.ite | apply Alters.foldl | apply Alters.foldlFst
    | apply Alters.foldlSnd | intro _ | dsimp only | split | refine Alters.update ?_)

theorem State.keepFault_alters (s : State) (cls : Nat) (code : Nat) (detail : Nat) :
    Alters [.boot] s (State.keepFault s cls code detail) := by
  unfold State.keepFault
  repeat' (with_reducible first
    | apply Alters.refl | apply Alters.step (State.setBoot_alters _ _) (by decide +kernel))

theorem State.bootHeartwood_alters (s : State) :
    Alters [.boot, .bark] s (State.bootHeartwood s) := by
  unfold State.bootHeartwood
  repeat' (with_reducible first
    | apply Alters.refl | apply Alters.step (State.measureConfig_alters _) (by decide +kernel)
    | apply Alters.step (State.toStage_alters _ _) (by decide +kernel)
    | apply Alters.step (State.setMeas_alters _ _ _) (by decide +kernel)
    | apply Alters.step (State.keepFault_alters _ _ _ _) (by decide +kernel) | apply Alters.foldl | apply Alters.foldlFst
    | apply Alters.foldlSnd | intro _ | dsimp only | refine Alters.update ?_)

theorem State.bootHost_alters (s : State) (o : BootObs) :
    Alters [.boot, .host] s (State.bootHost s o) := by
  unfold State.bootHost
  repeat' (with_reducible first
    | apply Alters.refl | apply Alters.step (State.setHost_alters _ _) (by decide +kernel)
    | apply Alters.step (State.toStage_alters _ _) (by decide +kernel)
    | apply Alters.step (State.stopBoot_alters _) (by decide +kernel) | apply Alters.ite)

theorem State.runImage_alters (s : State) (kind : Nat) (p : Bool × FwImage) :
    Alters [.boot, .bark] s (State.runImage s kind p) := by
  unfold State.runImage
  repeat' (with_reducible first
    | apply Alters.refl | apply Alters.step (State.measure_alters _ _ _) (by decide +kernel)
    | apply Alters.step (State.setBoot_alters _ _) (by decide +kernel))

theorem State.toRecovery_alters (s : State) (m : RecMode) :
    Alters [.modl, .boot, .sent] s (State.toRecovery s m) := by
  unfold State.toRecovery
  repeat' (with_reducible first
    | apply Alters.refl | apply Alters.step (State.faultN_alters _) (by decide +kernel)
    | apply Alters.step (State.setBoot_alters _ _) (by decide +kernel))

theorem State.tryBanks_alters (s : State) (kind : Nat) :
    Alters [.regs, .modl, .boot, .tel, .bark, .tree, .job, .cells, .sess, .limbs, .stream, .host, .ras, .journal, .pendStep, .free, .sent] s (State.tryBanks s kind).2 := by
  unfold State.tryBanks
  repeat' (with_reducible first
    | apply Alters.refl | apply Alters.step (State.objectCount_alters _ _) (by decide +kernel)
    | apply Alters.step (State.bankFailed_alters _ _ _ _) (by decide +kernel) | dsimp only | split)

theorem State.bootLimbs_alters (s : State) :
    Alters [.regs, .modl, .boot, .tel, .bark, .tree, .job, .cells, .sess, .limbs, .stream, .host, .ras, .journal, .pendStep, .free, .sent] s (State.bootLimbs s) := by
  unfold State.bootLimbs
  repeat' (with_reducible first
    | apply Alters.refl | apply Alters.step (State.toStage_alters _ _) (by decide +kernel)
    | apply Alters.step (State.toRecovery_alters _ _) (by decide +kernel)
    | apply Alters.step (State.tryBanks_alters _ _) (by decide +kernel)
    | apply Alters.step (State.setBoot_alters _ _) (by decide +kernel)
    | apply Alters.step (State.runImage_alters _ _ _) (by decide +kernel) | apply Alters.of2 (by assumption) | dsimp only
    | split)

theorem State.bootLinks_alters (s : State) :
    Alters [.regs, .boot, .ports, .host, .sent] s (State.bootLinks s) := by
  unfold State.bootLinks
  repeat' (with_reducible first
    | apply Alters.refl | apply Alters.step (State.detect_alters _ _ _) (by decide +kernel)
    | apply Alters.step (State.toStage_alters _ _) (by decide +kernel)
    | apply Alters.step (State.linkTo_alters _ _ _ _) (by decide +kernel) | apply Alters.ite | apply Alters.foldl
    | apply Alters.foldlFst | apply Alters.foldlSnd | intro _)

theorem State.bootMains_alters (s : State) :
    Alters [.modl, .boot] s (State.bootMains s) := by
  unfold State.bootMains
  repeat' (with_reducible first
    | apply Alters.refl | apply Alters.step (State.toStage_alters _ _) (by decide +kernel) | apply Alters.ite | dsimp only
    | split | refine Alters.update ?_)

theorem State.bootPuf_alters (s : State) (o : BootObs) :
    Alters [.regs, .modl, .boot, .tel, .bark, .tree, .job, .cells, .sess, .limbs, .stream, .host, .ras, .journal, .pendStep, .free, .sent] s (State.bootPuf s o) := by
  unfold State.bootPuf
  repeat' (with_reducible first
    | apply Alters.refl | apply Alters.step (State.setF_alters _ _ _) (by decide +kernel)
    | apply Alters.step (State.toStage_alters _ _) (by decide +kernel)
    | apply Alters.step (State.security_alters _ _ _ _) (by decide +kernel)
    | apply Alters.step (State.stopBoot_alters _) (by decide +kernel) | apply Alters.ite | dsimp only | split
    | refine Alters.update ?_)

theorem State.bootSeed_alters (s : State) :
    Alters [.regs, .modl, .boot, .clk, .tel, .bark, .tree, .job, .cells, .sess, .limbs, .stream, .host, .ras, .journal, .pendStep, .free, .sent] s (State.bootSeed s) := by
  unfold State.bootSeed
  repeat' (with_reducible first
    | apply Alters.refl | apply Alters.step (State.setClk_alters _ _) (by decide +kernel)
    | apply Alters.step (State.toStage_alters _ _) (by decide +kernel)
    | apply Alters.step (State.toRecovery_alters _ _) (by decide +kernel)
    | apply Alters.step (State.tryBanks_alters _ _) (by decide +kernel)
    | apply Alters.step (State.setBoot_alters _ _) (by decide +kernel)
    | apply Alters.step (State.runImage_alters _ _ _) (by decide +kernel) | apply Alters.of2 (by assumption) | dsimp only
    | split)

theorem State.bootStandby_alters (s : State) (o : BootObs) :
    Alters [.boot, .clk] s (State.bootStandby s o) := by
  unfold State.bootStandby
  repeat' (with_reducible first
    | apply Alters.refl | apply Alters.step (State.setClk_alters _ _) (by decide +kernel)
    | apply Alters.step (State.toStage_alters _ _) (by decide +kernel)
    | apply Alters.step (State.keepFault_alters _ _ _ _) (by decide +kernel) | apply Alters.ite)

theorem State.tidySpare_alters (s : State) (n : Nat) :
    Alters [.regs, .hw] s (State.tidySpare s n) := by
  unfold State.tidySpare
  repeat' (with_reducible first
    | apply Alters.refl | apply Alters.step (State.writeSpare_alters _ _ _ _) (by decide +kernel) | apply Alters.ite)

theorem State.bootTest_alters (s : State) (o : BootObs) :
    Alters [.regs, .boot, .power, .hw, .bark, .host, .sent] s (State.bootTest s o) := by
  unfold State.bootTest
  repeat' (with_reducible first
    | apply Alters.refl | apply Alters.step (State.setDomain_alters _ _ _) (by decide +kernel)
    | apply Alters.step (State.toStage_alters _ _) (by decide +kernel)
    | apply Alters.step (State.retireRows_alters _ _ _) (by decide +kernel)
    | apply Alters.step (State.tidySpare_alters _ _) (by decide +kernel) | apply Alters.of1 (by assumption)
    | apply Alters.ite | apply Alters.foldl | apply Alters.foldlFst | apply Alters.foldlSnd | intro _ | dsimp only | split
    | refine Alters.update ?_)

theorem State.bootTrunk_alters (s : State) :
    Alters [.regs, .modl, .boot, .tel, .bark, .tree, .job, .cells, .sess, .limbs, .stream, .host, .ras, .journal, .pendStep, .free, .sent] s (State.bootTrunk s) := by
  unfold State.bootTrunk
  repeat' (with_reducible first
    | apply Alters.refl | apply Alters.step (State.toStage_alters _ _) (by decide +kernel)
    | apply Alters.step (State.toRecovery_alters _ _) (by decide +kernel)
    | apply Alters.step (State.tryBanks_alters _ _) (by decide +kernel)
    | apply Alters.step (State.setBoot_alters _ _) (by decide +kernel)
    | apply Alters.step (State.runImage_alters _ _ _) (by decide +kernel) | apply Alters.of2 (by assumption)
    | apply Alters.ite | dsimp only | split)

theorem State.bootVariant_alters (s : State) :
    Alters [.cert, .regs, .modl, .boot, .tel, .bark, .tree, .job, .cells, .sess, .limbs, .stream, .host, .ras, .journal, .pendStep, .free, .sent] s (State.bootVariant s) := by
  unfold State.bootVariant
  repeat' (with_reducible first
    | apply Alters.refl | apply Alters.step (State.toStage_alters _ _) (by decide +kernel)
    | apply Alters.step (State.security_alters _ _ _ _) (by decide +kernel)
    | apply Alters.step (State.stopBoot_alters _) (by decide +kernel)
    | apply Alters.step (State.objectCount_alters _ _) (by decide +kernel)
    | apply Alters.step (State.setMeas_alters _ _ _) (by decide +kernel) | apply Alters.ite | dsimp only | split
    | refine Alters.update ?_)

theorem State.bootZero_alters (s : State) :
    Alters [.boot, .power, .cells] s (State.bootZero s) := by
  unfold State.bootZero
  repeat' (with_reducible first
    | apply Alters.refl | apply Alters.step (State.toStage_alters _ _) (by decide +kernel) | apply Alters.ite | dsimp only
    | split | refine Alters.update ?_)

theorem State.countGasp_alters (s : State) :
    Alters [.regs, .hw] s (State.countGasp s) := by
  unfold State.countGasp
  repeat' (with_reducible first
    | apply Alters.refl | apply Alters.step (State.lifeAdd_alters _ _ _) (by decide +kernel)
    | apply Alters.step (State.hwWrite_alters _ _ _ _) (by decide +kernel) | apply Alters.ite)

theorem execBootStage_alters (o : BootObs) (s : State) {u : State}
    (e : execBootStage o s = .next u) : Alters [.cert, .regs, .modl, .boot, .clk, .power, .tel, .hw, .bark, .tree, .job, .cells, .ports, .sess, .limbs, .stream, .host, .ras, .journal, .pendStep, .free, .sent] s u := by
  refine .ofNext e ?_
  repeat' (with_reducible first
    | apply Alters.refl | apply Alters.step (State.bootPuf_alters _ _) (by decide +kernel)
    | apply Alters.step (State.bootDies_alters _ _) (by decide +kernel)
    | apply Alters.step (State.bootHost_alters _ _) (by decide +kernel)
    | apply Alters.step (State.bootMains_alters _) (by decide +kernel)
    | apply Alters.step (State.bootLinks_alters _) (by decide +kernel)
    | apply Alters.step (State.toStage_alters _ _) (by decide +kernel)
    | apply Alters.step (State.bootHeartwood_alters _) (by decide +kernel)
    | apply Alters.step (State.bootTrunk_alters _) (by decide +kernel)
    | apply Alters.step (State.bootVariant_alters _) (by decide +kernel)
    | apply Alters.step (State.bootTest_alters _ _) (by decide +kernel)
    | apply Alters.step (State.bootZero_alters _) (by decide +kernel)
    | apply Alters.step (State.bootStandby_alters _ _) (by decide +kernel)
    | apply Alters.step (State.bootLimbs_alters _) (by decide +kernel)
    | apply Alters.step (State.bootSeed_alters _) (by decide +kernel)
    | apply Alters.step (State.bootEpoch_alters _) (by decide +kernel) | apply Alters.ite | dsimp only | split)

theorem execReady_alters (s : State) {u : State}
    (e : execReady s = .next u) : Alters [.regs, .boot, .hw] s u := by
  refine .ofNext e ?_
  repeat' (with_reducible first
    | apply Alters.refl | apply Alters.step (State.advanceCounter_alters _ _ _) (by decide +kernel)
    | apply Alters.step (State.toStage_alters _ _) (by decide +kernel)
    | apply Alters.step (State.lifeAdd_alters _ _ _) (by decide +kernel)
    | apply Alters.step (State.countGasp_alters _) (by decide +kernel) | apply Alters.ite)

end Sys2Proof.Machine
end

