-- ==== Sys2Proof/Laws/FramesJobs.lean ====
section
/-!
SUPPORT. What each operation can change, one lemma each: jobs, recovery, the journal, module inputs, injection, register writes, telemetry and the ring edge.
-/
namespace Sys2Proof.Machine

set_option Elab.async false

/-! ## GateExec -/

theorem State.modGroup_alters (s : State) (g : Nat) (f : GroupRun → GroupRun) :
    Alters [.job] s (State.modGroup s g f) := by
  unfold State.modGroup
  repeat' (with_reducible first
    | apply Alters.refl | dsimp only | refine Alters.update ?_)

theorem State.releaseLines_alters (s : State) (g : Nat) (tile : Nat) (o : Nat × Nat) :
    Alters [.cells] s (State.releaseLines s g tile o) := by
  unfold State.releaseLines
  repeat' (with_reducible first
    | apply Alters.refl | apply Alters.step (State.setCell_alters _ _ _ _) (by decide +kernel))

theorem State.gateSkip_alters (s : State) (g : Nat) (tile : Nat) :
    Alters [.regs, .job, .cells] s (State.gateSkip s g tile) := by
  unfold State.gateSkip
  repeat' (with_reducible first
    | apply Alters.refl | apply Alters.step (State.modGroup_alters _ _ _) (by decide +kernel)
    | apply Alters.step (State.inc_alters _ _ _) (by decide +kernel)
    | apply Alters.step (State.releaseLines_alters _ _ _ _) (by decide +kernel) | apply Alters.ite | dsimp only | split)

theorem State.noMajority_alters (s : State) (g : Nat) (tile : Nat) (ox : Nat) (oy : Nat) (inj : Bool) :
    Alters [.regs, .modl, .tel, .bark, .tree, .job, .cells, .sess, .limbs, .stream, .host, .ras, .journal, .pendStep, .free, .sent] s (State.noMajority s g tile ox oy inj) := by
  unfold State.noMajority
  repeat' (with_reducible first
    | apply Alters.refl | apply Alters.step (State.modGroup_alters _ _ _) (by decide +kernel)
    | apply Alters.step (State.raise_alters _ _ _ _ _ _ _) (by decide +kernel))

theorem State.acceptWork_alters (s : State) (x : Nat) (y : Nat) (w : TileWork) (ox : Nat) (oy : Nat) :
    Alters [.regs, .modl, .tel, .bark, .tree, .job, .cells, .sess, .limbs, .stream, .host, .ras, .journal, .pendStep, .free, .sent] s (State.acceptWork s x y w ox oy) := by
  unfold State.acceptWork
  repeat' (with_reducible first
    | apply Alters.refl | apply Alters.step (State.setCell_alters _ _ _ _) (by decide +kernel)
    | apply Alters.step (State.gateSkip_alters _ _ _) (by decide +kernel)
    | apply Alters.step (State.noMajority_alters _ _ _ _ _ _) (by decide +kernel) | apply Alters.ite | dsimp only | split)

theorem State.reply_alters (s : State) (c : ClaimRec) (p : Nat × Nat) (r : ClaimReply) :
    Alters [.regs, .modl, .tel, .bark, .tree, .job, .cells, .sess, .limbs, .stream, .host, .ras, .journal, .pendRing, .pendStep, .free, .sent] s (State.reply s c p r) := by
  unfold State.reply
  repeat' (with_reducible first
    | apply Alters.refl | apply Alters.step (State.sendUnits_alters _ _ _ _ _) (by decide +kernel))

theorem State.sampleTile_alters (s : State) (g : Nat) (c : ClaimRec) (rank : Nat) (tile : Nat) :
    Alters [.regs, .modl, .tel, .bark, .tree, .job, .cells, .sess, .limbs, .stream, .host, .ras, .journal, .pendRing, .pendStep, .free, .sent] s (State.sampleTile s g c rank tile) := by
  unfold State.sampleTile
  repeat' (with_reducible first
    | apply Alters.refl | apply Alters.step (State.modGroup_alters _ _ _) (by decide +kernel)
    | apply Alters.step (State.reply_alters _ _ _ _) (by decide +kernel)
    | apply Alters.step (State.gateSkip_alters _ _ _) (by decide +kernel)
    | apply Alters.step (State.inc_alters _ _ _) (by decide +kernel) | dsimp only | split)

theorem State.coppiceGroup_alters (s : State) (j : Job) (g : Nat) (c : ClaimRec) :
    Alters [.regs, .modl, .tel, .bark, .tree, .job, .cells, .sess, .limbs, .stream, .host, .ras, .journal, .pendRing, .pendStep, .free, .sent] s (State.coppiceGroup s j g c) := by
  unfold State.coppiceGroup
  repeat' (with_reducible first
    | apply Alters.refl | apply Alters.step (State.sampleTile_alters _ _ _ _ _) (by decide +kernel)
    | apply Alters.step (State.acceptWork_alters _ _ _ _ _ _) (by decide +kernel) | apply Alters.of1 (by assumption)
    | apply Alters.of2 (by assumption) | apply Alters.ite | apply Alters.foldl | apply Alters.foldlFst
    | apply Alters.foldlSnd | intro _)

theorem State.selfTestStep_alters (s : State) (claimMode : Bool) :
    Alters [.ras] s (State.selfTestStep s claimMode) := by
  unfold State.selfTestStep
  repeat' (with_reducible first
    | apply Alters.refl | apply Alters.ite | apply Alters.foldl | apply Alters.foldlFst | apply Alters.foldlSnd | intro _
    | dsimp only | split | refine Alters.update ?_)

theorem State.recordClaims_alters (s : State) (phase : Nat) (step : Nat) :
    Alters [.regs, .job, .host, .journal, .free, .sent] s (State.recordClaims s phase step) := by
  unfold State.recordClaims
  repeat' (with_reducible first
    | apply Alters.refl | apply Alters.step (State.modGroup_alters _ _ _) (by decide +kernel)
    | apply Alters.step (State.record_alters _ _ _ _) (by decide +kernel) | apply Alters.ite | apply Alters.foldl
    | apply Alters.foldlFst | apply Alters.foldlSnd | intro _)

theorem State.setItem_alters (s : State) (g : Nat) (i : GateItem) :
    Alters [.job] s (State.setItem s g i) := by
  unfold State.setItem
  repeat' (with_reducible first
    | apply Alters.refl | apply Alters.step (State.modGroup_alters _ _ _) (by decide +kernel))

theorem State.withdraw_alters (s : State) (g : Nat) (rs : List Nat) :
    Alters [.regs, .job] s (State.withdraw s g rs) := by
  unfold State.withdraw
  repeat' (with_reducible first
    | apply Alters.refl | apply Alters.step (State.modGroup_alters _ _ _) (by decide +kernel)
    | apply Alters.step (State.inc_alters _ _ _) (by decide +kernel))

theorem execClaim_alters (cx : Nat) (cy : Nat) (x : Nat) (y : Nat) (s : State) {u : State}
    (e : execClaim cx cy x y s = .next u) : Alters [.regs, .modl, .tel, .bark, .tree, .job, .cells, .sess, .limbs, .stream, .host, .ras, .journal, .pendRing, .pendStep, .free, .sent] s u := by
  refine State.withCell_alters (fun _ => ?_) e
  repeat' (with_reducible first
    | apply Alters.refl | assumption | apply Alters.step (State.setCell_alters _ _ _ _) (by decide +kernel)
    | apply Alters.step (State.modGroup_alters _ _ _) (by decide +kernel)
    | apply Alters.step (State.reply_alters _ _ _ _) (by decide +kernel)
    | apply Alters.step (State.sampleTile_alters _ _ _ _ _) (by decide +kernel)
    | apply Alters.step (State.fireCell_alters _ _ _ _ _) (by decide +kernel)
    | apply Alters.step (State.cellEvent_alters _ _ _ _ _) (by decide +kernel) | apply Alters.of2 (by assumption)
    | apply Alters.ite | intro _ | dsimp only | split)

theorem execClaimReply_alters (x : Nat) (y : Nat) (s : State) {u : State}
    (e : execClaimReply x y s = .next u) : Alters [.regs, .modl, .tel, .bark, .tree, .job, .cells, .sess, .limbs, .stream, .host, .ras, .journal, .pendStep, .free, .sent] s u := by
  refine State.onLive_alters (fun _ => ?_) e
  repeat' (with_reducible first
    | apply Alters.refl | assumption | apply Alters.step (State.setCell_alters _ _ _ _) (by decide +kernel)
    | apply Alters.step (State.modGroup_alters _ _ _) (by decide +kernel)
    | apply Alters.step (State.acceptWork_alters _ _ _ _ _ _) (by decide +kernel) | apply Alters.ite | intro _
    | dsimp only | split)

theorem execHashCompare_alters (g : Nat) (tile : Nat) (s : State) {u : State}
    (e : execHashCompare g tile s = .next u) : Alters [.regs, .modl, .tel, .bark, .tree, .job, .cells, .sess, .limbs, .stream, .host, .ras, .journal, .pendRing, .pendStep, .free, .sent] s u := by
  refine .ofNext e ?_
  repeat' (with_reducible first
    | apply Alters.refl | apply Alters.step (State.modGroup_alters _ _ _) (by decide +kernel)
    | apply Alters.step (State.reply_alters _ _ _ _) (by decide +kernel)
    | apply Alters.step (State.setItem_alters _ _ _) (by decide +kernel)
    | apply Alters.step (State.noMajority_alters _ _ _ _ _ _) (by decide +kernel)
    | apply Alters.step (State.raise_alters _ _ _ _ _ _ _) (by decide +kernel)
    | apply Alters.step (State.inc_alters _ _ _) (by decide +kernel)
    | apply Alters.step (State.releaseLines_alters _ _ _ _) (by decide +kernel) | apply Alters.ite | dsimp only | split)

theorem execVoteResolve_alters (g : Nat) (tile : Nat) (s : State) {u : State}
    (e : execVoteResolve g tile s = .next u) : Alters [.regs, .modl, .tel, .bark, .tree, .job, .cells, .sess, .limbs, .stream, .host, .ras, .journal, .pendRing, .pendStep, .free, .sent] s u := by
  refine .ofNext e ?_
  repeat' (with_reducible first
    | apply Alters.refl | apply Alters.step (State.setItem_alters _ _ _) (by decide +kernel)
    | apply Alters.step (State.noMajority_alters _ _ _ _ _ _) (by decide +kernel)
    | apply Alters.step (State.withdraw_alters _ _ _) (by decide +kernel)
    | apply Alters.step (State.declareDead_alters _ _ _ _ _ _ _) (by decide +kernel)
    | apply Alters.step (State.releaseLines_alters _ _ _ _) (by decide +kernel) | apply Alters.ite | dsimp only | split)

/-! ## Inject -/

theorem State.injWrite_alters {ps : List Part} {s0 s : State} {go det lo hi : Nat} {armed : Bool} {fields : List Fld}
    {w : Word64} {arm : State → State} (hs : Part.sub [.regs] ps = true) (h : Alters ps s0 s)
    (hf : ∀ t, Alters ps s0 t → Alters ps s0 (arm t)) :
    Alters ps s0 (s.injWrite go det lo hi armed fields w arm) := by
  unfold State.injWrite
  have h1 : Alters ps s0 (fields.foldl (fun s F => s.put F w) s) :=
    .foldl (fun t F => .step (State.put_alters t F w) hs (.refl _ _)) _ h
  exact .ite (.step (State.inc_alters _ _ _) hs h) (.ite (.step (State.incSat_alters _ _ _) hs h) (.ite (hf _ h1) h1))

theorem State.wakeNamed_alters (s : State) (d : Nat) :
    Alters [.power] s (State.wakeNamed s d) := by
  unfold State.wakeNamed
  repeat' (with_reducible first
    | apply Alters.refl | apply Alters.step (State.setDomain_alters _ _ _) (by decide +kernel) | apply Alters.ite)

theorem execInjCell_alters (w : Word64) (s : State) {u : State}
    (e : execInjCell w s = .next u) : Alters [.regs, .power, .ras] s u := by
  refine .ofNext e ?_
  repeat' (with_reducible first
    | apply Alters.refl | assumption | apply Alters.step (State.wakeNamed_alters _ _) (by decide +kernel)
    | apply State.injWrite_alters (by decide +kernel) | apply Alters.ite | intro _ | dsimp only | split
    | refine Alters.update ?_)

theorem execInjEdge_alters (w : Word64) (s : State) {u : State}
    (e : execInjEdge w s = .next u) : Alters [.regs, .ras] s u := by
  refine .ofNext e ?_
  repeat' (with_reducible first
    | apply Alters.refl | assumption | apply State.injWrite_alters (by decide +kernel) | intro _ | dsimp only
    | refine Alters.update ?_)

theorem execInjNet_alters (w : Word64) (s : State) {u : State}
    (e : execInjNet w s = .next u) : Alters [.regs, .power, .ras] s u := by
  refine .ofNext e ?_
  repeat' (with_reducible first
    | apply Alters.refl | assumption | apply Alters.step (State.wakeNamed_alters _ _) (by decide +kernel)
    | apply State.injWrite_alters (by decide +kernel) | apply Alters.ite | intro _ | dsimp only | split
    | refine Alters.update ?_)

theorem execInjRoot_alters (w : Word64) (s : State) {u : State}
    (e : execInjRoot w s = .next u) : Alters [.regs, .power, .ras] s u := by
  refine .ofNext e ?_
  repeat' (with_reducible first
    | apply Alters.refl | assumption | apply Alters.step (State.wakeNamed_alters _ _) (by decide +kernel)
    | apply State.injWrite_alters (by decide +kernel) | apply Alters.ite | intro _ | dsimp only | split
    | refine Alters.update ?_)

/-! ## JobExec -/

theorem State.stepRecord_alters (s : State) (step : Nat) (outcome : Nat) :
    Alters [.regs, .modl, .tel, .bark, .tree, .job, .cells, .sess, .limbs, .stream, .host, .ras, .journal, .pendStep, .free, .sent] s (State.stepRecord s step outcome) := by
  unfold State.stepRecord
  repeat' (with_reducible first
    | apply Alters.refl | apply Alters.step (State.incSat_alters _ _ _) (by decide +kernel)
    | apply Alters.step (State.recoveryFault_alters _ _ _) (by decide +kernel)
    | apply Alters.step (State.setF_alters _ _ _) (by decide +kernel)
    | apply Alters.step (State.record_alters _ _ _ _) (by decide +kernel)
    | apply Alters.step (State.inc_alters _ _ _) (by decide +kernel)
    | apply Alters.step (State.flag_alters _ _) (by decide +kernel)
    | apply Alters.step (State.event_alters _ _) (by decide +kernel) | apply Alters.ite | dsimp only | split
    | refine Alters.update ?_)

theorem State.admitJob_alters (s : State) (j : Job) :
    Alters [.regs, .power, .bark, .job] s (State.admitJob s j) := by
  unfold State.admitJob
  repeat' (with_reducible first
    | apply Alters.refl | apply Alters.step (State.wakeEvent_alters _) (by decide +kernel) | apply Alters.ite | dsimp only
    | split | refine Alters.update ?_)

theorem State.auditGate_alters (s : State) (j : Job) :
    Alters [.regs, .modl, .tel, .bark, .tree, .job, .cells, .sess, .limbs, .stream, .host, .ras, .journal, .pendStep, .free, .sent] s (State.auditGate s j) := by
  unfold State.auditGate
  repeat' (with_reducible first
    | apply Alters.refl | apply Alters.step (State.raise_alters _ _ _ _ _ _ _) (by decide +kernel) | dsimp only | split)

theorem State.beginMakeup_alters (s : State) (j : Job) (g0 : Nat) :
    Alters [.regs, .modl, .tel, .bark, .tree, .job, .cells, .sess, .limbs, .stream, .host, .ras, .journal, .pendRing, .pendStep, .free, .sent] s (State.beginMakeup s j g0) := by
  unfold State.beginMakeup
  repeat' (with_reducible first
    | apply Alters.refl | apply Alters.step (State.coppiceGroup_alters _ _ _ _) (by decide +kernel)
    | apply Alters.of1 (by assumption) | apply Alters.of2 (by assumption) | apply Alters.ite | apply Alters.foldl
    | apply Alters.foldlFst | apply Alters.foldlSnd | intro _ | dsimp only | split | refine Alters.update ?_)

theorem State.beginWork_alters (s : State) (n : Nat) (blocked : Bool) :
    Alters [.regs, .modl, .tel, .bark, .tree, .job, .cells, .sess, .limbs, .stream, .host, .ras, .journal, .pendRing, .pendStep, .free, .sent] s (State.beginWork s n blocked) := by
  unfold State.beginWork
  repeat' (with_reducible first
    | apply Alters.refl | apply Alters.step (State.coppiceGroup_alters _ _ _ _) (by decide +kernel)
    | apply Alters.step (State.settleStep_alters _) (by decide +kernel)
    | apply Alters.step (State.setJob_alters _ _) (by decide +kernel)
    | apply Alters.step (State.selfTestStep_alters _ _) (by decide +kernel) | apply Alters.of1 (by assumption)
    | apply Alters.of2 (by assumption) | apply Alters.ite | apply Alters.foldl | apply Alters.foldlFst
    | apply Alters.foldlSnd | intro _ | dsimp only | split | refine Alters.update ?_)

theorem State.buildXpose_alters (x : Xpose) (l : List (Nat × Nat)) (s : State) :
    Alters [.regs, .modl, .tel, .bark, .tree, .job, .cells, .sess, .limbs, .stream, .host, .ras, .journal, .pendRing, .pendStep, .free, .sent] s (State.buildXpose x l s).1 := by
  induction l generalizing s with
  | nil => exact .refl _ _
  | cons p r ih =>
    unfold State.buildXpose
    dsimp only
    split
    · exact .step (State.cellStep_alters _ _ _ _ _) (by decide +kernel) (.refl _ _)
    · exact .step (ih _) (by decide +kernel) (.step (State.cellStep_alters _ _ _ _ _) (by decide +kernel) (.refl _ _))

theorem State.buildAll_alters (l : List Xpose) (s : State) : Alters [.regs, .modl, .tel, .bark, .tree, .job, .cells, .sess, .limbs, .stream, .host, .ras, .journal, .pendRing, .pendStep, .free, .sent] s (State.buildAll l s).1 := by
  induction l generalizing s with
  | nil => exact .refl _ _
  | cons x r ih =>
    unfold State.buildAll
    have h := State.buildXpose_alters x x.set.cells s
    split
    · rename_i e; exact .of1 e h
    · rename_i e; exact .step (ih _) (by decide +kernel) (.of1 e h)

theorem State.refreshCopies_alters (s : State) :
    Alters [.regs, .modl, .tel, .bark, .tree, .job, .cells, .sess, .limbs, .stream, .host, .ras, .journal, .pendRing, .pendStep, .free, .sent] s (State.refreshCopies s) := by
  unfold State.refreshCopies
  repeat' (with_reducible first
    | apply Alters.refl | apply Alters.step (State.cellStep_alters _ _ _ _ _) (by decide +kernel)
    | apply Alters.of1 (by assumption) | apply Alters.of2 (by assumption) | apply Alters.foldl | apply Alters.foldlFst
    | apply Alters.foldlSnd | intro _)

theorem State.writeCompletion_alters (s : State) (c : Completion) :
    Alters [.regs, .job, .host, .sent] s (State.writeCompletion s c) := by
  unfold State.writeCompletion
  repeat' (with_reducible first
    | apply Alters.refl | apply Alters.step (State.setF_alters _ _ _) (by decide +kernel)
    | apply Alters.step (State.send_alters _ _) (by decide +kernel)
    | apply Alters.step (State.event_alters _ _) (by decide +kernel) | dsimp only | refine Alters.update ?_)

theorem State.completeNext_alters (s : State) :
    Alters [.regs, .job, .host, .sent] s (State.completeNext s) := by
  unfold State.completeNext
  repeat' (with_reducible first
    | apply Alters.refl | apply Alters.step (State.inc_alters _ _ _) (by decide +kernel)
    | apply Alters.step (State.writeCompletion_alters _ _) (by decide +kernel)
    | apply Alters.step (State.event_alters _ _) (by decide +kernel) | apply Alters.ite | dsimp only | split
    | refine Alters.update ?_)

theorem State.refuse_alters (s : State) (seq : Nat) (jobId : Nat) (reason : Nat) :
    Alters [.regs, .job, .host, .sent] s (State.refuse s seq jobId reason) := by
  unfold State.refuse
  repeat' (with_reducible first
    | apply Alters.refl | apply Alters.step (State.flag_alters _ _) (by decide +kernel)
    | apply Alters.step (State.countEnd_alters _ _) (by decide +kernel)
    | apply Alters.step (State.event_alters _ _) (by decide +kernel) | apply Alters.ite | dsimp only | split
    | refine Alters.update ?_)

theorem State.holdDrop_alters (s : State) :
    Alters [.regs, .modl, .power, .bark, .tree, .graft, .job, .cells, .taps, .ports, .sess, .limbs, .stream, .sessCmd, .host, .ras, .journal, .pendStep, .free, .sent] s (State.holdDrop s) := by
  unfold State.holdDrop
  repeat' (with_reducible first
    | apply Alters.refl | apply Alters.step (State.refuse_alters _ _ _ _) (by decide +kernel)
    | apply Alters.step (State.dropRails_alters _) (by decide +kernel)
    | apply Alters.step (State.inc_alters _ _ _) (by decide +kernel)
    | apply Alters.step (State.completeNext_alters _) (by decide +kernel)
    | apply Alters.step (State.endJob_alters _ _ _ _) (by decide +kernel) | apply Alters.ite | apply Alters.foldl
    | apply Alters.foldlFst | apply Alters.foldlSnd | intro _ | dsimp only | split | refine Alters.update ?_)

theorem State.fetchSlot_alters (s : State) (sl : SlotRead) :
    Alters [.regs, .power, .bark, .job, .host, .sent] s (State.fetchSlot s sl) := by
  unfold State.fetchSlot
  repeat' (with_reducible first
    | apply Alters.refl | apply Alters.step (State.refuse_alters _ _ _ _) (by decide +kernel)
    | apply Alters.step (State.inc_alters _ _ _) (by decide +kernel)
    | apply Alters.step (State.admitJob_alters _ _) (by decide +kernel) | dsimp only | split | refine Alters.update ?_)

theorem State.startCkpt_alters (s : State) (j : Job) (final : Bool) :
    Alters [.job] s (State.startCkpt s j final) := by
  unfold State.startCkpt
  repeat' (with_reducible first
    | apply Alters.refl | apply Alters.ite | dsimp only | split | refine Alters.update ?_)

theorem State.finishJob_alters (s : State) (j : Job) (e : Nat) :
    Alters [.regs, .bark, .job, .cells, .stream, .host, .ras, .journal, .pendStep, .free, .sent] s (State.finishJob s j e) := by
  unfold State.finishJob
  repeat' (with_reducible first
    | apply Alters.refl | apply Alters.step (State.endJob_alters _ _ _ _) (by decide +kernel)
    | apply Alters.step (State.startCkpt_alters _ _ _) (by decide +kernel) | apply Alters.ite | apply Alters.getDMap
    | apply Alters.getD | intro _ | dsimp only | split | refine Alters.update ?_)

theorem State.sendOpens_alters (s : State) (j : Job) :
    Alters [.regs, .modl, .tel, .bark, .tree, .job, .cells, .taps, .sess, .limbs, .stream, .host, .ras, .journal, .pendStep, .free, .sent] s (State.sendOpens s j) := by
  unfold State.sendOpens
  repeat' (with_reducible first
    | apply Alters.refl | apply Alters.step (State.request_alters _ _ _ (by assumption)) (by decide +kernel)
    | apply Alters.ite | apply Alters.foldl | apply Alters.foldlFst | apply Alters.foldlSnd | apply Alters.getDMap
    | apply Alters.getD | intro _ | dsimp only | split | refine Alters.update ?_)

theorem State.startJournal_alters (s : State) (j : Job) :
    Alters [.regs, .job, .host, .journal, .free, .sent] s (State.startJournal s j) := by
  unfold State.startJournal
  repeat' (with_reducible first
    | apply Alters.refl | apply Alters.step (State.record_alters _ _ _ _) (by decide +kernel) | apply Alters.getDMap
    | apply Alters.getD | intro _ | dsimp only | refine Alters.update ?_)

theorem State.writeHeld_alters (s : State) :
    Alters [.regs, .job, .host, .sent] s (State.writeHeld s) := by
  unfold State.writeHeld
  repeat' (with_reducible first
    | apply Alters.refl | apply Alters.step (State.writeCompletion_alters _ _) (by decide +kernel) | apply Alters.foldl
    | apply Alters.foldlFst | apply Alters.foldlSnd | intro _ | dsimp only | refine Alters.update ?_)

theorem execCommitDecision_alters (s : State) {u : State}
    (e : execCommitDecision s = .next u) : Alters [.regs, .modl, .tel, .bark, .tree, .job, .cells, .sess, .limbs, .stream, .host, .ras, .journal, .pendStep, .free, .sent] s u := by
  refine .ofNext e ?_
  repeat' (with_reducible first
    | apply Alters.refl | apply Alters.step (State.syncPeers_alters _ _ _ _ _) (by decide +kernel)
    | apply Alters.step (State.setJob_alters _ _) (by decide +kernel)
    | apply Alters.step (State.raise_alters _ _ _ _ _ _ _) (by decide +kernel)
    | apply Alters.step (State.inc_alters _ _ _) (by decide +kernel)
    | apply Alters.step (State.fireRoot_alters _ _ _ _) (by decide +kernel)
    | apply Alters.step (State.stepRecord_alters _ _ _) (by decide +kernel)
    | apply Alters.step (State.endJob_alters _ _ _ _) (by decide +kernel) | apply Alters.of2 (by assumption)
    | apply Alters.ite | apply Alters.getDMap | apply Alters.getD | intro _ | dsimp only | split)

theorem execCompletionWrite_alters (s : State) {u : State}
    (e : execCompletionWrite s = .next u) : Alters [.regs, .job, .host, .sent] s u := by
  refine .ofNext e ?_
  repeat' (with_reducible first
    | apply Alters.refl | apply Alters.step (State.completeNext_alters _) (by decide +kernel))

theorem execJobAbort_alters (jobId : Nat) (s : State) {u : State}
    (e : execJobAbort jobId s = .next u) : Alters [.regs, .job, .host, .journal, .free, .sent] s u := by
  refine .ofNext e ?_
  repeat' (with_reducible first
    | apply Alters.refl | apply Alters.step (State.setF_alters _ _ _) (by decide +kernel)
    | apply Alters.step (State.registerAbort_alters _ _ _ _) (by decide +kernel))

theorem execJobClrCounters_alters (s : State) {u : State}
    (e : execJobClrCounters s = .next u) : Alters [.regs] s u := by
  refine .ofNext e ?_
  repeat' (with_reducible first
    | apply Alters.refl | apply Alters.step (State.clearArr_alters _ _ _) (by decide +kernel))

theorem execJobEnableWrite_alters (b : Bool) (s : State) {u : State}
    (e : execJobEnableWrite b s = .next u) : Alters [.regs, .job] s u := by
  refine .ofNext e ?_
  repeat' (with_reducible first
    | apply Alters.refl | apply Alters.step (State.setF_alters _ _ _) (by decide +kernel)
    | apply Alters.step (State.inc_alters _ _ _) (by decide +kernel) | apply Alters.ite | dsimp only | split
    | refine Alters.update ?_)

theorem execJobEnd_alters (s : State) {u : State}
    (e : execJobEnd s = .next u) : Alters [.regs, .modl, .power, .tel, .bark, .tree, .graft, .job, .cells, .taps, .ports, .sess, .limbs, .stream, .sessCmd, .host, .ras, .journal, .pendRing, .pendStep, .free, .sent] s u := by
  refine .ofNext e ?_
  repeat' (with_reducible first
    | apply Alters.refl | apply Alters.step (State.refreshCopies_alters _) (by decide +kernel)
    | apply Alters.step (State.finishJob_alters _ _ _) (by decide +kernel)
    | apply Alters.step (State.holdDrop_alters _) (by decide +kernel)
    | apply Alters.step (State.abandonCkpt_alters _) (by decide +kernel) | apply Alters.ite | dsimp only | split)

theorem execPhaseStart_alters (s : State) {u : State}
    (e : execPhaseStart s = .next u) : Alters [.regs, .modl, .power, .tel, .bark, .tree, .graft, .job, .cells, .taps, .ports, .sess, .limbs, .stream, .sessCmd, .host, .ras, .journal, .pendRing, .pendStep, .free, .sent] s u := by
  refine .ofNext e ?_
  repeat' (with_reducible first
    | apply Alters.refl | apply Alters.step (State.refreshCopies_alters _) (by decide +kernel)
    | apply Alters.step (State.beginWork_alters _ _ _) (by decide +kernel)
    | apply Alters.step (State.setJob_alters _ _) (by decide +kernel)
    | apply Alters.step (State.beginMakeup_alters _ _ _) (by decide +kernel)
    | apply Alters.step (State.atStep_alters _ _ _) (by decide +kernel)
    | apply Alters.step (State.recordClaims_alters _ _ _) (by decide +kernel)
    | apply Alters.step (State.auditGate_alters _ _) (by decide +kernel)
    | apply Alters.step (State.holdDrop_alters _) (by decide +kernel)
    | apply Alters.step (State.abandonCkpt_alters _) (by decide +kernel)
    | apply Alters.step (State.endJob_alters _ _ _ _) (by decide +kernel)
    | apply Alters.step (State.startCkpt_alters _ _ _) (by decide +kernel) | apply Alters.ite | apply Alters.getDMap
    | apply Alters.getD | intro _ | dsimp only | split)

theorem execPostPoll_alters (h : Option PostHeader) (slots : List SlotRead) (s : State) {u : State}
    (e : execPostPoll h slots s = .next u) : Alters [.regs, .power, .bark, .job, .host, .sent] s u := by
  refine .ofNext e ?_
  repeat' (with_reducible first
    | apply Alters.refl | apply Alters.step (State.writeHeld_alters _) (by decide +kernel)
    | apply Alters.step (State.setF_alters _ _ _) (by decide +kernel)
    | apply Alters.step (State.inc_alters _ _ _) (by decide +kernel)
    | apply Alters.step (State.fetchSlot_alters _ _) (by decide +kernel)
    | apply Alters.step (State.flag_alters _ _) (by decide +kernel)
    | apply Alters.step (State.send_alters _ _) (by decide +kernel)
    | apply Alters.step (State.event_alters _ _) (by decide +kernel) | apply Alters.of1 (by assumption)
    | apply Alters.of2 (by assumption) | apply Alters.ite | apply Alters.foldl | apply Alters.foldlFst
    | apply Alters.foldlSnd | intro _ | dsimp only | split)

theorem execPreparationEdge_alters (s : State) {u : State}
    (e : execPreparationEdge s = .next u) : Alters [.regs, .modl, .clk, .power, .tel, .hw, .bark, .tree, .graft, .job, .cells, .taps, .ports, .sess, .limbs, .stream, .host, .ras, .journal, .pendStep, .free, .sent] s u := by
  refine .ofNext e ?_
  repeat' (with_reducible first
    | apply Alters.refl | apply Alters.step (State.sendOpens_alters _ _) (by decide +kernel)
    | apply Alters.step (State.swapFails_alters _ _) (by decide +kernel)
    | apply Alters.step (State.shiftBands_alters _) (by decide +kernel)
    | apply Alters.step (State.setF_alters _ _ _) (by decide +kernel)
    | apply Alters.step (State.refuse_alters _ _ _ _) (by decide +kernel)
    | apply Alters.step (State.inc_alters _ _ _) (by decide +kernel)
    | apply Alters.step (State.swapNow_alters _) (by decide +kernel)
    | apply Alters.step (State.startJournal_alters _ _) (by decide +kernel)
    | apply Alters.step (State.abandonM7_alters _) (by decide +kernel) | apply Alters.ite | dsimp only | split
    | refine Alters.update ?_)

theorem execStepStart_alters (s : State) {u : State}
    (e : execStepStart s = .next u) : Alters [.regs, .modl, .tel, .bark, .tree, .graft, .job, .cells, .sess, .limbs, .stream, .host, .ras, .journal, .pendRing, .pendStep, .free, .sent] s u := by
  refine .ofNext e ?_
  repeat' (with_reducible first
    | apply Alters.refl | apply Alters.step (State.setF_alters _ _ _) (by decide +kernel)
    | apply Alters.step (State.beginWork_alters _ _ _) (by decide +kernel)
    | apply Alters.step (State.setGraft_alters _ _) (by decide +kernel)
    | apply Alters.step (State.raiseEnd_alters _ _ _ _ _ _) (by decide +kernel)
    | apply Alters.step (State.endJob_alters _ _ _ _) (by decide +kernel) | apply Alters.ite | dsimp only | split)

theorem execTransposeBuildDone_alters (s : State) {u : State}
    (e : execTransposeBuildDone s = .next u) : Alters [.regs, .modl, .tel, .bark, .tree, .job, .cells, .sess, .limbs, .stream, .host, .ras, .journal, .pendRing, .pendStep, .free, .sent] s u := by
  refine .ofNext e ?_
  repeat' (with_reducible first
    | apply Alters.refl | apply Alters.step (State.buildAll_alters _ _) (by decide +kernel)
    | apply Alters.step (State.setF_alters _ _ _) (by decide +kernel)
    | apply Alters.step (State.setJob_alters _ _) (by decide +kernel)
    | apply Alters.step (State.raiseEnd_alters _ _ _ _ _ _) (by decide +kernel) | apply Alters.of1 (by assumption)
    | apply Alters.ite | apply Alters.getDMap | apply Alters.getD | intro _ | dsimp only | split)

/-! ## JournalExec -/

theorem State.journalFull_alters (s : State) :
    Alters [.regs, .host, .journal, .sent] s (State.journalFull s) := by
  unfold State.journalFull
  repeat' (with_reducible first
    | apply Alters.refl | apply Alters.step (State.journalStop_alters _) (by decide +kernel) | apply Alters.ite)

theorem State.setJournal_alters (s : State) (f : Journal → Journal) :
    Alters [.journal] s (State.setJournal s f) := by
  unfold State.setJournal
  repeat' (with_reducible first
    | apply Alters.refl | dsimp only | refine Alters.update ?_)

theorem State.journalToHost_alters (s : State) :
    Alters [.regs, .bark, .host, .journal, .sent] s (State.journalToHost s) := by
  unfold State.journalToHost
  repeat' (with_reducible first
    | apply Alters.refl | apply Alters.step (State.endTags_alters _ _) (by decide +kernel)
    | apply Alters.step (State.setJournal_alters _ _) (by decide +kernel)
    | apply Alters.step (State.journalFull_alters _) (by decide +kernel)
    | apply Alters.step (State.hostBlock_alters _ _ _ _ _) (by decide +kernel) | apply Alters.ite)

theorem State.journalToStore_alters (s : State) :
    Alters [.regs, .modl, .tel, .bark, .tree, .job, .cells, .taps, .sess, .limbs, .stream, .host, .ras, .journal, .pendStep, .free, .sent] s (State.journalToStore s) := by
  unfold State.journalToStore
  repeat' (with_reducible first
    | apply Alters.refl | apply Alters.step (State.setJournal_alters _ _) (by decide +kernel)
    | apply Alters.step (State.readTree_alters _ _ _) (by decide +kernel)
    | apply Alters.step (State.journalFull_alters _) (by decide +kernel)
    | apply Alters.step (State.writeTree_alters _ _) (by decide +kernel)
    | apply Alters.step (State.sendWrite_alters _ _ _ _ _ _ _ _ _ (by assumption)) (by decide +kernel)
    | apply Alters.step (State.raise_alters _ _ _ _ _ _ _) (by decide +kernel)
    | apply Alters.step (State.pend_alters _ _ _) (by decide +kernel) | apply Alters.ite | dsimp only | split)

theorem execJournalClrCounters_alters (s : State) {u : State}
    (e : execJournalClrCounters s = .next u) : Alters [.regs] s u := by
  refine .ofNext e ?_
  repeat' (with_reducible first
    | apply Alters.refl | apply Alters.step (State.clearArr_alters _ _ _) (by decide +kernel))

theorem execJournalWrite_alters (s : State) {u : State}
    (e : execJournalWrite s = .next u) : Alters [.regs, .modl, .tel, .bark, .tree, .job, .cells, .taps, .sess, .limbs, .stream, .host, .ras, .journal, .pendStep, .free, .sent] s u := by
  refine .ofNext e ?_
  repeat' (with_reducible first
    | apply Alters.refl | apply Alters.step (State.journalToHost_alters _) (by decide +kernel)
    | apply Alters.step (State.journalToStore_alters _) (by decide +kernel) | apply Alters.ite)

/-! ## ModuleIO -/

theorem State.setModl_alters (s : State) (f : Module → Module) :
    Alters [.modl] s (State.setModl s f) := by
  unfold State.setModl
  repeat' (with_reducible first
    | apply Alters.refl | dsimp only | refine Alters.update ?_)

theorem State.cutWrite_alters (s : State) (w : HwWrite) :
    Alters [.regs, .modl, .tel, .hw, .bark, .tree, .job, .cells, .sess, .limbs, .stream, .host, .ras, .journal, .pendStep, .free, .sent] s (State.cutWrite s w) := by
  unfold State.cutWrite
  repeat' (with_reducible first
    | apply Alters.refl | apply Alters.step (State.hwPersist_alters _ _ _ _ _ _) (by decide +kernel) | apply Alters.ite
    | dsimp only | split | refine Alters.update ?_)

theorem State.inputFails_alters (s : State) (inj : Bool) :
    Alters [.regs, .modl, .power, .tel, .hw, .bark, .tree, .graft, .job, .cells, .taps, .ports, .sess, .limbs, .stream, .sessCmd, .host, .ras, .journal, .pendStep, .free, .sent] s (State.inputFails s inj) := by
  unfold State.inputFails
  repeat' (with_reducible first
    | apply Alters.refl | apply Alters.step (State.lastGasp_alters _ _ _) (by decide +kernel)
    | apply Alters.step (State.dropRails_alters _) (by decide +kernel)
    | apply Alters.step (State.raiseEnd_alters _ _ _ _ _ _) (by decide +kernel)
    | apply Alters.step (State.faultN_alters _) (by decide +kernel)
    | apply Alters.step (State.setModl_alters _ _) (by decide +kernel))

theorem execCondensationClear_alters (s : State) {u : State}
    (e : execCondensationClear s = .next u) : Alters [.regs, .modl, .boot, .ring, .clk, .power, .thermal, .tel, .hw, .bark, .tree, .graft, .job, .cells, .taps, .ports, .sess, .limbs, .stream, .sessCmd, .host, .ras, .journal, .pendRing, .pendStep, .sent] s u := by
  refine .ofNext e ?_
  repeat' (with_reducible first
    | apply Alters.refl | apply Alters.step (State.engineReset_alters _) (by decide +kernel)
    | apply Alters.step (State.setModl_alters _ _) (by decide +kernel) | apply Alters.ite)

theorem execCondensationHold_alters (s : State) {u : State}
    (e : execCondensationHold s = .next u) : Alters [.regs, .modl, .tel, .bark, .tree, .job, .cells, .sess, .limbs, .stream, .host, .ras, .journal, .pendStep, .free, .sent] s u := by
  refine .ofNext e ?_
  repeat' (with_reducible first
    | apply Alters.refl | apply Alters.step (State.raise_alters _ _ _ _ _ _ _) (by decide +kernel)
    | apply Alters.step (State.setModl_alters _ _) (by decide +kernel) | apply Alters.ite)

theorem execInputFail_alters (s : State) {u : State}
    (e : execInputFail s = .next u) : Alters [.regs, .modl, .power, .tel, .hw, .bark, .tree, .graft, .job, .cells, .taps, .ports, .sess, .limbs, .stream, .sessCmd, .host, .ras, .journal, .pendStep, .free, .sent] s u := by
  refine .ofNext e ?_
  repeat' (with_reducible first
    | apply Alters.refl | apply Alters.step (State.inputFails_alters _ _) (by decide +kernel)
    | apply Alters.step (State.setModl_alters _ _) (by decide +kernel) | apply Alters.ite)

theorem execInputReturn_alters (s : State) {u : State}
    (e : execInputReturn s = .next u) : Alters [.regs, .modl, .boot, .ring, .clk, .power, .thermal, .tel, .hw, .bark, .tree, .graft, .job, .cells, .taps, .ports, .sess, .limbs, .stream, .sessCmd, .host, .ras, .journal, .pendRing, .pendStep, .sent] s u := by
  refine .ofNext e ?_
  repeat' (with_reducible first
    | apply Alters.refl | apply Alters.step (State.engineReset_alters _) (by decide +kernel)
    | apply Alters.step (State.setModl_alters _ _) (by decide +kernel) | apply Alters.ite)

theorem execPowerOn_alters (slot : Nat) (s : State) {u : State}
    (e : execPowerOn slot s = .next u) : Alters [.regs, .modl, .boot, .ring, .clk, .power, .thermal, .tel, .hw, .bark, .tree, .graft, .job, .cells, .taps, .ports, .sess, .shakes, .limbs, .stream, .sessCmd, .host, .mgmt, .ras, .journal, .pendRing, .pendStep] s u := by
  refine .ofNext e ?_
  repeat' (with_reducible first
    | apply Alters.refl | apply Alters.step (State.powerOnReset_alters _ _) (by decide +kernel) | apply Alters.ite)

theorem execResetN_alters (ns : Nat) (s : State) {u : State}
    (e : execResetN ns s = .next u) : Alters [.regs, .modl, .boot, .ring, .clk, .power, .thermal, .tel, .hw, .bark, .tree, .graft, .job, .cells, .taps, .ports, .sess, .limbs, .stream, .sessCmd, .host, .ras, .journal, .pendRing, .pendStep, .free, .sent] s u := by
  refine .ofNext e ?_
  repeat' (with_reducible first
    | apply Alters.refl | apply Alters.step (State.pulse_alters _ _) (by decide +kernel)
    | apply Alters.step (State.engineReset_alters _) (by decide +kernel) | apply Alters.of2 (by assumption)
    | apply Alters.ite)

theorem execStandbyLoss_alters (s : State) {u : State}
    (e : execStandbyLoss s = .next u) : Alters [.regs, .modl, .boot, .ring, .clk, .power, .thermal, .tel, .hw, .bark, .tree, .graft, .job, .cells, .taps, .ports, .sess, .shakes, .limbs, .stream, .sessCmd, .host, .mgmt, .ras, .journal, .pendRing, .pendStep, .free, .sent] s u := by
  refine .ofNext e ?_
  repeat' (with_reducible first
    | apply Alters.refl | apply Alters.step (State.cutWrite_alters _ _) (by decide +kernel)
    | apply Alters.step (State.powerOnReset_alters _ _) (by decide +kernel)
    | apply Alters.step (State.setModl_alters _ _) (by decide +kernel) | apply Alters.ite | apply Alters.foldl
    | apply Alters.foldlFst | apply Alters.foldlSnd | intro _)

theorem execTiltWarning_alters (s : State) {u : State}
    (e : execTiltWarning s = .next u) : Alters [.modl] s u := by
  refine .ofNext e ?_
  repeat' (with_reducible first
    | apply Alters.refl | apply Alters.step (State.setModl_alters _ _) (by decide +kernel))

/-! ## RecoveryExec -/

theorem State.abandonStep_alters (s : State) (j : Job) :
    Alters [.regs, .modl, .tel, .bark, .tree, .job, .cells, .sess, .limbs, .stream, .host, .ras, .journal, .pendStep, .free, .sent] s (State.abandonStep s j) := by
  unfold State.abandonStep
  repeat' (with_reducible first
    | apply Alters.refl | apply Alters.step (State.syncPeers_alters _ _ _ _ _) (by decide +kernel)
    | apply Alters.step (State.syncStores_alters _ _ _) (by decide +kernel)
    | apply Alters.step (State.stepRecord_alters _ _ _) (by decide +kernel) | apply Alters.ite | dsimp only | split
    | refine Alters.update ?_)

theorem State.beginRecovery_alters (s : State) (j : Job) :
    Alters [.regs, .modl, .tel, .bark, .tree, .job, .cells, .sess, .limbs, .stream, .host, .ras, .journal, .pendStep, .free, .sent] s (State.beginRecovery s j) := by
  unfold State.beginRecovery
  repeat' (with_reducible first
    | apply Alters.refl | apply Alters.step (State.setF_alters _ _ _) (by decide +kernel)
    | apply Alters.step (State.setRecov_alters _ _) (by decide +kernel)
    | apply Alters.step (State.abandonStep_alters _ _) (by decide +kernel)
    | apply Alters.step (State.inc_alters _ _ _) (by decide +kernel)
    | apply Alters.step (State.abandonCkpt_alters _) (by decide +kernel)
    | apply Alters.step (State.event_alters _ _) (by decide +kernel) | apply Alters.ite)

theorem State.beginReplay_alters (s : State) (j : Job) (own : List Byte) :
    Alters [.regs, .modl, .tel, .bark, .tree, .job, .cells, .sess, .limbs, .stream, .host, .ras, .journal, .pendRing, .pendStep, .free, .sent] s (State.beginReplay s j own) := by
  unfold State.beginReplay
  repeat' (with_reducible first
    | apply Alters.refl | apply Alters.step (State.beginWork_alters _ _ _) (by decide +kernel)
    | apply Alters.step (State.setRecov_alters _ _) (by decide +kernel)
    | apply Alters.step (State.setJob_alters _ _) (by decide +kernel) | apply Alters.ite | dsimp only | split
    | refine Alters.update ?_)

theorem State.recoveryEnds_alters (s : State) :
    Alters [.regs, .ras] s (State.recoveryEnds s) := by
  unfold State.recoveryEnds
  repeat' (with_reducible first
    | apply Alters.refl | apply Alters.step (State.setF_alters _ _ _) (by decide +kernel)
    | apply Alters.step (State.setRecov_alters _ _) (by decide +kernel)
    | apply Alters.step (State.inc_alters _ _ _) (by decide +kernel))

theorem State.reload_alters (s : State) (image : List Byte) : Alters [.cells] s (State.reload s image) := by
  have key (l : SMap Cell) (p : SMap Cell × List Byte) (h : swf Cell.init p.1 = true) : swf Cell.init (l.foldl
      (fun (p : SMap Cell × List Byte) q => (if s.ras.recov.cells.contains (keyXY q.1) then
          sset Cell.init p.1 q.1 { q.2 with mem := q.2.mem.fillSpans (q.2.active.spans false) p.2 } else p.1,
        p.2.drop (4096 * ((q.2.active.spanLen false + 4095) / 4096)))) p).1 = true := by
    induction l generalizing p with
    | nil => exact h
    | cons q l ih => exact ih _ (by dsimp only; split; exact swf_sset h; exact h)
  unfold State.reload
  exact .update (.refl _ _) (h_cells := Or.inr ⟨by decide +kernel, fun h => key _ _ h⟩)

theorem State.restartRecovery_alters (s : State) :
    Alters [.job, .cells, .journal] s (State.restartRecovery s) := by
  unfold State.restartRecovery
  repeat' (with_reducible first
    | apply Alters.refl | apply Alters.ite | dsimp only | split | refine Alters.update ?_)

theorem State.restoreCkpt_alters (s : State) (data : List Byte) : Alters [.cells] s (State.restoreCkpt s data) := by
  have key (l : SMap Cell) (p : SMap Cell × List Byte) (h : swf Cell.init p.1 = true) : swf Cell.init (l.foldl
      (fun (p : SMap Cell × List Byte) q => (sset Cell.init p.1 q.1 { q.2 with mem := q.2.mem.fillSpans (q.2.active.spans true) p.2 },
        p.2.drop (q.2.active.spanLen true))) p).1 = true := by
    induction l generalizing p with
    | nil => exact h
    | cons q l ih => exact ih _ (swf_sset h)
  unfold State.restoreCkpt
  exact .update (.refl _ _) (h_cells := Or.inr ⟨by decide +kernel, fun h => key _ _ h⟩)

theorem State.restore_alters (s : State) (r : Restore) (noHalf : Bool) :
    Alters [.cells] s (State.restore s r noHalf) := by
  unfold State.restore
  repeat' (with_reducible first
    | apply Alters.refl | apply Alters.step (State.reload_alters _ _) (by decide +kernel)
    | apply Alters.step (State.restoreCkpt_alters _ _) (by decide +kernel) | apply Alters.ite | dsimp only | split
    | refine Alters.update ?_)

theorem State.resumeJob_alters (s : State) (step : Nat) :
    Alters [.regs, .modl, .tel, .bark, .tree, .job, .cells, .sess, .limbs, .stream, .host, .ras, .journal, .pendRing, .pendStep, .free, .sent] s (State.resumeJob s step) := by
  unfold State.resumeJob
  repeat' (with_reducible first
    | apply Alters.refl | apply Alters.step (State.recoveryEnds_alters _) (by decide +kernel)
    | apply Alters.step (State.beginWork_alters _ _ _) (by decide +kernel)
    | apply Alters.step (State.record_alters _ _ _ _) (by decide +kernel)
    | apply Alters.step (State.setJob_alters _ _) (by decide +kernel)
    | apply Alters.step (State.startCkpt_alters _ _ _) (by decide +kernel)
    | apply Alters.step (State.event_alters _ _) (by decide +kernel) | apply Alters.ite | dsimp only | split
    | refine Alters.update ?_)

theorem State.selfTestFails_alters (s : State) (d : Nat) (col : Nat) (row : Nat) (inj : Bool) :
    Alters [.regs, .modl, .tel, .hw, .bark, .tree, .job, .cells, .sess, .limbs, .stream, .host, .ras, .journal, .pendRing, .pendStep, .free, .sent] s (State.selfTestFails s d col row inj) := by
  unfold State.selfTestFails
  repeat' (with_reducible first
    | apply Alters.refl | apply Alters.step (State.retireRows_alters _ _ _) (by decide +kernel)
    | apply Alters.step (State.raise_alters _ _ _ _ _ _ _) (by decide +kernel)
    | apply Alters.step (State.declareDead_alters _ _ _ _ _ _ _) (by decide +kernel)
    | apply Alters.step (State.later_alters _ _ _) (by decide +kernel) | apply Alters.of1 (by assumption)
    | apply Alters.ite | dsimp only | split)

theorem execBandShift_alters (s : State) {u : State}
    (e : execBandShift s = .next u) : Alters [.regs, .modl, .tel, .hw, .bark, .tree, .graft, .job, .cells, .sess, .limbs, .stream, .host, .ras, .journal, .pendStep, .free, .sent] s u := by
  refine .ofNext e ?_
  repeat' (with_reducible first
    | apply Alters.refl | apply Alters.step (State.shiftBands_alters _) (by decide +kernel) | apply Alters.ite)

theorem execCopyComplete_alters (s : State) {u : State}
    (e : execCopyComplete s = .next u) : Alters [.ras] s u := by
  refine .ofNext e ?_
  repeat' (with_reducible first
    | apply Alters.refl | apply Alters.step (State.setRecov_alters _ _) (by decide +kernel) | apply Alters.ite)

theorem execRasClrCounters_alters (s : State) {u : State}
    (e : execRasClrCounters s = .next u) : Alters [.regs] s u := by
  refine .ofNext e ?_
  repeat' (with_reducible first
    | apply Alters.refl | apply Alters.step (State.clearArr_alters _ _ _) (by decide +kernel))

theorem execRecoveryStart_alters (s : State) {u : State}
    (e : execRecoveryStart s = .next u) : Alters [.regs, .modl, .tel, .hw, .bark, .tree, .graft, .job, .cells, .sess, .limbs, .stream, .host, .ras, .journal, .pendStep, .free, .sent] s u := by
  refine .ofNext e ?_
  repeat' (with_reducible first
    | apply Alters.refl | apply Alters.step (State.recoveryFault_alters _ _ _) (by decide +kernel)
    | apply Alters.step (State.setF_alters _ _ _) (by decide +kernel)
    | apply Alters.step (State.restartRecovery_alters _) (by decide +kernel)
    | apply Alters.step (State.setRecov_alters _ _) (by decide +kernel)
    | apply Alters.step (State.recoveryFails_alters _ _) (by decide +kernel)
    | apply Alters.step (State.setJob_alters _ _) (by decide +kernel)
    | apply Alters.step (State.shiftAll_alters _) (by decide +kernel)
    | apply Alters.step (State.beginRecovery_alters _ _) (by decide +kernel)
    | apply Alters.step (State.endJob_alters _ _ _ _) (by decide +kernel) | apply Alters.of1 (by assumption)
    | apply Alters.ite | dsimp only | split)

theorem execReplayComplete_alters (s : State) {u : State}
    (e : execReplayComplete s = .next u) : Alters [.regs, .modl, .tel, .bark, .tree, .job, .cells, .sess, .limbs, .stream, .host, .ras, .journal, .pendRing, .pendStep, .free, .sent] s u := by
  refine .ofNext e ?_
  repeat' (with_reducible first
    | apply Alters.refl | apply Alters.step (State.recoveryEnds_alters _) (by decide +kernel)
    | apply Alters.step (State.refreshCopies_alters _) (by decide +kernel)
    | apply Alters.step (State.finishJob_alters _ _ _) (by decide +kernel)
    | apply Alters.step (State.resumeJob_alters _ _) (by decide +kernel) | apply Alters.ite | dsimp only | split)

theorem execRestoreComplete_alters (r : Restore) (s : State) {u : State}
    (e : execRestoreComplete r s = .next u) : Alters [.regs, .modl, .tel, .bark, .tree, .job, .cells, .sess, .limbs, .stream, .host, .ras, .journal, .pendRing, .pendStep, .free, .sent] s u := by
  refine .ofNext e ?_
  repeat' (with_reducible first
    | apply Alters.refl | apply Alters.step (State.recoveryFault_alters _ _ _) (by decide +kernel)
    | apply Alters.step (State.restore_alters _ _ _) (by decide +kernel)
    | apply Alters.step (State.raise_alters _ _ _ _ _ _ _) (by decide +kernel)
    | apply Alters.step (State.beginReplay_alters _ _ _) (by decide +kernel) | apply Alters.ite | dsimp only | split)

theorem execSelfTestDone_alters (px : Nat) (py : Nat) (pass : Bool) (s : State) {u : State}
    (e : execSelfTestDone px py pass s = .next u) : Alters [.regs, .modl, .tel, .hw, .bark, .tree, .job, .cells, .sess, .limbs, .stream, .host, .ras, .journal, .pendRing, .pendStep, .free, .sent] s u := by
  refine .ofNext e ?_
  repeat' (with_reducible first
    | apply Alters.refl | apply Alters.step (State.fireCell_alters _ _ _ _ _) (by decide +kernel)
    | apply Alters.step (State.selfTestFails_alters _ _ _ _ _) (by decide +kernel)
    | apply Alters.step (State.inc_alters _ _ _) (by decide +kernel) | apply Alters.of2 (by assumption) | apply Alters.ite
    | dsimp only | split | refine Alters.update ?_)

theorem execShiftComplete_alters (s : State) {u : State}
    (e : execShiftComplete s = .next u) : Alters [.regs, .bark, .job, .cells, .stream, .host, .ras, .journal, .pendStep, .free, .sent] s u := by
  refine .ofNext e ?_
  repeat' (with_reducible first
    | apply Alters.refl | apply Alters.step (State.setRecov_alters _ _) (by decide +kernel)
    | apply Alters.step (State.recoveryFails_alters _ _) (by decide +kernel)
    | apply Alters.step (State.endJob_alters _ _ _ _) (by decide +kernel) | apply Alters.ite)

/-! ## RegWrite -/

theorem State.msixWrite_alters (s : State) (addr : Nat) (w : Word64) :
    Alters [.regs, .host, .sent] s (State.msixWrite s addr w) := by
  unfold State.msixWrite
  repeat' (with_reducible first
    | apply Alters.refl | apply Alters.step (State.flushPending_alters _) (by decide +kernel) | apply Alters.ite
    | dsimp only | split | refine Alters.update ?_)

theorem State.puts_alters (s : State) (l : List Fld) (w : Word64) :
    Alters [.regs] s (State.puts s l w) := by
  unfold State.puts
  repeat' (with_reducible first
    | apply Alters.refl | apply Alters.step (State.put_alters _ _ _) (by decide +kernel) | apply Alters.foldl
    | apply Alters.foldlFst | apply Alters.foldlSnd | intro _)

theorem State.putsIf_alters (s : State) (ok : Bool) (reject : Fld) (l : List Fld) (w : Word64) :
    Alters [.regs] s (State.putsIf s ok reject l w) := by
  unfold State.putsIf
  repeat' (with_reducible first
    | apply Alters.refl | apply Alters.step (State.puts_alters _ _ _) (by decide +kernel)
    | apply Alters.step (State.flag_alters _ _) (by decide +kernel) | apply Alters.ite)

theorem State.putsUnless_alters (s : State) (no : Bool) (l : List Fld) (w : Word64) :
    Alters [.regs] s (State.putsUnless s no l w) := by
  unfold State.putsUnless
  repeat' (with_reducible first
    | apply Alters.refl | apply Alters.step (State.puts_alters _ _ _) (by decide +kernel) | apply Alters.ite)

theorem State.streamPut_alters (s : State) (l : List Fld) (w : Word64) :
    Alters [.regs, .host, .sent] s (State.streamPut s l w) := by
  unfold State.streamPut
  repeat' (with_reducible first
    | apply Alters.refl | apply Alters.step (State.puts_alters _ _ _) (by decide +kernel)
    | apply Alters.step (State.flag_alters _ _) (by decide +kernel)
    | apply Alters.step (State.event_alters _ _) (by decide +kernel) | apply Alters.ite)

theorem State.w1cs_alters (s : State) (l : List Fld) (w : Word64) :
    Alters [.regs] s (State.w1cs s l w) := by
  unfold State.w1cs
  repeat' (with_reducible first
    | apply Alters.refl | apply Alters.step (State.w1c_alters _ _ _) (by decide +kernel) | apply Alters.foldl
    | apply Alters.foldlFst | apply Alters.foldlSnd | intro _)

theorem State.writeBarkCmd_alters (s : State) (w : Word64) :
    Alters [.regs] s (State.writeBarkCmd s w) := by
  unfold State.writeBarkCmd
  repeat' (with_reducible first
    | apply Alters.refl | assumption | apply Alters.step (State.puts_alters _ _ _) (by decide +kernel)
    | apply Alters.step (State.barkEnd_alters _ _ _) (by decide +kernel) | apply State.barkRun_alters (by decide +kernel)
    | apply Alters.ite | intro _)

theorem State.writeBark_alters (s : State) (addr : Nat) (w : Word64) :
    Alters [.regs, .bark] s (State.writeBark s addr w) := by
  unfold State.writeBark
  repeat' (with_reducible first
    | apply Alters.refl | apply Alters.step (State.w1cs_alters _ _ _) (by decide +kernel)
    | apply Alters.step (State.puts_alters _ _ _) (by decide +kernel)
    | apply Alters.step (State.setBark_alters _ _) (by decide +kernel)
    | apply Alters.step (State.writeBarkCmd_alters _ _) (by decide +kernel)
    | apply Alters.step (State.inc_alters _ _ _) (by decide +kernel)
    | apply Alters.step (State.putsUnless_alters _ _ _ _) (by decide +kernel) | apply Alters.ite)

theorem State.writeClk_alters (s : State) (addr : Nat) (w : Word64) :
    Alters [.regs, .modl] s (State.writeClk s addr w) := by
  unfold State.writeClk
  repeat' (with_reducible first
    | apply Alters.refl | apply Alters.step (State.w1cs_alters _ _ _) (by decide +kernel)
    | apply Alters.step (State.settleFaultN_alters _) (by decide +kernel) | apply Alters.ite)

theorem State.writeEdge_alters (s : State) (addr : Nat) (w : Word64) :
    Alters [.regs, .ports] s (State.writeEdge s addr w) := by
  unfold State.writeEdge
  repeat' (with_reducible first
    | apply Alters.refl | apply Alters.step (State.modPort_alters _ _ _) (by decide +kernel)
    | apply Alters.step (State.puts_alters _ _ _) (by decide +kernel)
    | apply Alters.step (State.putsUnless_alters _ _ _ _) (by decide +kernel) | apply Alters.ite)

theorem State.writeFab_alters (s : State) (addr : Nat) (w : Word64) :
    Alters [.regs] s (State.writeFab s addr w) := by
  unfold State.writeFab
  repeat' (with_reducible first
    | apply Alters.refl | apply Alters.step (State.w1cs_alters _ _ _) (by decide +kernel)
    | apply Alters.step (State.puts_alters _ _ _) (by decide +kernel)
    | apply Alters.step (State.putsUnless_alters _ _ _ _) (by decide +kernel) | apply Alters.ite)

theorem State.writeGraft_alters (s : State) (addr : Nat) (w : Word64) :
    Alters [.regs] s (State.writeGraft s addr w) := by
  unfold State.writeGraft
  repeat' (with_reducible first
    | apply Alters.refl | apply Alters.step (State.w1cs_alters _ _ _) (by decide +kernel)
    | apply Alters.step (State.putsUnless_alters _ _ _ _) (by decide +kernel) | apply Alters.ite)

theorem State.writeId_alters (s : State) (addr : Nat) (w : Word64) :
    Alters [.regs, .host, .sent] s (State.writeId s addr w) := by
  unfold State.writeId
  repeat' (with_reducible first
    | apply Alters.refl | apply Alters.step (State.w1cs_alters _ _ _) (by decide +kernel)
    | apply Alters.step (State.putsUnless_alters _ _ _ _) (by decide +kernel)
    | apply Alters.step (State.msixWrite_alters _ _ _) (by decide +kernel) | apply Alters.ite)

theorem State.writeJob_alters (s : State) (addr : Nat) (w : Word64) :
    Alters [.regs] s (State.writeJob s addr w) := by
  unfold State.writeJob
  repeat' (with_reducible first
    | apply Alters.refl | apply Alters.step (State.w1cs_alters _ _ _) (by decide +kernel)
    | apply Alters.step (State.puts_alters _ _ _) (by decide +kernel)
    | apply Alters.step (State.putsUnless_alters _ _ _ _) (by decide +kernel) | apply Alters.ite)

theorem State.writeJournal_alters (s : State) (addr : Nat) (w : Word64) :
    Alters [.regs] s (State.writeJournal s addr w) := by
  unfold State.writeJournal
  repeat' (with_reducible first
    | apply Alters.refl | apply Alters.step (State.w1cs_alters _ _ _) (by decide +kernel)
    | apply Alters.step (State.putsUnless_alters _ _ _ _) (by decide +kernel) | apply Alters.ite)

theorem State.writePwr_alters (s : State) (addr : Nat) (w : Word64) :
    Alters [.regs] s (State.writePwr s addr w) := by
  unfold State.writePwr
  repeat' (with_reducible first
    | apply Alters.refl | apply Alters.step (State.w1cs_alters _ _ _) (by decide +kernel)
    | apply Alters.step (State.putsIf_alters _ _ _ _ _) (by decide +kernel) | apply Alters.ite)

theorem State.writeRas_alters (s : State) (addr : Nat) (w : Word64) :
    Alters [.regs] s (State.writeRas s addr w) := by
  unfold State.writeRas
  repeat' (with_reducible first
    | apply Alters.refl | apply Alters.step (State.puts_alters _ _ _) (by decide +kernel)
    | apply Alters.step (State.inc_alters _ _ _) (by decide +kernel)
    | apply Alters.step (State.putsUnless_alters _ _ _ _) (by decide +kernel) | apply Alters.ite)

theorem State.writeRing_alters (s : State) (addr : Nat) (w : Word64) :
    Alters [.regs, .ring] s (State.writeRing s addr w) := by
  unfold State.writeRing
  repeat' (with_reducible first
    | apply Alters.refl | apply Alters.step (State.ptpPeriod_alters _ _) (by decide +kernel)
    | apply Alters.step (State.w1cs_alters _ _ _) (by decide +kernel)
    | apply Alters.step (State.puts_alters _ _ _) (by decide +kernel)
    | apply Alters.step (State.putsUnless_alters _ _ _ _) (by decide +kernel) | apply Alters.ite)

theorem State.writeSap_alters (s : State) (addr : Nat) (w : Word64) :
    Alters [.regs, .sessCmd] s (State.writeSap s addr w) := by
  unfold State.writeSap
  repeat' (with_reducible first
    | apply Alters.refl | apply Alters.step (State.w1cs_alters _ _ _) (by decide +kernel)
    | apply Alters.step (State.puts_alters _ _ _) (by decide +kernel)
    | apply Alters.step (State.result_alters _ _) (by decide +kernel)
    | apply Alters.step (State.putCmd_alters _ _) (by decide +kernel) | apply Alters.ite | dsimp only | split
    | refine Alters.update ?_)

theorem State.writeStream_alters (s : State) (addr : Nat) (w : Word64) :
    Alters [.regs, .host, .sent] s (State.writeStream s addr w) := by
  unfold State.writeStream
  repeat' (with_reducible first
    | apply Alters.refl | apply Alters.step (State.w1cs_alters _ _ _) (by decide +kernel)
    | apply Alters.step (State.streamPut_alters _ _ _) (by decide +kernel)
    | apply Alters.step (State.putsUnless_alters _ _ _ _) (by decide +kernel)
    | apply Alters.step (State.event_alters _ _) (by decide +kernel) | apply Alters.ite)

theorem State.writeTel_alters (s : State) (addr : Nat) (w : Word64) :
    Alters [.regs] s (State.writeTel s addr w) := by
  unfold State.writeTel
  repeat' (with_reducible first
    | apply Alters.refl | apply Alters.step (State.putsUnless_alters _ _ _ _) (by decide +kernel) | apply Alters.ite)

theorem State.writeThm_alters (s : State) (addr : Nat) (w : Word64) :
    Alters [.regs] s (State.writeThm s addr w) := by
  unfold State.writeThm
  repeat' (with_reducible first
    | apply Alters.refl | apply Alters.step (State.w1cs_alters _ _ _) (by decide +kernel)
    | apply Alters.step (State.putsIf_alters _ _ _ _ _) (by decide +kernel) | apply Alters.ite)

theorem execRegisterWrite_alters (addr : Nat) (w : Word64) (s : State) {u : State}
    (e : execRegisterWrite addr w s = .next u) : Alters [.regs, .modl, .ring, .bark, .ports, .sessCmd, .host, .sent] s u := by
  refine .ofNext e ?_
  repeat' (with_reducible first
    | apply Alters.refl | apply Alters.step (State.w1cs_alters _ _ _) (by decide +kernel)
    | apply Alters.step (State.writeFab_alters _ _ _) (by decide +kernel)
    | apply Alters.step (State.writeTel_alters _ _ _) (by decide +kernel)
    | apply Alters.step (State.writePwr_alters _ _ _) (by decide +kernel)
    | apply Alters.step (State.writeRas_alters _ _ _) (by decide +kernel)
    | apply Alters.step (State.writeStream_alters _ _ _) (by decide +kernel)
    | apply Alters.step (State.writeSap_alters _ _ _) (by decide +kernel)
    | apply Alters.step (State.writeThm_alters _ _ _) (by decide +kernel)
    | apply Alters.step (State.writeJournal_alters _ _ _) (by decide +kernel)
    | apply Alters.step (State.writeRing_alters _ _ _) (by decide +kernel)
    | apply Alters.step (State.writeId_alters _ _ _) (by decide +kernel)
    | apply Alters.step (State.writeGraft_alters _ _ _) (by decide +kernel)
    | apply Alters.step (State.writeBark_alters _ _ _) (by decide +kernel)
    | apply Alters.step (State.writeEdge_alters _ _ _) (by decide +kernel)
    | apply Alters.step (State.writeJob_alters _ _ _) (by decide +kernel)
    | apply Alters.step (State.writeClk_alters _ _ _) (by decide +kernel) | apply Alters.ite | dsimp only | split)

/-! ## Telemetry -/

theorem State.setTel_alters (s : State) (f : Tel → Tel) :
    Alters [.tel] s (State.setTel s f) := by
  unfold State.setTel
  repeat' (with_reducible first
    | apply Alters.refl | dsimp only | refine Alters.update ?_)

theorem State.telAdd_alters (s : State) (o : EdgeObs) :
    Alters [.tel] s (State.telAdd s o) := by
  unfold State.telAdd
  repeat' (with_reducible first
    | apply Alters.refl | apply Alters.step (State.setTel_alters _ _) (by decide +kernel))

theorem State.telDrop_alters (s : State) :
    Alters [.regs, .tel] s (State.telDrop s) := by
  unfold State.telDrop
  repeat' (with_reducible first
    | apply Alters.refl | apply Alters.step (State.inc_alters _ _ _) (by decide +kernel)
    | apply Alters.step (State.setTel_alters _ _) (by decide +kernel))

theorem State.telStep_alters (s : State) (o : EdgeObs) (ended : Nat) :
    Alters [.regs, .tel] s (State.telStep s o ended) := by
  unfold State.telStep
  repeat' (with_reducible first
    | apply Alters.refl | apply Alters.step (State.setTel_alters _ _) (by decide +kernel)
    | apply Alters.step (State.telAdd_alters _ _) (by decide +kernel)
    | apply Alters.step (State.telDrop_alters _) (by decide +kernel) | apply Alters.ite)

theorem execTelClrCounters_alters (s : State) {u : State}
    (e : execTelClrCounters s = .next u) : Alters [.regs] s u := by
  refine .ofNext e ?_
  repeat' (with_reducible first
    | apply Alters.refl | apply Alters.step (State.clearArr_alters _ _ _) (by decide +kernel))

theorem execTelEnableWrite_alters (b : Bool) (s : State) {u : State}
    (e : execTelEnableWrite b s = .next u) : Alters [.regs, .tel] s u := by
  refine .ofNext e ?_
  repeat' (with_reducible first
    | apply Alters.refl | apply Alters.step (State.setF_alters _ _ _) (by decide +kernel)
    | apply Alters.step (State.setTel_alters _ _) (by decide +kernel) | apply Alters.ite)

theorem execTelemetryRecord_alters (s : State) {u : State}
    (e : execTelemetryRecord s = .next u) : Alters [.regs, .tel, .bark, .host, .sent] s u := by
  refine .ofNext e ?_
  repeat' (with_reducible first
    | apply Alters.refl | apply Alters.step (State.rewriteBlock_alters _ _ _ _ _) (by decide +kernel)
    | apply Alters.step (State.setF_alters _ _ _) (by decide +kernel)
    | apply Alters.step (State.inc_alters _ _ _) (by decide +kernel)
    | apply Alters.step (State.setTel_alters _ _) (by decide +kernel)
    | apply Alters.step (State.telDrop_alters _) (by decide +kernel)
    | apply Alters.step (State.event_alters _ _) (by decide +kernel) | apply Alters.ite | dsimp only | split)

/-! ## RingEdge -/

theorem State.beginEntry_alters (s : State) :
    Alters [.power] s (State.beginEntry s) := by
  unfold State.beginEntry
  repeat' (with_reducible first
    | apply Alters.refl | apply Alters.step (State.setPower_alters _ _) (by decide +kernel) | apply Alters.ite
    | dsimp only | split)

theorem State.edgeAbort_alters (s : State) (ended : Nat) :
    Alters [.regs, .modl, .tel, .bark, .tree, .job, .cells, .sess, .limbs, .stream, .host, .ras, .journal, .pendRing, .pendStep, .free, .sent] s (State.edgeAbort s ended) := by
  unfold State.edgeAbort
  repeat' (with_reducible first
    | apply Alters.refl | apply Alters.step (State.setF_alters _ _ _) (by decide +kernel)
    | apply Alters.step (State.refreshCopies_alters _) (by decide +kernel)
    | apply Alters.step (State.syncPeers_alters _ _ _ _ _) (by decide +kernel)
    | apply Alters.step (State.stepRecord_alters _ _ _) (by decide +kernel)
    | apply Alters.step (State.endJob_alters _ _ _ _) (by decide +kernel) | apply Alters.ite | dsimp only | split)

theorem State.fireMarker_alters (s : State) (det : Nat) :
    Alters [.regs, .tel, .bark, .host, .ras, .journal, .free, .sent] s (State.fireMarker s det).2 := by
  unfold State.fireMarker
  repeat' (with_reducible first
    | apply Alters.refl | apply Alters.step (State.fireCell_alters _ _ _ _ _) (by decide +kernel)
    | apply Alters.of2 (by assumption) | apply Alters.ite | dsimp only | split)

theorem State.freshRing_alters (s : State) :
    Alters [.ports, .ras] s (State.freshRing s) := by
  unfold State.freshRing
  repeat' (with_reducible first
    | apply Alters.refl | dsimp only | refine Alters.update ?_)

theorem State.turn_alters (s : State) :
    Alters [.ring, .clk] s (State.turn s) := by
  unfold State.turn
  repeat' (with_reducible first
    | apply Alters.refl | apply Alters.step (State.setClk_alters _ _) (by decide +kernel)
    | apply Alters.step (State.setRing_alters _ _) (by decide +kernel))

theorem State.newRing_alters (s : State) :
    Alters [.regs, .ring, .clk, .ports, .ras, .pendRing] s (State.newRing s) := by
  unfold State.newRing
  repeat' (with_reducible first
    | apply Alters.refl | apply Alters.step (State.turn_alters _) (by decide +kernel)
    | apply Alters.step (State.settleRing_alters _) (by decide +kernel)
    | apply Alters.step (State.probeSelect_alters _) (by decide +kernel)
    | apply Alters.step (State.freshRing_alters _) (by decide +kernel))

theorem State.overrunDie_alters (s : State) (ended : Nat) (d : Nat) (l : List (Nat × Nat)) (inj : Option (Nat × Nat)) :
    Alters [.regs, .modl, .tel, .bark, .tree, .job, .cells, .sess, .limbs, .stream, .host, .ras, .journal, .pendStep, .free, .sent] s (State.overrunDie s ended d l inj) := by
  unfold State.overrunDie
  repeat' (with_reducible first
    | apply Alters.refl | apply Alters.step (State.raise_alters _ _ _ _ _ _ _) (by decide +kernel)
    | apply Alters.of1 (by assumption) | apply Alters.of2 (by assumption) | apply Alters.ite | apply Alters.foldl
    | apply Alters.foldlFst | apply Alters.foldlSnd | intro _ | dsimp only | split)

theorem State.overruns_alters (s : State) (ended : Nat) (l : List (Nat × Nat)) (inj : Option (Nat × Nat)) :
    Alters [.regs, .modl, .tel, .bark, .tree, .job, .cells, .sess, .limbs, .stream, .host, .ras, .journal, .pendStep, .free, .sent] s (State.overruns s ended l inj) := by
  unfold State.overruns
  repeat' (with_reducible first
    | apply Alters.refl | apply Alters.step (State.overrunDie_alters _ _ _ _ _) (by decide +kernel) | apply Alters.foldl
    | apply Alters.foldlFst | apply Alters.foldlSnd | intro _)

theorem State.ringStats_alters (s : State) (o : EdgeObs) (ended : Nat) :
    Alters [.regs] s (State.ringStats s o ended) := by
  unfold State.ringStats
  repeat' (with_reducible first
    | apply Alters.refl | apply Alters.step (State.incSat_alters _ _ _) (by decide +kernel)
    | apply Alters.step (State.setF_alters _ _ _) (by decide +kernel) | apply Alters.ite)

theorem State.takePower_alters (s : State) (o : EdgeObs) :
    Alters [.regs, .power, .tel, .bark, .host, .ras, .journal, .free, .sent] s (State.takePower s o) := by
  unfold State.takePower
  repeat' (with_reducible first
    | apply Alters.refl | apply Alters.step (State.setF_alters _ _ _) (by decide +kernel)
    | apply Alters.step (State.fireRoot_alters _ _ _ _) (by decide +kernel)
    | apply Alters.step (State.setPower_alters _ _) (by decide +kernel) | apply Alters.of1 (by assumption)
    | apply Alters.of2 (by assumption) | apply Alters.ite | apply Alters.foldl | apply Alters.foldlFst
    | apply Alters.foldlSnd | intro _ | dsimp only | split)

theorem State.takeReadings_alters (s : State) (o : EdgeObs) :
    Alters [.regs, .modl, .tel, .bark, .host, .ras, .journal, .free, .sent] s (State.takeReadings s o) := by
  unfold State.takeReadings
  repeat' (with_reducible first
    | apply Alters.refl | apply Alters.step (State.setF_alters _ _ _) (by decide +kernel)
    | apply Alters.step (State.fireRoot_alters _ _ _ _) (by decide +kernel)
    | apply Alters.step (State.setModl_alters _ _) (by decide +kernel))

theorem State.watchdogInject_alters (s : State) (ended : Nat) :
    Alters [.regs, .modl, .tel, .bark, .tree, .job, .cells, .sess, .limbs, .stream, .host, .ras, .journal, .pendRing, .pendStep, .free, .sent] s (State.watchdogInject s ended) := by
  unfold State.watchdogInject
  repeat' (with_reducible first
    | apply Alters.refl | apply Alters.step (State.setCell_alters _ _ _ _) (by decide +kernel)
    | apply Alters.step (State.fireMarker_alters _ _) (by decide +kernel)
    | apply Alters.step (State.declareDead_alters _ _ _ _ _ _ _) (by decide +kernel) | apply Alters.of1 (by assumption)
    | apply Alters.of2 (by assumption) | apply Alters.foldl | apply Alters.foldlFst | apply Alters.foldlSnd | intro _
    | dsimp only | split)

theorem State.closeRing_alters (s : State) (o : EdgeObs) :
    Alters [.regs, .modl, .ring, .clk, .power, .tel, .bark, .tree, .job, .cells, .ports, .sess, .limbs, .stream, .host, .ras, .journal, .pendRing, .pendStep, .free, .sent] s (State.closeRing s o) := by
  unfold State.closeRing
  repeat' (with_reducible first
    | apply Alters.refl | apply Alters.step (State.edgeAbort_alters _ _) (by decide +kernel)
    | apply Alters.step (State.overruns_alters _ _ _ _) (by decide +kernel)
    | apply Alters.step (State.takeReadings_alters _ _) (by decide +kernel)
    | apply Alters.step (State.watchdogInject_alters _ _) (by decide +kernel)
    | apply Alters.step (State.fireMarker_alters _ _) (by decide +kernel)
    | apply Alters.step (State.newRing_alters _) (by decide +kernel)
    | apply Alters.step (State.newBudget_alters _) (by decide +kernel)
    | apply Alters.step (State.takePower_alters _ _) (by decide +kernel)
    | apply Alters.step (State.telStep_alters _ _ _) (by decide +kernel)
    | apply Alters.step (State.ringStats_alters _ _ _) (by decide +kernel))

theorem State.condensationEdge_alters (s : State) :
    Alters [.regs, .modl, .power, .bark, .tree, .graft, .job, .cells, .taps, .ports, .sess, .limbs, .stream, .sessCmd, .host, .ras, .journal, .pendStep, .free, .sent] s (State.condensationEdge s) := by
  unfold State.condensationEdge
  repeat' (with_reducible first
    | apply Alters.refl | apply Alters.step (State.holdDrop_alters _) (by decide +kernel) | apply Alters.ite)

theorem State.coolantTrip_alters (s : State) (inj : Bool) :
    Alters [.regs, .modl, .power, .tel, .bark, .tree, .graft, .job, .cells, .taps, .ports, .sess, .limbs, .stream, .sessCmd, .host, .ras, .journal, .pendStep, .free, .sent] s (State.coolantTrip s inj) := by
  unfold State.coolantTrip
  repeat' (with_reducible first
    | apply Alters.refl | apply Alters.step (State.thermTrip_alters _) (by decide +kernel)
    | apply Alters.step (State.dropRails_alters _) (by decide +kernel)
    | apply Alters.step (State.raiseEnd_alters _ _ _ _ _ _) (by decide +kernel) | apply Alters.ite)

theorem State.decideCode_alters (s : State) :
    Alters [.clk] s (State.decideCode s) := by
  unfold State.decideCode
  repeat' (with_reducible first
    | apply Alters.refl | apply Alters.step (State.setClk_alters _ _) (by decide +kernel) | apply Alters.ite)

theorem State.droopWindow_alters (s : State) :
    Alters [.power] s (State.droopWindow s) := by
  unfold State.droopWindow
  repeat' (with_reducible first
    | apply Alters.refl | apply Alters.step (State.setPower_alters _ _) (by decide +kernel) | apply Alters.ite)

theorem State.edgeInject_alters (s : State) :
    Alters [.regs, .modl, .tel, .bark, .tree, .job, .cells, .taps, .ports, .sess, .limbs, .stream, .host, .ras, .journal, .pendStep, .free, .sent] s (State.edgeInject s) := by
  unfold State.edgeInject
  repeat' (with_reducible first
    | apply Alters.refl | apply Alters.step (State.leaveUp_alters _ _ _ _ _ _) (by decide +kernel)
    | apply Alters.step (State.loseSes_alters _ _ _ _ _) (by decide +kernel)
    | apply Alters.step (State.fireEdge_alters _ _ _) (by decide +kernel)
    | apply Alters.step (State.auxOver_alters _ _ _) (by decide +kernel) | apply Alters.of2 (by assumption)
    | apply Alters.ite | dsimp only | split)

theorem State.edgeSessions_alters (s : State) :
    Alters [.regs, .sess, .sessCmd, .host, .sent] s (State.edgeSessions s) := by
  unfold State.edgeSessions
  repeat' (with_reducible first
    | apply Alters.refl | apply Alters.step (State.sessionBoundary_alters _) (by decide +kernel) | apply Alters.ite
    | dsimp only | split)

theorem State.excursion_alters (s : State) (inj : Bool) :
    Alters [.regs, .modl, .power, .tel, .bark, .tree, .job, .cells, .sess, .limbs, .stream, .host, .ras, .journal, .pendStep, .free, .sent] s (State.excursion s inj) := by
  unfold State.excursion
  repeat' (with_reducible first
    | apply Alters.refl | apply Alters.step (State.raise_alters _ _ _ _ _ _ _) (by decide +kernel)
    | apply Alters.step (State.setPower_alters _ _) (by decide +kernel) | apply Alters.ite)

theorem State.powerOffDies_alters (s : State) :
    Alters [.power, .cells] s (State.powerOffDies s) := by
  unfold State.powerOffDies
  repeat' (with_reducible first
    | apply Alters.refl | apply Alters.step (State.setDomain_alters _ _ _) (by decide +kernel)
    | apply Alters.step (State.loseDie_alters _ _) (by decide +kernel) | apply Alters.ite | apply Alters.foldl
    | apply Alters.foldlFst | apply Alters.foldlSnd | intro _)

theorem State.peerAnswer_alters (s : State) (r : JournalRec) :
    Alters [.taps, .limbs] s (State.peerAnswer s r) := by
  unfold State.peerAnswer
  repeat' (with_reducible first
    | apply Alters.refl | apply Alters.step (State.dropPend_alters _ _ _) (by decide +kernel)
    | apply Alters.step (State.answerRead_alters _ _ _ _ _) (by decide +kernel) | apply Alters.ite | dsimp only | split)

theorem State.peerCredit_alters (s : State) (r : JournalRec) :
    Alters [.cells] s (State.peerCredit s r) := by
  unfold State.peerCredit
  repeat' (with_reducible first
    | apply Alters.refl | apply Alters.step (State.setCell_alters _ _ _ _) (by decide +kernel) | apply Alters.ite)

theorem State.peerEvent_alters (s : State) (r : JournalRec) :
    Alters [.regs, .modl, .tel, .bark, .tree, .job, .cells, .taps, .sess, .limbs, .stream, .host, .ras, .journal, .pendStep, .free, .sent] s (State.peerEvent s r) := by
  unfold State.peerEvent
  repeat' (with_reducible first
    | apply Alters.refl | apply Alters.step (State.peerCredit_alters _ _) (by decide +kernel)
    | apply Alters.step (State.peerAnswer_alters _ _) (by decide +kernel)
    | apply Alters.step (State.placeWrite_alters _ _ _) (by decide +kernel) | apply Alters.ite)

theorem State.replayInject_alters (s : State) (off : Nat) (word : Nat) :
    Alters [.ras] s (State.replayInject s off word) := by
  unfold State.replayInject
  repeat' (with_reducible first
    | apply Alters.refl | apply Alters.ite | dsimp only | split | refine Alters.update ?_)

theorem State.replayEvent_alters (s : State) (r : JournalRec) :
    Alters [.regs, .modl, .tel, .bark, .tree, .job, .cells, .taps, .sess, .limbs, .stream, .host, .ras, .journal, .pendStep, .free, .sent] s (State.replayEvent s r) := by
  unfold State.replayEvent
  repeat' (with_reducible first
    | apply Alters.refl | apply Alters.step (State.registerAbort_alters _ _ _ _) (by decide +kernel)
    | apply Alters.step (State.inc_alters _ _ _) (by decide +kernel)
    | apply Alters.step (State.replayInject_alters _ _ _) (by decide +kernel)
    | apply Alters.step (State.peerEvent_alters _ _) (by decide +kernel) | apply Alters.ite | dsimp only | split
    | refine Alters.update ?_)

theorem State.replayRing_alters (s : State) :
    Alters [.regs, .modl, .tel, .bark, .tree, .job, .cells, .taps, .sess, .limbs, .stream, .host, .ras, .journal, .pendStep, .free, .sent] s (State.replayRing s) := by
  unfold State.replayRing
  repeat' (with_reducible first
    | apply Alters.refl | apply Alters.step (State.replayEvent_alters _ _) (by decide +kernel) | apply Alters.ite
    | apply Alters.foldl | apply Alters.foldlFst | apply Alters.foldlSnd | intro _)

theorem State.swapPassed_alters (s : State) :
    Alters [.regs, .modl, .tel, .bark, .tree, .graft, .job, .cells, .sess, .limbs, .stream, .host, .ras, .journal, .pendStep, .free, .sent] s (State.swapPassed s) := by
  unfold State.swapPassed
  repeat' (with_reducible first
    | apply Alters.refl | apply Alters.step (State.swapFails_alters _ _) (by decide +kernel) | apply Alters.ite
    | dsimp only | split)

theorem State.openRing_alters (s : State) :
    Alters [.regs, .modl, .clk, .power, .tel, .bark, .tree, .graft, .job, .cells, .taps, .sess, .limbs, .stream, .sessCmd, .host, .ras, .journal, .pendStep, .free, .sent] s (State.openRing s) := by
  unfold State.openRing
  repeat' (with_reducible first
    | apply Alters.refl | apply Alters.step (State.powerOffDies_alters _) (by decide +kernel)
    | apply Alters.step (State.edgeSessions_alters _) (by decide +kernel)
    | apply Alters.step (State.swapPassed_alters _) (by decide +kernel)
    | apply Alters.step (State.replayRing_alters _) (by decide +kernel)
    | apply Alters.step (State.beginEntry_alters _) (by decide +kernel)
    | apply Alters.step (State.droopWindow_alters _) (by decide +kernel)
    | apply Alters.step (State.decideCode_alters _) (by decide +kernel)
    | apply Alters.step (State.send_alters _ _) (by decide +kernel) | apply Alters.ite)

theorem State.overlimit_alters (s : State) (above : Bool) :
    Alters [.regs, .modl, .power, .tel, .bark, .tree, .job, .cells, .sess, .limbs, .stream, .host, .ras, .journal, .pendStep, .free, .sent] s (State.overlimit s above) := by
  unfold State.overlimit
  repeat' (with_reducible first
    | apply Alters.refl | apply Alters.step (State.raise_alters _ _ _ _ _ _ _) (by decide +kernel)
    | apply Alters.step (State.setPower_alters _ _) (by decide +kernel) | apply Alters.ite)

theorem State.rootInject_alters (s : State) :
    Alters [.regs, .modl, .ring, .clk, .power, .tel, .hw, .bark, .tree, .graft, .job, .cells, .taps, .ports, .sess, .limbs, .stream, .sessCmd, .host, .ras, .journal, .pendStep, .free, .sent] s (State.rootInject s) := by
  unfold State.rootInject
  repeat' (with_reducible first
    | apply Alters.refl | apply Alters.step (State.droop_alters _ _ _) (by decide +kernel)
    | apply Alters.step (State.inputFails_alters _ _) (by decide +kernel)
    | apply Alters.step (State.sourceLoss_alters _ _) (by decide +kernel)
    | apply Alters.step (State.pllLoss_alters _ _ _ _) (by decide +kernel)
    | apply Alters.step (State.hardTripNow_alters _ _ _) (by decide +kernel)
    | apply Alters.step (State.fireRoot_alters _ _ _ _) (by decide +kernel)
    | apply Alters.step (State.ideFails_alters _ _) (by decide +kernel)
    | apply Alters.step (State.railFault_alters _ _ _) (by decide +kernel) | apply Alters.of1 (by assumption)
    | apply Alters.of2 (by assumption) | apply Alters.ite | apply Alters.foldl | apply Alters.foldlFst
    | apply Alters.foldlSnd | intro _ | dsimp only | split)

theorem State.protect_alters (s : State) (o : EdgeObs) :
    Alters [.regs, .modl, .ring, .clk, .power, .thermal, .tel, .hw, .bark, .tree, .graft, .job, .cells, .taps, .ports, .sess, .limbs, .stream, .sessCmd, .host, .ras, .journal, .pendStep, .free, .sent] s (State.protect s o) := by
  unfold State.protect
  repeat' (with_reducible first
    | apply Alters.refl | apply Alters.step (State.overlimit_alters _ _) (by decide +kernel)
    | apply Alters.step (State.excursion_alters _ _) (by decide +kernel)
    | apply Alters.step (State.edgeInject_alters _) (by decide +kernel)
    | apply Alters.step (State.rootInject_alters _) (by decide +kernel)
    | apply Alters.step (State.condensationEdge_alters _) (by decide +kernel)
    | apply Alters.step (State.trips_alters _ _ _) (by decide +kernel)
    | apply Alters.step (State.coolantTrip_alters _ _) (by decide +kernel))

theorem execPeriodChange_alters (s : State) {u : State}
    (e : execPeriodChange s = .next u) : Alters [.regs, .modl, .ring, .clk, .tel, .bark, .tree, .job, .cells, .sess, .limbs, .stream, .host, .ras, .journal, .pendStep, .free, .sent] s u := by
  refine .ofNext e ?_
  repeat' (with_reducible first
    | apply Alters.refl | apply Alters.step (State.setClk_alters _ _) (by decide +kernel)
    | apply Alters.step (State.raiseAbort_alters _ _ _ _ _ _) (by decide +kernel)
    | apply Alters.step (State.newBudget_alters _) (by decide +kernel)
    | apply Alters.step (State.setRing_alters _ _) (by decide +kernel)
    | apply Alters.step (State.decideCode_alters _) (by decide +kernel)
    | apply Alters.step (State.timeRecord_alters _ _ _ _) (by decide +kernel)
    | apply Alters.step (State.event_alters _ _) (by decide +kernel) | apply Alters.ite | dsimp only | split)

theorem execRingEdge_alters (o : EdgeObs) (s : State) {u : State}
    (e : execRingEdge o s = .next u) : Alters [.regs, .modl, .ring, .clk, .power, .thermal, .tel, .hw, .bark, .tree, .graft, .job, .cells, .taps, .ports, .sess, .limbs, .stream, .sessCmd, .host, .ras, .journal, .pendRing, .pendStep, .free, .sent] s u := by
  refine .ofNext e ?_
  repeat' (with_reducible first
    | apply Alters.refl | apply Alters.step (State.protect_alters _ _) (by decide +kernel)
    | apply Alters.step (State.openRing_alters _) (by decide +kernel)
    | apply Alters.step (State.closeRing_alters _ _) (by decide +kernel) | apply Alters.ite)

end Sys2Proof.Machine
end

