-- ==== Sys2Proof/Laws/Frames.lean ====
section
/-!
SUPPORT. What each command can change (`exec_alters`), and what follows: no command touches the queue of waiting commands, and
every command keeps the stores in their canonical form.
-/
namespace Sys2Proof.Machine

/-! ## One command at a time -/

@[simp] theorem exec_timecodeFrame (a0 : RingFrame) (s : State) :
    exec (.timecodeFrame a0) s = execTimecodeFrame a0 s := rfl
@[simp] theorem exec_delimiterMissing (s : State) :
    exec (.delimiterMissing) s = execDelimiterMissing s := rfl
@[simp] theorem exec_periodChange (s : State) :
    exec (.periodChange) s = execPeriodChange s := rfl
@[simp] theorem exec_ringEdge (a0 : EdgeObs) (s : State) :
    exec (.ringEdge a0) s = execRingEdge a0 s := rfl
@[simp] theorem exec_freqChange (s : State) :
    exec (.freqChange) s = execFreqChange s := rfl
@[simp] theorem exec_ptpSync (a0 : PtpObs) (s : State) :
    exec (.ptpSync a0) s = execPtpSync a0 s := rfl
@[simp] theorem exec_crystalLoss (s : State) :
    exec (.crystalLoss) s = execCrystalLoss s := rfl
@[simp] theorem exec_crystalGood (s : State) :
    exec (.crystalGood) s = execCrystalGood s := rfl
@[simp] theorem exec_clockHandover (s : State) :
    exec (.clockHandover) s = execClockHandover s := rfl
@[simp] theorem exec_pllUnlock (a0 : Nat) (s : State) :
    exec (.pllUnlock a0) s = execPllUnlock a0 s := rfl
@[simp] theorem exec_pllRelock (a0 : Nat) (s : State) :
    exec (.pllRelock a0) s = execPllRelock a0 s := rfl
@[simp] theorem exec_relockTimeout (a0 : Nat) (s : State) :
    exec (.relockTimeout a0) s = execRelockTimeout a0 s := rfl
@[simp] theorem exec_clkMeasWindow (a0 : Nat) (a1 : Nat) (s : State) :
    exec (.clkMeasWindow a0 a1) s = execClkMeasWindow a0 a1 s := rfl
@[simp] theorem exec_ringConfigWrite (a0 : Word64) (s : State) :
    exec (.ringConfigWrite a0) s = execRingConfigWrite a0 s := rfl
@[simp] theorem exec_ringEnableWrite (a0 : Bool) (s : State) :
    exec (.ringEnableWrite a0) s = execRingEnableWrite a0 s := rfl
@[simp] theorem exec_ringSourceWrite (a0 : Bool) (s : State) :
    exec (.ringSourceWrite a0) s = execRingSourceWrite a0 s := rfl
@[simp] theorem exec_clrStats (s : State) :
    exec (.clrStats) s = execClrStats s := rfl
@[simp] theorem exec_clkFreqWrite (a0 : Word64) (s : State) :
    exec (.clkFreqWrite a0) s = execClkFreqWrite a0 s := rfl
@[simp] theorem exec_clkSscWrite (a0 : Word64) (s : State) :
    exec (.clkSscWrite a0) s = execClkSscWrite a0 s := rfl
@[simp] theorem exec_clkGateReq (a0 : Word64) (s : State) :
    exec (.clkGateReq a0) s = execClkGateReq a0 s := rfl
@[simp] theorem exec_gateRequestDone (s : State) :
    exec (.gateRequestDone) s = execGateRequestDone s := rfl
@[simp] theorem exec_blockParse (a0 : Nat) (a1 : Nat) (s : State) :
    exec (.blockParse a0 a1) s = execBlockParse a0 a1 s := rfl
@[simp] theorem exec_groupIssue (a0 : Nat) (a1 : Nat) (a2 : Nat) (s : State) :
    exec (.groupIssue a0 a1 a2) s = execGroupIssue a0 a1 a2 s := rfl
@[simp] theorem exec_groupSteal (a0 : Nat) (a1 : Nat) (a2 : Nat) (s : State) :
    exec (.groupSteal a0 a1 a2) s = execGroupSteal a0 a1 a2 s := rfl
@[simp] theorem exec_spanLoad (a0 : Nat) (a1 : Nat) (s : State) :
    exec (.spanLoad a0 a1) s = execSpanLoad a0 a1 s := rfl
@[simp] theorem exec_predictScore (a0 : Nat) (a1 : Nat) (s : State) :
    exec (.predictScore a0 a1) s = execPredictScore a0 a1 s := rfl
@[simp] theorem exec_termAccept (a0 : Nat) (a1 : Nat) (a2 : Nat) (a3 : Bool) (s : State) :
    exec (.termAccept a0 a1 a2 a3) s = execTermAccept a0 a1 a2 a3 s := rfl
@[simp] theorem exec_outputComplete (a0 : Nat) (a1 : Nat) (a2 : Nat) (s : State) :
    exec (.outputComplete a0 a1 a2) s = execOutputComplete a0 a1 a2 s := rfl
@[simp] theorem exec_outputSetActivate (a0 : Nat) (a1 : Nat) (s : State) :
    exec (.outputSetActivate a0 a1) s = execOutputSetActivate a0 a1 s := rfl
@[simp] theorem exec_pack (a0 : Nat) (a1 : Nat) (s : State) :
    exec (.pack a0 a1) s = execPack a0 a1 s := rfl
@[simp] theorem exec_bankAccess (a0 : Nat) (a1 : Nat) (a2 : List Client) (a3 : List (Nat × Nat)) (s : State) :
    exec (.bankAccess a0 a1 a2 a3) s = execBankAccess a0 a1 a2 a3 s := rfl
@[simp] theorem exec_scrubAccess (a0 : Nat) (a1 : Nat) (a2 : Nat) (a3 : Bool) (a4 : List (Nat × Nat)) (s : State) :
    exec (.scrubAccess a0 a1 a2 a3 a4) s = execScrubAccess a0 a1 a2 a3 a4 s := rfl
@[simp] theorem exec_remoteWriteHeader (a0 : Nat) (a1 : Nat) (a2 : Nat) (s : State) :
    exec (.remoteWriteHeader a0 a1 a2) s = execRemoteWriteHeader a0 a1 a2 s := rfl
@[simp] theorem exec_remoteWriteBeat (a0 : Nat) (a1 : Nat) (s : State) :
    exec (.remoteWriteBeat a0 a1) s = execRemoteWriteBeat a0 a1 s := rfl
@[simp] theorem exec_creditReq (a0 : Nat) (a1 : Nat) (s : State) :
    exec (.creditReq a0 a1) s = execCreditReq a0 a1 s := rfl
@[simp] theorem exec_creditGrant (a0 : Nat) (a1 : Nat) (s : State) :
    exec (.creditGrant a0 a1) s = execCreditGrant a0 a1 s := rfl
@[simp] theorem exec_nackReceive (a0 : Nat) (a1 : Nat) (s : State) :
    exec (.nackReceive a0 a1) s = execNackReceive a0 a1 s := rfl
@[simp] theorem exec_creditRelease (a0 : Nat) (a1 : Nat) (a2 : Nat) (a3 : Nat) (s : State) :
    exec (.creditRelease a0 a1 a2 a3) s = execCreditRelease a0 a1 a2 a3 s := rfl
@[simp] theorem exec_creditRefresh (a0 : Nat) (a1 : Nat) (s : State) :
    exec (.creditRefresh a0 a1) s = execCreditRefresh a0 a1 s := rfl
@[simp] theorem exec_windowClose (a0 : Nat) (a1 : Nat) (a2 : Nat) (a3 : Nat) (s : State) :
    exec (.windowClose a0 a1 a2 a3) s = execWindowClose a0 a1 a2 a3 s := rfl
@[simp] theorem exec_windowOpen (a0 : Nat) (a1 : Nat) (a2 : Nat) (s : State) :
    exec (.windowOpen a0 a1 a2) s = execWindowOpen a0 a1 a2 s := rfl
@[simp] theorem exec_windowReopen (a0 : Nat) (a1 : Nat) (a2 : Nat) (a3 : Nat) (s : State) :
    exec (.windowReopen a0 a1 a2 a3) s = execWindowReopen a0 a1 a2 a3 s := rfl
@[simp] theorem exec_windowClosed (a0 : Nat) (a1 : Nat) (a2 : Nat) (s : State) :
    exec (.windowClosed a0 a1 a2) s = execWindowClosed a0 a1 a2 s := rfl
@[simp] theorem exec_readReq (a0 : Nat) (a1 : Nat) (s : State) :
    exec (.readReq a0 a1) s = execReadReq a0 a1 s := rfl
@[simp] theorem exec_readData (a0 : Nat) (a1 : Nat) (s : State) :
    exec (.readData a0 a1) s = execReadData a0 a1 s := rfl
@[simp] theorem exec_unitArrive (a0 : Nat) (a1 : Nat) (a2 : Net) (a3 : InPort) (a4 : Nat) (s : State) :
    exec (.unitArrive a0 a1 a2 a3 a4) s = execUnitArrive a0 a1 a2 a3 a4 s := rfl
@[simp] theorem exec_tokenArrive (a0 : Nat) (a1 : Nat) (a2 : InPort) (a3 : Bool) (s : State) :
    exec (.tokenArrive a0 a1 a2 a3) s = execTokenArrive a0 a1 a2 a3 s := rfl
@[simp] theorem exec_portGrant (a0 : Nat) (a1 : Nat) (a2 : Net) (a3 : OutPort) (s : State) :
    exec (.portGrant a0 a1 a2 a3) s = execPortGrant a0 a1 a2 a3 s := rfl
@[simp] theorem exec_steerAct (a0 : Nat) (a1 : Nat) (a2 : Bool) (s : State) :
    exec (.steerAct a0 a1 a2) s = execSteerAct a0 a1 a2 s := rfl
@[simp] theorem exec_tapChannelDeliver (a0 : Nat) (a1 : Net) (a2 : Bool) (a3 : Nat) (s : State) :
    exec (.tapChannelDeliver a0 a1 a2 a3) s = execTapChannelDeliver a0 a1 a2 a3 s := rfl
@[simp] theorem exec_watchdog (a0 : Nat) (a1 : Nat) (s : State) :
    exec (.watchdog a0 a1) s = execWatchdog a0 a1 s := rfl
@[simp] theorem exec_loaderWrite (a0 : Nat) (s : State) :
    exec (.loaderWrite a0) s = execLoaderWrite a0 s := rfl
@[simp] theorem exec_graftLoad (s : State) :
    exec (.graftLoad) s = execGraftLoad s := rfl
@[simp] theorem exec_abortLoad (s : State) :
    exec (.abortLoad) s = execAbortLoad s := rfl
@[simp] theorem exec_graftClrCounters (s : State) :
    exec (.graftClrCounters) s = execGraftClrCounters s := rfl
@[simp] theorem exec_stagingDone (a0 : List Byte) (s : State) :
    exec (.stagingDone a0) s = execStagingDone a0 s := rfl
@[simp] theorem exec_stagingReadError (s : State) :
    exec (.stagingReadError) s = execStagingReadError s := rfl
@[simp] theorem exec_verifyDone (s : State) :
    exec (.verifyDone) s = execVerifyDone s := rfl
@[simp] theorem exec_broadcastDone (a0 : Bool) (s : State) :
    exec (.broadcastDone a0) s = execBroadcastDone a0 s := rfl
@[simp] theorem exec_swap (s : State) :
    exec (.swap) s = execSwap s := rfl
@[simp] theorem exec_postPoll (a0 : Option PostHeader) (a1 : List SlotRead) (s : State) :
    exec (.postPoll a0 a1) s = execPostPoll a0 a1 s := rfl
@[simp] theorem exec_completionWrite (s : State) :
    exec (.completionWrite) s = execCompletionWrite s := rfl
@[simp] theorem exec_preparationEdge (s : State) :
    exec (.preparationEdge) s = execPreparationEdge s := rfl
@[simp] theorem exec_transposeBuildDone (s : State) :
    exec (.transposeBuildDone) s = execTransposeBuildDone s := rfl
@[simp] theorem exec_stepStart (s : State) :
    exec (.stepStart) s = execStepStart s := rfl
@[simp] theorem exec_phaseStart (s : State) :
    exec (.phaseStart) s = execPhaseStart s := rfl
@[simp] theorem exec_commitDecision (s : State) :
    exec (.commitDecision) s = execCommitDecision s := rfl
@[simp] theorem exec_jobEnd (s : State) :
    exec (.jobEnd) s = execJobEnd s := rfl
@[simp] theorem exec_claim (a0 : Nat) (a1 : Nat) (a2 : Nat) (a3 : Nat) (s : State) :
    exec (.claim a0 a1 a2 a3) s = execClaim a0 a1 a2 a3 s := rfl
@[simp] theorem exec_claimReply (a0 : Nat) (a1 : Nat) (s : State) :
    exec (.claimReply a0 a1) s = execClaimReply a0 a1 s := rfl
@[simp] theorem exec_hashCompare (a0 : Nat) (a1 : Nat) (s : State) :
    exec (.hashCompare a0 a1) s = execHashCompare a0 a1 s := rfl
@[simp] theorem exec_voteResolve (a0 : Nat) (a1 : Nat) (s : State) :
    exec (.voteResolve a0 a1) s = execVoteResolve a0 a1 s := rfl
@[simp] theorem exec_jobAbort (a0 : Nat) (s : State) :
    exec (.jobAbort a0) s = execJobAbort a0 s := rfl
@[simp] theorem exec_jobEnableWrite (a0 : Bool) (s : State) :
    exec (.jobEnableWrite a0) s = execJobEnableWrite a0 s := rfl
@[simp] theorem exec_jobClrCounters (s : State) :
    exec (.jobClrCounters) s = execJobClrCounters s := rfl
@[simp] theorem exec_checkpointWrite (s : State) :
    exec (.checkpointWrite) s = execCheckpointWrite s := rfl
@[simp] theorem exec_adminEnWrite (a0 : Nat) (a1 : Bool) (s : State) :
    exec (.adminEnWrite a0 a1) s = execAdminEnWrite a0 a1 s := rfl
@[simp] theorem exec_presenceChange (a0 : Nat) (a1 : Bool) (s : State) :
    exec (.presenceChange a0 a1) s = execPresenceChange a0 a1 s := rfl
@[simp] theorem exec_negotiationDone (a0 : Nat) (a1 : Bool) (a2 : Bool) (s : State) :
    exec (.negotiationDone a0 a1 a2) s = execNegotiationDone a0 a1 a2 s := rfl
@[simp] theorem exec_negotiationTimeout (a0 : Nat) (a1 : Bool) (s : State) :
    exec (.negotiationTimeout a0 a1) s = execNegotiationTimeout a0 a1 s := rfl
@[simp] theorem exec_trainDone (a0 : Nat) (a1 : Bool) (s : State) :
    exec (.trainDone a0 a1) s = execTrainDone a0 a1 s := rfl
@[simp] theorem exec_trainTimeout (a0 : Nat) (a1 : Bool) (s : State) :
    exec (.trainTimeout a0 a1) s = execTrainTimeout a0 a1 s := rfl
@[simp] theorem exec_linkDown (a0 : Nat) (a1 : Bool) (a2 : Bool) (s : State) :
    exec (.linkDown a0 a1 a2) s = execLinkDown a0 a1 a2 s := rfl
@[simp] theorem exec_retrain (a0 : Nat) (s : State) :
    exec (.retrain a0) s = execRetrain a0 s := rfl
@[simp] theorem exec_portReset (a0 : Nat) (s : State) :
    exec (.portReset a0) s = execPortReset a0 s := rfl
@[simp] theorem exec_auxOvercurrent (a0 : Nat) (s : State) :
    exec (.auxOvercurrent a0) s = execAuxOvercurrent a0 s := rfl
@[simp] theorem exec_edgeClrCounters (s : State) :
    exec (.edgeClrCounters) s = execEdgeClrCounters s := rfl
@[simp] theorem exec_frameReceive (a0 : Nat) (a1 : Bool) (a2 : List Byte) (s : State) :
    exec (.frameReceive a0 a1 a2) s = execFrameReceive a0 a1 a2 s := rfl
@[simp] theorem exec_frameTransmit (a0 : Nat) (a1 : Bool) (s : State) :
    exec (.frameTransmit a0 a1) s = execFrameTransmit a0 a1 s := rfl
@[simp] theorem exec_ackFrameSend (a0 : Nat) (s : State) :
    exec (.ackFrameSend a0) s = execAckFrameSend a0 s := rfl
@[simp] theorem exec_ackReceive (a0 : Nat) (s : State) :
    exec (.ackReceive a0) s = execAckReceive a0 s := rfl
@[simp] theorem exec_rtoExpiry (a0 : Nat) (s : State) :
    exec (.rtoExpiry a0) s = execRtoExpiry a0 s := rfl
@[simp] theorem exec_deadlineUnacked (a0 : Nat) (a1 : Nat) (s : State) :
    exec (.deadlineUnacked a0 a1) s = execDeadlineUnacked a0 a1 s := rfl
@[simp] theorem exec_sapEgress (a0 : Nat) (a1 : Net) (s : State) :
    exec (.sapEgress a0 a1) s = execSapEgress a0 a1 s := rfl
@[simp] theorem exec_writeReceive (a0 : Nat) (s : State) :
    exec (.writeReceive a0) s = execWriteReceive a0 s := rfl
@[simp] theorem exec_readReceive (a0 : Nat) (s : State) :
    exec (.readReceive a0) s = execReadReceive a0 s := rfl
@[simp] theorem exec_creditReceive (a0 : Nat) (s : State) :
    exec (.creditReceive a0) s = execCreditReceive a0 s := rfl
@[simp] theorem exec_responseReceive (a0 : Nat) (s : State) :
    exec (.responseReceive a0) s = execResponseReceive a0 s := rfl
@[simp] theorem exec_noticeReceive (a0 : Nat) (s : State) :
    exec (.noticeReceive a0) s = execNoticeReceive a0 s := rfl
@[simp] theorem exec_syncReceive (a0 : Nat) (s : State) :
    exec (.syncReceive a0) s = execSyncReceive a0 s := rfl
@[simp] theorem exec_sessionOpen (a0 : Word64) (s : State) :
    exec (.sessionOpen a0) s = execSessionOpen a0 s := rfl
@[simp] theorem exec_sessionListen (a0 : Word64) (s : State) :
    exec (.sessionListen a0) s = execSessionListen a0 s := rfl
@[simp] theorem exec_sessionClose (a0 : Word64) (s : State) :
    exec (.sessionClose a0) s = execSessionClose a0 s := rfl
@[simp] theorem exec_controlOpen (a0 : Nat) (a1 : Bool) (s : State) :
    exec (.controlOpen a0 a1) s = execControlOpen a0 a1 s := rfl
@[simp] theorem exec_openAck (a0 : Nat) (s : State) :
    exec (.openAck a0) s = execOpenAck a0 s := rfl
@[simp] theorem exec_openRefuse (a0 : Nat) (s : State) :
    exec (.openRefuse a0) s = execOpenRefuse a0 s := rfl
@[simp] theorem exec_handshakeTimeout (a0 : Nat) (s : State) :
    exec (.handshakeTimeout a0) s = execHandshakeTimeout a0 s := rfl
@[simp] theorem exec_controlEpoch (a0 : Nat) (s : State) :
    exec (.controlEpoch a0) s = execControlEpoch a0 s := rfl
@[simp] theorem exec_epochAck (a0 : Nat) (s : State) :
    exec (.epochAck a0) s = execEpochAck a0 s := rfl
@[simp] theorem exec_controlClose (a0 : Nat) (s : State) :
    exec (.controlClose a0) s = execControlClose a0 s := rfl
@[simp] theorem exec_closingDone (a0 : Nat) (s : State) :
    exec (.closingDone a0) s = execClosingDone a0 s := rfl
@[simp] theorem exec_keepalive (a0 : Nat) (s : State) :
    exec (.keepalive a0) s = execKeepalive a0 s := rfl
@[simp] theorem exec_holdExpiry (a0 : Nat) (s : State) :
    exec (.holdExpiry a0) s = execHoldExpiry a0 s := rfl
@[simp] theorem exec_graceExpiry (a0 : Nat) (s : State) :
    exec (.graceExpiry a0) s = execGraceExpiry a0 s := rfl
@[simp] theorem exec_sapConfigWrite (a0 : Word64) (s : State) :
    exec (.sapConfigWrite a0) s = execSapConfigWrite a0 s := rfl
@[simp] theorem exec_sapClrCounters (s : State) :
    exec (.sapClrCounters) s = execSapClrCounters s := rfl
@[simp] theorem exec_streamRequest (a0 : Nat) (s : State) :
    exec (.streamRequest a0) s = execStreamRequest a0 s := rfl
@[simp] theorem exec_streamDataReceive (a0 : Nat) (s : State) :
    exec (.streamDataReceive a0) s = execStreamDataReceive a0 s := rfl
@[simp] theorem exec_streamWrite (a0 : Nat) (s : State) :
    exec (.streamWrite a0) s = execStreamWrite a0 s := rfl
@[simp] theorem exec_streamResponse (a0 : Nat) (s : State) :
    exec (.streamResponse a0) s = execStreamResponse a0 s := rfl
@[simp] theorem exec_deferredReissue (a0 : Nat) (a1 : Nat) (s : State) :
    exec (.deferredReissue a0 a1) s = execDeferredReissue a0 a1 s := rfl
@[simp] theorem exec_cacheUnpin (a0 : Nat) (a1 : Nat) (s : State) :
    exec (.cacheUnpin a0 a1) s = execCacheUnpin a0 a1 s := rfl
@[simp] theorem exec_rootAdvance (s : State) :
    exec (.rootAdvance) s = execRootAdvance s := rfl
@[simp] theorem exec_treeWrite (s : State) :
    exec (.treeWrite) s = execTreeWrite s := rfl
@[simp] theorem exec_streamFlush (s : State) :
    exec (.streamFlush) s = execStreamFlush s := rfl
@[simp] theorem exec_streamExtentWrite (a0 : Word64) (s : State) :
    exec (.streamExtentWrite a0) s = execStreamExtentWrite a0 s := rfl
@[simp] theorem exec_streamClrCounters (s : State) :
    exec (.streamClrCounters) s = execStreamClrCounters s := rfl
@[simp] theorem exec_hostportReset (a0 : HostReset) (s : State) :
    exec (.hostportReset a0) s = execHostportReset a0 s := rfl
@[simp] theorem exec_hostportUp (a0 : Nat) (a1 : Nat) (a2 : Bool) (s : State) :
    exec (.hostportUp a0 a1 a2) s = execHostportUp a0 a1 a2 s := rfl
@[simp] theorem exec_busMasterEnable (a0 : Bool) (s : State) :
    exec (.busMasterEnable a0) s = execBusMasterEnable a0 s := rfl
@[simp] theorem exec_dstateChange (a0 : DState) (s : State) :
    exec (.dstateChange a0) s = execDstateChange a0 s := rfl
@[simp] theorem exec_ideFail (s : State) :
    exec (.ideFail) s = execIdeFail s := rfl
@[simp] theorem exec_completionTimeout (a0 : HostRead) (s : State) :
    exec (.completionTimeout a0) s = execCompletionTimeout a0 s := rfl
@[simp] theorem exec_bar0BadAccess (s : State) :
    exec (.bar0BadAccess) s = execBar0BadAccess s := rfl
@[simp] theorem exec_registerWrite (a0 : Nat) (a1 : Word64) (s : State) :
    exec (.registerWrite a0 a1) s = execRegisterWrite a0 a1 s := rfl
@[simp] theorem exec_intCauseClear (a0 : Word64) (s : State) :
    exec (.intCauseClear a0) s = execIntCauseClear a0 s := rfl
@[simp] theorem exec_intEnableWrite (a0 : Word64) (s : State) :
    exec (.intEnableWrite a0) s = execIntEnableWrite a0 s := rfl
@[simp] theorem exec_idClrCounters (s : State) :
    exec (.idClrCounters) s = execIdClrCounters s := rfl
@[simp] theorem exec_dynamicAddress (a0 : Nat) (s : State) :
    exec (.dynamicAddress a0) s = execDynamicAddress a0 s := rfl
@[simp] theorem exec_getId (s : State) :
    exec (.getId) s = execGetId s := rfl
@[simp] theorem exec_getStatus (s : State) :
    exec (.getStatus) s = execGetStatus s := rfl
@[simp] theorem exec_getEnv (s : State) :
    exec (.getEnv) s = execGetEnv s := rfl
@[simp] theorem exec_getFault (a0 : Nat) (s : State) :
    exec (.getFault a0) s = execGetFault a0 s := rfl
@[simp] theorem exec_setPower (a0 : Nat) (s : State) :
    exec (.setPower a0) s = execSetPower a0 s := rfl
@[simp] theorem exec_setCap (a0 : Nat) (s : State) :
    exec (.setCap a0) s = execSetCap a0 s := rfl
@[simp] theorem exec_abort (a0 : Nat) (s : State) :
    exec (.abort a0) s = execAbort a0 s := rfl
@[simp] theorem exec_reset (a0 : Nat) (s : State) :
    exec (.reset a0) s = execReset a0 s := rfl
@[simp] theorem exec_clearLoss (s : State) :
    exec (.clearLoss) s = execClearLoss s := rfl
@[simp] theorem exec_recoveryEnter (s : State) :
    exec (.recoveryEnter) s = execRecoveryEnter s := rfl
@[simp] theorem exec_recoveryWrite (a0 : Nat) (a1 : List Byte) (s : State) :
    exec (.recoveryWrite a0 a1) s = execRecoveryWrite a0 a1 s := rfl
@[simp] theorem exec_recoveryCommit (a0 : Nat) (s : State) :
    exec (.recoveryCommit a0) s = execRecoveryCommit a0 s := rfl
@[simp] theorem exec_recoveryReboot (s : State) :
    exec (.recoveryReboot) s = execRecoveryReboot s := rfl
@[simp] theorem exec_newNonce (s : State) :
    exec (.newNonce) s = execNewNonce s := rfl
@[simp] theorem exec_deviceCert (s : State) :
    exec (.deviceCert) s = execDeviceCert s := rfl
@[simp] theorem exec_attest (a0 : Nat) (s : State) :
    exec (.attest a0) s = execAttest a0 s := rfl
@[simp] theorem exec_m7MeasurementDone (s : State) :
    exec (.m7MeasurementDone) s = execM7MeasurementDone s := rfl
@[simp] theorem exec_barkClaim (a0 : Nat) (s : State) :
    exec (.barkClaim a0) s = execBarkClaim a0 s := rfl
@[simp] theorem exec_release (a0 : Nat) (s : State) :
    exec (.release a0) s = execRelease a0 s := rfl
@[simp] theorem exec_recover (a0 : Nat) (s : State) :
    exec (.recover a0) s = execRecover a0 s := rfl
@[simp] theorem exec_scrubComplete (s : State) :
    exec (.scrubComplete) s = execScrubComplete s := rfl
@[simp] theorem exec_hostOpen (a0 : Nat) (s : State) :
    exec (.hostOpen a0) s = execHostOpen a0 s := rfl
@[simp] theorem exec_grant (a0 : Nat) (s : State) :
    exec (.grant a0) s = execGrant a0 s := rfl
@[simp] theorem exec_grantStart (s : State) :
    exec (.grantStart) s = execGrantStart s := rfl
@[simp] theorem exec_grantExpiry (s : State) :
    exec (.grantExpiry) s = execGrantExpiry s := rfl
@[simp] theorem exec_revoke (a0 : Nat) (s : State) :
    exec (.revoke a0) s = execRevoke a0 s := rfl
@[simp] theorem exec_keyLoad (a0 : Nat) (s : State) :
    exec (.keyLoad a0) s = execKeyLoad a0 s := rfl
@[simp] theorem exec_smkGenerate (a0 : Nat) (s : State) :
    exec (.smkGenerate a0) s = execSmkGenerate a0 s := rfl
@[simp] theorem exec_smkExport (a0 : Nat) (s : State) :
    exec (.smkExport a0) s = execSmkExport a0 s := rfl
@[simp] theorem exec_treeReset (a0 : Nat) (s : State) :
    exec (.treeReset a0) s = execTreeReset a0 s := rfl
@[simp] theorem exec_rootLoad (a0 : Nat) (a1 : List Byte) (s : State) :
    exec (.rootLoad a0 a1) s = execRootLoad a0 a1 s := rfl
@[simp] theorem exec_rollbackAdvance (a0 : Nat) (s : State) :
    exec (.rollbackAdvance a0) s = execRollbackAdvance a0 s := rfl
@[simp] theorem exec_planeRead (a0 : Nat) (s : State) :
    exec (.planeRead a0) s = execPlaneRead a0 s := rfl
@[simp] theorem exec_fwWrite (a0 : Nat) (s : State) :
    exec (.fwWrite a0) s = execFwWrite a0 s := rfl
@[simp] theorem exec_fwCommit (a0 : Nat) (s : State) :
    exec (.fwCommit a0) s = execFwCommit a0 s := rfl
@[simp] theorem exec_fwActivate (a0 : Nat) (s : State) :
    exec (.fwActivate a0) s = execFwActivate a0 s := rfl
@[simp] theorem exec_trunkHandover (s : State) :
    exec (.trunkHandover) s = execTrunkHandover s := rfl
@[simp] theorem exec_limbDieBoot (a0 : Nat) (s : State) :
    exec (.limbDieBoot a0) s = execLimbDieBoot a0 s := rfl
@[simp] theorem exec_barkSeal (s : State) :
    exec (.barkSeal) s = execSeal s := rfl
@[simp] theorem exec_barkClrCounters (s : State) :
    exec (.barkClrCounters) s = execBarkClrCounters s := rfl
@[simp] theorem exec_pufHealthCheck (a0 : Nat) (a1 : Bool) (s : State) :
    exec (.pufHealthCheck a0 a1) s = execPufHealthCheck a0 a1 s := rfl
@[simp] theorem exec_heartwoodWrite (a0 : Nat) (a1 : Option Nat) (a2 : Option Nat) (s : State) :
    exec (.heartwoodWrite a0 a1 a2) s = execHeartwoodWrite a0 a1 a2 s := rfl
@[simp] theorem exec_heartwoodRefresh (a0 : Nat) (s : State) :
    exec (.heartwoodRefresh a0) s = execHeartwoodRefresh a0 s := rfl
@[simp] theorem exec_rwhWrite (a0 : Nat) (a1 : Word64) (s : State) :
    exec (.rwhWrite a0 a1) s = execRwhWrite a0 a1 s := rfl
@[simp] theorem exec_hwClrCounters (s : State) :
    exec (.hwClrCounters) s = execHwClrCounters s := rfl
@[simp] theorem exec_powerRequest (a0 : Word64) (s : State) :
    exec (.powerRequest a0) s = execPowerRequest a0 s := rfl
@[simp] theorem exec_powerEntryComplete (s : State) :
    exec (.powerEntryComplete) s = execPowerEntryComplete s := rfl
@[simp] theorem exec_powerReturnComplete (s : State) :
    exec (.powerReturnComplete) s = execPowerReturnComplete s := rfl
@[simp] theorem exec_wakeN (a0 : Nat) (s : State) :
    exec (.wakeN a0) s = execWakeN a0 s := rfl
@[simp] theorem exec_decisionEdge (s : State) :
    exec (.decisionEdge) s = execDecisionEdge s := rfl
@[simp] theorem exec_droopEvent (a0 : Nat) (a1 : Nat) (s : State) :
    exec (.droopEvent a0 a1) s = execDroopEvent a0 a1 s := rfl
@[simp] theorem exec_railFault (a0 : Nat) (s : State) :
    exec (.railFault a0) s = execRailFault a0 s := rfl
@[simp] theorem exec_sensorSample (a0 : List Int) (s : State) :
    exec (.sensorSample a0) s = execSensorSample a0 s := rfl
@[simp] theorem exec_hardTrip (a0 : Nat) (s : State) :
    exec (.hardTrip a0) s = execHardTrip a0 s := rfl
@[simp] theorem exec_domainWakeDone (a0 : Nat) (s : State) :
    exec (.domainWakeDone a0) s = execDomainWakeDone a0 s := rfl
@[simp] theorem exec_domainWakeTimeout (a0 : Nat) (s : State) :
    exec (.domainWakeTimeout a0) s = execDomainWakeTimeout a0 s := rfl
@[simp] theorem exec_excursionWrite (a0 : Nat) (s : State) :
    exec (.excursionWrite a0) s = execExcursionWrite a0 s := rfl
@[simp] theorem exec_pwrClrCounters (s : State) :
    exec (.pwrClrCounters) s = execPwrClrCounters s := rfl
@[simp] theorem exec_tripClear (s : State) :
    exec (.tripClear) s = execTripClear s := rfl
@[simp] theorem exec_clrPeak (s : State) :
    exec (.clrPeak) s = execClrPeak s := rfl
@[simp] theorem exec_thmClrCounters (s : State) :
    exec (.thmClrCounters) s = execThmClrCounters s := rfl
@[simp] theorem exec_telemetryRecord (s : State) :
    exec (.telemetryRecord) s = execTelemetryRecord s := rfl
@[simp] theorem exec_telEnableWrite (a0 : Bool) (s : State) :
    exec (.telEnableWrite a0) s = execTelEnableWrite a0 s := rfl
@[simp] theorem exec_telClrCounters (s : State) :
    exec (.telClrCounters) s = execTelClrCounters s := rfl
@[simp] theorem exec_condensationHold (s : State) :
    exec (.condensationHold) s = execCondensationHold s := rfl
@[simp] theorem exec_condensationClear (s : State) :
    exec (.condensationClear) s = execCondensationClear s := rfl
@[simp] theorem exec_tiltWarning (s : State) :
    exec (.tiltWarning) s = execTiltWarning s := rfl
@[simp] theorem exec_inputFail (s : State) :
    exec (.inputFail) s = execInputFail s := rfl
@[simp] theorem exec_inputReturn (s : State) :
    exec (.inputReturn) s = execInputReturn s := rfl
@[simp] theorem exec_standbyLoss (s : State) :
    exec (.standbyLoss) s = execStandbyLoss s := rfl
@[simp] theorem exec_powerOn (a0 : Nat) (s : State) :
    exec (.powerOn a0) s = execPowerOn a0 s := rfl
@[simp] theorem exec_resetN (a0 : Nat) (s : State) :
    exec (.resetN a0) s = execResetN a0 s := rfl
@[simp] theorem exec_injCell (a0 : Word64) (s : State) :
    exec (.injCell a0) s = execInjCell a0 s := rfl
@[simp] theorem exec_injNet (a0 : Word64) (s : State) :
    exec (.injNet a0) s = execInjNet a0 s := rfl
@[simp] theorem exec_injEdge (a0 : Word64) (s : State) :
    exec (.injEdge a0) s = execInjEdge a0 s := rfl
@[simp] theorem exec_injRoot (a0 : Word64) (s : State) :
    exec (.injRoot a0) s = execInjRoot a0 s := rfl
@[simp] theorem exec_recoveryStart (s : State) :
    exec (.recoveryStart) s = execRecoveryStart s := rfl
@[simp] theorem exec_bandShift (s : State) :
    exec (.bandShift) s = execBandShift s := rfl
@[simp] theorem exec_shiftComplete (s : State) :
    exec (.shiftComplete) s = execShiftComplete s := rfl
@[simp] theorem exec_copyComplete (s : State) :
    exec (.copyComplete) s = execCopyComplete s := rfl
@[simp] theorem exec_restoreComplete (a0 : Restore) (s : State) :
    exec (.restoreComplete a0) s = execRestoreComplete a0 s := rfl
@[simp] theorem exec_replayComplete (s : State) :
    exec (.replayComplete) s = execReplayComplete s := rfl
@[simp] theorem exec_selfTestDone (a0 : Nat) (a1 : Nat) (a2 : Bool) (s : State) :
    exec (.selfTestDone a0 a1 a2) s = execSelfTestDone a0 a1 a2 s := rfl
@[simp] theorem exec_journalWrite (s : State) :
    exec (.journalWrite) s = execJournalWrite s := rfl
@[simp] theorem exec_rasClrCounters (s : State) :
    exec (.rasClrCounters) s = execRasClrCounters s := rfl
@[simp] theorem exec_journalClrCounters (s : State) :
    exec (.journalClrCounters) s = execJournalClrCounters s := rfl
@[simp] theorem exec_sparseClrCounters (s : State) :
    exec (.sparseClrCounters) s = execSparseClrCounters s := rfl
@[simp] theorem exec_fabClrCounters (s : State) :
    exec (.fabClrCounters) s = execFabClrCounters s := rfl
@[simp] theorem exec_fabProbeSelWrite (a0 : Word64) (s : State) :
    exec (.fabProbeSelWrite a0) s = execFabProbeSelWrite a0 s := rfl
@[simp] theorem exec_bootStage (a0 : BootObs) (s : State) :
    exec (.bootStage a0) s = execBootStage a0 s := rfl
@[simp] theorem exec_ready (s : State) :
    exec (.ready) s = execReady s := rfl
@[simp] theorem exec_gapNakRepeat (a0 : Nat) (s : State) :
    exec (.gapNakRepeat a0) s = execGapNakRepeat a0 s := rfl
@[simp] theorem exec_lifeCounterUpdate (s : State) :
    exec (.lifeCounterUpdate) s = execLifeCounterUpdate s := rfl
@[simp] theorem exec_entropyHealthFail (s : State) :
    exec (.entropyHealthFail) s = execEntropyHealthFail s := rfl
@[simp] theorem exec_ideKmRequest (a0 : Bool) (s : State) :
    exec (.ideKmRequest a0) s = execIdeKmRequest a0 s := rfl

/-- A command changes the parts its row of the table lists, and keeps the stores canonical. -/
theorem exec_alters {c : Instr} {s t : State} (e : exec c s = .next t) : Alters (mayChange c) s t := by
  cases c with
  | timecodeFrame _ => exact execTimecodeFrame_alters _ _ (exec_timecodeFrame _ _ ▸ e)
  | delimiterMissing => exact execDelimiterMissing_alters _ (exec_delimiterMissing _ ▸ e)
  | periodChange => exact execPeriodChange_alters _ (exec_periodChange _ ▸ e)
  | ringEdge _ => exact execRingEdge_alters _ _ (exec_ringEdge _ _ ▸ e)
  | freqChange => exact execFreqChange_alters _ (exec_freqChange _ ▸ e)
  | ptpSync _ => exact execPtpSync_alters _ _ (exec_ptpSync _ _ ▸ e)
  | crystalLoss => exact execCrystalLoss_alters _ (exec_crystalLoss _ ▸ e)
  | crystalGood => exact execCrystalGood_alters _ (exec_crystalGood _ ▸ e)
  | clockHandover => exact execClockHandover_alters _ (exec_clockHandover _ ▸ e)
  | pllUnlock _ => exact execPllUnlock_alters _ _ (exec_pllUnlock _ _ ▸ e)
  | pllRelock _ => exact execPllRelock_alters _ _ (exec_pllRelock _ _ ▸ e)
  | relockTimeout _ => exact execRelockTimeout_alters _ _ (exec_relockTimeout _ _ ▸ e)
  | clkMeasWindow _ _ => exact execClkMeasWindow_alters _ _ _ (exec_clkMeasWindow _ _ _ ▸ e)
  | ringConfigWrite _ => exact execRingConfigWrite_alters _ _ (exec_ringConfigWrite _ _ ▸ e)
  | ringEnableWrite _ => exact execRingEnableWrite_alters _ _ (exec_ringEnableWrite _ _ ▸ e)
  | ringSourceWrite _ => exact execRingSourceWrite_alters _ _ (exec_ringSourceWrite _ _ ▸ e)
  | clrStats => exact execClrStats_alters _ (exec_clrStats _ ▸ e)
  | clkFreqWrite _ => exact execClkFreqWrite_alters _ _ (exec_clkFreqWrite _ _ ▸ e)
  | clkSscWrite _ => exact execClkSscWrite_alters _ _ (exec_clkSscWrite _ _ ▸ e)
  | clkGateReq _ => exact execClkGateReq_alters _ _ (exec_clkGateReq _ _ ▸ e)
  | gateRequestDone => exact execGateRequestDone_alters _ (exec_gateRequestDone _ ▸ e)
  | blockParse _ _ => exact execBlockParse_alters _ _ _ (exec_blockParse _ _ _ ▸ e)
  | groupIssue _ _ _ => exact execGroupIssue_alters _ _ _ _ (exec_groupIssue _ _ _ _ ▸ e)
  | groupSteal _ _ _ => exact execGroupSteal_alters _ _ _ _ (exec_groupSteal _ _ _ _ ▸ e)
  | spanLoad _ _ => exact execSpanLoad_alters _ _ _ (exec_spanLoad _ _ _ ▸ e)
  | predictScore _ _ => exact execPredictScore_alters _ _ _ (exec_predictScore _ _ _ ▸ e)
  | termAccept _ _ _ _ => exact execTermAccept_alters _ _ _ _ _ (exec_termAccept _ _ _ _ _ ▸ e)
  | outputComplete _ _ _ => exact execOutputComplete_alters _ _ _ _ (exec_outputComplete _ _ _ _ ▸ e)
  | outputSetActivate _ _ => exact execOutputSetActivate_alters _ _ _ (exec_outputSetActivate _ _ _ ▸ e)
  | pack _ _ => exact execPack_alters _ _ _ (exec_pack _ _ _ ▸ e)
  | bankAccess _ _ _ _ => exact execBankAccess_alters _ _ _ _ _ (exec_bankAccess _ _ _ _ _ ▸ e)
  | scrubAccess _ _ _ _ _ => exact execScrubAccess_alters _ _ _ _ _ _ (exec_scrubAccess _ _ _ _ _ _ ▸ e)
  | remoteWriteHeader _ _ _ => exact execRemoteWriteHeader_alters _ _ _ _ (exec_remoteWriteHeader _ _ _ _ ▸ e)
  | remoteWriteBeat _ _ => exact execRemoteWriteBeat_alters _ _ _ (exec_remoteWriteBeat _ _ _ ▸ e)
  | creditReq _ _ => exact execCreditReq_alters _ _ _ (exec_creditReq _ _ _ ▸ e)
  | creditGrant _ _ => exact execCreditGrant_alters _ _ _ (exec_creditGrant _ _ _ ▸ e)
  | nackReceive _ _ => exact execNackReceive_alters _ _ _ (exec_nackReceive _ _ _ ▸ e)
  | creditRelease _ _ _ _ => exact execCreditRelease_alters _ _ _ _ _ (exec_creditRelease _ _ _ _ _ ▸ e)
  | creditRefresh _ _ => exact execCreditRefresh_alters _ _ _ (exec_creditRefresh _ _ _ ▸ e)
  | windowClose _ _ _ _ => exact execWindowClose_alters _ _ _ _ _ (exec_windowClose _ _ _ _ _ ▸ e)
  | windowOpen _ _ _ => exact execWindowOpen_alters _ _ _ _ (exec_windowOpen _ _ _ _ ▸ e)
  | windowReopen _ _ _ _ => exact execWindowReopen_alters _ _ _ _ _ (exec_windowReopen _ _ _ _ _ ▸ e)
  | windowClosed _ _ _ => exact execWindowClosed_alters _ _ _ _ (exec_windowClosed _ _ _ _ ▸ e)
  | readReq _ _ => exact execReadReq_alters _ _ _ (exec_readReq _ _ _ ▸ e)
  | readData _ _ => exact execReadData_alters _ _ _ (exec_readData _ _ _ ▸ e)
  | unitArrive _ _ _ _ _ => exact execUnitArrive_alters _ _ _ _ _ _ (exec_unitArrive _ _ _ _ _ _ ▸ e)
  | tokenArrive _ _ _ _ => exact execTokenArrive_alters _ _ _ _ _ (exec_tokenArrive _ _ _ _ _ ▸ e)
  | portGrant _ _ _ _ => exact execPortGrant_alters _ _ _ _ _ (exec_portGrant _ _ _ _ _ ▸ e)
  | steerAct _ _ _ => exact execSteerAct_alters _ _ _ _ (exec_steerAct _ _ _ _ ▸ e)
  | tapChannelDeliver _ _ _ _ => exact execTapChannelDeliver_alters _ _ _ _ _ (exec_tapChannelDeliver _ _ _ _ _ ▸ e)
  | watchdog _ _ => exact execWatchdog_alters _ _ _ (exec_watchdog _ _ _ ▸ e)
  | loaderWrite _ => exact execLoaderWrite_alters _ _ (exec_loaderWrite _ _ ▸ e)
  | graftLoad => exact execGraftLoad_alters _ (exec_graftLoad _ ▸ e)
  | abortLoad => exact execAbortLoad_alters _ (exec_abortLoad _ ▸ e)
  | graftClrCounters => exact execGraftClrCounters_alters _ (exec_graftClrCounters _ ▸ e)
  | stagingDone _ => exact execStagingDone_alters _ _ (exec_stagingDone _ _ ▸ e)
  | stagingReadError => exact execStagingReadError_alters _ (exec_stagingReadError _ ▸ e)
  | verifyDone => exact execVerifyDone_alters _ (exec_verifyDone _ ▸ e)
  | broadcastDone _ => exact execBroadcastDone_alters _ _ (exec_broadcastDone _ _ ▸ e)
  | swap => exact execSwap_alters _ (exec_swap _ ▸ e)
  | postPoll _ _ => exact execPostPoll_alters _ _ _ (exec_postPoll _ _ _ ▸ e)
  | completionWrite => exact execCompletionWrite_alters _ (exec_completionWrite _ ▸ e)
  | preparationEdge => exact execPreparationEdge_alters _ (exec_preparationEdge _ ▸ e)
  | transposeBuildDone => exact execTransposeBuildDone_alters _ (exec_transposeBuildDone _ ▸ e)
  | stepStart => exact execStepStart_alters _ (exec_stepStart _ ▸ e)
  | phaseStart => exact execPhaseStart_alters _ (exec_phaseStart _ ▸ e)
  | commitDecision => exact execCommitDecision_alters _ (exec_commitDecision _ ▸ e)
  | jobEnd => exact execJobEnd_alters _ (exec_jobEnd _ ▸ e)
  | claim _ _ _ _ => exact execClaim_alters _ _ _ _ _ (exec_claim _ _ _ _ _ ▸ e)
  | claimReply _ _ => exact execClaimReply_alters _ _ _ (exec_claimReply _ _ _ ▸ e)
  | hashCompare _ _ => exact execHashCompare_alters _ _ _ (exec_hashCompare _ _ _ ▸ e)
  | voteResolve _ _ => exact execVoteResolve_alters _ _ _ (exec_voteResolve _ _ _ ▸ e)
  | jobAbort _ => exact execJobAbort_alters _ _ (exec_jobAbort _ _ ▸ e)
  | jobEnableWrite _ => exact execJobEnableWrite_alters _ _ (exec_jobEnableWrite _ _ ▸ e)
  | jobClrCounters => exact execJobClrCounters_alters _ (exec_jobClrCounters _ ▸ e)
  | checkpointWrite => exact execCheckpointWrite_alters _ (exec_checkpointWrite _ ▸ e)
  | adminEnWrite _ _ => exact execAdminEnWrite_alters _ _ _ (exec_adminEnWrite _ _ _ ▸ e)
  | presenceChange _ _ => exact execPresenceChange_alters _ _ _ (exec_presenceChange _ _ _ ▸ e)
  | negotiationDone _ _ _ => exact execNegotiationDone_alters _ _ _ _ (exec_negotiationDone _ _ _ _ ▸ e)
  | negotiationTimeout _ _ => exact execNegotiationTimeout_alters _ _ _ (exec_negotiationTimeout _ _ _ ▸ e)
  | trainDone _ _ => exact execTrainDone_alters _ _ _ (exec_trainDone _ _ _ ▸ e)
  | trainTimeout _ _ => exact execTrainTimeout_alters _ _ _ (exec_trainTimeout _ _ _ ▸ e)
  | linkDown _ _ _ => exact execLinkDown_alters _ _ _ _ (exec_linkDown _ _ _ _ ▸ e)
  | retrain _ => exact execRetrain_alters _ _ (exec_retrain _ _ ▸ e)
  | portReset _ => exact execPortReset_alters _ _ (exec_portReset _ _ ▸ e)
  | auxOvercurrent _ => exact execAuxOvercurrent_alters _ _ (exec_auxOvercurrent _ _ ▸ e)
  | edgeClrCounters => exact execEdgeClrCounters_alters _ (exec_edgeClrCounters _ ▸ e)
  | frameReceive _ _ _ => exact execFrameReceive_alters _ _ _ _ (exec_frameReceive _ _ _ _ ▸ e)
  | frameTransmit _ _ => exact execFrameTransmit_alters _ _ _ (exec_frameTransmit _ _ _ ▸ e)
  | ackFrameSend _ => exact execAckFrameSend_alters _ _ (exec_ackFrameSend _ _ ▸ e)
  | ackReceive _ => exact execAckReceive_alters _ _ (exec_ackReceive _ _ ▸ e)
  | rtoExpiry _ => exact execRtoExpiry_alters _ _ (exec_rtoExpiry _ _ ▸ e)
  | deadlineUnacked _ _ => exact execDeadlineUnacked_alters _ _ _ (exec_deadlineUnacked _ _ _ ▸ e)
  | sapEgress _ _ => exact execSapEgress_alters _ _ _ (exec_sapEgress _ _ _ ▸ e)
  | writeReceive _ => exact execWriteReceive_alters _ _ (exec_writeReceive _ _ ▸ e)
  | readReceive _ => exact execReadReceive_alters _ _ (exec_readReceive _ _ ▸ e)
  | creditReceive _ => exact execCreditReceive_alters _ _ (exec_creditReceive _ _ ▸ e)
  | responseReceive _ => exact execResponseReceive_alters _ _ (exec_responseReceive _ _ ▸ e)
  | noticeReceive _ => exact execNoticeReceive_alters _ _ (exec_noticeReceive _ _ ▸ e)
  | syncReceive _ => exact execSyncReceive_alters _ _ (exec_syncReceive _ _ ▸ e)
  | sessionOpen _ => exact execSessionOpen_alters _ _ (exec_sessionOpen _ _ ▸ e)
  | sessionListen _ => exact execSessionListen_alters _ _ (exec_sessionListen _ _ ▸ e)
  | sessionClose _ => exact execSessionClose_alters _ _ (exec_sessionClose _ _ ▸ e)
  | controlOpen _ _ => exact execControlOpen_alters _ _ _ (exec_controlOpen _ _ _ ▸ e)
  | openAck _ => exact execOpenAck_alters _ _ (exec_openAck _ _ ▸ e)
  | openRefuse _ => exact execOpenRefuse_alters _ _ (exec_openRefuse _ _ ▸ e)
  | handshakeTimeout _ => exact execHandshakeTimeout_alters _ _ (exec_handshakeTimeout _ _ ▸ e)
  | controlEpoch _ => exact execControlEpoch_alters _ _ (exec_controlEpoch _ _ ▸ e)
  | epochAck _ => exact execEpochAck_alters _ _ (exec_epochAck _ _ ▸ e)
  | controlClose _ => exact execControlClose_alters _ _ (exec_controlClose _ _ ▸ e)
  | closingDone _ => exact execClosingDone_alters _ _ (exec_closingDone _ _ ▸ e)
  | keepalive _ => exact execKeepalive_alters _ _ (exec_keepalive _ _ ▸ e)
  | holdExpiry _ => exact execHoldExpiry_alters _ _ (exec_holdExpiry _ _ ▸ e)
  | graceExpiry _ => exact execGraceExpiry_alters _ _ (exec_graceExpiry _ _ ▸ e)
  | sapConfigWrite _ => exact execSapConfigWrite_alters _ _ (exec_sapConfigWrite _ _ ▸ e)
  | sapClrCounters => exact execSapClrCounters_alters _ (exec_sapClrCounters _ ▸ e)
  | streamRequest _ => exact execStreamRequest_alters _ _ (exec_streamRequest _ _ ▸ e)
  | streamDataReceive _ => exact execStreamDataReceive_alters _ _ (exec_streamDataReceive _ _ ▸ e)
  | streamWrite _ => exact execStreamWrite_alters _ _ (exec_streamWrite _ _ ▸ e)
  | streamResponse _ => exact execStreamResponse_alters _ _ (exec_streamResponse _ _ ▸ e)
  | deferredReissue _ _ => exact execDeferredReissue_alters _ _ _ (exec_deferredReissue _ _ _ ▸ e)
  | cacheUnpin _ _ => exact execCacheUnpin_alters _ _ _ (exec_cacheUnpin _ _ _ ▸ e)
  | rootAdvance => exact execRootAdvance_alters _ (exec_rootAdvance _ ▸ e)
  | treeWrite => exact execTreeWrite_alters _ (exec_treeWrite _ ▸ e)
  | streamFlush => exact execStreamFlush_alters _ (exec_streamFlush _ ▸ e)
  | streamExtentWrite _ => exact execStreamExtentWrite_alters _ _ (exec_streamExtentWrite _ _ ▸ e)
  | streamClrCounters => exact execStreamClrCounters_alters _ (exec_streamClrCounters _ ▸ e)
  | hostportReset _ => exact execHostportReset_alters _ _ (exec_hostportReset _ _ ▸ e)
  | hostportUp _ _ _ => exact execHostportUp_alters _ _ _ _ (exec_hostportUp _ _ _ _ ▸ e)
  | busMasterEnable _ => exact execBusMasterEnable_alters _ _ (exec_busMasterEnable _ _ ▸ e)
  | dstateChange _ => exact execDstateChange_alters _ _ (exec_dstateChange _ _ ▸ e)
  | ideFail => exact execIdeFail_alters _ (exec_ideFail _ ▸ e)
  | completionTimeout _ => exact execCompletionTimeout_alters _ _ (exec_completionTimeout _ _ ▸ e)
  | bar0BadAccess => exact execBar0BadAccess_alters _ (exec_bar0BadAccess _ ▸ e)
  | registerWrite _ _ => exact execRegisterWrite_alters _ _ _ (exec_registerWrite _ _ _ ▸ e)
  | intCauseClear _ => exact execIntCauseClear_alters _ _ (exec_intCauseClear _ _ ▸ e)
  | intEnableWrite _ => exact execIntEnableWrite_alters _ _ (exec_intEnableWrite _ _ ▸ e)
  | idClrCounters => exact execIdClrCounters_alters _ (exec_idClrCounters _ ▸ e)
  | dynamicAddress _ => exact execDynamicAddress_alters _ _ (exec_dynamicAddress _ _ ▸ e)
  | getId => exact execGetId_alters _ (exec_getId _ ▸ e)
  | getStatus => exact execGetStatus_alters _ (exec_getStatus _ ▸ e)
  | getEnv => exact execGetEnv_alters _ (exec_getEnv _ ▸ e)
  | getFault _ => exact execGetFault_alters _ _ (exec_getFault _ _ ▸ e)
  | setPower _ => exact execSetPower_alters _ _ (exec_setPower _ _ ▸ e)
  | setCap _ => exact execSetCap_alters _ _ (exec_setCap _ _ ▸ e)
  | abort _ => exact execAbort_alters _ _ (exec_abort _ _ ▸ e)
  | reset _ => exact execReset_alters _ _ (exec_reset _ _ ▸ e)
  | clearLoss => exact execClearLoss_alters _ (exec_clearLoss _ ▸ e)
  | recoveryEnter => exact execRecoveryEnter_alters _ (exec_recoveryEnter _ ▸ e)
  | recoveryWrite _ _ => exact execRecoveryWrite_alters _ _ _ (exec_recoveryWrite _ _ _ ▸ e)
  | recoveryCommit _ => exact execRecoveryCommit_alters _ _ (exec_recoveryCommit _ _ ▸ e)
  | recoveryReboot => exact execRecoveryReboot_alters _ (exec_recoveryReboot _ ▸ e)
  | newNonce => exact execNewNonce_alters _ (exec_newNonce _ ▸ e)
  | deviceCert => exact execDeviceCert_alters _ (exec_deviceCert _ ▸ e)
  | attest _ => exact execAttest_alters _ _ (exec_attest _ _ ▸ e)
  | m7MeasurementDone => exact execM7MeasurementDone_alters _ (exec_m7MeasurementDone _ ▸ e)
  | barkClaim _ => exact execBarkClaim_alters _ _ (exec_barkClaim _ _ ▸ e)
  | release _ => exact execRelease_alters _ _ (exec_release _ _ ▸ e)
  | recover _ => exact execRecover_alters _ _ (exec_recover _ _ ▸ e)
  | scrubComplete => exact execScrubComplete_alters _ (exec_scrubComplete _ ▸ e)
  | hostOpen _ => exact execHostOpen_alters _ _ (exec_hostOpen _ _ ▸ e)
  | grant _ => exact execGrant_alters _ _ (exec_grant _ _ ▸ e)
  | grantStart => exact execGrantStart_alters _ (exec_grantStart _ ▸ e)
  | grantExpiry => exact execGrantExpiry_alters _ (exec_grantExpiry _ ▸ e)
  | revoke _ => exact execRevoke_alters _ _ (exec_revoke _ _ ▸ e)
  | keyLoad _ => exact execKeyLoad_alters _ _ (exec_keyLoad _ _ ▸ e)
  | smkGenerate _ => exact execSmkGenerate_alters _ _ (exec_smkGenerate _ _ ▸ e)
  | smkExport _ => exact execSmkExport_alters _ _ (exec_smkExport _ _ ▸ e)
  | treeReset _ => exact execTreeReset_alters _ _ (exec_treeReset _ _ ▸ e)
  | rootLoad _ _ => exact execRootLoad_alters _ _ _ (exec_rootLoad _ _ _ ▸ e)
  | rollbackAdvance _ => exact execRollbackAdvance_alters _ _ (exec_rollbackAdvance _ _ ▸ e)
  | planeRead _ => exact execPlaneRead_alters _ _ (exec_planeRead _ _ ▸ e)
  | fwWrite _ => exact execFwWrite_alters _ _ (exec_fwWrite _ _ ▸ e)
  | fwCommit _ => exact execFwCommit_alters _ _ (exec_fwCommit _ _ ▸ e)
  | fwActivate _ => exact execFwActivate_alters _ _ (exec_fwActivate _ _ ▸ e)
  | trunkHandover => exact execTrunkHandover_alters _ (exec_trunkHandover _ ▸ e)
  | limbDieBoot _ => exact execLimbDieBoot_alters _ _ (exec_limbDieBoot _ _ ▸ e)
  | barkSeal => exact execSeal_alters _ (exec_barkSeal _ ▸ e)
  | barkClrCounters => exact execBarkClrCounters_alters _ (exec_barkClrCounters _ ▸ e)
  | pufHealthCheck _ _ => exact execPufHealthCheck_alters _ _ _ (exec_pufHealthCheck _ _ _ ▸ e)
  | heartwoodWrite _ _ _ => exact execHeartwoodWrite_alters _ _ _ _ (exec_heartwoodWrite _ _ _ _ ▸ e)
  | heartwoodRefresh _ => exact execHeartwoodRefresh_alters _ _ (exec_heartwoodRefresh _ _ ▸ e)
  | rwhWrite _ _ => exact execRwhWrite_alters _ _ _ (exec_rwhWrite _ _ _ ▸ e)
  | hwClrCounters => exact execHwClrCounters_alters _ (exec_hwClrCounters _ ▸ e)
  | powerRequest _ => exact execPowerRequest_alters _ _ (exec_powerRequest _ _ ▸ e)
  | powerEntryComplete => exact execPowerEntryComplete_alters _ (exec_powerEntryComplete _ ▸ e)
  | powerReturnComplete => exact execPowerReturnComplete_alters _ (exec_powerReturnComplete _ ▸ e)
  | wakeN _ => exact execWakeN_alters _ _ (exec_wakeN _ _ ▸ e)
  | decisionEdge => exact execDecisionEdge_alters _ (exec_decisionEdge _ ▸ e)
  | droopEvent _ _ => exact execDroopEvent_alters _ _ _ (exec_droopEvent _ _ _ ▸ e)
  | railFault _ => exact execRailFault_alters _ _ (exec_railFault _ _ ▸ e)
  | sensorSample _ => exact execSensorSample_alters _ _ (exec_sensorSample _ _ ▸ e)
  | hardTrip _ => exact execHardTrip_alters _ _ (exec_hardTrip _ _ ▸ e)
  | domainWakeDone _ => exact execDomainWakeDone_alters _ _ (exec_domainWakeDone _ _ ▸ e)
  | domainWakeTimeout _ => exact execDomainWakeTimeout_alters _ _ (exec_domainWakeTimeout _ _ ▸ e)
  | excursionWrite _ => exact execExcursionWrite_alters _ _ (exec_excursionWrite _ _ ▸ e)
  | pwrClrCounters => exact execPwrClrCounters_alters _ (exec_pwrClrCounters _ ▸ e)
  | tripClear => exact execTripClear_alters _ (exec_tripClear _ ▸ e)
  | clrPeak => exact execClrPeak_alters _ (exec_clrPeak _ ▸ e)
  | thmClrCounters => exact execThmClrCounters_alters _ (exec_thmClrCounters _ ▸ e)
  | telemetryRecord => exact execTelemetryRecord_alters _ (exec_telemetryRecord _ ▸ e)
  | telEnableWrite _ => exact execTelEnableWrite_alters _ _ (exec_telEnableWrite _ _ ▸ e)
  | telClrCounters => exact execTelClrCounters_alters _ (exec_telClrCounters _ ▸ e)
  | condensationHold => exact execCondensationHold_alters _ (exec_condensationHold _ ▸ e)
  | condensationClear => exact execCondensationClear_alters _ (exec_condensationClear _ ▸ e)
  | tiltWarning => exact execTiltWarning_alters _ (exec_tiltWarning _ ▸ e)
  | inputFail => exact execInputFail_alters _ (exec_inputFail _ ▸ e)
  | inputReturn => exact execInputReturn_alters _ (exec_inputReturn _ ▸ e)
  | standbyLoss => exact execStandbyLoss_alters _ (exec_standbyLoss _ ▸ e)
  | powerOn _ => exact execPowerOn_alters _ _ (exec_powerOn _ _ ▸ e)
  | resetN _ => exact execResetN_alters _ _ (exec_resetN _ _ ▸ e)
  | injCell _ => exact execInjCell_alters _ _ (exec_injCell _ _ ▸ e)
  | injNet _ => exact execInjNet_alters _ _ (exec_injNet _ _ ▸ e)
  | injEdge _ => exact execInjEdge_alters _ _ (exec_injEdge _ _ ▸ e)
  | injRoot _ => exact execInjRoot_alters _ _ (exec_injRoot _ _ ▸ e)
  | recoveryStart => exact execRecoveryStart_alters _ (exec_recoveryStart _ ▸ e)
  | bandShift => exact execBandShift_alters _ (exec_bandShift _ ▸ e)
  | shiftComplete => exact execShiftComplete_alters _ (exec_shiftComplete _ ▸ e)
  | copyComplete => exact execCopyComplete_alters _ (exec_copyComplete _ ▸ e)
  | restoreComplete _ => exact execRestoreComplete_alters _ _ (exec_restoreComplete _ _ ▸ e)
  | replayComplete => exact execReplayComplete_alters _ (exec_replayComplete _ ▸ e)
  | selfTestDone _ _ _ => exact execSelfTestDone_alters _ _ _ _ (exec_selfTestDone _ _ _ _ ▸ e)
  | journalWrite => exact execJournalWrite_alters _ (exec_journalWrite _ ▸ e)
  | rasClrCounters => exact execRasClrCounters_alters _ (exec_rasClrCounters _ ▸ e)
  | journalClrCounters => exact execJournalClrCounters_alters _ (exec_journalClrCounters _ ▸ e)
  | sparseClrCounters => exact execSparseClrCounters_alters _ (exec_sparseClrCounters _ ▸ e)
  | fabClrCounters => exact execFabClrCounters_alters _ (exec_fabClrCounters _ ▸ e)
  | fabProbeSelWrite _ => exact execFabProbeSelWrite_alters _ _ (exec_fabProbeSelWrite _ _ ▸ e)
  | bootStage _ => exact execBootStage_alters _ _ (exec_bootStage _ _ ▸ e)
  | ready => exact execReady_alters _ (exec_ready _ ▸ e)
  | gapNakRepeat _ => exact execGapNakRepeat_alters _ _ (exec_gapNakRepeat _ _ ▸ e)
  | lifeCounterUpdate => exact execLifeCounterUpdate_alters _ (exec_lifeCounterUpdate _ ▸ e)
  | entropyHealthFail => exact execEntropyHealthFail_alters _ (exec_entropyHealthFail _ ▸ e)
  | ideKmRequest _ => exact execIdeKmRequest_alters _ _ (exec_ideKmRequest _ _ ▸ e)

/-- No command changes the queue. -/
theorem exec_pending {c : Instr} {s t : State} (e : exec c s = .next t) : t.pending = s.pending :=
  (exec_alters e).only .pending (by cases c <;> simp [mayChange])

/-- Every command keeps the stores canonical. -/
theorem exec_storesWf {c : Instr} {s t : State} (e : exec c s = .next t) (h : s.storesWf) : t.storesWf :=
  (exec_alters e).stores h

end Sys2Proof.Machine
end

