-- ==== Sys2Proof/Laws/RingOk.lean ====
section
/-!
SUPPORT. The ring unit stays sound: every operation that changes it, then every command (`exec_ringOk`).
-/
namespace Sys2Proof.Machine

set_option Elab.async false

/-- What `State.ringOk` says of the ring unit. -/
def Ring.ok (r : Ring) : Prop :=
  r.number < ringMod ∧ (r.edgeDue = true → r.lock = .locked ∨ r.lock = .holdover) ∧ r.prevPeriod ≤ 5 ∧ r.emergClear ≤ 16

theorem ringOk_iff (s : State) : s.ringOk ↔ s.ring.ok := Iff.rfl

/-- An operation that does not list the ring unit leaves it alone. -/
theorem Alters.ring {ps : List Part} {s t : State} (h : Alters ps s t) (hn : Part.sub [.ring] ps = false) : t.ring = s.ring :=
  h.only .ring (fun m => by simp [Part.sub, m] at hn)

/-- An operation that does not list the ring unit keeps it sound. -/
theorem Alters.ringOk {ps : List Part} {s t : State} (h : Alters ps s t) (hn : Part.sub [.ring] ps = false)
    (k : s.ring.ok) : t.ring.ok := by rw [h.ring hn]; exact k

theorem ite_ringOk {c : Prop} [Decidable c] {s t : State} (h : s.ring.ok) (k : t.ring.ok) : (if c then s else t).ring.ok := by
  split <;> assumption

theorem lockTo_ring (s : State) (l : LockState) : (s.lockTo l).ring = { s.ring with lock := l } := by
  unfold State.lockTo
  split
  · rename_i h; subst h; rfl
  · exact (State.event_alters _ _).ring (by decide +kernel)

theorem dropLock_ring (s : State) (l : LockState) : (s.dropLock l).ring =
    { s.ring with acq := 0, prevNum := none, contexts := 0, ctx := none, invalidRun := 0, holdCount := 0, slewing := false
                  slewNs := 0, changePending := false, changeNext := none, edgeDue := false, ptpGood := 0, lock := l } := by
  unfold State.dropLock
  rw [lockTo_ring]
  dsimp only
  split
  · rw [(State.event_alters _ _).ring (by decide +kernel)]; rfl
  · rfl

theorem dropLock_ringOk {s : State} (l : LockState) (h : s.ring.ok) : (s.dropLock l).ring.ok := by
  rw [dropLock_ring]; exact ⟨h.1, fun k => (by cases k), h.2.2⟩

/-- A lock state that may have an edge due, or no edge due, keeps the unit sound. -/
theorem lockTo_ringOk {s : State} {l : LockState} (h : s.ring.ok) (k : s.ring.edgeDue = true → l = .locked ∨ l = .holdover) :
    (s.lockTo l).ring.ok := by
  rw [lockTo_ring]; exact ⟨h.1, k, h.2.2⟩

/-- What the flags of a frame leave alone: number, lock, edge and period; and the count of clear frames stays within 16. -/
def Ring.flagged (a b : Ring) : Prop :=
  b.number = a.number ∧ b.lock = a.lock ∧ b.edgeDue = a.edgeDue ∧ b.prevPeriod = a.prevPeriod ∧ (a.emergClear ≤ 16 → b.emergClear ≤ 16)

theorem Ring.flagged.trans {a b c : Ring} (h : a.flagged b) (k : b.flagged c) : a.flagged c :=
  ⟨k.1.trans h.1, k.2.1.trans h.2.1, k.2.2.1.trans h.2.2.1, k.2.2.2.1.trans h.2.2.2.1, k.2.2.2.2 ∘ h.2.2.2.2⟩

theorem Ring.flagged.ok {a b : Ring} (h : a.flagged b) (k : a.ok) : b.ok :=
  ⟨h.1 ▸ k.1, by rw [h.2.2.1, h.2.1]; exact k.2.1, h.2.2.2.1 ▸ k.2.2.1, h.2.2.2.2 k.2.2.2⟩

theorem event_ring (s : State) (v : Nat) : (s.event v).ring = s.ring := (State.event_alters _ _).ring (by decide +kernel)

/-- The CHANGE flag. -/
theorem changeFlag_ring (s : State) (f : RingFrame) (n : Nat) : s.ring.flagged (s.changeFlag f n).ring := by
  unfold State.changeFlag
  split
  · split
    · rw [event_ring]; exact ⟨rfl, rfl, rfl, rfl, id⟩
    · split <;> exact ⟨rfl, rfl, rfl, rfl, id⟩
  · exact ⟨rfl, rfl, rfl, rfl, id⟩

/-- The EMERG flag. -/
theorem emergFlag_ring (s : State) (f : RingFrame) (n : Nat) : s.ring.flagged (s.emergFlag f n).ring := by
  have ra (t : State) (a b c : Nat) : (t.registerAbort a b c).ring = t.ring :=
    (State.registerAbort_alters _ _ _ _).ring (by decide +kernel)
  unfold State.emergFlag
  extract_lets t clear u
  have h1 : t.ring = s.ring := by
    show (if f.emerg = s.ring.emerg then s else s.timeRecord 5 f.flags n).ring = s.ring
    split
    · rfl
    · exact (State.timeRecord_alters _ _ _ _).ring (by decide +kernel)
  have h2 : s.ring.flagged u.ring := by
    show s.ring.flagged { t.ring with emerg := f.emerg, emergClear := clear
                                      emergHold := f.emerg || (t.ring.emergHold && decide (clear < 16)) }
    rw [h1]
    refine ⟨rfl, rfl, rfl, rfl, fun _ => ?_⟩
    show (if f.emerg then 0 else min 16 (t.ring.emergClear + 1)) ≤ 16
    split <;> omega
  clear_value u
  split
  · split
    · rw [ra]; exact h2
    · exact h2
  · exact h2

theorem frameFlags_ring (s : State) (f : RingFrame) (n : Nat) : s.ring.flagged (s.frameFlags f n).ring :=
  (changeFlag_ring s f n).trans (emergFlag_ring _ f n)

/-- The flags in ACQUIRING. -/
theorem acquireFlags_ring (s : State) (f : RingFrame) (n : Nat) : s.ring.flagged (s.acquireFlags f n).ring := by
  have hc : s.ring.flagged (s.changePassed n).ring := by
    unfold State.changePassed
    split
    · rw [event_ring]; exact ⟨rfl, rfl, rfl, rfl, id⟩
    · exact ⟨rfl, rfl, rfl, rfl, id⟩
  unfold State.acquireFlags
  split
  · exact hc.trans (frameFlags_ring _ f n)
  · exact emergFlag_ring s f n

theorem frameFlags_ringOk {s : State} (f : RingFrame) (n : Nat) (h : s.ring.ok) : (s.frameFlags f n).ring.ok :=
  (frameFlags_ring s f n).ok h

theorem emergFlag_ringOk {s : State} (f : RingFrame) (n : Nat) (h : s.ring.ok) : (s.emergFlag f n).ring.ok :=
  (emergFlag_ring s f n).ok h

/-! ## Frames -/

/-- A verdict that stands names a 48-bit ring and, with the frame, a period of Table 2.3. -/
def FrameVerdict.sound (v : FrameVerdict) (f : RingFrame) : Prop :=
  match v with
  | .ok n _ => n < ringMod ∧ f.period ≤ 5
  | _ => True

theorem ite_sound {c : Prop} [Decidable c] {v w : FrameVerdict} {f : RingFrame} (h : v.sound f) (k : w.sound f) :
    (if c then v else w).sound f := by split <;> assumption

theorem judgeFull_sound (s : State) (f : RingFrame) (first : Bool) : (s.judgeFull f first).sound f := by
  unfold State.judgeFull
  have hm : f.number % ringMod < ringMod := Nat.mod_lt _ (by decide)
  extract_lets n
  split
  · trivial
  · split
    · trivial
    · split
      · trivial
      · split
        · trivial
        · exact ⟨hm, by omega⟩

theorem shortContext_lt {bs : List Byte} {g hi : Nat} (h : shortContext bs = some (g, hi)) : hi < 2 ^ 36 := by
  unfold shortContext at h
  dsimp only at h
  split at h
  · cases h; exact Nat.mod_lt _ (by decide)
  · cases h

theorem judgeShort_sound (s : State) (f : RingFrame) (exp : Option Nat) (free : Bool) (h : ∀ n ∈ exp, n < ringMod) :
    (s.judgeShort f exp free).sound f := by
  unfold State.judgeShort
  extract_lets lo n rest group
  have hlo : lo < 4096 := Nat.mod_lt _ (by decide)
  have hn : n < ringMod := by
    show exp.getD lo < ringMod
    cases exp with
    | none => exact Nat.lt_trans hlo (by decide)
    | some k => exact h k rfl
  have hr (ctx : Option Nat) (hc : ∀ hi ∈ ctx, hi < 2 ^ 36) : (rest ctx).sound f := by
    unfold rest
    split
    · trivial
    · rename_i hp
      have hp0 : f.period = 0 := by
        by_cases e : f.period = 0
        · exact e
        · exact absurd (Or.inl e) hp
      split
      · trivial
      · cases ctx with
        | none => exact ⟨hn, by omega⟩
        | some hi =>
          have := hc hi rfl
          have hm : n % 4096 < 4096 := Nat.mod_lt _ (by decide)
          have hq : ringMod = 2 ^ 48 := rfl
          dsimp only
          split
          · exact ⟨by omega, by omega⟩
          · exact ⟨by omega, by omega⟩
  clear_value rest
  split
  · trivial
  · split
    · exact hr none (by simp)
    · split
      · trivial
      · split
        · trivial
        · split
          · trivial
          · split
            · trivial
            · rename_i hsc _
              exact hr _ (by intro k hk; cases hk; exact shortContext_lt hsc)


/-- A frame that is not valid counts, and ends the run of clear frames. -/
theorem countFrame_ring (s : State) (v : FrameVerdict) : s.ring.flagged (s.countFrame v).ring := by
  have h (F : Fld) : s.ring.flagged (s.noFrame.incSat F 1).ring := by
    rw [(State.incSat_alters _ _ _).ring (by decide +kernel)]; exact ⟨rfl, rfl, rfl, rfl, fun _ => Nat.zero_le _⟩
  cases v with
  | ok n ctx => exact ⟨rfl, rfl, rfl, rfl, id⟩
  | crc => exact h _
  | grove => exact h _
  | format => exact h _

theorem acquireFrame_ringOk {s : State} {f : RingFrame} {v : FrameVerdict} (h : s.ring.ok) (hd : s.ring.edgeDue = false)
    (hv : v.sound f) : (s.acquireFrame f v).ring.ok := by
  have hf (w : FrameVerdict) : ((s.countFrame w).setRing Ring.restart).ring.ok := (countFrame_ring s w).ok h
  unfold State.acquireFrame
  extract_lets fail
  cases v with
  | ok n ctx =>
    dsimp only
    refine ite_ringOk (hf _) ?_
    · have h1 : ((s.setRing (fun r => { r with
          acq := s.ring.acq + 1, contexts := s.ring.contexts + bit ctx.isSome, prevNum := some n, prevPeriod := f.period
          ctx := if ctx.isSome then ctx else r.ctx })).acquireFlags f n).ring.ok :=
        (acquireFlags_ring _ f n).ok ⟨h.1, fun k => absurd (hd.symm.trans k) (by decide), hv.2, h.2.2.2⟩
      split
      · exact lockTo_ringOk ⟨hv.1, fun k => (by cases k), h1.2.2⟩ (fun k => (by cases k))
      · exact h1
  | crc => exact hf _
  | grove => exact hf _
  | format => exact hf _

theorem raiseAbort_ring (s : State) (fc : FaultCode) (src : Src) (d : Nat) (w : When) (inj : Bool) :
    (s.raiseAbort fc src d w inj).ring = s.ring := (State.raiseAbort_alters _ _ _ _ _ _).ring (by decide +kernel)

theorem timeRecord_ring (s : State) (a b c : Nat) : (s.timeRecord a b c).ring = s.ring :=
  (State.timeRecord_alters _ _ _ _).ring (by decide +kernel)

theorem timeRecord_flagged (s : State) (w : FrameVerdict) (a b c : Nat) : s.ring.flagged ((s.countFrame w).timeRecord a b c).ring := by
  rw [timeRecord_ring]; exact countFrame_ring s w

theorem holdRing_ringOk {s : State} (inj : Bool) (h : s.ring.ok) (hl : s.ring.lock = .holdover) : (s.holdRing inj).ring.ok := by
  unfold State.holdRing
  split
  · exact ⟨h.1, fun _ => Or.inr hl, h.2.2⟩
  · exact dropLock_ringOk _ (by rw [raiseAbort_ring]; exact h)

theorem lockedFrame_ringOk {s : State} {f : RingFrame} {v : FrameVerdict} (inj : Bool) (h : s.ring.ok)
    (hl : s.ring.lock = .locked) (hv : v.sound f) : (s.lockedFrame f v inj).ring.ok := by
  have hb (w : FrameVerdict) : Ring.ok ((if 8 ≤ s.ring.invalidRun + 1 then
        (((((s.countFrame w).timeRecord 1 f.flags f.number).setRing (fun r =>
          { r with invalidRun := s.ring.invalidRun + 1, edgeDue := true })).setRing (fun r =>
          { r with holdCount := 1, invalidRun := 0 })).lockTo .holdover).timeRecord 3 f.flags f.number
      else ((s.countFrame w).timeRecord 1 f.flags f.number).setRing (fun r =>
          { r with invalidRun := s.ring.invalidRun + 1, edgeDue := true }))).ring := by
    have e := timeRecord_flagged s w 1 f.flags f.number
    have k := e.ok h
    split
    · rw [timeRecord_ring]
      exact lockTo_ringOk ⟨k.1, fun _ => Or.inl (e.2.1.trans hl), k.2.2⟩ (fun _ => Or.inr rfl)
    · exact ⟨k.1, fun _ => Or.inl (e.2.1.trans hl), k.2.2⟩
  unfold State.lockedFrame
  cases v with
  | ok n ctx =>
    dsimp only
    split
    · exact dropLock_ringOk _ (by rw [raiseAbort_ring]; exact emergFlag_ringOk f n h)
    · exact frameFlags_ringOk f n ⟨h.1, fun _ => Or.inl hl, hv.2, h.2.2.2⟩
  | crc => exact hb _
  | grove => exact hb _
  | format => exact hb _

theorem holdFrame_ringOk {s : State} {f : RingFrame} {v : FrameVerdict} (inj : Bool) (h : s.ring.ok)
    (hl : s.ring.lock = .holdover) (hv : v.sound f) : (s.holdFrame f v inj).ring.ok := by
  have hb (w : FrameVerdict) : (((s.countFrame w).timeRecord 1 f.flags f.number).holdRing inj).ring.ok := by
    have e := timeRecord_flagged s w 1 f.flags f.number
    exact holdRing_ringOk inj (e.ok h) (e.2.1.trans hl)
  unfold State.holdFrame
  cases v with
  | ok n ctx =>
    dsimp only
    split
    · exact dropLock_ringOk _ (by rw [raiseAbort_ring]; exact emergFlag_ringOk f n h)
    · split
      · exact dropLock_ringOk _ (by rw [raiseAbort_ring]; exact emergFlag_ringOk f n h)
      · have h1 : ((s.setRing (fun r => { r with
            edgeDue := true, slewing := true, prevPeriod := f.period
            slewNs := f.offsetNs - max (-4) (min 4 f.offsetNs) })).frameFlags f n).ring.ok :=
          frameFlags_ringOk f n ⟨h.1, fun _ => Or.inr hl, hv.2, h.2.2.2⟩
        split
        · rw [timeRecord_ring]; exact lockTo_ringOk h1 (fun _ => Or.inl rfl)
        · exact h1
  | crc => exact hb _
  | grove => exact hb _
  | format => exact hb _

/-- What the receiver notes of a ring changes nothing the soundness speaks of. -/
theorem note_ringOk {s : State} (lo : Nat) (c : ChunkSeen) (h : s.ring.ok) : (s.note lo c).ring.ok := h

theorem noteFrame_ringOk {s : State} (f : RingFrame) (lo : Nat) (h : s.ring.ok) : (s.noteFrame f lo).ring.ok := by
  unfold State.noteFrame; split <;> exact h

theorem missing_ringOk {s : State} (inj : Bool) (h : s.ring.ok) : (s.missing inj).ring.ok := by
  unfold State.missing
  extract_lets t
  have e : s.ring.flagged t.ring := by
    show s.ring.flagged { ({ (s.incSat RING_ERRORS_MISSING 1).ring with emergClear := 0 } : Ring) with seen := _ }
    rw [(State.incSat_alters _ _ _).ring (by decide +kernel)]
    exact ⟨rfl, rfl, rfl, rfl, fun _ => Nat.zero_le _⟩
  have ht := e.ok h
  have htl := e.2.1
  clear_value t
  split
  · exact h
  · exact ht
  · split
    · exact h
    · rename_i hl _
      rw [timeRecord_ring]
      refine lockTo_ringOk ?_ (fun _ => Or.inr rfl)
      show Ring.ok { (t.timeRecord 2 0 s.ring.number).ring with holdCount := 1, invalidRun := 0, edgeDue := true }
      rw [timeRecord_ring]; exact ⟨ht.1, fun _ => Or.inl (htl.trans hl), ht.2.2⟩
  · split
    · exact h
    · rename_i hl _
      exact holdRing_ringOk inj (by rw [timeRecord_ring]; exact ht) (by rw [timeRecord_ring]; exact htl.trans hl)

/-! ## Commands that change the ring unit -/

theorem execTimecodeFrame_ringOk {f : RingFrame} {s u : State} (e : execTimecodeFrame f s = .next u) (h : s.ring.ok) :
    u.ring.ok := by
  unfold execTimecodeFrame at e
  cases e
  refine ite_ringOk h ?_
  · have e1 := (State.fireRoot_alters s none 27 (fun _ => true)).ring (by decide +kernel)
    revert e1
    generalize (s.fireRoot none 27 fun _ => true) = q
    intro e1
    have h1 : q.2.ring.ok := by rw [e1]; exact h
    refine ite_ringOk (missing_ringOk true h1) ?_
    · extract_lets f' inj keep exp
      clear_value f'
      have hexp : ∀ n ∈ some exp, n < ringMod := by
        intro n hn; cases hn; exact Nat.mod_lt _ (by decide)
      have hprev : ∀ n ∈ q.2.ring.prevNum.map (fun p => (p + 1) % ringMod), n < ringMod := by
        intro n hn
        simp only [Option.mem_def, Option.map_eq_some_iff] at hn
        obtain ⟨k, -, rfl⟩ := hn
        exact Nat.mod_lt _ (by decide)
      have hk {t : State} (ht : t.ring.ok) : (keep t).ring.ok := noteFrame_ringOk f' _ ht
      clear_value keep exp
      split
      · rename_i hl
        have hd : q.2.ring.edgeDue = false := by
          cases k : q.2.ring.edgeDue with
          | false => rfl
          | true => rcases h1.2.1 k with w | w <;> rw [hl] at w <;> cases w
        refine hk (acquireFrame_ringOk (lockTo_ringOk h1 (fun k => ?_)) ?_ ?_)
        · exact absurd (hd.symm.trans k) (by decide)
        · rw [lockTo_ring]; exact hd
        · exact ite_sound (judgeShort_sound _ _ _ _ (by simp)) (judgeFull_sound _ _ _)
      · rename_i hl
        have hd : q.2.ring.edgeDue = false := by
          cases k : q.2.ring.edgeDue with
          | false => rfl
          | true => rcases h1.2.1 k with w | w <;> rw [hl] at w <;> cases w
        exact hk (acquireFrame_ringOk h1 hd (ite_sound (judgeShort_sound _ _ _ _ hprev) (judgeFull_sound _ _ _)))
      · rename_i hl
        split
        · exact h1
        · exact hk (lockedFrame_ringOk _ h1 hl (ite_sound (judgeShort_sound _ _ _ _ hexp) (judgeFull_sound _ _ _)))
      · rename_i hl
        split
        · exact h1
        · exact hk (holdFrame_ringOk _ h1 hl (ite_sound (judgeShort_sound _ _ _ _ hexp) (judgeFull_sound _ _ _)))

theorem execDelimiterMissing_ringOk {s u : State} (e : execDelimiterMissing s = .next u) (h : s.ring.ok) : u.ring.ok := by
  unfold execDelimiterMissing at e
  cases e
  split
  · exact missing_ringOk false h
  · exact h


theorem foldl_ringOk {α : Type} {f : State → α → State} (hf : ∀ t x, t.ring.ok → (f t x).ring.ok) (l : List α) {s : State}
    (h : s.ring.ok) : (l.foldl f s).ring.ok := by
  induction l generalizing s with
  | nil => exact h
  | cons x l ih => exact ih (hf s x h)

theorem newBudget_ringOk {s : State} (h : s.ring.ok) : s.newBudget.ring.ok := h

theorem settleFaultN_ringOk {s : State} (h : s.ring.ok) : s.settleFaultN.ring.ok :=
  (State.settleFaultN_alters _).ringOk (by decide +kernel) h

theorem engineReset_ringOk {s : State} (h : s.ring.ok) : s.engineReset.ring.ok := by
  unfold State.engineReset
  refine settleFaultN_ringOk (dropLock_ringOk .unlocked ?_)
  exact (State.clearFs_alters _ _).ringOk (by decide +kernel) ((State.clearArr_alters _ _ _).ringOk (by decide +kernel) h)

theorem powerOnReset_ringOk (s : State) (slot : Nat) : (s.powerOnReset slot).ring.ok := by
  show Ring.ok Ring.reset
  exact ⟨by decide, fun k => (by cases k), by decide, by decide⟩

theorem enterOff_ringOk {s : State} (h : s.ring.ok) : s.enterOff.ring.ok := by
  unfold State.enterOff
  refine (State.dropRails_alters _).ringOk (by decide +kernel) (dropLock_ringOk _ ?_)
  refine (State.lifeTimes_alters _).ringOk (by decide +kernel) ?_
  exact (State.draw_alters s).ringOk (by decide +kernel) h

theorem sourceLoss_ringOk {s : State} (inj : Bool) (h : s.ring.ok) : (s.sourceLoss inj).ring.ok := by
  unfold State.sourceLoss
  extract_lets t1 t2 t3
  have h1 : t1.ring.ok := dropLock_ringOk _ (by rw [raiseAbort_ring]; exact h)
  have h2 : t2.ring.ok := h1
  have h3 : t3.ring.ok := foldl_ringOk (fun t p ht => foldl_ringOk
    (fun t q ht => (State.leaveUp_alters _ _ _ _ _ _).ringOk (by decide +kernel) ht) _ ht) _ h2
  exact ite_ringOk ((State.hostReset_alters _ _).ringOk (by decide +kernel) h3) h3

theorem pllLoss_ringOk {s : State} (n code : Nat) (inj : Bool) (h : s.ring.ok) : (s.pllLoss n code inj).ring.ok :=
  (State.pllLoss_alters _ _ _ _).ringOk (by decide +kernel) h

theorem execFreqChange_ringOk {s u : State} (e : execFreqChange s = .next u) (h : s.ring.ok) : u.ring.ok := by
  unfold execFreqChange at e
  cases e
  split
  · exact ite_ringOk h h
  · exact h

theorem execCrystalLoss_ringOk {s u : State} (e : execCrystalLoss s = .next u) (h : s.ring.ok) : u.ring.ok := by
  unfold execCrystalLoss at e
  cases e
  exact ite_ringOk (sourceLoss_ringOk false h) h

theorem execClockHandover_ringOk {s u : State} (e : execClockHandover s = .next u) (h : s.ring.ok) : u.ring.ok := by
  unfold execClockHandover at e
  cases e
  refine ite_ringOk (settleFaultN_ringOk ?_) h
  split
  · rename_i c
    have hl : s.ring.lock = .unlocked := c.2.2
    refine lockTo_ringOk h (fun k => ?_)
    rcases h.2.1 k with w | w <;> rw [hl] at w <;> cases w
  · exact h

theorem execPllUnlock_ringOk {n : Nat} {s u : State} (e : execPllUnlock n s = .next u) (h : s.ring.ok) : u.ring.ok := by
  unfold execPllUnlock at e
  cases e
  exact ite_ringOk h (ite_ringOk (sourceLoss_ringOk false h) (pllLoss_ringOk _ _ _ h))

theorem decideCode_ringOk {s : State} (h : s.ring.ok) : s.decideCode.ring.ok :=
  (State.decideCode_alters _).ringOk (by decide +kernel) h

theorem execPeriodChange_ringOk {s u : State} (e : execPeriodChange s = .next u) (h : s.ring.ok) : u.ring.ok := by
  unfold execPeriodChange at e
  cases e
  refine ite_ringOk ?_ h
  extract_lets p old t1 t2 t3 t4
  have h1 : t1.ring.ok := ite_ringOk h (by rw [timeRecord_ring]; exact h)
  have h2 : t2.ring.ok := by
    show (State.event _ _).ring.ok
    rw [event_ring]
    show Ring.ok (match t1.ring.changeNext with
        | some c => { t1.ring with period := p, changeAt := c, changeNext := none }
        | none => { t1.ring with period := p, changePending := false })
    split <;> exact h1
  have h3 : t3.ring.ok := h2
  clear_value t3
  have h4 : t4.ring.ok := by
    unfold t4
    split
    · exact ite_ringOk h3 (by rw [raiseAbort_ring]; exact h3)
    · exact h3
  exact decideCode_ringOk h4

theorem ptpPeriod_ring (s : State) (c : Nat) :
    (s.ptpPeriod c).ring.number = s.ring.number ∧ (s.ptpPeriod c).ring.lock = s.ring.lock ∧
    (s.ptpPeriod c).ring.edgeDue = s.ring.edgeDue ∧ (s.ptpPeriod c).ring.prevPeriod = s.ring.prevPeriod ∧
    (s.ptpPeriod c).ring.emergClear = s.ring.emergClear := by
  unfold State.ptpPeriod; split <;> exact ⟨rfl, rfl, rfl, rfl, rfl⟩

theorem ptpRing_lt (s : State) (o : PtpObs) : s.ptpRing o < ringMod := by
  unfold State.ptpRing
  have h : (0 : Int) < (ringMod : Int) := by decide
  have h1 := Int.emod_nonneg ((o.t2 - o.offset - (s.f RING_PTP_ORIGIN_ORIGIN : Int)) / (periodNs s.ring.period : Int)) (Int.ne_of_gt h)
  have h2 := Int.emod_lt_of_pos ((o.t2 - o.offset - (s.f RING_PTP_ORIGIN_ORIGIN : Int)) / (periodNs s.ring.period : Int)) h
  omega

theorem ptpSteer_ringOk {s : State} (o : PtpObs) (h : s.ring.ok) : (s.ptpSteer o).ring.ok := by
  have nod (l : LockState) (hl : s.ring.lock = l) (hn : l ≠ .locked ∧ l ≠ .holdover) : s.ring.edgeDue = true → False := by
    intro k
    rcases h.2.1 k with w | w <;> rw [hl] at w <;> first | exact hn.1 w | exact hn.2 w
  unfold State.ptpSteer
  extract_lets left k t v w
  split
  · rename_i hl
    exact lockTo_ringOk h (fun k => (nod _ hl ⟨by decide, by decide⟩ k).elim)
  · have ht : t.ring.ok := h
    refine ite_ringOk ?_ ht
    obtain ⟨-, -, -, h4, h5⟩ := ptpPeriod_ring t (s.f RING_CTRL_PTP_PERIOD)
    refine lockTo_ringOk ⟨ptpRing_lt v o, fun k => (by cases k), ?_, ?_⟩ (fun _ => Or.inl rfl)
    · show v.ring.prevPeriod ≤ 5; rw [h4]; exact ht.2.2.1
    · show v.ring.emergClear ≤ 16; rw [h5]; exact ht.2.2.2
  · rename_i hl
    exact ⟨h.1, fun _ => Or.inl hl, h.2.2⟩
  · rename_i hl
    have ht : w.ring.ok := ⟨h.1, fun _ => Or.inr hl, h.2.2⟩
    clear_value w
    refine ite_ringOk ?_ ht
    exact lockTo_ringOk ⟨ht.1, ht.2.1, ht.2.2⟩ (fun _ => Or.inl rfl)

theorem execPtpSync_ringOk {o : PtpObs} {s u : State} (e : execPtpSync o s = .next u) (h : s.ring.ok) : u.ring.ok := by
  unfold execPtpSync at e
  cases e
  refine ite_ringOk h (ite_ringOk ((State.breach_alters _ _ _).ringOk (by decide +kernel) h) ?_)
  extract_lets t
  have h1 : t.ring.ok := by
    show (s.setF _ _).ring.ok
    rw [(State.setF_alters _ _ _).ring (by decide +kernel)]; exact h
  clear_value t
  exact ite_ringOk (dropLock_ringOk _ (by rw [raiseAbort_ring]; exact h1)) (ptpSteer_ringOk o h1)

theorem execRingEnableWrite_ringOk {b : Bool} {s u : State} (e : execRingEnableWrite b s = .next u) (h : s.ring.ok) :
    u.ring.ok := by
  unfold execRingEnableWrite at e
  cases e
  have hs (v : Nat) : (s.setF RING_CTRL_ENABLE v).ring = s.ring := (State.setF_alters _ _ _).ring (by decide +kernel)
  refine ite_ringOk (by rw [hs]; exact h) ?_
  extract_lets t locked
  have h1 : t.ring.ok := by
    show Ring.ok { (s.setF RING_CTRL_ENABLE 0).ring with seen := [] }
    rw [hs]; exact h
  exact dropLock_ringOk _ (ite_ringOk (by rw [raiseAbort_ring]; exact h1) h1)

theorem execRingSourceWrite_ringOk {b : Bool} {s u : State} (e : execRingSourceWrite b s = .next u) (h : s.ring.ok) :
    u.ring.ok := by
  unfold execRingSourceWrite at e
  cases e
  refine ite_ringOk h ?_
  extract_lets t
  have h1 : t.ring.ok := dropLock_ringOk _ (by rw [(State.setF_alters _ _ _).ring (by decide +kernel)]; exact h)
  clear_value t
  exact ite_ringOk ⟨h1.1, h1.2.1, h1.2.2.1, Nat.le_refl _⟩ h1

theorem powerRequest_ringOk {s : State} (q : PState) (h : s.ring.ok) : (s.powerRequest q).ring.ok :=
  (State.powerRequest_alters _ _).ringOk (by decide +kernel) h

theorem execPowerEntryComplete_ringOk {s u : State} (e : execPowerEntryComplete s = .next u) (h : s.ring.ok) : u.ring.ok := by
  unfold execPowerEntryComplete at e
  cases e
  split
  · rename_i st _
    extract_lets t1 wake next t2
    have h1 : t1.ring.ok := by
      unfold t1
      cases st with
      | deep => exact (State.enterDeep_alters _).ringOk (by decide +kernel) h
      | off => exact enterOff_ringOk h
      | run => exact h
      | idle => exact h
      | sleep => exact h
    have h2 : t2.ring.ok := by
      show ((t1.stateDone st).setPower _).ring.ok
      exact (State.setPower_alters _ _).ringOk (by decide +kernel) ((State.stateDone_alters _ _).ringOk (by decide +kernel) h1)
    clear_value t2 next
    refine ite_ringOk (ite_ringOk (engineReset_ringOk h2) h2) ?_
    split
    · exact powerRequest_ringOk _ h2
    · exact h2
  · exact h
  · exact h

theorem execRecoveryReboot_ringOk {s u : State} (e : execRecoveryReboot s = .next u) (h : s.ring.ok) : u.ring.ok := by
  unfold execRecoveryReboot at e
  cases e
  exact ite_ringOk (engineReset_ringOk h) h

theorem answer_ringOk {s : State} (a b : Nat) (d : List Byte) (h : s.ring.ok) : (s.answer a b d).ring.ok :=
  (State.answer_alters _ _ _ _).ringOk (by decide +kernel) h

theorem execReset_ringOk {k : Nat} {s u : State} (e : execReset k s = .next u) (h : s.ring.ok) : u.ring.ok := by
  unfold execReset State.mgmtOn State.mgmtTrunk State.mgmtAlways at e
  cases e
  have hr (c r : Nat) : (s.answerRefused c r).ring.ok := (State.answerRefused_alters _ _ _).ringOk (by decide +kernel) h
  have hn {t : State} (c : Nat) (ht : t.ring.ok) : (t.answerNotify c).ring.ok :=
    (State.answerNotify_alters _ _).ringOk (by decide +kernel) ht
  refine ite_ringOk h (ite_ringOk (answer_ringOk _ _ _ h) (ite_ringOk (ite_ringOk (hr _ _) ?_) (hr _ _)))
  refine ite_ringOk (engineReset_ringOk (hn _ h)) (ite_ringOk (hn _ (ite_ringOk ?_ h)) (answer_ringOk _ _ _ h))
  exact (State.hostReset_alters _ _).ringOk (by decide +kernel) h

theorem pulse_ringOk {s : State} (n : Nat) (h : s.ring.ok) : (s.pulse n).2.ring.ok :=
  (State.pulse_alters _ _).ringOk (by decide +kernel) h

theorem execResetN_ringOk {n : Nat} {s u : State} (e : execResetN n s = .next u) (h : s.ring.ok) : u.ring.ok := by
  unfold execResetN at e
  cases e
  exact ite_ringOk (engineReset_ringOk (pulse_ringOk n h)) (pulse_ringOk n h)

theorem execWakeN_ringOk {n : Nat} {s u : State} (e : execWakeN n s = .next u) (h : s.ring.ok) : u.ring.ok := by
  unfold execWakeN at e
  cases e
  have h1 := pulse_ringOk n h
  refine ite_ringOk h1 (ite_ringOk (engineReset_ringOk h1) ?_)
  exact (State.wakeEvent_alters _).ringOk (by decide +kernel) h1

theorem execInputReturn_ringOk {s u : State} (e : execInputReturn s = .next u) (h : s.ring.ok) : u.ring.ok := by
  unfold execInputReturn at e
  cases e
  exact ite_ringOk h (ite_ringOk (engineReset_ringOk h) h)

theorem execCondensationClear_ringOk {s u : State} (e : execCondensationClear s = .next u) (h : s.ring.ok) : u.ring.ok := by
  unfold execCondensationClear at e
  cases e
  exact ite_ringOk h (ite_ringOk (engineReset_ringOk h) h)

theorem execPowerOn_ringOk {n : Nat} {s u : State} (e : execPowerOn n s = .next u) (h : s.ring.ok) : u.ring.ok := by
  unfold execPowerOn at e
  cases e
  exact ite_ringOk h (powerOnReset_ringOk _ _)

theorem execStandbyLoss_ringOk {s u : State} (e : execStandbyLoss s = .next u) (h : s.ring.ok) : u.ring.ok := by
  unfold execStandbyLoss at e
  cases e
  refine ite_ringOk h ?_
  exact (State.setModl_alters _ _).ringOk (by decide +kernel) (powerOnReset_ringOk _ _)

/-! ## The edge -/

theorem ringAdd_lt (a n : Nat) : ringAdd a n < ringMod := Nat.mod_lt _ (by decide)

theorem newRing_ringOk {s : State} (h : s.ring.ok) : s.newRing.ring.ok := by
  unfold State.newRing
  refine (State.freshRing_alters _).ringOk (by decide +kernel) ((State.settleRing_alters _).ringOk (by decide +kernel)
    ((State.probeSelect_alters _).ringOk (by decide +kernel) ?_))
  exact ⟨ringAdd_lt s.ring.number 1, fun k => (by cases k), h.2.2⟩

theorem closeRing_ringOk {s : State} (o : EdgeObs) (h : s.ring.ok) : (s.closeRing o).ring.ok := by
  unfold State.closeRing
  extract_lets ended
  have h1 : (s.fireMarker 5).2.ring.ok := (State.fireMarker_alters _ _).ringOk (by decide +kernel) h
  revert h1
  generalize s.fireMarker 5 = p
  intro h1
  refine (State.edgeAbort_alters _ _).ringOk (by decide +kernel) ((State.overruns_alters _ _ _ _).ringOk (by decide +kernel) ?_)
  refine (State.telStep_alters _ _ _).ringOk (by decide +kernel) ((State.takePower_alters _ _).ringOk (by decide +kernel) ?_)
  refine (State.takeReadings_alters _ _).ringOk (by decide +kernel) ((State.ringStats_alters _ _ _).ringOk (by decide +kernel) ?_)
  exact newBudget_ringOk (newRing_ringOk ((State.watchdogInject_alters _ _).ringOk (by decide +kernel) h1))

theorem rootInject_ringOk {s : State} (h : s.ring.ok) : s.rootInject.ring.ok := by
  unfold State.rootInject
  split
  · exact h
  · rename_i a _
    refine ite_ringOk h ?_
    have h1 : (s.fireRoot none a.det (fun _ => true)).2.ring.ok := (State.fireRoot_alters _ _ _ _).ringOk (by decide +kernel) h
    revert h1
    generalize s.fireRoot none a.det (fun _ => true) = p
    intro h1
    split
    · exact h1
    · refine ite_ringOk (sourceLoss_ringOk _ h1) (ite_ringOk (pllLoss_ringOk _ _ _ h1) (ite_ringOk ?_ (ite_ringOk ?_
        (ite_ringOk ?_ (ite_ringOk ?_ ?_)))))
      · exact (State.hardTripNow_alters _ _ _).ringOk (by decide +kernel) h1
      · exact foldl_ringOk (fun t x ht => (State.droop_alters _ _ _).ringOk (by decide +kernel) ht) _ h1
      · exact (State.railFault_alters _ _ _).ringOk (by decide +kernel) h1
      · exact (State.inputFails_alters _ _).ringOk (by decide +kernel) h1
      · exact (State.ideFails_alters _ _).ringOk (by decide +kernel) h1

theorem protect_ringOk {s : State} (o : EdgeObs) (h : s.ring.ok) : (s.protect o).ring.ok := by
  unfold State.protect
  refine (State.condensationEdge_alters _).ringOk (by decide +kernel) ((State.coolantTrip_alters _ _).ringOk (by decide +kernel) ?_)
  refine (State.trips_alters _ _ _).ringOk (by decide +kernel) (rootInject_ringOk ?_)
  refine (State.edgeInject_alters _).ringOk (by decide +kernel) ((State.overlimit_alters _ _).ringOk (by decide +kernel) ?_)
  exact (State.excursion_alters _ _).ringOk (by decide +kernel) h

theorem execRingEdge_ringOk {o : EdgeObs} {s u : State} (e : execRingEdge o s = .next u) (h : s.ring.ok) : u.ring.ok := by
  unfold execRingEdge at e
  cases e
  exact ite_ringOk ((State.openRing_alters _).ringOk (by decide +kernel) (protect_ringOk o (closeRing_ringOk o h))) h

theorem execRegisterWrite_ringOk {a : Nat} {w : Word64} {s u : State} (e : execRegisterWrite a w s = .next u) (h : s.ring.ok) :
    u.ring.ok := by
  unfold execRegisterWrite at e
  cases e
  have hr : (s.writeRing a w).ring.ok := by
    unfold State.writeRing
    refine ite_ringOk (ite_ringOk h ?_) (ite_ringOk ((State.w1cs_alters _ _ _).ringOk (by decide +kernel) h)
      (ite_ringOk ((State.putsUnless_alters _ _ _ _).ringOk (by decide +kernel) h) h))
    extract_lets t
    have ht : t.ring.ok := (State.puts_alters _ _ _).ringOk (by decide +kernel) h
    obtain ⟨h1, h2, h3, h4, h5⟩ := ptpPeriod_ring t (RING_CTRL_PTP_PERIOD.of w)
    exact ite_ringOk ⟨h1 ▸ ht.1, by rw [h2, h3]; exact ht.2.1, h4 ▸ ht.2.2.1, h5 ▸ ht.2.2.2⟩ ht
  split
  · exact (State.writeId_alters _ _ _).ringOk (by decide +kernel) h
  · exact hr
  · exact (State.writeClk_alters _ _ _).ringOk (by decide +kernel) h
  · exact (State.writePwr_alters _ _ _).ringOk (by decide +kernel) h
  · exact (State.writeThm_alters _ _ _).ringOk (by decide +kernel) h
  · exact (State.writeJob_alters _ _ _).ringOk (by decide +kernel) h
  · exact (State.writeGraft_alters _ _ _).ringOk (by decide +kernel) h
  · exact (State.writeFab_alters _ _ _).ringOk (by decide +kernel) h
  · exact (State.writeFab_alters _ _ _).ringOk (by decide +kernel) h
  · exact (State.writeEdge_alters _ _ _).ringOk (by decide +kernel) h
  · exact (State.writeSap_alters _ _ _).ringOk (by decide +kernel) h
  · exact (State.writeStream_alters _ _ _).ringOk (by decide +kernel) h
  · exact (State.writeBark_alters _ _ _).ringOk (by decide +kernel) h
  · exact ite_ringOk ((State.w1cs_alters _ _ _).ringOk (by decide +kernel) h) h
  · exact (State.writeRas_alters _ _ _).ringOk (by decide +kernel) h
  · exact (State.writeRas_alters _ _ _).ringOk (by decide +kernel) h
  · exact (State.writeTel_alters _ _ _).ringOk (by decide +kernel) h
  · exact (State.writeJournal_alters _ _ _).ringOk (by decide +kernel) h
  · exact h

/-- A command that does not list the ring unit keeps it sound. -/
theorem exec_ringOk_of {c : Instr} {s u : State} (e : exec c s = .next u) (hn : Part.sub [.ring] (mayChange c) = false)
    (h : s.ring.ok) : u.ring.ok := (exec_alters e).ringOk hn h

/-- Every command keeps the ring unit sound. -/
theorem exec_ringOk {c : Instr} {s u : State} (e : exec c s = .next u) (h : s.ringOk) : u.ringOk := by
  cases c
  case timecodeFrame => exact execTimecodeFrame_ringOk (exec_timecodeFrame _ _ ▸ e) h
  case delimiterMissing => exact execDelimiterMissing_ringOk (exec_delimiterMissing _ ▸ e) h
  case periodChange => exact execPeriodChange_ringOk (exec_periodChange _ ▸ e) h
  case ringEdge => exact execRingEdge_ringOk (exec_ringEdge _ _ ▸ e) h
  case freqChange => exact execFreqChange_ringOk (exec_freqChange _ ▸ e) h
  case ptpSync => exact execPtpSync_ringOk (exec_ptpSync _ _ ▸ e) h
  case crystalLoss => exact execCrystalLoss_ringOk (exec_crystalLoss _ ▸ e) h
  case clockHandover => exact execClockHandover_ringOk (exec_clockHandover _ ▸ e) h
  case pllUnlock => exact execPllUnlock_ringOk (exec_pllUnlock _ _ ▸ e) h
  case ringEnableWrite => exact execRingEnableWrite_ringOk (exec_ringEnableWrite _ _ ▸ e) h
  case ringSourceWrite => exact execRingSourceWrite_ringOk (exec_ringSourceWrite _ _ ▸ e) h
  case reset => exact execReset_ringOk (exec_reset _ _ ▸ e) h
  case recoveryReboot => exact execRecoveryReboot_ringOk (exec_recoveryReboot _ ▸ e) h
  case powerEntryComplete => exact execPowerEntryComplete_ringOk (exec_powerEntryComplete _ ▸ e) h
  case wakeN => exact execWakeN_ringOk (exec_wakeN _ _ ▸ e) h
  case condensationClear => exact execCondensationClear_ringOk (exec_condensationClear _ ▸ e) h
  case inputReturn => exact execInputReturn_ringOk (exec_inputReturn _ ▸ e) h
  case standbyLoss => exact execStandbyLoss_ringOk (exec_standbyLoss _ ▸ e) h
  case powerOn => exact execPowerOn_ringOk (exec_powerOn _ _ ▸ e) h
  case resetN => exact execResetN_ringOk (exec_resetN _ _ ▸ e) h
  case registerWrite => exact execRegisterWrite_ringOk (exec_registerWrite _ _ _ ▸ e) h
  all_goals exact exec_ringOk_of e (by rfl) h

end Sys2Proof.Machine
end

