-- ==== Sys2Proof/WellFormed.lean ====
section
/-!
DEFINITION. Which commands are well formed: every operand within the range the spec gives what it names (Table 0.4, Table
6.1, Table 9.3, Table 15.2). An ill-formed command has a meaning all the same: it names nothing and changes nothing, or,
for a cell outside the grid, faults.
-/
namespace Sys2Proof

/-- A cell of the largest logical grid (Table 0.1). -/
def cellOk (x y : Nat) : Bool := decide (x < 1152) && decide (y < 768)

/-- A lane or accumulator row of a compute unit (R79). -/
def laneOk (l : Nat) : Bool := decide (l < 8)

/-- A window of a cell (R121). -/
def windowOk (w : Nat) : Bool := decide (w < 16)

/-- A tap (Table 0.4). -/
def tapOk (t : Nat) : Bool := decide (t < 384)

/-- An edge port (Table 0.4). -/
def portOk (p : Nat) : Bool := decide (p < 72)

/-- A session index (R269). -/
def sessOk (i : Nat) : Bool := decide (i < 1024)

/-- A die by its index of Table 15.2. -/
def dieOk (d : Nat) : Bool := decide (d < 61)

/-- A PLL by its CLK_MEAS index (R77). -/
def pllOk (n : Nat) : Bool := decide (n < 61)

/-- A heartwood register (R375). -/
def hwOk (r : Nat) : Bool := decide (r < 1024)

/-- Whether every operand of a command lies in the range the spec gives it. -/
def Instr.wf : Instr → Bool
  | .blockParse x y | .spanLoad x y | .outputSetActivate x y | .pack x y => cellOk x y
  | .groupIssue x y l | .groupSteal x y l | .outputComplete x y l => cellOk x y && laneOk l
  | .termAccept x y r _ => cellOk x y && laneOk r
  | .predictScore x y | .bankAccess x y _ _ | .scrubAccess x y _ _ _ => cellOk x y
  | .remoteWriteHeader x y _ | .remoteWriteBeat x y | .creditReq x y | .creditGrant x y | .nackReceive x y => cellOk x y
  | .creditRelease x y w _ | .windowClose x y w _ | .windowOpen x y w | .windowReopen x y w _ | .windowClosed x y w =>
    cellOk x y && windowOk w
  | .creditRefresh x y | .readReq x y | .readData x y | .watchdog x y | .claimReply x y => cellOk x y
  | .unitArrive x y _ _ _ | .tokenArrive x y _ _ | .portGrant x y _ _ | .steerAct x y _ => cellOk x y
  | .tapChannelDeliver t _ _ _ | .loaderWrite t | .sapEgress t _ | .streamRequest t => tapOk t
  | .claim cx cy x y => cellOk cx cy && cellOk x y
  | .adminEnWrite p _ | .presenceChange p _ | .retrain p | .portReset p | .auxOvercurrent p => portOk p
  | .negotiationDone p _ _ | .negotiationTimeout p _ | .trainDone p _ | .trainTimeout p _ | .linkDown p _ _ => portOk p
  | .frameReceive p _ _ | .frameTransmit p _ | .controlOpen p _ => portOk p
  | .ackFrameSend i | .rtoExpiry i | .handshakeTimeout i
  | .closingDone i | .keepalive i | .holdExpiry i | .graceExpiry i | .gapNakRepeat i => sessOk i
  | .ackReceive i | .deadlineUnacked i _ | .writeReceive i | .readReceive i | .creditReceive i
  | .responseReceive i | .noticeReceive i | .syncReceive i | .openRefuse i | .controlEpoch i | .epochAck i
  | .controlClose i | .streamResponse i => sessOk i
  | .openAck i | .streamDataReceive i => sessOk i
  | .pllUnlock n | .pllRelock n | .relockTimeout n => pllOk n
  | .clkMeasWindow n _ => decide (n < 62)
  | .droopEvent d _ | .railFault d | .hardTrip d | .domainWakeDone d | .domainWakeTimeout d => dieOk d
  | .heartwoodWrite r _ _ | .heartwoodRefresh r => hwOk r
  | .getFault i => decide (i < 16)
  | .streamWrite k | .deferredReissue k _ | .cacheUnpin k _ | .limbDieBoot k => decide (k < 12)
  | .selfTestDone px py _ => decide (px < 1152) && decide (py < 792)
  | _ => true

end Sys2Proof
end

