-- ==== Sys2Proof/Tests/Slice0.lean ====
section
/-! SUPPORT. Tests: the witnesses of the statements' hypotheses, refused ill-formed commands, and single steps with results worked
out by hand from the spec. -/

open Sys2Proof.Machine

namespace Sys2Proof.Tests

set_option Elab.async false
set_option linter.unusedVariables false

/-! ## States and operands of the witnesses -/

/-- A ring in lock at number 100. -/
def rLock : Ring := { Ring.reset with lock := .locked, number := 100 }
/-- An engine in RUN: main rails up, crystal in use, die 0 ON, the ring LOCKED. -/
def wRun : State :=
  { State.reset with
    modl := { Module.reset with mains := true, pwrGood := true }
    clk := { Clk.reset with xtal := true, xtalGood := true, seedVerified := true }
    power := { Power.reset with domains := [(0, .on)] }
    ring := rLock }
/-- A register field set. -/
def wF (s : State) (F : Fld) (n : Nat) : State := s.setF F n
/-- A plane that configures its cell, with 8-byte words at addresses. -/
def pl (l : List (Nat × Nat)) : Plane := ⟨true, l.foldl (fun m q => m.writeBytes q.1 (leBytes 8 q.2)) []⟩
/-- Window 0 of 1,024 bytes at 0 with every right. -/
def plW : Plane := pl [(0x250, 2 ^ 12 * 4 + 2 ^ 20 * 15)]
/-- A configured cell. -/
def cOn : Cell := { Cell.init with active := plW }
/-- The engine in RUN with a given cell at (3, 5). -/
def wC (c : Cell) : State := { wRun with cells := [(cellKey 3 5, c)] }
/-- A frame of a locked ring's next number. -/
def tFrame : RingFrame :=
  let f : RingFrame := ⟨true, false, 101, 0, false, false, 1, 0, 0, 0, 8, 0⟩
  { f with crc := f.crcOf }
/-- The last frame of a run of eight. -/
def tFrame8 : RingFrame :=
  let f : RingFrame := { tFrame with number := 100, ppm := -100 }
  { f with crc := f.crcOf }
/-- A word from bit fields. -/
def wd (l : List (Fld × Nat)) : Word64 := BitVec.ofNat 64 (l.foldl (fun a q => a + q.2 * 2 ^ q.1.lo) 0)
/-- A group of row 1, column 2 with one stored value. -/
def wG (stolen : Bool) : Group := ⟨1, 1, 2, [⟨3, 5, 127, 0⟩], [], false, stolen⟩
/-- Lanes with one list in lane 0. -/
def wLanes (l : List Group) : List (List Group) := [l, [], [], [], [], [], [], []]
/-- The span bank of column 2. -/
def wBank : SpanBank := ⟨0, 2, List.range 1024, [], [], []⟩
/-- A configured cell with a given compute unit. -/
def cComp (u : Compute) : Cell := { cOn with comp := u }
/-- A configured cell whose tile needs no scores. -/
def cSc : Cell := cComp { Compute.idle with tile := { TileRun.fresh none with scored := true } }
/-- A compute unit whose address generator 0 has delivered bytes. -/
def uFifo (l : List Byte) : Compute := { Compute.idle with ags := [⟨0, l.map (⟨·, false⟩)⟩, ⟨0, []⟩, ⟨0, []⟩, ⟨0, []⟩] }
/-- A pipeline configuration of INT8 weights and activations, one row, column 2. -/
def wCfg : PipeCfg := { (default : PipeCfg) with wCode := 10, aCode := 10, extent := 64, rows := 1, cols := [2], spans := [(0, 2)], outCode := 10 }
/-- A sound Needle header of one sparse group with one value, as R140 lays it out. -/
def wHdr0 : Nat := 0 + 2 ^ 4 * Fmt.int8.code + 2 ^ 8 * 1 + 2 ^ 40 * 1
/-- The same with its check byte. -/
def wHdr : Nat := wHdr0 + 2 ^ 56 * headerCrc wHdr0
/-- A term of output (1, 2). -/
def wTerm (i : Nat) : Term := ⟨1, 2, i, none, some 5#32, false, 0⟩
/-- The output (1, 2) waiting for local terms. -/
def wOut (l : List Nat) : Output := ⟨1, 2, 0, 0, 0#32, false, true, l, 64, l.isEmpty, [], false⟩
/-- A compute unit with the output in row 1 and terms in its reorder buffer. -/
def uOut (l : List Nat) (r : List Term) : Compute :=
  { Compute.idle with rows := [[], [wOut l], [], [], [], [], [], []], reorder := [[], r, [], [], [], [], [], []] }
/-- The same unit, its output started with an accumulator. -/
def uOutA (a : Word32) : Compute :=
  { uOut [4, 5] [] with rows := [[], [{ wOut [4, 5] with acc := a, started := true }], [], [], [], [], [], []] }
/-- A plane with a predictor of rank 1. -/
def plPred : Plane := pl [(0x250, 2 ^ 12 * 4 + 2 ^ 20 * 15), (0x3E8, 2 ^ 16 * 1), (0x3F8, 4 + 2 ^ 16 * 3)]
/-- A running job of the given phase. -/
def wJob : Job := default
/-- A unit with a value. -/
def wU (head tail : Bool) (data : Nat) : NetUnit := ⟨3, 0, head, tail, false, data⟩
/-- The head flit of a write of two beats by cell (4, 6) into window 0 under a generation at a beat offset. -/
def wHead (gen off : Nat) : Nat := VHead.bits ⟨0, 1, 0, gen, off, 4, 6, false, false, 0, 0⟩
/-- The configured cell with window 0 in a state under GEN 5 with 640 bytes in its pool, its inboxes holding units. -/
def cWin (st : WinSt) (l : List (Nat × List NetUnit)) : Cell :=
  { cOn with mem := { MemUnit.empty with wins := [(0, ⟨5, st, 640, false⟩)] }, box := { Box.idle with inbox := l } }
/-- An S-net message of words. -/
def wMsg : List Nat → List NetUnit
  | [] => []
  | [a] => [wU false true a]
  | a :: r => wU false false a :: wMsg r
/-- A plane with a route 3 on every network from N to E. -/
def plRoute : Plane := pl [(0x180, 1 + 2 * 3 + 2 ^ 6 * 1 + 2 ^ 15 * 2), (0x1C0, 1 + 2 * 3 + 2 ^ 6 * 1 + 2 ^ 15 * 2), (0x200, 1 + 2 * 3 + 2 ^ 6 * 1 + 2 ^ 15 * 2)]
/-- A plane with a route 3 on the S-net from T to E. -/
def plRouteT : Plane := pl [(0x1C0, 1 + 2 * 3 + 2 ^ 6 * 16 + 2 ^ 15 * 2)]
/-- That route's entry. -/
def wEntry : RouteEntry := ⟨3, 1, 2, 0, 0, 0⟩
/-- The window descriptor of the witnesses. -/
def wWin : WinDesc := ⟨0, 1024, true, true, true, true, false, false, 0⟩
/-- A cell whose window has a credit pool of 640 bytes. -/
def plPool : Plane := pl [(0x250, 2 ^ 12 * 4 + 2 ^ 20 * 15 + 2 ^ 26 * 10)]
/-- A credit of cell (4, 6). -/
def wCred : Credit := ⟨.cell 4 6, 0, 5, 48, none⟩
/-- A graft with no records. -/
def wGraft : Graft := { (default : Graft) with id := 7, epoch := 1 }
/-- A graft whose one template covers the region of tap 0. -/
def wGraftT : Graft := { wGraft with templates := [⟨[⟨0, 35, 0, 63, 1, 1⟩], List.replicate 16 1⟩] }
/-- A claim group of cells (0, 0) to (3, 0) and four tiles, claimed at cell (3, 5). -/
def wClaim : ClaimRec := ⟨⟨0, 3, 0, 0, 1, 1⟩, 3, 5, 0, 0, 4⟩
/-- A graft with that group. -/
def wGraftC : Graft := { wGraft with claims := [wClaim] }
/-- The engine READY with the host attached and jobs enabled. -/
def wPost : State :=
  wF { wRun with
    boot := { wRun.boot with stage := 31 }
    host := { wRun.host with up := true, bme := true, dstate := 0 }
    bark := { wRun.bark with host := some default } } JOB_CTRL_ENABLE 1
/-- The engine in RUN with the load unit in a state. -/
def wLoad (l : LoadState) : State := { wRun with graft := { GraftUnit.reset with load := l } }
/-- The same with host memory in reach. -/
def wLoadH (l : LoadState) : State := { wPost with graft := { GraftUnit.reset with load := l } }
/-- The same with a parsed graft. -/
def wLoadG (l : LoadState) (g : Graft) : State := { wRun with graft := { GraftUnit.reset with load := l, parsed := some g } }
/-- The descriptor of the witnesses' job: one stride of work, five rings of gate. -/
def wDesc : Desc := { (default : Desc) with jobId := 3, graftId := 7, epoch := 1, steps := 1, workStrides := 1, gateRings := 5, sampleExp := 12 }
/-- Their job: started at ring 90 with strides of 5 rings and steps of 10. -/
def wJ : Job := { (default : Job) with desc := wDesc, s := 90, k := 5, l := 10, stage := .running, phase := .gate }
/-- The engine with a job current. -/
def wJobS (j : Job) : State := { wRun with job := { JobUnit.reset with cur := some j } }
/-- The engine with a job waiting at the head of the queue and a graft active that it names. -/
def wQueue (j : Job) : State := { wRun with job := { JobUnit.reset with queue := [j] }, graft := { GraftUnit.reset with active := some wGraft } }
/-- The engine running a job of the graft with a claim group at some point of its count. -/
def wClaims (v : Nat) (i : List GateItem) : State :=
  { wJobS { wJ with phase := .work } with
    graft := { GraftUnit.reset with active := some wGraftC }
    job := { JobUnit.reset with
      cur := some { wJ with phase := .work }, groups := [(0, { GroupRun.fresh with v := v, items := i })] } }
/-- The same with two words of an answer at claimant (3, 0). -/
def wAnswer (w1 : Nat) : State :=
  { wClaims 5 [] with
    cells := [(cellKey 3 0, { cOn with box := { Box.idle with inbox := [(22, [wU false false 6, wU false true w1])] } })] }
/-- A sampled tile with its owner's and its checker's hash. -/
def wItem (a b : Option Nat) : GateItem := ⟨2, 1, some 2, [], a, b, [], .checking, false⟩
/-- A tile under vote. -/
def wVote : GateItem := ⟨2, 1, some 2, [0, 3], some 9, some 8, [(0, 9), (3, 9)], .suspect, false⟩
/-- A completion record. -/
def wDone : Completion := ⟨5, 3, 0, 0, 0, 80, 99, 0, 1, 0, 0⟩
/-- The engine in RUN with edge port 7 as given. -/
def wPort (p : EdgePort) : State := { wRun with ports := [(7, p)] }
/-- A port with a link state and presence. -/
def wLink (l : LinkState) (pr : Bool) : EdgePort := { EdgePort.reset with link0 := l, present := pr, role := 2 }
/-- The engine with port 7 UP and session 5 of an engine on it. -/
def wSap (q : Session) : State := { wPort (wLink .up true) with sess := [(5, { q with port := 7 })] }
/-- A session key. -/
def wKey : List Byte := List.replicate 32 1
/-- An open session. -/
def wSess : Session := { Session.reset with st := .opened, keys := some (wKey, wKey), mac := 77, expect := 2 ^ 32 - 1 }
/-- A WRITE frame of session 5 in the epoch in force. -/
def wFrame : Frame :=
  { (default : Frame) with
    typ := 1, cls := 1, session := 5, epoch := (wSap wSess).sesEpoch 5, seq := 2 ^ 32 - 1, fields := List.replicate 16 0 }
/-- Its body, sealed under the session's key. -/
def wBody : List Byte := wFrame.seal wKey (2 ^ 32 - 1) 0
/-- A body from the peer's address as the bytes of a frame at port 7. -/
def wEth (body : List Byte) : List Byte := ethBytes (wRun.macOf 7 false) 77 none (wRun.f EDGE_CTRL_ETHERTYPE) body
/-- The engine with session 5 expecting a count. -/
def wExp (n : Nat) : State := wSap { wSess with expect := n }
/-- A frame as the session keeps it. -/
def wTx (f : Frame) : TxFrame := ⟨0, f, none, none, false⟩
/-- A CONTROL frame with an operation. -/
def wCtl (op : Nat) : Frame := { (default : Frame) with typ := 10, fields := [BitVec.ofNat 8 op, 0, 5, 0, 5, 0] }
/-- A handshake message of an operation from the peer to an index, of no bytes. -/
def wShake (op index : Nat) : ShakeIn := ⟨7, false, 77, leBytes 2 op ++ leBytes 2 9 ++ leBytes 2 index, [], true⟩
/-- Session 5 opening toward that peer. -/
def wOpening : State := wSap { Session.reset with st := .opening, mac := 77, shake := some ⟨1, [], []⟩ }
/-- The same with the peer's message of an operation. -/
def wOffer (s : State) (op index : Nat) : State := { s with shakes := [wShake op index] }
/-- The same with the command that opened the session in progress. -/
def wBusyCmd (s : State) : State := { s with sessCmd := ⟨some 5, 0⟩ }
/-- A pending READ of a cell, sent under SEQ 4. -/
def wReq : PendReq := { (default : PendReq) with tag := 1, kind := .read, session := 5, seq := some 4, cls := 1, tap := 3, count := 1 }
/-- A READ response with a disposition and a DEFER count. -/
def wResp (d n : Nat) : Frame :=
  { (default : Frame) with typ := 2, resp := true, fields := [BitVec.ofNat 8 d, 0, BitVec.ofNat 8 n, 0, 4, 0, 0, 0, 0, 0, 0, 0, 0, 0] }
/-- The engine with a READ pending at limb die 1 and its response delivered. -/
def wAns (f : Frame) : State := { wSap { wSess with inbox := [f] } with limbs := [(1, { Limb.reset with pending := [wReq] })] }
/-- Tap 16 of die 2 bound SAP, with units in its limb die's buffer. -/
def wTap (l : List NetUnit) (q : Session) : State := { wSap q with taps := [(16, { Tap.reset with func := 2, bufV := l })] }
/-- The head and address flits of a message to peer session 5. -/
def wPeer (kind : Nat) : NetUnit := wU true false (VHead.bits ⟨kind, 0, 0, 5, 0, 4, 6, true, false, 5, 0⟩)
/-- An address flit with an operation in class C. -/
def wAddr (op : Nat) : NetUnit := wU false false (op + 2 ^ 4)
/-- The engine with store session 6 on port 7, eight chunks under the tree and label 2 bound in a direction at chunk 2. -/
def wStore (out : Bool) (us : List NetUnit) (l : Limb) (q : Session) : State :=
  wF (wF (wF (wF { wJobS { wJ with phase := .update, stepCommitted := true, desc := { wDesc with bindings := [⟨2, 1, out, 0, 8192⟩] } } with
    ports := [(7, { wLink .up true with role := 1 })]
    sess := [(6, { q with store := true, port := 7 })]
    tree := { Tree.reset with valid := true, top := [0, 0, 5, 0, 0, 0, 0, 0] }
    taps := [(16, { Tap.reset with func := 1, bufV := us })]
    limbs := sset Limb.reset [] 1 l } STREAM_EXTENT_CHUNKS 8) (STREAM_LABEL_LEN_CHUNKS 2) 1) (STREAM_LABEL_MAP_WIDTH 18) 1) (STREAM_LABEL_MAP_FIRST 18) 6
/-- The head flit of a cell's stream message. -/
def wStrHead (kind : Nat) : NetUnit := wU true false (VHead.bits ⟨kind, 0, 0, 0, 0, 4, 6, false, false, 0, 0⟩)
/-- Its second flit: operation, class C, label 2, one chunk, chunk 0. -/
def wStrFlit (op : Nat) : NetUnit := wU false true (op + 2 ^ 4 + 2 ^ 6 * 2)
/-- A limb die that holds pending requests. -/
def wPend (l : List PendReq) : Limb := { Limb.reset with pending := l }
/-- A cell's READ of chunk 2 that waits for it, the STREAM_READ sent for it, and the chunk as it arrives at a version. -/
def wRead : PendReq := { (default : PendReq) with tag := 1, kind := .stream, session := 6, cls := 1, tap := 16, addr := 8192, count := 1, chunks := [.asked] }
/-- The STREAM_READ for it. -/
def wAsk : PendReq := { (default : PendReq) with tag := 2, kind := .streamRead, session := 6, seq := some 4, cls := 1, parent := 1, addr := 8192, count := 1 }
/-- What chunk 2 at version 5 is sealed to, of a few bytes. -/
def wSealed : List Byte × List Byte :=
  gcmSeal (wRun.chunkKey 0 5) (chunkNonce 8192 5) (chunkAad 8192 5) [7, 7]
/-- The chunk as it arrives at a version with a tag. -/
def wChunk (v : Nat) (tag : List Byte) : Frame :=
  { (default : Frame) with typ := 5, fields := leBytes 8 8192 ++ leBytes 8 v ++ tag, data := wSealed.1 }
/-- A gathered WRITE of chunk 2. -/
def wGather (nak : Bool) : PendReq :=
  { (default : PendReq) with tag := 1, kind := .gather, session := 6, cls := 1, tap := 16, addr := 8192, count := 16, done := 16, frame := { (default : Frame) with nak := nak, data := List.replicate 64 7 } }
/-- A store write of chunk 2 at version 6. -/
def wWrite (group : Nat) (acked : Bool) : StoreWrite := ⟨group, 1, 6, 8192, 6, none, acked⟩
/-- A store response to the request of SEQ 4. -/
def wStResp (typ : Nat) : Frame := { (default : Frame) with typ := typ, resp := true, fields := [0, 0, 0, 0, 4, 0, 0, 0, 0, 0, 0, 0, 0, 0] }
/-- The engine with a checkpoint of its CKPT region under way. -/
def wCkpt (sent : Bool) : State :=
  { wStore true [] Limb.reset wSess with
    job := { (wStore true [] Limb.reset wSess).job with ckpt := some ⟨0, 0, 99, 3, 2, 8192, sent, false, false, 0⟩ } }
/-- That checkpoint. -/
def wCk (sent : Bool) : Ckpt := ⟨0, 0, 99, 3, 2, 8192, sent, false, false, 0⟩
/-- The engine READY with its host link up. -/
def wHost : State :=
  { wRun with boot := { wRun.boot with stage := 31, trunk := true }, host := { wRun.host with up := true, bme := false, dstate := 0 } }
/-- The engine with Trunk running and the management port on standby power. -/
def wMgmt : State := { wHost with modl := { wHost.modl with standby := true }, boot := { wHost.boot with handover := false } }
/-- An image of a kind, of one byte, for every variant of line S, with a signature block of zeros. -/
def wRaw (kind : Nat) : List Byte :=
  leBytes 4 0x4D524946 ++ leBytes 2 kind ++ leBytes 2 1 ++ leBytes 8 9 ++ leBytes 4 1 ++ [if kind = 1 then 0xFF else 0, 7] ++ leBytes 2 0 ++
    leBytes 4 1 ++ leBytes 4 0 ++ List.replicate 32 0 ++ [9] ++ List.replicate 5329 0
/-- A Seed image in memory, whose signature block of zeros needs no entry. -/
def wImage : Memory := Memory.writeBytes [] 0 ((wRaw 1).take 65)
/-- Flash that holds images in banks A. -/
def wFlash : Flash := { Flash.shipped with seedA := Bank.holding 1 (wRaw 1), seedB := Bank.blank, trunkA := Bank.holding 1 (wRaw 2), trunkB := Bank.blank, limbA := Bank.holding 1 (wRaw 3), limbB := Bank.blank }
/-- The engine with that image in the recovery buffer. -/
def wRecov : State := { wMgmt with boot := { wMgmt.boot with buffer := wImage } }
/-- A fault record. -/
def wRec : FaultRec := ⟨1, 90, 0, .peer, 4, false, false, .engine, 0, 0, 0, 0, 0⟩
/-- An object of a kind: its header and its body. -/
def wHeadBody (kind : Nat) (body : List Byte) : List Byte :=
  leBytes 4 0x4B524142 ++ leBytes 2 kind ++ leBytes 2 1 ++ leBytes 8 1 ++ List.replicate 32 0 ++ leBytes 4 body.length ++ List.replicate 12 0 ++ body
/-- A signed object of a kind, with a signature block of zeros. -/
def wObj (kind : Nat) (body : List Byte) : List Byte := wHeadBody kind body ++ List.replicate 5329 0
/-- A state with a heartwood register holding a value. -/
def wHw (s : State) (r v : Nat) : State := { s with hw := { s.hw with regs := sset HwReg.zero s.hw.regs r (HwReg.ofValue v) } }
/-- The engine with Trunk running, a signing leaf and an owner state. -/
def wOwn (o : Nat) : State := wHw { wMgmt with bark := { wMgmt.bark with lmsLeaf := 5 } } 0x1BE o
/-- A state with bytes in Bark's mailbox. -/
def wBox (s : State) (bs : List Byte) : State := { s with bark := { s.bark with mbox := Memory.writeBytes [] 0 bs } }
/-- A host session that has taken counter 4. -/
def wHS : HostSess := ⟨List.replicate 32 1, some 4, 0⟩
/-- The engine with that session open. -/
def wEnvS : State := { wMgmt with bark := { wMgmt.bark with host := some wHS } }
/-- The same with an envelope under counter 5 in the mailbox. -/
def wEnv (s : State) (plain : List Byte) : State := wBox { s with bark := { s.bark with host := some wHS } } (sealEnvelope wHS.key 5 3 plain)
/-- A grant in force until ring 200. -/
def wGrant : Grant := ⟨3, true, true, 90, 200, true⟩
/-- The engine with a grant and the host session. -/
def wGrantS (g : Grant) : State := { wEnvS with bark := { wEnvS.bark with grant := some g } }
/-- The input of HOST_OPEN: the curve's base point, a key of zeros, a credential with keys of zeros, and its signature block. -/
def wOpenIn : List Byte :=
  List.replicate 16 0 ++ curveG.bytes ++ List.replicate 1568 0 ++ wObj 5 (List.replicate 176 0) ++ List.replicate 5329 0
/-- A heartwood write of host register 0. -/
def wHwW : HwWrite := ⟨0x200, 7, .host, false, false⟩
/-- The engine with that write under way. -/
def wHwS : State := { wMgmt with hw := { wMgmt.hw with busy := [wHwW], regs := [] } }
/-- A power state at rest or in a transition. -/
def wPow (st : PState) (tr : Transit) (wake : Bool) : State := { wRun with power := { wRun.power with state := st, transit := tr, wake := wake } }
/-- Compute die 3 in a domain state. -/
def wDom (d : Domain) : State := { wRun with power := { wRun.power with domains := [(3, d)] } }
/-- 818 readings of 50 °C but for those of die 0. -/
def wTemps (v : Int) : List Int := List.replicate 16 v ++ List.replicate 802 5000
/-- The engine mastering host memory with a session open. -/
def wOut2 : State := { wEnvS with host := { wEnvS.host with bme := true } }
/-- A record long enough to fill a journal chunk. -/
def wJRec : JournalRec := ⟨1, false, 100, 0, 0, List.replicate 4096 0⟩
/-- The engine journaling to host memory with one such record. -/
def wJour (j : Journal) : State := wF { wOut2 with journal := j } JOURNAL_CTRL_TARGET 1
/-- A module pin state. -/
def wMod (m : Module) : State := { wRun with modl := m }
/-- The engine with a job current and the recovery unit in a state. -/
def wRecS (j : Job) (r : Recovery) : State := { wJobS j with ras := { wRun.ras with recov := r } }
/-- The engine with cell (3, 5) dead. -/
def wDeadC (s : State) : State := { s with cells := [(cellKey 3 5, { cOn with dead := true })] }
/-- What a boot finds when everything passes. -/
def wObs : BootObs := ⟨7, [], [], 4, 16, false, false⟩
/-- A wafer with one configured cell. -/
def wCells : SMap Cell := [(cellKey 3 5, cOn)]
/-- A variant certificate of variant A, line S, with a signature block of zeros. -/
def wCert : List Byte := wObj 6 ([0, 0, 0xFF, 0xFF, 0, 0, 0, 0] ++ leBytes 8 (2 ^ 48 - 1) ++ leBytes 16 (2 ^ 72 - 1) ++ List.replicate 32 0)
/-- The boot at stage 5 with heartwood that holds serial 1 and a hash, and that certificate in flash. -/
def wBurlOf (l : List Byte) : State :=
  { State.reset with
    boot := { State.reset.boot with stage := 5 }
    flash := { Flash.shipped with cert := wCert }
    hw := { State.reset.hw with
      regs := [(1, HwReg.ofValue 1), (2, HwReg.ofValue (rd l 0 8)), (3, HwReg.ofValue (rd l 8 8)), (4, HwReg.ofValue (rd l 16 8)),
        (5, HwReg.ofValue (rd l 24 8)), (6, HwReg.ofValue (rd l 32 8)), (7, HwReg.ofValue (rd l 40 8))] } }
/-- The same with the certificate's hash. -/
def wBurl : State := wBurlOf (sha384 wCert)
/-- A result that is read as `ok` is that one. -/
theorem okEq {ε α : Type} [DecidableEq α] {e : Except ε α} {a : α}
    (h : (match e with | .ok b => decide (b = a) | .error _ => false) = true) : e = .ok a := by
  cases e with
  | ok b => exact congrArg _ (of_decide_eq_true h)
  | error _ => cases h
/-- Bark takes an envelope that its host sealed (R359, R360). -/
theorem takesOf {s : State} {len : Nat} {h : HostSess} {c : Nat} {p : List Byte} (hb : s.barkBusy = false) (hh : s.bark.host = some h)
    (hm : s.bark.mbox = Memory.writeBytes [] 0 (sealEnvelope h.key c 3 p)) (hc : leNat (leBytes 8 c) = c)
    (hn : leNat (leBytes 4 p.length) = p.length) (hx : h.hostCtr.all (· < c) = true)
    (hl : len = 32 + p.length) : s.takes len h p := by
  subst hl
  have hi : s.input (32 + p.length) = sealEnvelope h.key c 3 p := by
    rw [State.input, hm, ← sealEnvelope_length h.key c 3 p]
    exact Memory.readBytes_writeBytes rfl 0 _
  have ho := openEnvelope_seal (key := h.key) hc hn
  exact ⟨hb, hh, by rw [hi, ho.2.1], by rw [hi, ho.2.2.1], by rw [hi, ho.2.2.2], fun x e => by rw [hi, ho.1]; simpa [e] using hx⟩
/-- The header of the witnesses' frame has 32 bytes. -/
theorem wBody_len : wFrame.header.length = 32 := by decide +kernel
/-- The sealed frame opens under the session's key. -/
theorem wBody_open : openFrame wKey wBody (2 ^ 32 - 1) 0 = some wFrame := by
  exact (openFrame_seal wBody_len (by decide +kernel)).trans (by decide +kernel)
/-- Its bytes at the port. -/
theorem wEth_raw : rawFrame (wEth wBody) = ⟨wRun.macOf 7 false, 77, none, wRun.f EDGE_CTRL_ETHERTYPE, wBody, true⟩ :=
  rawFrame_ethBytes (by decide +kernel) (by decide +kernel) (by decide +kernel) (by decide +kernel)
/-- What of session 5 and its port lets a frame reach it. -/
def wReach (n : Nat) : Bool :=
  decide (((wExp n).port 7).link false = .up) && (wExp n).limbOn (limbOfPort 7) && (wExp n).isLive 5 && decide (((wExp n).ses 5).port = 7) &&
    decide (((wExp n).ses 5).half = false) && decide (rd wFrame.header 6 2 = (wExp n).sesEpoch 5) && decide ((wExp n).f EDGE_CTRL_ETHERTYPE = wRun.f EDGE_CTRL_ETHERTYPE) &&
    ! (wExp n).filtered 7 false ⟨wRun.macOf 7 false, 77, none, wRun.f EDGE_CTRL_ETHERTYPE, [], true⟩
/-- A field of its header. -/
theorem wBody_rd {o n : Nat} (h : o + n ≤ 32) : rd wBody o n = rd wFrame.header o n := rd_seal (by rw [wBody_len]; exact h)
/-- Its length is what its header gives. -/
theorem wBody_ok : lengthOk wBody = true := by
  rw [lengthOk, wBody_rd (by decide), wBody_rd (by decide), wBody_rd (by decide), show wBody.length = _ from seal_length]
  decide +kernel
/-- Session 5 opens it, whatever count it expects near. -/
theorem wOpens {n : Nat} (h : nearestCount n (2 ^ 32 - 1) = 2 ^ 32 - 1) (hr : wReach n = true) :
    (wExp n).frameOpens 7 false (wEth wBody) 5 wFrame := by
  have ho : (((wExp n).ses 5).openBody wBody) = some (wFrame, false) := by
    have hq : rd wBody 16 4 = 2 ^ 32 - 1 := (wBody_rd (by decide)).trans (by decide +kernel)
    have ha : wFrame.isAck = false := by decide +kernel
    exact openBody_data (k := (wKey, wKey)) rfl (by rw [hq, show ((wExp n).ses 5).expect = n from rfl, h]; exact wBody_open) ha
  simp only [wReach, Bool.and_eq_true, decide_eq_true_eq, Bool.not_eq_true'] at hr
  obtain ⟨⟨⟨⟨⟨⟨⟨h1, h2⟩, h3⟩, h4⟩, h5⟩, h6⟩, h7⟩, h8⟩ := hr
  unfold State.frameOpens State.frameHits
  rw [wEth_raw]
  have e : ∀ {o n}, o + n ≤ 32 → rd wBody o n = rd wFrame.header o n := wBody_rd
  refine ⟨⟨h1, h2, rfl, h8, h7.symm, ?_, wBody_ok, ?_, ?_, ?_, ?_, by decide, h3, h4, h5, (e (by decide)).trans h6⟩, ho⟩ <;>
    (rw [e (by decide)]; decide +kernel)
/-- A bank whose record was written with its image is valid (R450). -/
theorem valid_holding (n : Nat) (bs : List Byte) : (Bank.holding n bs).valid = true := by
  simp [Bank.valid, Bank.holding]
/-- A blank bank is not. -/
theorem valid_blank : Bank.blank.valid = false := by decide +kernel
/-- Of a kind whose image is in bank A alone, that bank is tried. -/
theorem wOrder {kind : Nat} {bs : List Byte} (h : wFlash.banks kind = (Bank.holding 1 bs, Bank.blank)) :
    wFlash.order kind = [(false, Bank.holding 1 bs)] := by
  rw [Flash.order, h]
  show List.filter (fun p => p.2.valid) [(false, Bank.holding 1 bs), (true, Bank.blank)] = _
  rw [List.filter_cons, if_pos (valid_holding 1 bs), List.filter_cons, if_neg (by rw [valid_blank]; decide), List.filter_nil]
/-- A parsed image is the one parsed. -/
theorem some_getD {α : Type} [Inhabited α] {o : Option α} (h : o.isSome = true) : o = some (o.getD default) := by
  cases o with
  | none => cases h
  | some a => rfl
/-- What a bank holds is its image. -/
theorem image_holding (n : Nat) (bs : List Byte) : (Bank.holding n bs).image = bs := List.take_of_length_le (Nat.le_refl _)
/-- The witnesses' images have sound headers. -/
theorem wImages : (imageOf (wRaw 1)).isSome = true ∧ (imageOf (wRaw 2)).isSome = true ∧ (imageOf (wRaw 3)).isSome = true := by decide +kernel
/-- The images that the witnesses' flash selects. -/
theorem wSelected {s : State} {kind : Nat} {bs : List Byte} (hf : s.flash = wFlash) (h : wFlash.banks kind = (Bank.holding 1 bs, Bank.blank))
    (hi : (imageOf bs).isSome = true) : s.selected kind = some (false, (imageOf bs).getD default) := by
  rw [State.selected, hf, wOrder h]
  show (imageOf (Bank.holding 1 bs).image).map _ = _
  rw [image_holding, some_getD hi]
  rfl
/-- The key of a chunk lies in Bark. -/
theorem chunkKey_of_bark {s t : State} (h : s.bark = t.bark) (h2 : s.hw = t.hw) (l v : Nat) : s.chunkKey l v = t.chunkKey l v := by
  simp only [State.chunkKey, State.treeKey, State.hwVal, State.hwReg, h, h2]
/-- The chunk opens under its key. -/
theorem wChunk_opens {s : State} (h : s.bark = wRun.bark) (h2 : s.hw = wRun.hw) :
    gcmOpen (s.chunkKey 0 5) (chunkNonce 8192 5) (chunkAad 8192 5) (wChunk 5 wSealed.2).data (cut (wChunk 5 wSealed.2).fields 16 16) = some [7, 7] := by
  have ht : wSealed.2.length = 16 := (gcmSeal_lengths (by decide) _ _).2
  have hc : cut (wChunk 5 wSealed.2).fields 16 16 = wSealed.2 := by
    show cut (leBytes 8 8192 ++ leBytes 8 5 ++ wSealed.2) 16 16 = _
    rw [cut, List.drop_left' (by decide), List.take_of_length_le (Nat.le_of_eq ht)]
  rw [hc, chunkKey_of_bark h h2]
  exact gcmOpen_gcmSeal (by decide) _ _
/-- The image in the recovery buffer has the length its header gives. -/
theorem wImage_length : (bufferImage wImage).length = 5394 := by
  rw [bufferImage, Memory.readBytes_length]
  decide +kernel
/-- Bytes read as a number and written again. -/
theorem leBytes_leNat (b : List Byte) : leBytes b.length (leNat b) = b := by
  induction b with
  | nil => rfl
  | cons x b ih =>
    have h1 : BitVec.ofNat 8 (x.toNat + 256 * leNat b) = x := by
      apply BitVec.eq_of_toNat_eq
      have := x.isLt
      simp only [BitVec.toNat_ofNat]
      omega
    have h2 : (x.toNat + 256 * leNat b) / 256 = leNat b := by
      have := x.isLt
      omega
    simp only [List.length_cons, leNat, leBytes, h1, h2, ih]
/-- Heartwood holds a 48-byte hash in six registers. -/
theorem wBurlOf_hash {l : List Byte} (h : l.length = 48) : l = (wBurlOf l).certHash := by
  have e : ∀ o, o + 8 ≤ 48 → leBytes 8 (rd l o 8) = (l.drop o).take 8 := fun o ho => by
    have hl : ((l.drop o).take 8).length = 8 := by simp; omega
    have := leBytes_leNat ((l.drop o).take 8)
    rwa [hl] at this
  show l = leBytes 8 (rd l 0 8) ++ (leBytes 8 (rd l 8 8) ++ (leBytes 8 (rd l 16 8) ++ (leBytes 8 (rd l 24 8) ++ (leBytes 8 (rd l 32 8) ++
    (leBytes 8 (rd l 40 8) ++ [])))))
  rw [e 0 (by omega), e 8 (by omega), e 16 (by omega), e 24 (by omega), e 32 (by omega), e 40 (by omega)]
  have d : ∀ o, l.drop o = (l.drop o).take 8 ++ l.drop (o + 8) := fun o => by rw [← List.drop_drop, List.take_append_drop]
  have d48 : l.drop 48 = [] := List.drop_eq_nil_of_le (by omega)
  rw [← d48, ← d 40, ← d 32, ← d 24, ← d 16, ← d 8, ← d 0, List.drop_zero]
/-- SHA-384 has 48 bytes. -/
theorem sha384_length (m : List Byte) : (sha384 m).length = 48 := by
  have hb : ∀ (n : Nat) (h : List Nat) (bs : List Byte), h.length = 8 → (shaBlocks n h bs).length = 8 := by
    intro n
    induction n with
    | zero => exact fun _ _ h => h
    | succ n ih => exact fun _ _ _ => ih _ _ rfl
  have h6 : ((shaBlocks ((m ++ shaPad m.length).length / 128) shaInit (m ++ shaPad m.length)).take 6).length = 6 := by
    rw [List.length_take, hb _ _ _ rfl]
    rfl
  rw [sha384, List.length_flatMap, List.map_congr_left fun _ _ => beBytes_length 8 _, List.map_const', h6]
  rfl
theorem certOf_hash (b : List Byte) : (certOf b).hash = sha384 b := rfl
/-- Heartwood holds the certificate's hash. -/
theorem wBurl_hash : (certOf wCert).hash = wBurl.certHash := by
  rw [certOf_hash, wBurl]
  exact wBurlOf_hash (sha384_length wCert)

/-! ## Witnesses -/

/-- The hypotheses of the clauses of `Obligations.FramesMoveTheLock` hold together somewhere. -/
theorem wit_FramesMoveTheLock :
    (∃ (s : State) (f : RingFrame), s.noInjection ∧ s.listens = true ∧ f.driven = true ∧ s.ring.lock = .locked ∧ s.ring.edgeDue = false ∧
      f.offsetNs.natAbs ≤ 8 ∧ f.short = false ∧ f.crcOk = true ∧ f.grove = s.f RING_CONFIG_GROVE_ID ∧ 1 ≤ f.period ∧ f.period ≤ 5 ∧
      f.period = s.ring.prevPeriod ∧ f.number = ringAdd s.ring.number 1) ∧
    (∃ (s : State) (f : RingFrame) (p : Nat), s.noInjection ∧ s.listens = true ∧ f.driven = true ∧ s.ring.lock = .acquiring ∧
      s.ring.prevNum = some p ∧ s.ring.acq = 7 ∧ f.short = false ∧ f.crcOk = true ∧ f.grove = s.f RING_CONFIG_GROVE_ID ∧ 1 ≤ f.period ∧
      f.period ≤ 5 ∧ f.period = s.ring.prevPeriod ∧ f.ppm.natAbs ≤ 100 ∧ f.number = ringAdd p 1) ∧
    (∃ (s : State), s.listens = true ∧ s.ring.lock = .locked ∧ s.ring.edgeDue = false) ∧
    (∃ (s : State), s.listens = true ∧ s.ring.lock = .holdover ∧ s.ring.edgeDue = false ∧
      s.f RING_CONFIG_HOLDOVER_MAX ≤ s.ring.holdCount) :=
  ⟨⟨wF wRun RING_CTRL_ENABLE 1, tFrame, by unfold State.noInjection; decide +kernel⟩,
   ⟨wF { wRun with ring := { rLock with lock := .acquiring, prevNum := some 99, acq := 7 } } RING_CTRL_ENABLE 1, tFrame8, 99,
     by unfold State.noInjection; decide +kernel⟩,
   ⟨wF wRun RING_CTRL_ENABLE 1, by decide +kernel⟩,
   ⟨wF { wRun with ring := { rLock with lock := .holdover, holdCount := 1000 } } RING_CTRL_ENABLE 1, by decide +kernel⟩⟩

/-- The hypotheses of the clauses of `Obligations.TheEdgeAdvancesTheRing` hold together somewhere. -/
theorem wit_TheEdgeAdvancesTheRing :
    (∃ (s : State), s.edgeComes = true ∧ s.noInjection) ∧
    (∃ (s : State), s.ring.changePending = true ∧ s.ring.number = s.ring.changeAt ∧ s.ring.changeNext = none) ∧
    (∃ (s : State) (o : PtpObs), s.ptpTaken o = true ∧ s.portEnabled o.port = true ∧ (s.port o.port).role = 2 ∧ s.ring.lock = .acquiring ∧
      s.ring.ptpGood = 15 ∧ o.offset.natAbs ≤ 20 ∧ s.f RING_CTRL_PTP_PERIOD ≤ 5) :=
  ⟨⟨{ wRun with ring := { rLock with edgeDue := true, number := 2 ^ 48 - 1 } }, by unfold State.noInjection; decide +kernel⟩,
   ⟨{ wRun with ring := { rLock with changePending := true, changeAt := 100, prevPeriod := 4 } }, by decide +kernel⟩,
   ⟨wF (wF { wRun with ring := { rLock with lock := .acquiring, ptpGood := 15 }, ports := [(0, { EdgePort.reset with role := 2 })] } RING_CTRL_ENABLE 1) RING_CTRL_SOURCE 1, (⟨0, 0, false, false, 0, 5, 10, 55, 0, 0⟩ : PtpObs), by decide +kernel⟩⟩

/-- The hypotheses of the clauses of `Obligations.RingRegisters` hold together somewhere. -/
theorem wit_RingRegisters :
    (∃ (s : State) (w : Word64), s.storesWf ∧ RING_CONFIG_PTP_PORT.of w < 72 ∧ 64 ≤ RING_CONFIG_EDGE_DELAY.of w ∧
      16 ≤ RING_CONFIG_GUARD.of w ∧ RING_CONFIG_GUARD.of w ≤ 512 ∧ 1 ≤ RING_CONFIG_HOLDOVER_MAX.of w ∧
      RING_CONFIG_HOLDOVER_MAX.of w ≤ 1000 ∧ (s.ptpOn = true → ptpGuard (s.f CLK_FREQ_MAX_CODE) ≤ RING_CONFIG_GUARD.of w) ∧
      s.stillFits (RING_CONFIG_GUARD.of w) s.depthSet s.maxCode = true) ∧
    (∃ (s : State) (w : Word64), s.storesWf ∧ (72 ≤ RING_CONFIG_PTP_PORT.of w ∨ RING_CONFIG_EDGE_DELAY.of w < 64 ∨
      RING_CONFIG_GUARD.of w < 16 ∨ 512 < RING_CONFIG_GUARD.of w ∨ RING_CONFIG_HOLDOVER_MAX.of w = 0 ∨
      1000 < RING_CONFIG_HOLDOVER_MAX.of w ∨ (s.ptpOn = true ∧ RING_CONFIG_GUARD.of w < ptpGuard (s.f CLK_FREQ_MAX_CODE)) ∨
      s.stillFits (RING_CONFIG_GUARD.of w) s.depthSet s.maxCode = false)) ∧
    (∃ (s : State), s.storesWf) ∧
    (∃ (s : State) (b : Bool), s.storesWf ∧ s.busyJob = false ∧ b ≠ s.ptpOn ∧ (b = true →
      ptpGuard (s.f CLK_FREQ_MAX_CODE) ≤ s.f RING_CONFIG_GUARD)) ∧
    (∃ (s : State) (b : Bool), (s.busyJob = true ∨ b = s.ptpOn ∨ (b = true ∧ s.f RING_CONFIG_GUARD < ptpGuard (s.f CLK_FREQ_MAX_CODE)))) ∧
    (∃ (s : State), s.storesWf) :=
  ⟨⟨State.reset, wd [(RING_CONFIG_PTP_PORT, 71), (RING_CONFIG_HOLDOVER_MAX, 1000), (RING_CONFIG_EDGE_DELAY, 64), (RING_CONFIG_GUARD, 512),
    (RING_CONFIG_GROVE_ID, 7)], by unfold State.storesWf; decide +kernel⟩,
   ⟨wRun, wd [(RING_CONFIG_EDGE_DELAY, 63), (RING_CONFIG_GUARD, 16), (RING_CONFIG_HOLDOVER_MAX, 1)],
     by unfold State.storesWf; decide +kernel⟩,
   ⟨State.reset, by unfold State.storesWf; decide +kernel⟩,
   ⟨wF (wF wRun RING_CTRL_SOURCE 1) RING_CTRL_ENABLE 1, false, by unfold State.storesWf; decide +kernel⟩,
   ⟨wRun, false, by decide +kernel⟩,
   ⟨wF wRun RING_ERRORS_SEAM_SLIPS 3, by unfold State.storesWf; decide +kernel⟩⟩

/-- The hypotheses of the clauses of `Obligations.ClockSource` hold together somewhere. -/
theorem wit_ClockSource :
    (∃ (s : State) (c r : Nat) (rest : List (Nat × Nat)), s.clk.pending = (c, r) :: rest ∧ ringBefore s.now r = false) ∧
    (∃ (s : State), s.clk.xtal = true) ∧
    (∃ (s : State), s.clk.xtal = false ∧ s.clk.xtalGood = true ∧ s.clk.seedVerified = true) :=
  ⟨⟨{ wRun with clk := { wRun.clk with pending := [(40, 100)] } }, 40, 100, [], by decide +kernel⟩,
   ⟨wRun, by decide +kernel⟩,
   ⟨{ State.reset with clk := { Clk.reset with xtalGood := true, seedVerified := true } }, by decide +kernel⟩⟩

/-- The hypotheses of the clauses of `Obligations.Plls` hold together somewhere. -/
theorem wit_Plls :
    (∃ (s : State) (n : Nat), s.pll n = .locked ∧ n < 60) ∧
    (∃ (s : State) (n : Nat), s.pll n = .relocking) ∧
    (∃ (s : State) (n : Nat), s.pll n = .relocking) ∧
    (∃ (s : State) (n khz : Nat), s.storesWf ∧ s.noInjection ∧ n < 62 ∧
      1000 * (max khz (s.expectKhz n) - min khz (s.expectKhz n)) ≤ s.expectKhz n) :=
  ⟨⟨wRun, 59, by decide +kernel⟩,
   ⟨{ wRun with clk := { wRun.clk with plls := [(3, .relocking)] } }, 3, by decide +kernel⟩,
   ⟨{ wRun with clk := { wRun.clk with plls := [(3, .relocking)] } }, 3, by decide +kernel⟩,
   ⟨wRun, 61, wRun.expectKhz 61 + wRun.expectKhz 61 / 1000, by unfold State.storesWf State.noInjection; decide +kernel⟩⟩

/-- The hypotheses of the clauses of `Obligations.ClockRegisters` hold together somewhere. -/
theorem wit_ClockRegisters :
    (∃ (s : State) (w : Word64), s.storesWf ∧ CLK_FREQ_MIN_CODE.of w ≤ CLK_FREQ_MAX_CODE.of w ∧ CLK_FREQ_MAX_CODE.of w ≤ 120 ∧
      (s.ptpOn = true → ptpGuard (CLK_FREQ_MAX_CODE.of w) ≤ s.f RING_CONFIG_GUARD) ∧
      s.stillFits (s.f RING_CONFIG_GUARD) s.depthSet (min (CLK_FREQ_MAX_CODE.of w) s.vfLimit) = true) ∧
    (∃ (s : State) (w : Word64), s.storesWf ∧ (CLK_FREQ_MAX_CODE.of w < CLK_FREQ_MIN_CODE.of w ∨ 120 < CLK_FREQ_MAX_CODE.of w ∨
      (s.ptpOn = true ∧ s.f RING_CONFIG_GUARD < ptpGuard (CLK_FREQ_MAX_CODE.of w)) ∨
      s.stillFits (s.f RING_CONFIG_GUARD) s.depthSet (min (CLK_FREQ_MAX_CODE.of w) s.vfLimit) = false)) ∧
    (∃ (s : State) (w : Word64), s.storesWf ∧ CLK_SSC_RATE.of w ≤ 75 ∧ CLK_SSC_DEPTH.of w ≤ 20 ∧
      s.stillFits (s.f RING_CONFIG_GUARD) (if CLK_SSC_ENABLE.of w = 1 then CLK_SSC_DEPTH.of w else 0) s.maxCode = true) ∧
    (∃ (s : State) (w : Word64), s.storesWf ∧ (75 < CLK_SSC_RATE.of w ∨ 20 < CLK_SSC_DEPTH.of w ∨
      s.stillFits (s.f RING_CONFIG_GUARD) (if CLK_SSC_ENABLE.of w = 1 then CLK_SSC_DEPTH.of w else 0) s.maxCode = false)) ∧
    (∃ (s : State) (w : Word64), CLK_GATE_REQ_GO.of w = 1 ∧ CLK_GATE_REQ_ACTION.of w = 1 ∧ CLK_GATE_REQ_LEVEL.of w = 1 ∧
      CLK_GATE_REQ_DIE.of w < 48 ∧ s.clk.gateReq = none) ∧
    (∃ (s : State) (w : Word64), CLK_GATE_REQ_GO.of w = 1 ∧ s.clk.gateReq ≠ none) ∧
    (∃ (s : State) (w : Word64), CLK_GATE_REQ_GO.of w = 1 ∧ s.clk.gateReq = none ∧ (2 ≤ CLK_GATE_REQ_ACTION.of w ∨
      CLK_GATE_REQ_LEVEL.of w = 0 ∨ 5 ≤ CLK_GATE_REQ_LEVEL.of w ∨ 48 ≤ CLK_GATE_REQ_DIE.of w)) ∧
    (∃ (s : State) (n : GateNode), s.clk.gateReq = some (n, true)) ∧
    (∃ (s : State) (n : GateNode), s.clk.gateReq = some (n, false) ∧ s.nodeUsed n = false) ∧
    (∃ (s : State) (n : GateNode), s.clk.gateReq = some (n, false) ∧ s.nodeUsed n = true) :=
  ⟨⟨wRun, wd [(CLK_FREQ_MIN_CODE, 120), (CLK_FREQ_MAX_CODE, 120)], by unfold State.storesWf; decide +kernel⟩,
   ⟨wRun, wd [(CLK_FREQ_MIN_CODE, 41), (CLK_FREQ_MAX_CODE, 40)], by unfold State.storesWf; decide +kernel⟩,
   ⟨wRun, wd [(CLK_SSC_RATE, 75), (CLK_SSC_DEPTH, 20), (CLK_SSC_ENABLE, 1)], by unfold State.storesWf; decide +kernel⟩,
   ⟨wRun, wd [(CLK_SSC_RATE, 76), (CLK_SSC_DEPTH, 20), (CLK_SSC_ENABLE, 1)], by unfold State.storesWf; decide +kernel⟩,
   ⟨wRun, wd [(CLK_GATE_REQ_GO, 1), (CLK_GATE_REQ_ACTION, 1), (CLK_GATE_REQ_LEVEL, 1), (CLK_GATE_REQ_DIE, 47)], by decide +kernel⟩,
   ⟨{ wRun with clk := { wRun.clk with gateReq := some ((⟨1, 9, 0, 0, 0, 0⟩ : GateNode), true) } }, wd [(CLK_GATE_REQ_GO, 1),
     (CLK_GATE_REQ_ACTION, 1), (CLK_GATE_REQ_LEVEL, 1), (CLK_GATE_REQ_DIE, 47)], by decide +kernel⟩,
   ⟨wRun, wd [(CLK_GATE_REQ_GO, 1), (CLK_GATE_REQ_ACTION, 1), (CLK_GATE_REQ_LEVEL, 1), (CLK_GATE_REQ_DIE, 48)], by decide +kernel⟩,
   ⟨{ wRun with clk := { wRun.clk with gateReq := some ((⟨1, 9, 0, 0, 0, 0⟩ : GateNode), true) } }, (⟨1, 9, 0, 0, 0, 0⟩ : GateNode),
     by decide +kernel⟩,
   ⟨{ wRun with clk := { wRun.clk with gateReq := some ((⟨4, 9, 0, 0, 1, 1⟩ : GateNode), false) } }, (⟨4, 9, 0, 0, 1, 1⟩ : GateNode),
     by decide +kernel⟩,
   ⟨{ ({ wRun with clk := { wRun.clk with gateReq := some ((⟨1, 0, 0, 0, 0, 0⟩ : GateNode), false) } }) with graft := { GraftUnit.reset with active := some wGraftT }, cells := [(cellKey 3 5, cOn)] }, (⟨1, 0, 0, 0, 0, 0⟩ : GateNode), by decide +kernel⟩⟩

/-- The hypotheses of the clauses of `Obligations.LanesIssueAndSteal` hold together somewhere. -/
theorem wit_LanesIssueAndSteal :
    (∃ (s : State) (x y : Nat), s.storesWf ∧ s.works x y) ∧
    (∃ (c : Cell) (cfg : PipeCfg) (lane : Nat) (g : Group) (rest : List Group) (b : SpanBank) (o : Output), cfg.grad = none ∧
      c.comp.lanes.getD lane [] = g :: rest ∧ c.comp.bankOf g = some b ∧ c.comp.output g.row g.col = some o ∧ c.comp.entryFree o = true ∧
      c.comp.laneHeld cfg lane = false ∧ c.comp.packHeld cfg = false) ∧
    (∃ (c : Cell) (cfg : PipeCfg) (lane : Nat) (g : Group) (rest : List Group) (b : SpanBank) (gc : GradCfg), cfg.grad = some gc ∧
      c.comp.lanes.getD lane [] = g :: rest ∧ c.comp.bankOf g = some b ∧ (∀ st ∈ g.vals,
      (c.comp.output g.row (16 * g.col + st.pos)).any c.comp.entryFree = true) ∧ c.comp.laneHeld cfg lane = false ∧
      c.comp.packHeld cfg = false) ∧
    (∃ (c : Cell) (cfg : PipeCfg) (lane : Nat), ((∀ g ∈ (c.comp.lanes.getD lane []).head?, c.comp.bankOf g = none) ∨
      c.comp.laneHeld cfg lane = true ∨ c.comp.packHeld cfg = true)) ∧
    (∃ (s : State) (x y : Nat), s.storesWf ∧ s.works x y) ∧
    (∃ (c : Cell) (cfg : PipeCfg) (lane v : Nat) (g : Group), cfg.steal = true ∧ lane < 8 ∧ c.comp.lanes.getD lane [] = [] ∧
      c.comp.victim lane = some v ∧ (c.comp.lanes.getD v []).getLast? = some g ∧ g.stolen = false) ∧
    (∃ (c : Cell) (lane v : Nat) (g : Group), c.comp.victim lane = some v ∧ (c.comp.lanes.getD v []).getLast? = some g ∧ g.stolen = true) ∧
    (∃ (c : Cell) (cfg : PipeCfg) (lane : Nat), (cfg.steal = false ∨ c.comp.lanes.getD lane [] ≠ [])) ∧
    (∃ (u : Compute) (lane v : Nat), lane < 8 ∧ u.victim lane = some v) ∧
    (∃ (u : Compute) (lane v : Nat), lane < 8 ∧ u.victim lane = some v) ∧
    (∃ (u : Compute) (lane w : Nat), lane < 8 ∧ u.victim lane = none ∧ w < 8 ∧ (w + 1 = lane ∨ w = lane + 1)) ∧
    (∃ (u : Compute) (lane w : Nat), lane < 8 ∧ u.victim lane = none ∧ w < 8 ∧ (w + 1 = lane ∨ w = lane + 1)) :=
  ⟨⟨wC (cComp { Compute.idle with lanes := wLanes [wG false], spans := [wBank], rows := [[], [wOut [1]], [], [], [], [], [], []] }), 3, 5,
    by unfold State.storesWf State.works; decide +kernel⟩,
   ⟨cComp { Compute.idle with lanes := wLanes [wG false], spans := [wBank], rows := [[], [wOut [1]], [], [], [], [], [], []] }, wCfg, 0,
     wG false, [], wBank, wOut [1], by decide +kernel⟩,
   ⟨cComp { Compute.idle with lanes := wLanes [{ wG false with idx := 1, col := 2, dy := [⟨3, 127, false⟩] }], spans := [wBank], rows := [[], [{ wOut [1] with col := 35 }], [], [], [], [], [], []] }, { wCfg with grad := some ⟨1, 10, 64⟩ }, 0, { wG false with idx := 1, col := 2, dy := [⟨3, 127, false⟩] }, [], wBank, ⟨1, 10, 64⟩, by decide +kernel⟩,
   ⟨cComp { Compute.idle with lanes := wLanes [wG false], spans := [wBank], rows := [[], [wOut [1]], [], [], [], [], [], []] }, wCfg, 1,
     by decide +kernel⟩,
   ⟨wC cOn, 3, 5, by unfold State.storesWf State.works; decide +kernel⟩,
   ⟨cComp { Compute.idle with lanes := [[], [], [], [], [], [], [wG false], []] }, { wCfg with steal := true }, 7, 6, wG false,
     by decide +kernel⟩,
   ⟨cComp { Compute.idle with lanes := wLanes [wG false, wG true] }, 1, 0, wG true, by decide +kernel⟩,
   ⟨cComp { Compute.idle with lanes := wLanes [wG false] }, wCfg, 0, by decide +kernel⟩,
   ⟨{ Compute.idle with lanes := [[], [wG false], [], [], [], [], [], []] }, 0, 1, by decide +kernel⟩,
   ⟨{ Compute.idle with lanes := [[], [], [], [], [wG false], [], [wG false], []] }, 5, 4, by decide +kernel⟩,
   ⟨Compute.idle, 7, 6, by decide +kernel⟩,
   ⟨Compute.idle, 0, 1, by decide +kernel⟩⟩

/-- The hypotheses of the clauses of `Obligations.SpansAndBlocks` hold together somewhere. -/
theorem wit_SpansAndBlocks :
    (∃ (s : State) (x y : Nat), s.storesWf ∧ s.works x y) ∧
    (∃ (c : Cell) (cfg : PipeCfg) (sp col : Nat), cfg.spans[c.comp.tile.spansLoaded]? = some (sp, col) ∧ c.comp.spans.length ≤ 1 ∧
      spanBytes cfg.aFmt ≤ (c.comp.fifo cfg.actAg).length) ∧
    (∃ (s : State) (x y : Nat), s.works x y ∧ s.noInjection ∧ ((s.settleScore x y).cell x y).comp.tile.scored = true) ∧
    (∃ (s : State) (x y : Nat) (q : Predictor), s.works x y ∧ (s.cell x y).active.predictor = some q ∧ (∀ j, s.running = some j →
      j.phase ≠ .makeup) ∧ (s.cell x y).comp.tile.scored = false) ∧
    (∃ (c : Cell) (cfg : PipeCfg), c.comp.tile.faulted = true ∧ cfg.weightAg < c.comp.ags.length) ∧
    (∃ (c : Cell) (cfg : PipeCfg) (w : Nat), cfg.grad = none ∧ 8 ≤ (c.comp.fifo cfg.weightAg).length ∧
      w = leNat (((c.comp.fifo cfg.weightAg).take 8).map (·.b)) ∧ headerBad cfg.wFmt w = false ∧ c.comp.tile.pEnd ≤ (needleHdr w).baseCol ∧
      8 + scaleCount cfg.wFmt (needleHdr w) ≤ (c.comp.fifo cfg.weightAg).length) ∧
    (∃ (c : Cell) (cfg : PipeCfg) (w : Nat), cfg.grad = none ∧ 8 ≤ (c.comp.fifo cfg.weightAg).length ∧
      w = leNat (((c.comp.fifo cfg.weightAg).take 8).map (·.b)) ∧ headerBad cfg.wFmt w = true) ∧
    (∃ (c : Cell) (cfg : PipeCfg) (q : BlockCtx) (r : RawGroup), cfg.grad = none ∧
      countBad (needleHdr q.header) q.nextGroup q.sum ((c.comp.fifo cfg.weightAg).map (·.b)) = none ∧
      rawGroup cfg.wFmt (needleHdr q.header).dense ((c.comp.fifo cfg.weightAg).map (·.b)) = some r ∧
      groupBad (needleHdr q.header) cfg.extent q.nextGroup q.sum r = none ∧ r.count ≠ 0 ∧
      c.comp.tile.skipped c.comp.tile.pRow (cfg.cols.getD c.comp.tile.pCol 0) = false ∧ c.comp.tile.pRow % 8 < c.comp.lanes.length ∧
      (c.comp.lanes.getD (c.comp.tile.pRow % 8) []).length < 8 ∧ q.nextGroup + 1 < (needleHdr q.header).groups) :=
  ⟨⟨wC cOn, 3, 5, by unfold State.storesWf State.works; decide +kernel⟩,
   ⟨cComp { (uFifo (List.replicate 1024 7)) with spans := [wBank] }, wCfg, 0, 2, by decide +kernel⟩,
   ⟨wC cSc, 3, 5, by unfold State.works State.noInjection; decide +kernel⟩,
   ⟨wC { cOn with active := plPred }, 3, 5, plPred.predictor.getD ⟨0,0,false,0,0,0,0,0,0,0,0,0,0⟩, by unfold State.works; decide +kernel⟩,
   ⟨cComp { (uFifo [1, 2, 3]) with tile := { TileRun.fresh none with faulted := true } }, wCfg, by decide +kernel⟩,
   ⟨cComp (uFifo (leBytes 8 wHdr)), wCfg, wHdr, by decide +kernel⟩,
   ⟨cComp (uFifo (leBytes 8 wHdr0)), wCfg, wHdr0, by decide +kernel⟩,
   ⟨cComp (uFifo [0x31, 9]), wCfg, (⟨wHdr0 + 2 ^ 8, 0, 0, [], 0, 0⟩ : BlockCtx), (⟨1, [3], [9], 2⟩ : RawGroup), by decide +kernel⟩⟩

/-- The hypotheses of the clauses of `Obligations.TermsAndOutputs` hold together somewhere. -/
theorem wit_TermsAndOutputs :
    (∃ (s : State) (x y : Nat), s.works x y ∧ s.noInjection) ∧
    (∃ (u v : Compute) (cfg : PipeCfg) (t : Term) (o : Output) (i : Word32 × Bool), u.output t.row t.col = some o ∧ o.isNext cfg t = true ∧
      u.entryFree o = true ∧ u.initVal cfg o = some (v, i) ∧ u.reorder.getD (t.row % 8) [] = [] ∧ (o.accept cfg i t).2 = false) ∧
    (∃ (u v : Compute) (cfg : PipeCfg) (t : Term) (o : Output) (i : Word32 × Bool), u.output t.row t.col = some o ∧ o.isNext cfg t = true ∧
      u.entryFree o = true ∧ u.initVal cfg o = some (v, i) ∧ u.reorder.getD (t.row % 8) [] = [] ∧ (o.accept cfg i t).2 = true ∧
      v.tile.overflowed = false) ∧
    (∃ (u : Compute) (cfg : PipeCfg) (t : Term) (o : Output), u.output t.row t.col = some o ∧ o.isNext cfg t = false ∧
      (u.reorder.getD (t.row % 8) []).length < 16) ∧
    (∃ (u : Compute) (cfg : PipeCfg) (t : Term) (o : Output), u.output t.row t.col = some o ∧ o.isNext cfg t = false ∧
      16 ≤ (u.reorder.getD (t.row % 8) []).length) ∧
    (∃ (u : Compute) (cfg : PipeCfg) (t : Term) (o : Output), u.output t.row t.col = some o ∧ o.isNext cfg t = true ∧
      u.entryFree o = false) ∧
    (∃ (s : State) (x y : Nat), s.storesWf ∧ s.works x y) ∧
    (∃ (c : Cell) (row : Nat) (o : Output), (c.comp.rows.getD row []).find? (fun o => o.isComplete && ! o.ready) = some o ∧
      o.started = true) :=
  ⟨⟨wC cOn, 3, 5, by unfold State.works State.noInjection; decide +kernel⟩,
   ⟨uOut [4, 5] [], uOut [4, 5] [], wCfg, wTerm 4, wOut [4, 5], (0#32, false), by decide +kernel⟩,
   ⟨uOutA 0x7FFFFFFF#32, uOutA 0x7FFFFFFF#32, { wCfg with accumCheck := true }, wTerm 4,
     { wOut [4, 5] with acc := 0x7FFFFFFF#32, started := true }, (0#32, false), by decide +kernel⟩,
   ⟨uOut [4, 5] (List.replicate 15 (wTerm 6)), wCfg, wTerm 5, wOut [4, 5], by decide +kernel⟩,
   ⟨uOut [4, 5] (List.replicate 16 (wTerm 6)), wCfg, wTerm 5, wOut [4, 5], by decide +kernel⟩,
   ⟨{ uOut [4, 5] [] with rows := [[], [{ wOut [4, 5] with ord := 16, started := false }], [], [], [], [], [], []] }, wCfg, wTerm 4,
     { wOut [4, 5] with ord := 16, started := false }, by decide +kernel⟩,
   ⟨wC cOn, 3, 5, by unfold State.storesWf State.works; decide +kernel⟩,
   ⟨cComp { Compute.idle with rows := [[], [{ wOut [] with started := true }], [], [], [], [], [], []] }, 1,
     { wOut [] with started := true }, by decide +kernel⟩⟩

/-- The hypotheses of the clauses of `Obligations.ActivatePredictPack` hold together somewhere. -/
theorem wit_ActivatePredictPack :
    (∃ (s : State) (x y : Nat), s.works x y ∧ s.noInjection) ∧
    (∃ (s : State) (x y : Nat), (s.cell x y).comp.tile.ownerOf = none) ∧
    (∃ (c : Cell) (cfg : PipeCfg) (id : Nat) (foreign : Bool), cfg.grad = none ∧ cfg.usesTable = false ∧
      (c.activateSet foreign cfg id false).1.comp.tile.setsOut ≠ c.comp.tile.setsOut) ∧
    (∃ (s : State) (x y : Nat), s.works x y ∧ s.noInjection) ∧
    (∃ (c : Cell) (cfg : PipeCfg) (a : ActSet) (rest : List ActSet), c.comp.packQ = a :: rest ∧ cfg.outFmt.isMx = false ∧
      cfg.predicate = none ∧ c.comp.tile.scaleWord = [] ∧
      (c.comp.tile.wordBits ++ a.outs.flatMap (fun o => elemBits cfg.outFmt.width (packScalar cfg.outFmt cfg.sat o.int o.y) o.poison)).length < 128) ∧
    (∃ (s : State) (x y : Nat) (j : Job) (q : Predictor), s.works x y ∧ s.noInjection ∧ s.running = some j ∧ j.phase ≠ .makeup ∧
      (s.cell x y).comp.tile.scored = false ∧ (s.cell x y).comp.tile.faulted = false ∧ (s.cell x y).active.predictor = some q) ∧
    (∃ (s : State) (x y : Nat), s.works x y ∧ (s.cell x y).active.predictor = none) ∧
    (∃ (c : Cell) (cfg : PipeCfg) (q : Predictor) (score : Nat → Nat → Word32) (seed step j0 c0 : Nat),
      (c.decideSkips cfg q score seed step j0 c0 false).1.comp.tile.faulted = false) :=
  ⟨⟨wC cOn, 3, 5, by unfold State.works State.noInjection; decide +kernel⟩,
   ⟨wC cOn, 3, 5, by decide +kernel⟩,
   ⟨cComp { Compute.idle with rows := [[{ wOut [] with row := 0, started := true, ready := true }], [], [], [], [], [], [], []] }, wCfg, 5,
     false, by decide +kernel⟩,
   ⟨wC cOn, 3, 5, by unfold State.works State.noInjection; decide +kernel⟩,
   ⟨cComp { Compute.idle with packQ := [⟨[⟨0, 2, 5#32, true, false⟩], [true]⟩] }, { wCfg with rows := 9 }, (⟨[⟨0, 2, 5#32, true, false⟩],
     [true]⟩ : ActSet), [], by decide +kernel⟩,
   ⟨{ wC { cOn with active := plPred } with job := { (wC cOn).job with cur := some ({ wJob with stage := .running, phase := .work }) } },
     3, 5, { wJob with stage := .running, phase := .work }, plPred.predictor.getD ⟨0,0,false,0,0,0,0,0,0,0,0,0,0⟩,
     by unfold State.works State.noInjection; decide +kernel⟩,
   ⟨wC cOn, 3, 5, by unfold State.works; decide +kernel⟩,
   ⟨{ cOn with active := plPred }, wCfg, plPred.predictor.getD ⟨0,0,false,0,0,0,0,0,0,0,0,0,0⟩, fun _ _ => 1#32, 7, 1, 0, 0,
     by decide +kernel⟩⟩

/-- The hypotheses of the clauses of `Obligations.ScratchpadAccess` hold together somewhere. -/
theorem wit_ScratchpadAccess :
    (∃ (s s1 : State) (x y : Nat) (ups : List (Nat × Nat)) (c : Cell), s.works x y ∧ s.noInjection ∧ (s.cell x y).comp.tile.places = true ∧
      s1 = s.settleScore x y ∧ c = { s1.cell x y with mem := (s1.cell x y).mem.upset ups }) ∧
    (∃ (m : MemUnit) (a : Nat) (bs : List Byte), m.bytes.wf = true ∧ m.lost = none ∧ a % 16 = 0 ∧ bs.length = 16) ∧
    (∃ (m : MemUnit) (a : Nat), (sget .good m.words (a / 8)).flips = 0 ∧ (sget .good m.words (a / 8)).poison = false ∧
      (sget .good m.words (a / 8 + 1)).flips = 0 ∧ (sget .good m.words (a / 8 + 1)).poison = false) ∧
    (∃ (m : MemUnit) (w : Nat), (sget .good m.words w).poison = false ∧ (sget .good m.words w).flips = 1) ∧
    (∃ (m : MemUnit) (w : Nat), (sget .good m.words w).poison = false ∧ 2 ≤ (sget .good m.words w).flips ∧
      (sget .good m.words w).failed = false) ∧
    (∃ (s : State) (x y cycle : Nat) (ended : Bool), s.storesWf ∧ s.works x y ∧ s.noInjection ∧ s.power.memShed = 0 ∧
      s.bankFree x y ((s.cell x y).mem.scrubAt / 16 % 4) cycle ended = true ∧
      (s.cell x y).bankWanted ((s.cell x y).mem.scrubAt / 16 % 4) = false ∧
      (sget .good (s.cell x y).mem.words ((s.cell x y).mem.scrubAt / 8)).flips = 0 ∧
      (sget .good (s.cell x y).mem.words ((s.cell x y).mem.scrubAt / 8 + 1)).flips = 0 ∧ (s.cell x y).mem.writeBack = [] ∧
      (s.cell x y).mem.scrubAt + 16 ≠ scratchBytes) ∧
    (∃ (s : State) (x y cycle : Nat) (ended : Bool), s.inGrid x y = true ∧ (1 ≤ s.power.memShed ∨
      s.bankFree x y ((s.cell x y).mem.scrubAt / 16 % 4) cycle ended = false ∨
      (s.cell x y).bankWanted ((s.cell x y).mem.scrubAt / 16 % 4) = true)) :=
  ⟨⟨wC cSc, wC cSc, 3, 5, [(5, 1)], { cSc with mem := cSc.mem.upset [(5, 1)] }, by
      unfold State.works State.noInjection
      refine ⟨?_, ?_, ?_, rfl, ?_⟩ <;> decide +kernel⟩,
   ⟨MemUnit.empty, 16, List.replicate 16 7, by decide +kernel⟩,
   ⟨MemUnit.empty, 16, by decide +kernel⟩,
   ⟨{ MemUnit.empty with words := [(3, ⟨1, false, false, false⟩)] }, 3, by decide +kernel⟩,
   ⟨{ MemUnit.empty with words := [(3, ⟨2, false, false, false⟩)] }, 3, by decide +kernel⟩,
   ⟨wC cOn, 3, 5, 9, true, by unfold State.storesWf State.works State.noInjection; decide +kernel⟩,
   ⟨{ wRun with power := { wRun.power with memShed := 1 } }, 3, 5, 0, false, by decide +kernel⟩⟩

/-- The hypotheses of the clauses of `Obligations.WindowsOpenAndClose` hold together somewhere. -/
theorem wit_WindowsOpenAndClose :
    (∃ (s : State) (x y w : Nat) (d : WinDesc), s.storesWf ∧ s.works x y ∧ swf .reset (s.cell x y).mem.wins = true ∧
      (s.cell x y).active.window w = some d ∧ ((s.cell x y).mem.win w).st = .closed) ∧
    (∃ (s : State) (x y w cycle : Nat), s.storesWf ∧ s.works x y ∧ swf .reset (s.cell x y).mem.wins = true ∧
      ((s.cell x y).mem.win w).st = .opened ∧ (s.cell x y).recall w s.now cycle = none) ∧
    (∃ (s : State) (x y w cycle : Nat) (q : InMsg) (rest : List InMsg), s.storesWf ∧ s.works x y ∧ s.strict = false ∧
      swf .reset (s.cell x y).mem.wins = true ∧ ((s.cell x y).mem.win w).st = .opened ∧ (s.cell x y).mem.msgs = q :: rest ∧ q.window = w ∧
      q.ring = s.now ∧ q.cycle = cycle ∧ q.addr = q.start) ∧
    (∃ (s : State) (x y w cycle : Nat) (d : WinDesc), s.storesWf ∧ s.works x y ∧ swf .reset (s.cell x y).mem.wins = true ∧
      (s.cell x y).active.window w = some d ∧ ((s.cell x y).mem.win w).st = .opened ∧ (s.cell x y).recall w s.now cycle = none ∧
      cycle ≠ 0) ∧
    (∃ (s : State) (x y w : Nat), s.works x y ∧ ((s.cell x y).mem.win w).st = .opened ∧ (s.cell x y).recall w s.now 0 = none ∧
      (s.cell x y).mem.refreshed = some s.now) ∧
    (∃ (s : State) (x y w : Nat), s.works x y ∧ ((s.cell x y).mem.win w).st ≠ .opened) ∧
    (∃ (s : State) (x y w : Nat), s.storesWf ∧ s.works x y ∧ swf .reset (s.cell x y).mem.wins = true ∧
      ((s.cell x y).mem.win w).st = .closing ∧ (s.cell x y).mem.busy w = false) :=
  ⟨⟨wC (cWin .closed []), 3, 5, 0, wWin, by unfold State.storesWf State.works; decide +kernel⟩,
   ⟨wC (cWin .opened []), 3, 5, 0, 7, by unfold State.storesWf State.works; decide +kernel⟩,
   ⟨wC { cWin .opened [] with mem := { (cWin .opened []).mem with msgs := [⟨0, 992, 2, false, 992, [], wHead 5 62, 100, 7⟩] } }, 3, 5, 0,
     7, ⟨0, 992, 2, false, 992, [], wHead 5 62, 100, 7⟩, [], by unfold State.storesWf State.works; decide +kernel⟩,
   ⟨wC (cWin .opened []), 3, 5, 0, 7, wWin, by unfold State.storesWf State.works; decide +kernel⟩,
   ⟨wC { cWin .opened [] with mem := { (cWin .opened []).mem with refreshed := some 100 } }, 3, 5, 0,
     by unfold State.works; decide +kernel⟩,
   ⟨wC (cWin .closed []), 3, 5, 0, by unfold State.works; decide +kernel⟩,
   ⟨wC (cWin .closing []), 3, 5, 0, by unfold State.storesWf State.works; decide +kernel⟩⟩

/-- The hypotheses of the clauses of `Obligations.RemoteWrites` hold together somewhere. -/
theorem wit_RemoteWrites :
    (∃ (s : State) (x y : Nat) (u : NetUnit) (rest : List NetUnit) (d : WinDesc) (q : Credit), s.storesWf ∧ s.works x y ∧ s.noInjection ∧
      (s.cell x y).inbox .v 0 = u :: rest ∧ u.head = true ∧ (vHead u.data).kind ≤ 1 ∧
      (s.cell x y).active.window (vHead u.data).window = some d ∧ ((s.cell x y).mem.win (vHead u.data).window).gen = (vHead u.data).gen ∧
      ((s.cell x y).mem.win (vHead u.data).window).st = .opened ∧ ((s.cell x y).mem.win (vHead u.data).window).reopening = false ∧
      (if (vHead u.data).kind = 1 then d.sf else d.rw) = true ∧ 16 * (vHead u.data).offset + 16 * ((vHead u.data).len + 1) ≤ d.len ∧
      (s.cell x y).mem.credits.find? (fun r => r.writer == (vHead u.data).writer && r.window == (vHead u.data).window && r.gen == (vHead u.data).gen && decide (16 * ((vHead u.data).len + 1) ≤ r.bytes)) = some q ∧ 16 * ((vHead u.data).len + 1) < q.bytes) ∧
    (∃ (s : State) (x y : Nat) (u : NetUnit) (rest : List NetUnit) (d : WinDesc), s.storesWf ∧ s.works x y ∧ s.noInjection ∧
      (s.cell x y).inbox .v 0 = u :: rest ∧ u.head = true ∧ (s.cell x y).active.window (vHead u.data).window = some d ∧
      ((s.cell x y).mem.win (vHead u.data).window).gen ≠ (vHead u.data).gen) ∧
    (∃ (s : State) (x y : Nat) (u : NetUnit) (rest : List NetUnit) (q : InMsg) (more : List InMsg), s.storesWf ∧ s.works x y ∧
      (s.cell x y).inbox .v 0 = u :: rest ∧ u.head = false ∧ sget 0 (s.cell x y).box.dropping beatKey = 0 ∧
      (s.cell x y).mem.msgs = q :: more ∧ 2 ≤ q.beats ∧ (s.cell x y).mem.bytes.wf = true ∧ (s.cell x y).mem.lost = none ∧
      (s.cell x y).mem.waiting = [] ∧ (s.cell x y).comp.packOut = [] ∧ (s.cell x y).lineHeld q.addr = false) ∧
    (∃ (s : State) (x y : Nat) (u : NetUnit) (rest : List NetUnit), s.storesWf ∧ s.works x y ∧ (s.cell x y).inbox .v 0 = u :: rest ∧
      u.head = false ∧ sget 0 (s.cell x y).box.dropping beatKey = 1) :=
  ⟨⟨wC { cWin .opened [(0, [wU true false (wHead 5 62)])] with mem := { (cWin .opened []).mem with credits := [wCred] } }, 3, 5,
    wU true false (wHead 5 62), [], wWin, wCred, by unfold State.storesWf State.works State.noInjection; decide +kernel⟩,
   ⟨wC { cWin .opened [(0, [wU true false (wHead 4 62)])] with mem := { (cWin .opened []).mem with credits := [wCred] } }, 3, 5,
     wU true false (wHead 4 62), [], wWin, by unfold State.storesWf State.works State.noInjection; decide +kernel⟩,
   ⟨wC { cWin .opened [] with mem := { (cWin .opened []).mem with msgs := [⟨0, 992, 2, false, 992, [], wHead 5 62, 99, 7⟩] }, box := { Box.idle with inbox := [(0, [wU false true 77])], dropping := [] } }, 3, 5, wU false true 77, [], (⟨0, 992, 2, false, 992, [], wHead 5 62, 99, 7⟩ : InMsg), [], by unfold State.storesWf State.works; decide +kernel⟩,
   ⟨wC { cWin .opened [] with mem := { (cWin .opened []).mem with msgs := [⟨0, 992, 2, false, 992, [], wHead 5 62, 99, 7⟩] }, box := { Box.idle with inbox := [(0, [wU false true 77])], dropping := [(128, 1)] } }, 3, 5, wU false true 77, [], by unfold State.storesWf State.works; decide +kernel⟩⟩

/-- The hypotheses of the clauses of `Obligations.Credits` hold together somewhere. -/
theorem wit_Credits :
    (∃ (s : State) (x y w0 w1 w2 w3 : Nat) (d : WinDesc), s.works x y ∧ s.noInjection ∧ (s.cell x y).sHead 0 [0] = some [w0, w1, w2, w3] ∧
      w0.testBit 23 = false ∧ (s.cell x y).active.window (fld w0 4 4) = some d ∧ d.rw = true ∧
      (s.cell x y).mem.creditFree (s.cell x y).active = true ∧ ((s.cell x y).mem.win (fld w0 4 4)).st = .opened ∧
      ((s.cell x y).mem.win (fld w0 4 4)).reopening = false ∧ 64 * fld w0 8 10 ≤ ((s.cell x y).mem.win (fld w0 4 4)).pool) ∧
    (∃ (s : State) (x y w0 w1 w2 w3 : Nat) (d : WinDesc), s.works x y ∧ s.noInjection ∧ (s.cell x y).sHead 0 [0] = some [w0, w1, w2, w3] ∧
      w0.testBit 23 = false ∧ (s.cell x y).active.window (fld w0 4 4) = some d ∧ d.rw = true ∧
      (s.cell x y).mem.creditFree (s.cell x y).active = true ∧ ((s.cell x y).mem.win (fld w0 4 4)).pool < 64 * fld w0 8 10) ∧
    (∃ (s : State) (x y w0 w1 w2 : Nat), s.works x y ∧ (s.cell x y).sHead 4 [1] = some [w0, w1, w2] ∧ w0.testBit 23 = false) ∧
    (∃ (m : MemUnit) (window : Nat) (a : CreditAsk), m.asked.find? (fun a => a.out && a.window == window) = some a) ∧
    (∃ (s : State) (x y w0 w1 w2 w3 : Nat), s.storesWf ∧ s.works x y ∧ (s.cell x y).sHead 4 [2] = some [w0, w1, w2, w3] ∧
      w0.testBit 17 = false) ∧
    (∃ (s : State) (x y w : Nat) (d : WinDesc), s.storesWf ∧ s.works x y ∧ (s.cell x y).active.window w = some d ∧
      ((s.cell x y).mem.win w).st = .opened) ∧
    (∃ (s : State) (x y : Nat) (j : Job), s.works x y ∧ s.running = some j) ∧
    (∃ (m : MemUnit) (p : Plane) (epoch : Nat → Nat) (id : Nat) (q : Credit), q ∈ (m.bindStanding p epoch id).credits ∧ q.window = id ∧
      q.standing.isSome = true) :=
  ⟨⟨wC { cWin .opened [(16, wMsg [10 * 2 ^ 8, 4 + 6 * 2 ^ 11, 0, 0])] with active := plPool }, 3, 5, 10 * 2 ^ 8, 4 + 6 * 2 ^ 11, 0, 0,
    plPool.window 0 |>.getD wWin, by unfold State.works State.noInjection; decide +kernel⟩,
   ⟨wC { cWin .opened [(16, wMsg [11 * 2 ^ 8, 4 + 6 * 2 ^ 11, 0, 0])] with active := plPool }, 3, 5, 11 * 2 ^ 8, 4 + 6 * 2 ^ 11, 0, 0,
     plPool.window 0 |>.getD wWin, by unfold State.works State.noInjection; decide +kernel⟩,
   ⟨wC (cWin .opened [(20, wMsg [1 + 10 * 2 ^ 13, 5, 0])]), 3, 5, 1 + 10 * 2 ^ 13, 5, 0, by unfold State.works; decide +kernel⟩,
   ⟨{ MemUnit.empty with asked := [⟨4, 6, 1, true, none⟩, ⟨4, 6, 0, true, none⟩] }, 0, ⟨4, 6, 0, true, none⟩, by decide +kernel⟩,
   ⟨wC { cWin .opened [(20, wMsg [2, 5 * 2 ^ 16, 4 + 6 * 2 ^ 11, 0])] with mem := { (cWin .opened []).mem with held := [⟨4, 6, 0, 4, 48⟩] } }, 3, 5, 2, 5 * 2 ^ 16, 4 + 6 * 2 ^ 11, 0, by unfold State.storesWf State.works; decide +kernel⟩,
   ⟨wC { cWin .opened [] with active := plPool, mem := { MemUnit.empty with wins := [(0, ⟨5, .opened, 64, false⟩)] } }, 3, 5, 0,
     plPool.window 0 |>.getD wWin, by unfold State.storesWf State.works; decide +kernel⟩,
   ⟨{ wC cOn with job := { (wC cOn).job with cur := some { wJob with stage := .running, s := 50, m := 10, l := 5, x := 10 } } }, 3, 5,
     { wJob with stage := .running, s := 50, m := 10, l := 5, x := 10 }, by unfold State.works; decide +kernel⟩,
   ⟨{ MemUnit.empty with wins := [(0, ⟨5, .opened, 64, false⟩)] }, pl [(0x250, 2 ^ 12 * 4 + 2 ^ 20 * 15), (0x2D0, 2 ^ 26)], fun _ => 0, 0,
     (⟨.cell 0 0, 0, 5, 64, some 64⟩ : Credit), by decide +kernel⟩⟩

/-- The hypotheses of the clauses of `Obligations.RemoteReads` hold together somewhere. -/
theorem wit_RemoteReads :
    (∃ (s : State) (x y w0 w1 w2 w3 : Nat) (d : WinDesc), s.works x y ∧ s.pumpCell x y = s ∧ (s.cell x y).mem.out = [] ∧
      (s.cell x y).sHead 0 [3] = some [w0, w1, w2, w3] ∧ (s.cell x y).active.window (fld w0 4 4) = some d ∧ d.rr = true ∧
      ((s.cell x y).mem.win (fld w0 4 4)).gen = fld w0 8 16 ∧ ((s.cell x y).mem.win (fld w0 4 4)).st = .opened ∧
      ((s.cell x y).mem.win (fld w0 4 4)).reopening = false ∧ 16 * (fld w1 0 12 + (fld w1 12 8 + 1)) ≤ d.len ∧
      (s.cell x y).mem.words = []) ∧
    (∃ (s : State) (x y w0 w1 w2 w3 : Nat) (d : WinDesc), s.works x y ∧ s.pumpCell x y = s ∧ (s.cell x y).mem.out = [] ∧
      (s.cell x y).sHead 0 [3] = some [w0, w1, w2, w3] ∧ (s.cell x y).active.window (fld w0 4 4) = some d ∧ d.rr = true ∧
      ((s.cell x y).mem.win (fld w0 4 4)).gen ≠ fld w0 8 16) ∧
    (∃ (s : State) (x y : Nat) (u : NetUnit) (beats : List NetUnit), s.storesWf ∧ s.works x y ∧
      firstMessage ((s.cell x y).inbox .v 4) = some (u :: beats) ∧ (vHead u.data).peer = false) ∧
    (∃ (s : State) (x y : Nat) (u : NetUnit) (beats : List NetUnit), s.works x y ∧
      firstMessage ((s.cell x y).inbox .v 4) = some (u :: beats) ∧ (vHead u.data).peer = true) :=
  ⟨⟨wC (cWin .opened [(16, wMsg [3 + 5 * 2 ^ 8, 48 + 15 * 2 ^ 12, 4 + 6 * 2 ^ 11, 9])]), 3, 5, 3 + 5 * 2 ^ 8, 48 + 15 * 2 ^ 12,
    4 + 6 * 2 ^ 11, 9, wWin, by
      unfold State.works
      refine ⟨?_, rfl, ?_, ?_, ?_, ?_, ?_, ?_, by decide +kernel, ?_, ?_⟩ <;> decide +kernel⟩,
   ⟨wC (cWin .opened [(16, wMsg [3 + 5 * 2 ^ 9, 48 + 15 * 2 ^ 12, 4 + 6 * 2 ^ 11, 9])]), 3, 5, 3 + 5 * 2 ^ 9, 48 + 15 * 2 ^ 12,
     4 + 6 * 2 ^ 11, 9, wWin, by
      unfold State.works
      refine ⟨?_, rfl, ?_, ?_, ?_, ?_, ?_⟩ <;> decide +kernel⟩,
   ⟨wC (cWin .opened [(4, [wU true false (VHead.bits ⟨2, 0, 0, 5, 0, 4, 6, false, true, 0, 0⟩), wU false true 77])]), 3, 5,
     wU true false (VHead.bits ⟨2, 0, 0, 5, 0, 4, 6, false, true, 0, 0⟩), [wU false true 77],
     by unfold State.storesWf State.works; decide +kernel⟩,
   ⟨wC (cWin .opened [(4, [wU true false (VHead.bits ⟨2, 0, 0, 5, 0, 4, 6, true, true, 0, 0⟩), wU false true 77])]), 3, 5,
     wU true false (VHead.bits ⟨2, 0, 0, 5, 0, 4, 6, true, true, 0, 0⟩), [wU false true 77], by unfold State.works; decide +kernel⟩⟩

/-- The hypotheses of the clauses of `Obligations.UnitsArrive` hold together somewhere. -/
theorem wit_UnitsArrive :
    (∃ (s : State) (x y : Nat) (net : Net) (p : InPort) (u : NetUnit) (rest : List NetUnit) (e : RouteEntry), s.storesWf ∧ s.works x y ∧
      s.noInjection ∧ net ≠ .c ∧ (s.cell x y).box.inFlight net p = u :: rest ∧ u.tag = s.graft.tag ∧ u.head = true ∧ u.data % 16 < 4 ∧
      (s.cell x y).active.route net u.route = some e ∧ e.inMask.testBit p.idx = true ∧ e.spill = 0 ∧
      ((s.cell x y).box.queue net p).length < queueDepth net p ∧ s.f FAB_CTRL_PROBE_EN = 0 ∧ swf [] (s.cell x y).box.queues = true ∧
      swf [] (s.cell x y).box.flight = true) ∧
    (∃ (s : State) (x y : Nat) (net : Net) (p : InPort) (u : NetUnit) (rest : List NetUnit), s.storesWf ∧ s.works x y ∧ s.noInjection ∧
      net ≠ .c ∧ (s.cell x y).box.inFlight net p = u :: rest ∧ u.tag ≠ s.graft.tag ∧ s.graft.active = none) ∧
    (∃ (s : State) (x y : Nat) (p : InPort) (u : NetUnit) (rest : List NetUnit) (e : RouteEntry), s.storesWf ∧ s.works x y ∧
      s.noInjection ∧ (s.cell x y).box.inFlight .c p = u :: rest ∧ u.tag = s.graft.tag ∧ (s.cell x y).active.route .c u.route = some e ∧
      e.inMask.testBit p.idx = true ∧ ((s.cell x y).box.queue .c p).length < 16 ∧ s.f FAB_CTRL_PROBE_EN = 0 ∧
      swf [] (s.cell x y).box.queues = true) ∧
    (∃ (s : State) (x y : Nat) (p : InPort) (u : NetUnit) (rest : List NetUnit) (e : RouteEntry) (c : Cell), s.works x y ∧ s.noInjection ∧
      (s.cell x y).box.inFlight .c p = u :: rest ∧ u.tag = s.graft.tag ∧ (s.cell x y).active.route .c u.route = some e ∧
      e.inMask.testBit p.idx = true ∧ 16 ≤ ((s.cell x y).box.queue .c p).length ∧
      c = { s.cell x y with box := { (s.cell x y).box with flight := sset [] (s.cell x y).box.flight (qkey .c p) rest } }) ∧
    (∃ (s : State) (x y : Nat) (p : InPort) (u : NetUnit) (rest : List NetUnit) (c : Cell), s.works x y ∧ s.noInjection ∧
      (s.cell x y).box.inFlight .c p = u :: rest ∧
      c = { s.cell x y with box := { (s.cell x y).box with flight := sset [] (s.cell x y).box.flight (qkey .c p) rest } }) ∧
    (∃ (s : State) (tap : Nat) (u : NetUnit) (rest : List NetUnit), s.storesWf ∧ s.tapEnabled tap = true ∧
      s.limbOn (limbOfTap tap) = true ∧ (s.tap tap).toLimbV = u :: rest ∧ (s.tap tap).bufV.length < 192) ∧
    (∃ (s : State) (tap : Nat) (u : NetUnit) (rest : List NetUnit), s.tapEnabled tap = true ∧ s.limbOn (limbOfTap tap) = true ∧
      (s.tap tap).toCellS = u :: rest ∧ s.lit (s.tapCell tap).1 (s.tapCell tap).2 = true) :=
  ⟨⟨wC { cOn with active := plRoute, box := { Box.idle with flight := [(qkey .v .n, [wU true true 3])] } }, 3, 5, .v, .n, wU true true 3,
    [], wEntry, by unfold State.storesWf State.works State.noInjection; decide +kernel⟩,
   ⟨wC { cOn with box := { Box.idle with flight := [(qkey .v .n, [{ wU true true 3 with tag := 1 }])] } }, 3, 5, .v, .n,
     { wU true true 3 with tag := 1 }, [], by unfold State.storesWf State.works State.noInjection; decide +kernel⟩,
   ⟨wC { cOn with active := plRoute, box := { Box.idle with flight := [(qkey .c .n, [wU true true 1])] } }, 3, 5, .n, wU true true 1, [],
     wEntry, by unfold State.storesWf State.works State.noInjection; decide +kernel⟩,
   ⟨wC { cOn with active := plRoute, box := { Box.idle with flight := [(qkey .c .n, [wU true true 1])], queues := [(qkey .c .n, List.replicate 16 (wU true true 0))] } }, 3, 5, .n, wU true true 1, [], wEntry, { cOn with active := plRoute, box := { Box.idle with queues := [(qkey .c .n, List.replicate 16 (wU true true 0))] } }, by unfold State.works State.noInjection; decide +kernel⟩,
   ⟨wC { cOn with active := plRoute, box := { Box.idle with flight := [(qkey .c .n, [wU true true 1])] } }, 3, 5, .n, wU true true 1, [],
     { cOn with active := plRoute }, by unfold State.works State.noInjection; decide +kernel⟩,
   ⟨{ wRun with taps := [(3, { Tap.reset with toLimbV := [wU true true 0] })] }, 3, wU true true 0, [],
     by unfold State.storesWf; decide +kernel⟩,
   ⟨{ wRun with cells := [(cellKey (wRun.tapCell 3).1 (wRun.tapCell 3).2, { cOn with active := plRouteT })], taps := [(3, { Tap.reset with toCellS := [wU true true 0] })] }, 3, wU true true 0, [], by decide +kernel⟩⟩

/-- The hypotheses of the clauses of `Obligations.GrantsAndSteering` hold together somewhere. -/
theorem wit_GrantsAndSteering :
    (∃ (s : State) (x y : Nat) (net : Net) (out : OutPort) (p : InPort) (u : NetUnit) (e : RouteEntry), s.works x y ∧
      (s.pumpCell x y).purgeLocal x y net = s ∧ s.pick x y net none out = some p ∧ s.granted x y net none p = some (u, e)) ∧
    (∃ (s : State) (x y : Nat) (net : Net) (out : OutPort), s.works x y ∧ (s.pumpCell x y).purgeLocal x y net = s ∧
      s.pick x y net none out = none ∧ s.f FAB_CTRL_PROBE_EN = 0) ∧
    (∃ (s : State) (x y : Nat) (net : Net) (p : InPort) (u : NetUnit) (e : RouteEntry), s.granted x y net none p = some (u, e)) ∧
    (∃ (s : State) (x y nx ny : Nat) (q : InPort) (o : OutPort), s.neighbour x y o = some (nx, ny, q)) ∧
    (∃ (s : State) (x y : Nat) (unit : Bool) (net : Net) (u : NetUnit) (rest : List (Net × NetUnit)), s.works x y ∧ s.pumpCell x y = s ∧
      ((s.cell x y).steer unit).outgoing = (net, u) :: rest) ∧
    (∃ (at_ : Nat → Option Net) (net : Net), at_ 0 = some net) ∧
    (∃ (at_ : Nat → Option Net) (net : Net), at_ 0 = some net) ∧
    (∃ (at_ : Nat → Option Net) (net : Net), at_ 0 = some net) ∧
    (∃ (at_ : Nat → Option Net) (net : Net), at_ 0 = some net) ∧
    (∃ (at_ : Nat → Option Net) (net : Net), at_ 0 = some net) ∧
    (∃ (a : SteerAct) (n o : Nat), a.rep = some n ∧ a.out = some o ∧ a.left = some 1 ∧ a.buf = []) ∧
    (∃ (s : State) (x y : Nat), s.storesWf ∧ s.works x y ∧ s.job.cur = none ∧ s.ras.ringCount < 64) ∧
    (∃ (s : State) (w : Word64), FAB_PROBE_SEL_PORT.of w ≤ 5 ∧ FAB_PROBE_SEL_NET.of w ≠ 3 ∧
      s.inGrid (FAB_PROBE_SEL_X.of w) (FAB_PROBE_SEL_Y.of w) = true ∧ (FAB_PROBE_SEL_PORT.of w = 4 →
      s.tapAt (FAB_PROBE_SEL_X.of w) (FAB_PROBE_SEL_Y.of w) ≠ none)) ∧
    (∃ (s : State) (w : Word64), s.storesWf ∧ (5 < FAB_PROBE_SEL_PORT.of w ∨ FAB_PROBE_SEL_NET.of w = 3 ∨
      s.inGrid (FAB_PROBE_SEL_X.of w) (FAB_PROBE_SEL_Y.of w) = false ∨ (FAB_PROBE_SEL_PORT.of w = 4 ∧
      s.tapAt (FAB_PROBE_SEL_X.of w) (FAB_PROBE_SEL_Y.of w) = none))) :=
  ⟨⟨wC { cOn with active := plRoute, box := { Box.idle with queues := [(qkey .v .n, [wU true true 0])] } }, 3, 5, .v, .e, .n,
    wU true true 0, wEntry, by
      unfold State.works
      refine ⟨?_, rfl, ?_, ?_⟩ <;> decide +kernel⟩,
   ⟨wC cOn, 3, 5, .v, .e, by
      unfold State.works
      refine ⟨?_, rfl, ?_, ?_⟩ <;> decide +kernel⟩,
   ⟨wC { cOn with active := plRoute, box := { Box.idle with queues := [(qkey .v .n, [wU true true 0])] } }, 3, 5, .v, .n, wU true true 0,
     wEntry, by decide +kernel⟩,
   ⟨wRun, 3, 5, 4, 5, .w, .e, by decide +kernel⟩,
   ⟨wC { cOn with steer0 := { cOn.steer0 with outgoing := [(.v, wU true true 0)] } }, 3, 5, false, .v, wU true true 0, [], by
      unfold State.works
      refine ⟨?_, rfl, ?_⟩ <;> decide +kernel⟩,
   ⟨fun _ => some .v, .v, by decide +kernel⟩,
   ⟨fun _ => some .v, .v, by decide +kernel⟩,
   ⟨fun _ => some .v, .v, by decide +kernel⟩,
   ⟨fun _ => some .v, .v, by decide +kernel⟩,
   ⟨fun _ => some .v, .v, by decide +kernel⟩,
   ⟨(⟨.v, 0, some 3, some 1, some 2, []⟩ : SteerAct), 2, 3, by decide +kernel⟩,
   ⟨wC cOn, 3, 5, by unfold State.storesWf State.works; decide +kernel⟩,
   ⟨wRun, wd [(FAB_PROBE_SEL_X, 3), (FAB_PROBE_SEL_PORT, 3), (FAB_PROBE_SEL_NET, 2)], by decide +kernel⟩,
   ⟨wRun, wd [(FAB_PROBE_SEL_PORT, 6)], by unfold State.storesWf; decide +kernel⟩⟩

/-- The hypotheses of the clauses of `Obligations.GraftLoads` hold together somewhere. -/
theorem wit_GraftLoads :
    (∃ (s : State), s.storesWf ∧ s.loading = false ∧ s.swapPending = false) ∧
    (∃ (s : State), s.storesWf ∧ (s.loading = true ∨ s.swapPending = true)) ∧
    (∃ (s : State), s.storesWf ∧ s.loading = true) ∧
    (∃ (s : State), s.loading = false) ∧
    (∃ (s : State) (bytes : List Byte), s.graft.load = .staging ∧ s.inRun = true ∧ s.canMaster = true ∧
      bytes.length = s.f GRAFT_SRC_LEN_LEN) ∧
    (∃ (s : State), s.graft.load = .staging ∧ s.ras.ringCount < 64) ∧
    (∃ (s : State) (g : Option (Graft × List Section)) (v : Option (Nat × Nat × Nat)), s.graft.load = .verifying ∧ s.noInjection ∧
      graftOf s.graft.bytes (s.f GRAFT_SRC_LEN_LEN) = g ∧ s.graftCheck g (graftFails s.graft.bytes ((g.map (·.2)).getD [])) = v) ∧
    (∃ (sig : Nat), sig ≠ 0) ∧
    (∃ (s : State) (a : Graft), (a.owner ≠ s.ownerHash ∨ s.owner ≠ 1 ∨ a.svn < s.rollback a.rollbackIdx)) :=
  ⟨⟨wRun, by unfold State.storesWf; decide +kernel⟩,
   ⟨wLoad .staging, by unfold State.storesWf; decide +kernel⟩,
   ⟨wLoad .broadcast, by unfold State.storesWf; decide +kernel⟩,
   ⟨wRun, by decide +kernel⟩,
   ⟨wF (wLoadH .staging) GRAFT_SRC_LEN_LEN 3, [1, 2, 3], by decide +kernel⟩,
   ⟨wLoad .staging, by decide +kernel⟩,
   ⟨wLoad .verifying, graftOf (wLoad .verifying).graft.bytes ((wLoad .verifying).f GRAFT_SRC_LEN_LEN),
     (wLoad .verifying).graftCheck (graftOf (wLoad .verifying).graft.bytes ((wLoad .verifying).f GRAFT_SRC_LEN_LEN)) (graftFails (wLoad .verifying).graft.bytes (((graftOf (wLoad .verifying).graft.bytes ((wLoad .verifying).f GRAFT_SRC_LEN_LEN)).map (·.2)).getD [])), by
      unfold State.noInjection
      refine ⟨?_, ?_, rfl, rfl⟩ <;> decide +kernel⟩,
   ⟨1, by decide +kernel⟩,
   ⟨wRun, { wGraft with owner := [1] }, by decide +kernel⟩⟩

/-- The hypotheses of the clauses of `Obligations.BroadcastAndSwap` hold together somewhere. -/
theorem wit_BroadcastAndSwap :
    (∃ (s : State) (tap : Nat) (g : Graft) (b : LoadBeat), s.storesWf ∧ s.graft.load = .broadcast ∧ s.tapEnabled tap = true ∧
      s.graft.parsed = some g ∧ s.graft.refill = false ∧ (s.tapBeats g tap)[sget 0 s.graft.pos tap]? = some b ∧ s.domain (tap / 8) = .on) ∧
    (∃ (s : State) (tap : Nat) (g : Graft) (b : LoadBeat), s.graft.load = .broadcast ∧ s.tapEnabled tap = true ∧ s.graft.parsed = some g ∧
      s.graft.refill = false ∧ (s.tapBeats g tap)[sget 0 s.graft.pos tap]? = some b ∧ s.domain (tap / 8) = .off) ∧
    (∃ (s : State) (g : Graft), s.storesWf ∧ s.graft.load = .broadcast ∧ s.graft.parsed = some g ∧ s.allBeats g = true ∧
      s.graft.refill = false ∧ g.swapRing = 0) ∧
    (∃ (s : State) (g : Graft), s.graft.load = .broadcast ∧ s.graft.parsed = some g ∧ s.allBeats g = true ∧ s.graft.refill = false ∧
      g.swapRing ≠ 0 ∧ ringBefore s.now g.swapRing = true ∧ s.lead ≤ ringsTo s.now g.swapRing) ∧
    (∃ (s : State) (g : Graft), s.storesWf ∧ s.graft.armed = some s.now ∧ s.swapStop = none ∧ s.graft.shadow = some g ∧ g.strict = false) ∧
    (∃ (s : State) (code : Nat), s.graft.armed = some s.now ∧ s.swapStop = some code) ∧
    (∃ (c : Cell) (a : Nat), c.mem.bytes.wf = true ∧ residentIn c.active c.shadow a = false) :=
  ⟨⟨wLoadG .broadcast wGraftT, 0, wGraftT, wGraftT.beats.headD ⟨[], .credit 0⟩, by unfold State.storesWf; decide +kernel⟩,
   ⟨{ wLoadG .broadcast wGraftT with power := { wRun.power with domains := [] } }, 0, wGraftT, wGraftT.beats.headD ⟨[], .credit 0⟩,
     by decide +kernel⟩,
   ⟨wLoadG .broadcast wGraft, wGraft, by unfold State.storesWf; decide +kernel⟩,
   ⟨wLoadG .broadcast { wGraft with swapRing := ringAdd 100 wRun.lead }, { wGraft with swapRing := ringAdd 100 wRun.lead },
     by decide +kernel⟩,
   ⟨{ wRun with graft := { GraftUnit.reset with load := .loaded, shadow := some wGraft, armed := some 100 } }, wGraft,
     by unfold State.storesWf; decide +kernel⟩,
   ⟨{ wRun with graft := { GraftUnit.reset with load := .loaded, shadow := some { wGraft with unusable := true }, armed := some 100 } }, 5,
     by decide +kernel⟩,
   ⟨{ cOn with mem := { MemUnit.empty with bytes := [(16, 7)] } }, 16, by decide +kernel⟩⟩

/-- The hypotheses of the clauses of `Obligations.JobAdmission` hold together somewhere. -/
theorem wit_JobAdmission :
    (∃ (s : State) (h : PostHeader), s.storesWf ∧ s.f JOB_CTRL_ENABLE = 1 ∧ s.now % s.f JOB_CTRL_POLL_INTERVAL = 0 ∧ s.boot.stage = 31 ∧
      s.power.state ≠ .off ∧ s.canMaster = true ∧ s.job.held = [] ∧ s.power.fetchStop = false ∧ s.modl.hold = false ∧
      h.magic = 0x54534F50 ∧ h.version = 1 ∧ h.publish = s.job.m + 1 ∧ s.job.m < h.reaped + 256 ∧ h.reaped ≤ s.job.k ∧
      s.job.queue.length < 16) ∧
    (∃ (s : State) (h : PostHeader), s.storesWf ∧ s.f JOB_CTRL_ENABLE = 1 ∧ s.now % s.f JOB_CTRL_POLL_INTERVAL = 0 ∧ s.boot.stage = 31 ∧
      s.power.state ≠ .off ∧ s.canMaster = true ∧ s.job.held = [] ∧ s.power.fetchStop = false ∧ s.modl.hold = false ∧
      (h.magic ≠ 0x54534F50 ∨ h.version ≠ 1 ∨ h.publish < s.job.m ∨ s.job.k < h.reaped)) ∧
    (∃ (s : State) (c : Completion) (rest : List Completion), s.storesWf ∧ s.job.outbox = c :: rest ∧ s.canMaster = true ∧
      s.job.held = []) ∧
    (∃ (s : State) (c : Completion) (rest : List Completion), s.job.outbox = c :: rest ∧ s.canMaster = false ∧ s.job.held.length < 256) ∧
    (∃ (s : State), s.storesWf ∧ s.f JOB_CTRL_ENABLE = 0) ∧
    (∃ (s : State), s.storesWf ∧ s.f JOB_CTRL_ENABLE = 1) ∧
    (∃ (s : State) (id : Nat) (j : Job), s.job.cur = some j ∧ j.desc.jobId = id ∧ id < 2 ^ 32 ∧ j.abort = none) ∧
    (∃ (s : State) (id : Nat) (j : Job), s.job.cur = none ∧ id < 2 ^ 32 ∧ s.job.queue.find? (fun j => j.desc.jobId == id) = some j) :=
  ⟨⟨wPost, (⟨0x54534F50, 1, 1, 0⟩ : PostHeader), by unfold State.storesWf; decide +kernel⟩,
   ⟨wPost, (⟨0, 1, 1, 0⟩ : PostHeader), by unfold State.storesWf; decide +kernel⟩,
   ⟨{ wPost with job := { JobUnit.reset with outbox := [wDone] } }, wDone, [], by unfold State.storesWf; decide +kernel⟩,
   ⟨{ wRun with job := { JobUnit.reset with outbox := [wDone], held := List.replicate 255 wDone } }, wDone, [], by decide +kernel⟩,
   ⟨wRun, by unfold State.storesWf; decide +kernel⟩,
   ⟨wPost, by unfold State.storesWf; decide +kernel⟩,
   ⟨wJobS wJ, 3, wJ, by decide +kernel⟩,
   ⟨wQueue wJ, 3, wJ, by decide +kernel⟩⟩

/-- The hypotheses of the clauses of `Obligations.JobPreparation` hold together somewhere. -/
theorem wit_JobPreparation :
    (∃ (s s1 : State) (j : Job) (rest : List Job) (sw : Bool), s1 = (if s.jobOn then s else s.shiftBands) ∧ s.job.queue = j :: rest ∧
      s.now = j.p ∧ s1.edgeRefusal j = (none, sw)) ∧
    (∃ (s s1 : State) (j : Job) (rest : List Job) (r : Nat) (sw : Bool), s1 = (if s.jobOn then s else s.shiftBands) ∧
      s.job.queue = j :: rest ∧ s.now = j.p ∧ s1.edgeRefusal j = (some r, sw) ∧ (r ≠ 4 ∨ sw = false)) ∧
    (∃ (c : Cell), c.mem.bytes.wf = true) ∧
    (∃ (s s1 : State) (j : Job) (n : Nat) (r : Option (Nat × Nat × FaultCode × Nat)), s.storesWf ∧ s.job.cur = some j ∧
      j.stage = .preparing ∧ j.building = true ∧ ringBefore s.now (ringAdd j.p j.z) = false ∧
      State.buildAll ((s.graft.active.map (·.sched.xposes)).getD []) s = (s1, n, r) ∧ s1.job.cur = some j) ∧
    (∃ (s : State) (j : Job), s.job.cur = some j ∧ j.stage = .preparing ∧ s.now = j.s ∧ s.stepAllowed = true ∧ s.reenacts = false ∧
      j.building = false ∧ j.desc.stores = false ∧ s.stream.opens = [] ∧ s.graft.active = none) ∧
    (∃ (s : State) (j : Job), s.job.cur = some j ∧ j.stage = .preparing ∧ s.now = j.s ∧ s.stepAllowed = true ∧ j.building = true) ∧
    (∃ (s : State) (j : Job), s.job.cur = some j ∧ j.stage = .preparing ∧ s.now = j.s ∧ s.stepAllowed = false) :=
  ⟨⟨wQueue { wJ with p := 100 }, State.shiftBands (wQueue { wJ with p := 100 }), { wJ with p := 100 }, [], false, by
      refine ⟨rfl, ?_, ?_, ?_⟩ <;> decide +kernel⟩,
   ⟨{ wQueue { wJ with p := 100 } with ring := { rLock with emergHold := true } },
     State.shiftBands { wQueue { wJ with p := 100 } with ring := { rLock with emergHold := true } }, { wJ with p := 100 }, [], 5, false, by
      refine ⟨rfl, ?_, ?_, ?_, ?_⟩ <;> decide +kernel⟩,
   ⟨{ cOn with mem := { MemUnit.empty with bytes := [(16, 7)] } }, by decide +kernel⟩,
   ⟨wJobS ({ wJ with stage := .preparing, building := true }), wJobS ({ wJ with stage := .preparing, building := true }),
     { wJ with stage := .preparing, building := true }, 0, none, by
      unfold State.storesWf
      refine ⟨?_, ?_, ?_, ?_, ?_, rfl, ?_⟩ <;> decide +kernel⟩,
   ⟨wJobS { wJ with stage := .preparing, s := 100 }, { wJ with stage := .preparing, s := 100 }, by decide +kernel⟩,
   ⟨wJobS { wJ with stage := .preparing, s := 100, building := true }, { wJ with stage := .preparing, s := 100, building := true },
     by decide +kernel⟩,
   ⟨{ wJobS { wJ with stage := .preparing, s := 100 } with ring := { rLock with lock := .unlocked } },
     { wJ with stage := .preparing, s := 100 }, by decide +kernel⟩⟩

/-- The hypotheses of the clauses of `Obligations.StepsAndCommit` hold together somewhere. -/
theorem wit_StepsAndCommit :
    (∃ (s : State) (j : Job), s.running = some j ∧ j.nextPhase s.now = some .gate ∧ j.misses = [] ∧ s.job.groups = []) ∧
    (∃ (s : State) (j : Job), s.running = some j ∧ j.nextPhase s.now = some .update ∧ s.job.ckpt = none) ∧
    (∃ (s : State) (j : Job), s.running = some j ∧ j.nextPhase s.now = some .work ∧ s.modl.hold = false ∧ j.abort = none ∧
      s.stepAllowed = true ∧ s.reenacts = false ∧ s.graft.active = none ∧ s.job.ckpt = none ∧ j.desc.binding 3 = none) ∧
    (∃ (s : State) (j : Job) (r a : Nat), s.running = some j ∧ j.nextPhase s.now = some .work ∧ s.modl.hold = false ∧ j.abort = some (r,
      a) ∧ ringBefore a s.now = true ∧ s.reenacts = false ∧ s.graft.active = none) ∧
    (∃ (s : State), s.running = none) ∧
    (∃ (s : State) (j : Job), s.running = some j ∧ s.noInjection ∧ s.now = ringAdd j.commitRing 1 ∧ j.stepCommitted = false ∧
      j.phase = .gate ∧ j.deadDeclared = false ∧ j.blocked = false ∧ s.journal.replaying = false ∧ s.reenacts = false ∧
      (∀ p ∈ s.job.groups, ∀ i ∈ p.2.items, i.st = .clean ∨ i.st = .resolved ∨ i.st = .skipped)) ∧
    (∃ (s : State) (j : Job), s.running = some j ∧ s.noInjection ∧ s.now = ringAdd j.commitRing 1 ∧ j.stepCommitted = false ∧
      j.phase = .gate ∧ j.deadDeclared = false ∧ j.blocked = true ∧ s.journal.replaying = false ∧ s.reenacts = false ∧ s.job.groups = []) ∧
    (∃ (s : State) (j : Job), s.running = some j ∧ s.now = ringAdd j.plannedLast 1 ∧ j.finalStep = true ∧ j.stepCommitted = true ∧
      s.reenacts = false ∧ s.modl.hold = false ∧ (j.phase = .update → s.refreshCopies = s) ∧ s.job.ckpt = none ∧ j.desc.binding 3 = none) :=
  ⟨⟨wJobS { wJ with phase := .work, s := 95 }, { wJ with phase := .work, s := 95 }, by decide +kernel⟩,
   ⟨wJobS ({ wJ with stepCommitted := true, desc := { wDesc with updateStrides := 1 } }),
     { wJ with stepCommitted := true, desc := { wDesc with updateStrides := 1 } }, by decide +kernel⟩,
   ⟨wJobS { wJ with stepCommitted := true, desc := { wDesc with steps := 2 } },
     { wJ with stepCommitted := true, desc := { wDesc with steps := 2 } }, by decide +kernel⟩,
   ⟨wJobS { wJ with stepCommitted := true, abort := some (1, 99), desc := { wDesc with steps := 2 } },
     { wJ with stepCommitted := true, abort := some (1, 99), desc := { wDesc with steps := 2 } }, 1, 99, by decide +kernel⟩,
   ⟨State.reset, by decide +kernel⟩,
   ⟨wJobS wJ, wJ, by unfold State.noInjection; decide +kernel⟩,
   ⟨wJobS { wJ with blocked := true }, { wJ with blocked := true }, by unfold State.noInjection; decide +kernel⟩,
   ⟨wJobS { wJ with stepCommitted := true }, { wJ with stepCommitted := true }, by decide +kernel⟩⟩

/-- The hypotheses of the clauses of `Obligations.ClaimsAndVotes` hold together somewhere. -/
theorem wit_ClaimsAndVotes :
    (∃ (s : State) (cx cy x y g rank : Nat) (j : Job) (c : ClaimRec), s.storesWf ∧ s.inGrid cx cy = true ∧ s.noInjection ∧
      s.running = some j ∧ s.groupAt cx cy = some g ∧ s.claimRec g = some c ∧ c.set.rank x y = some rank ∧ j.phase.claims = true ∧
      j.coppice s.reenacts = false ∧ (s.group g).stopped = [] ∧ s.rankOut g c rank = false ∧ s.journal.replaying = false ∧
      (s.group g).v < c.tiles ∧ tileSampled j.desc g j.step (tileOf c.order (s.tileGrid c).1 (s.tileGrid c).2 (s.group g).v) = false) ∧
    (∃ (s : State) (cx cy x y g rank : Nat) (j : Job) (c : ClaimRec), s.inGrid cx cy = true ∧ s.noInjection ∧ s.running = some j ∧
      s.groupAt cx cy = some g ∧ s.claimRec g = some c ∧ c.set.rank x y = some rank ∧ j.phase.claims = true ∧
      j.coppice s.reenacts = false ∧ (s.group g).stopped = [] ∧ s.rankOut g c rank = false ∧ s.journal.replaying = false ∧
      c.tiles ≤ (s.group g).v ∧ (s.group g).v < c.tiles + c.set.size) ∧
    (∃ (s : State) (cx cy x y g rank : Nat) (j : Job) (c : ClaimRec), s.inGrid cx cy = true ∧ s.noInjection ∧ s.running = some j ∧
      s.groupAt cx cy = some g ∧ s.claimRec g = some c ∧ c.set.rank x y = some rank ∧ j.phase.claims = true ∧
      j.coppice s.reenacts = false ∧ (s.group g).stopped = [] ∧ s.rankOut g c rank = false ∧ s.journal.replaying = false ∧
      c.tiles + c.set.size ≤ (s.group g).v) ∧
    (∃ (s : State) (x y g k w0 w1 : Nat) (c : ClaimRec), s.works x y ∧ (s.cell x y).pairAt 6 = some (w0, w1) ∧ s.groupOf x y = some g ∧
      (claimReplyOf w0 w1).exhausted = true ∧ s.claimRec g = some c ∧ c.set.rank x y = some k) ∧
    (∃ (s : State) (x y g w0 w1 : Nat), s.storesWf ∧ s.works x y ∧ (s.cell x y).pairAt 6 = some (w0, w1) ∧ s.groupOf x y = some g ∧
      (claimReplyOf w0 w1).exhausted = false ∧ (claimReplyOf w0 w1).sampled = false ∧ (claimReplyOf w0 w1).check = false ∧
      (claimReplyOf w0 w1).vote = false ∧ (s.cell x y).comp.tile.work = none ∧ (s.cell x y).comp.queueWork = []) ∧
    (∃ (s : State) (g tile h : Nat) (i : GateItem) (c : ClaimRec), s.gateItem g tile = some i ∧ s.claimRec g = some c ∧ i.st = .checking ∧
      i.ownerHash = some h ∧ i.checkHash = some h) ∧
    (∃ (s : State) (g tile a b : Nat) (i : GateItem) (c : ClaimRec) (j : Job), s.gateItem g tile = some i ∧ s.claimRec g = some c ∧
      s.running = some j ∧ j.stepCommitted = false ∧ i.st = .checking ∧ i.ownerHash = some a ∧ i.checkHash = some b ∧ a ≠ b ∧
      s.ras.ringCount < 64) ∧
    (∃ (s : State) (g tile h r1 r2 v1 v2 k : Nat) (i : GateItem) (c : ClaimRec), s.gateItem g tile = some i ∧ s.claimRec g = some c ∧
      i.st = .suspect ∧ i.ownerHash = some h ∧ i.votes = [v1, v2] ∧ i.voteHashes = [(r1, h), (r2, h)] ∧ i.checker = some k ∧
      (s.group g).withdrawn = []) :=
  ⟨⟨wClaims 3 [], 3, 5, 3, 0, 0, 3, { wJ with phase := .work }, wClaim, by unfold State.storesWf State.noInjection; decide +kernel⟩,
   ⟨wClaims 7 [], 3, 5, 0, 0, 0, 0, { wJ with phase := .work }, wClaim, by unfold State.noInjection; decide +kernel⟩,
   ⟨wClaims 8 [], 3, 5, 0, 0, 0, 0, { wJ with phase := .work }, wClaim, by unfold State.noInjection; decide +kernel⟩,
   ⟨wAnswer (2 ^ 31), 3, 0, 0, 3, 6, 2 ^ 31, wClaim, by unfold State.works; decide +kernel⟩,
   ⟨wAnswer 2, 3, 0, 0, 6, 2, by unfold State.storesWf State.works; decide +kernel⟩,
   ⟨wClaims 4 [wItem (some 9) (some 9)], 0, 2, 9, wItem (some 9) (some 9), wClaim, by decide +kernel⟩,
   ⟨wClaims 4 [wItem (some 9) (some 8)], 0, 2, 9, 8, wItem (some 9) (some 8), wClaim, { wJ with phase := .work }, by decide +kernel⟩,
   ⟨wClaims 4 [wVote], 0, 2, 9, 0, 3, 0, 3, 2, wVote, wClaim, by decide +kernel⟩⟩

/-- The hypotheses of the clauses of `Obligations.EdgeLinks` hold together somewhere. -/
theorem wit_EdgeLinks :
    (∃ (s : State) (p : Nat), s.storesWf ∧ s.portEnabled p = true) ∧
    (∃ (s : State) (p : Nat), s.storesWf ∧ s.portEnabled p = true ∧ (s.port p).link0 = .disabled ∧ (s.port p).split = false) ∧
    (∃ (s : State) (p : Nat), s.portEnabled p = false) ∧
    (∃ (s : State) (p : Nat), s.storesWf ∧ s.portEnabled p = true ∧ (s.port p).present = false ∧ (s.port p).link0 = .detect ∧
      (s.port p).split = false) ∧
    (∃ (s : State) (p : Nat), s.storesWf ∧ s.portEnabled p = true ∧ (s.port p).present = true ∧ (s.port p).link0 ≠ .disabled) ∧
    (∃ (s : State) (p : Nat) (h : Bool), s.storesWf ∧ (s.port p).link h = .negotiate) ∧
    (∃ (s : State) (p : Nat) (h : Bool), s.storesWf ∧ s.noInjection ∧ (s.port p).link h = .train) ∧
    (∃ (s : State) (p : Nat) (h : Bool) (c : Instr), s.storesWf ∧ (((s.port p).link h = .negotiate ∧ c = .negotiationTimeout p h) ∨
      ((s.port p).link h = .train ∧ c = .trainTimeout p h))) ∧
    (∃ (s : State) (p : Nat) (h : Bool) (c : Instr), s.storesWf ∧ (((s.port p).link h = .negotiate ∧ c = .negotiationTimeout p h) ∨
      ((s.port p).link h = .train ∧ c = .trainTimeout p h))) ∧
    (∃ (s : State) (p : Nat) (h : Bool), s.storesWf ∧ (s.port p).link h = .up ∧ s.ras.ringCount < 64) ∧
    (∃ (s : State), s.storesWf) ∧
    (∃ (s : State) (p : Nat), s.storesWf ∧ (s.port p).auxOn = true ∧ (s.port p).split = false ∧ s.ras.ringCount < 64) ∧
    (∃ (s : State) (p : Nat), s.storesWf ∧ s.portEnabled p = true) :=
  ⟨⟨wPort (wLink .up true), 7, by unfold State.storesWf; decide +kernel⟩,
   ⟨wPort (wLink .disabled true), 7, by unfold State.storesWf; decide +kernel⟩,
   ⟨wRun, 72, by decide +kernel⟩,
   ⟨wPort (wLink .detect false), 7, by unfold State.storesWf; decide +kernel⟩,
   ⟨wPort (wLink .up true), 7, by unfold State.storesWf; decide +kernel⟩,
   ⟨wPort (wLink .negotiate true), 7, false, by unfold State.storesWf; decide +kernel⟩,
   ⟨wPort (wLink .train true), 7, false, by unfold State.storesWf State.noInjection; decide +kernel⟩,
   ⟨wPort (wLink .train true), 7, false, .trainTimeout 7 false, by unfold State.storesWf; decide +kernel⟩,
   ⟨wPort (wLink .negotiate false), 7, false, .negotiationTimeout 7 false, by unfold State.storesWf; decide +kernel⟩,
   ⟨wPort (wLink .up true), 7, false, by unfold State.storesWf; decide +kernel⟩,
   ⟨wPort (wLink .up true), by unfold State.storesWf; decide +kernel⟩,
   ⟨wPort { wLink .up true with auxOn := true }, 7, by unfold State.storesWf; decide +kernel⟩,
   ⟨wPort { wLink .up true with epoch := 65535 }, 7, by unfold State.storesWf; decide +kernel⟩⟩

/-- The hypotheses of the clauses of `Obligations.FramesArrive` hold together somewhere. -/
theorem wit_FramesArrive :
    (∃ (s : State) (p : Nat) (h : Bool) (bs : List Byte), s.storesWf ∧ p < 72 ∧ (s.port p).link h = .up ∧ s.limbOn (limbOfPort p) = true ∧
      (rawFrame bs).fcsOk = false) ∧
    (∃ (s : State) (p i : Nat) (h : Bool) (bs : List Byte), s.storesWf ∧ s.noInjection ∧ s.frameHits p h bs i ∧
      (s.ses i).openBody (rawFrame bs).body = none ∧ (s.ses i).tagFails + 1 < s.f SAP_CONFIG_TAGFAIL_LIMIT) ∧
    (∃ (s : State) (p i : Nat) (h : Bool) (bs : List Byte), s.storesWf ∧ s.noInjection ∧ s.frameHits p h bs i ∧
      (s.ses i).openBody (rawFrame bs).body = none ∧ s.f SAP_CONFIG_TAGFAIL_LIMIT ≤ (s.ses i).tagFails + 1) ∧
    (∃ (s : State) (p i : Nat) (h : Bool) (bs : List Byte) (f : Frame), s.storesWf ∧ s.noInjection ∧ s.frameOpens p h bs i f ∧
      s.roleOk i = true ∧ f.typ ≠ 10 ∧ f.ackValid = false ∧ f.seq = (s.ses i).expect % 2 ^ 32 ∧ 1 ≤ s.f SAP_CONFIG_RX_WINDOW ∧
      s.poolRoom p h f = true ∧ (s.ses i).held = [] ∧ f.accepted = true ∧ (f.cls ≠ 0 ∨ f.deadline = 0) ∧ s.journal.replaying = false ∧
      s.reenacts = false) ∧
    (∃ (s : State) (p i : Nat) (h : Bool) (bs : List Byte) (f : Frame), s.storesWf ∧ s.noInjection ∧ s.frameOpens p h bs i f ∧
      s.roleOk i = true ∧ f.typ ≠ 10 ∧ f.ackValid = false ∧ nearestCount (s.ses i).expect f.seq < (s.ses i).expect) ∧
    (∃ (s : State) (p i : Nat) (h : Bool) (bs : List Byte) (f : Frame) (k : List Byte × List Byte), s.storesWf ∧ s.noInjection ∧
      s.frameOpens p h bs i f ∧ (s.ses i).keys = some k ∧ s.roleOk i = true ∧ f.typ ≠ 10 ∧ f.ackValid = false ∧
      (s.ses i).expect < nearestCount (s.ses i).expect f.seq ∧
      nearestCount (s.ses i).expect f.seq < (s.ses i).expect + s.f SAP_CONFIG_RX_WINDOW ∧ (s.ses i).held = [] ∧ s.poolRoom p h f = true) ∧
    (∃ (s : State) (p i : Nat) (h : Bool) (bs : List Byte) (f : Frame), s.storesWf ∧ s.noInjection ∧ s.frameOpens p h bs i f ∧
      s.roleOk i = true ∧ f.typ ≠ 10 ∧ f.ackValid = false ∧ (s.ses i).held = [] ∧
      (s.ses i).expect + s.f SAP_CONFIG_RX_WINDOW ≤ nearestCount (s.ses i).expect f.seq) :=
  ⟨⟨wPort (wLink .up true), 7, false, [1, 2, 3, 4, 5], by unfold State.storesWf; decide +kernel⟩,
   ⟨wSap { wSess with keys := none }, 7, 5, false, wEth (wFrame.clear), by
      unfold State.storesWf State.noInjection State.frameHits
      refine ⟨?_, ?_, ?_, rfl, ?_⟩ <;> decide +kernel⟩,
   ⟨wSap { wSess with tagFails := 65535, keys := none }, 7, 5, false, wEth (wFrame.clear), by
      unfold State.storesWf State.noInjection State.frameHits
      refine ⟨?_, ?_, ?_, rfl, ?_⟩ <;> decide +kernel⟩,
   ⟨wExp (2 ^ 32 - 1), 7, 5, false, wEth wBody, wFrame, by
      unfold State.storesWf State.noInjection
      refine ⟨?_, ?_, wOpens (by decide +kernel) (by decide +kernel), ?_, ?_, ?_, ?_, ?_, ?_, by decide +kernel, ?_, ?_, ?_, ?_⟩ <;> decide +kernel⟩,
   ⟨wExp (2 ^ 32), 7, 5, false, wEth wBody, wFrame, by
      unfold State.storesWf State.noInjection
      refine ⟨?_, ?_, wOpens (by decide +kernel) (by decide +kernel), ?_, ?_, ?_, ?_⟩ <;> decide +kernel⟩,
   ⟨wExp (2 ^ 32 - 2), 7, 5, false, wEth wBody, wFrame, (wKey, wKey), by
      unfold State.storesWf State.noInjection
      refine ⟨?_, ?_, wOpens (by decide +kernel) (by decide +kernel), ?_, ?_, ?_, ?_, ?_, ?_, ?_, ?_⟩ <;> decide +kernel⟩,
   ⟨wExp (2 ^ 32 - 1 - wRun.f SAP_CONFIG_RX_WINDOW), 7, 5, false, wEth wBody, wFrame, by
      unfold State.storesWf State.noInjection
      refine ⟨?_, ?_, wOpens (by decide +kernel) (by decide +kernel), ?_, ?_, ?_, ?_, ?_⟩ <;> decide +kernel⟩⟩

/-- The hypotheses of the clauses of `Obligations.FramesLeave` hold together somewhere. -/
theorem wit_FramesLeave :
    (∃ (s : State) (p i : Nat) (h : Bool) (q : TxFrame) (k : List Byte × List Byte), s.storesWf ∧ (s.port p).link h = .up ∧
      s.limbOn (limbOfPort p) = true ∧ s.nextFrame p h Frame.reserve = some (i, q) ∧ q.req = none ∧ (s.ses i).port = p ∧
      (s.ses i).half = h ∧ (s.ses i).keys = some k ∧ q.frame.typ ≠ 1) ∧
    (∃ (s : State) (p : Nat) (h : Bool), (s.port p).link h ≠ .up) ∧
    (∃ (s : State) (i : Nat) (k : List Byte × List Byte), s.storesWf ∧ s.isLive i = true ∧ s.limbOn (limbOfPort (s.ses i).port) = true ∧
      (s.ses i).ackDue = true ∧ (s.ses i).keys = some k) ∧
    (∃ (s : State) (i : Nat) (k : List Byte × List Byte), s.storesWf ∧ s.isLive i = true ∧ s.limbOn (limbOfPort (s.ses i).port) = true ∧
      (s.ses i).held ≠ [] ∧ (s.ses i).keys = some k) ∧
    (∃ (s : State) (i : Nat) (f : Frame) (rest : List Frame), s.storesWf ∧ s.isLive i = true ∧
      s.limbOn (limbOfPort (s.ses i).port) = true ∧ (s.ses i).acks = f :: rest ∧ f.ackValid = true ∧ f.nak = false ∧ f.late = false) ∧
    (∃ (s : State) (i : Nat) (u : TxFrame) (rest : List TxFrame) (k : List Byte × List Byte), s.storesWf ∧ s.isLive i = true ∧
      s.limbOn (limbOfPort (s.ses i).port) = true ∧ (s.ses i).unacked = u :: rest ∧ (s.ses i).keys = some k ∧ u.frame.due = none ∧
      u.frame.attempt < s.f SAP_CONFIG_RETX_LIMIT ∧ u.frame.attempt < 7) ∧
    (∃ (s : State) (i : Nat) (u : TxFrame) (rest : List TxFrame), s.storesWf ∧ s.isLive i = true ∧
      s.limbOn (limbOfPort (s.ses i).port) = true ∧ (s.ses i).unacked = u :: rest ∧ u.frame.due = none ∧
      s.f SAP_CONFIG_RETX_LIMIT ≤ u.frame.attempt ∧ s.ras.ringCount < 64) ∧
    (∃ (s : State) (i n d : Nat) (u : TxFrame), s.storesWf ∧ s.isLive i = true ∧ s.running = none ∧
      (s.ses i).unacked.find? (fun v => v.count == n) = some u ∧ u.frame.due = some d ∧ u.frame.cls = 0 ∧ u.raised = false ∧
      ringBefore (ringAdd d 1) s.now = true ∧ s.ras.ringCount < 64 ∧
      s.ras.log.any (fun r => r.cls == .deadlineMiss && r.code == 1 && r.src == .session i && r.ring == ringAdd d 1) = false) :=
  ⟨⟨wSap { wSess with queue := [wTx (wCtl 9)] }, 7, 5, false, wTx (wCtl 9), (wKey, wKey), by unfold State.storesWf; decide +kernel⟩,
   ⟨wRun, 7, false, by decide +kernel⟩,
   ⟨wSap { wSess with ackDue := true }, 5, (wKey, wKey), by unfold State.storesWf; decide +kernel⟩,
   ⟨wSap { wSess with held := [(2 ^ 32, wFrame)] }, 5, (wKey, wKey), by unfold State.storesWf; decide +kernel⟩,
   ⟨wSap { wSess with txNext := 2 ^ 32 + 3, unacked := [{ wTx wFrame with count := 2 ^ 32 }, { wTx wFrame with count := 2 ^ 32 + 1 }], acks := [{ wCtl 8 with ackValid := true, ack := 1, credit := 64 }] }, 5, { wCtl 8 with ackValid := true, ack := 1, credit := 64 }, [], by unfold State.storesWf; decide +kernel⟩,
   ⟨wSap { wSess with unacked := [wTx wFrame] }, 5, wTx wFrame, [], (wKey, wKey), by unfold State.storesWf; decide +kernel⟩,
   ⟨wSap { wSess with unacked := [wTx { wFrame with attempt := 7 }] }, 5, wTx { wFrame with attempt := 7 }, [],
     by unfold State.storesWf; decide +kernel⟩,
   ⟨wSap { wSess with unacked := [wTx { wFrame with cls := 0, stamp := 90, deadline := 8 }] }, 5, 0, 98,
     wTx { wFrame with cls := 0, stamp := 90, deadline := 8 }, by unfold State.storesWf; decide +kernel⟩⟩

/-- The hypotheses of the clauses of `Obligations.SapRequests` hold together somewhere. -/
theorem wit_SapRequests :
    (∃ (s : State) (tap : Nat) (hd ad : NetUnit) (body : List NetUnit), s.storesWf ∧ (s.tap tap).func = 2 ∧ s.tapEnabled tap = true ∧
      s.limbOn (limbOfTap tap) = true ∧ s.alone = false ∧ firstMessage (s.tap tap).bufV = some (hd :: ad :: body) ∧
      (vHead hd.data).kind = 0 ∧ (vHead hd.data).peer = true ∧ (addrFlit ad.data).op = 1 ∧ (addrFlit ad.data).cls = 1 ∧
      s.isOpen (vHead hd.data).session = true ∧ s.roleOk (vHead hd.data).session = true ∧ (s.ses (vHead hd.data).session).queue = []) ∧
    (∃ (s : State) (tap g : Nat) (hd ad : NetUnit) (body : List NetUnit), s.storesWf ∧ s.noInjection ∧ (s.tap tap).func = 2 ∧
      s.tapEnabled tap = true ∧ s.limbOn (limbOfTap tap) = true ∧ s.alone = false ∧
      firstMessage (s.tap tap).bufV = some (hd :: ad :: body) ∧ (vHead hd.data).kind = 0 ∧ (vHead hd.data).peer = true ∧
      (addrFlit ad.data).op = 2 ∧ (addrFlit ad.data).cls ≠ 3 ∧ s.isOpen (vHead hd.data).session = true ∧
      s.roleOk (vHead hd.data).session = true ∧ (s.limb (limbOfTap tap)).freeTag = some g) ∧
    (∃ (s : State) (tap : Nat) (hd ad : NetUnit) (body : List NetUnit), s.storesWf ∧ (s.tap tap).func = 2 ∧ s.tapEnabled tap = true ∧
      s.limbOn (limbOfTap tap) = true ∧ firstMessage (s.tap tap).bufV = some (hd :: ad :: body) ∧ (vHead hd.data).kind ≠ 0 ∧
      (vHead hd.data).kind ≠ 2 ∧ s.ras.ringCount < 64) ∧
    (∃ (s : State) (i k : Nat) (f : Frame) (rest : List Frame) (r : PendReq), s.storesWf ∧ s.hasNext i f rest ∧ f.resp = true ∧ f.typ = 2 ∧
      s.findReq i (rd f.fields 4 4) = some (k, r) ∧ r.kind = .read ∧ rd f.fields 0 1 = 0) ∧
    (∃ (s : State) (i k : Nat) (f : Frame) (rest : List Frame) (r : PendReq), s.storesWf ∧ s.hasNext i f rest ∧ f.resp = true ∧ f.typ = 2 ∧
      s.findReq i (rd f.fields 4 4) = some (k, r) ∧ r.kind = .read ∧ rd f.fields 0 1 = 2 ∧ r.cls ≠ 0) ∧
    (∃ (s : State) (i k : Nat) (f : Frame) (rest : List Frame) (r : PendReq), s.storesWf ∧ s.hasNext i f rest ∧ f.resp = true ∧ f.typ = 2 ∧
      s.findReq i (rd f.fields 4 4) = some (k, r) ∧ rd f.fields 0 1 = 1 ∧ r.cls ≠ 0) ∧
    (∃ (s : State) (i : Nat) (f : Frame) (rest : List Frame), s.storesWf ∧ s.hasNext i f rest ∧ f.resp = true ∧ f.typ = 2 ∧
      s.findReq i (rd f.fields 4 4) = none) :=
  ⟨⟨wTap [wPeer 0, wAddr 1, wU false true 77] wSess, 16, wPeer 0, wAddr 1, [wU false true 77], by unfold State.storesWf; decide +kernel⟩,
   ⟨wTap [wPeer 0, { wAddr 2 with tail := true }] wSess, 16, 0, wPeer 0, { wAddr 2 with tail := true }, [],
     by unfold State.storesWf State.noInjection; decide +kernel⟩,
   ⟨wTap [wPeer 1, { wAddr 1 with tail := true }] wSess, 16, wPeer 1, { wAddr 1 with tail := true }, [],
     by unfold State.storesWf; decide +kernel⟩,
   ⟨wAns (wResp 0 0), 5, 1, wResp 0 0, [], wReq, by
      unfold State.storesWf
      refine ⟨?_, ⟨rfl, by decide +kernel⟩, ?_, ?_, ?_, ?_, ?_⟩ <;> decide +kernel⟩,
   ⟨wAns (wResp 2 0), 5, 1, wResp 2 0, [], wReq, by
      unfold State.storesWf
      refine ⟨?_, ⟨rfl, by decide +kernel⟩, ?_, ?_, ?_, ?_, ?_, ?_⟩ <;> decide +kernel⟩,
   ⟨wAns (wResp 1 6), 5, 1, wResp 1 6, [], wReq, by
      unfold State.storesWf
      refine ⟨?_, ⟨rfl, by decide +kernel⟩, ?_, ?_, ?_, ?_, ?_⟩ <;> decide +kernel⟩,
   ⟨wSap { wSess with inbox := [wResp 0 0] }, 5, wResp 0 0, [], by
      unfold State.storesWf
      refine ⟨?_, ⟨rfl, by decide +kernel⟩, ?_, ?_, ?_⟩ <;> decide +kernel⟩⟩

/-- The hypotheses of the clauses of `Obligations.PeerRequests` hold together somewhere. -/
theorem wit_PeerRequests :
    (∃ (s : State) (i : Nat) (f : Frame) (rest : List Frame), s.storesWf ∧ s.hasNext i f rest ∧ f.typ = 1 ∧ s.tapOk i f.tapOf = true) ∧
    (∃ (s : State) (i : Nat) (f : Frame) (rest : List Frame), s.storesWf ∧ s.hasNext i f rest ∧ f.typ = 1 ∧ s.tapOk i f.tapOf = false ∧
      s.ras.ringCount < 64) ∧
    (∃ (s : State) (i g : Nat) (f : Frame) (rest : List Frame) (c : Instr), s.storesWf ∧ s.hasNext i f rest ∧ f.resp = false ∧
      s.tapOk i f.tapOf = true ∧ (s.limb (limbOfTap f.tapOf)).freeTag = some g ∧ ((f.typ = 2 ∧ c = .readReceive i ∧ 1 ≤ rd f.fields 12 2 ∧
      rd f.fields 12 2 ≤ 256 ∧ (s.disposition i f ((16 * rd f.fields 12 2 + 63) / 64)).1 = 0) ∨ (f.typ = 7 ∧ c = .creditReceive i ∧
      1 ≤ rd f.fields 12 2 ∧ rd f.fields 12 2 ≤ 768 ∧ (s.disposition i f 0).1 = 0))) ∧
    (∃ (s : State) (i g : Nat) (f : Frame) (rest : List Frame) (c : Instr), s.storesWf ∧ s.hasNext i f rest ∧ f.resp = false ∧
      s.tapOk i f.tapOf = true ∧ (s.limb (limbOfTap f.tapOf)).freeTag = some g ∧ ((f.typ = 2 ∧ c = .readReceive i ∧ 1 ≤ rd f.fields 12 2 ∧
      rd f.fields 12 2 ≤ 256 ∧ (s.disposition i f ((16 * rd f.fields 12 2 + 63) / 64)).1 = 0) ∨ (f.typ = 7 ∧ c = .creditReceive i ∧
      1 ≤ rd f.fields 12 2 ∧ rd f.fields 12 2 ≤ 768 ∧ (s.disposition i f 0).1 = 0))) ∧
    (∃ (s : State) (i d reason n : Nat) (f : Frame) (rest : List Frame) (c : Instr), s.storesWf ∧ s.hasNext i f rest ∧ f.resp = false ∧
      s.tapOk i f.tapOf = true ∧ d ≠ 0 ∧ ((f.typ = 2 ∧ c = .readReceive i ∧ 1 ≤ rd f.fields 12 2 ∧ rd f.fields 12 2 ≤ 256 ∧
      s.disposition i f ((16 * rd f.fields 12 2 + 63) / 64) = (d, reason, n)) ∨ (f.typ = 7 ∧ c = .creditReceive i ∧ 1 ≤ rd f.fields 12 2 ∧
      rd f.fields 12 2 ≤ 768 ∧ s.disposition i f 0 = (d, reason, n)))) ∧
    (∃ (s : State) (i d reason n : Nat) (f : Frame) (rest : List Frame) (c : Instr), s.storesWf ∧ s.hasNext i f rest ∧ f.resp = false ∧
      s.tapOk i f.tapOf = true ∧ d ≠ 0 ∧ ((f.typ = 2 ∧ c = .readReceive i ∧ 1 ≤ rd f.fields 12 2 ∧ rd f.fields 12 2 ≤ 256 ∧
      s.disposition i f ((16 * rd f.fields 12 2 + 63) / 64) = (d, reason, n)) ∨ (f.typ = 7 ∧ c = .creditReceive i ∧ 1 ≤ rd f.fields 12 2 ∧
      rd f.fields 12 2 ≤ 768 ∧ s.disposition i f 0 = (d, reason, n)))) ∧
    (∃ (s : State) (i t0 : Nat) (f : Frame) (rest : List Frame) (w : Nat × Nat × Nat), s.storesWf ∧ s.hasNext i f rest ∧ f.typ = 9 ∧
      rd f.fields 0 1 = 1 ∧ s.inGrid (s.tapCell t0).1 (s.tapCell t0).2 = true ∧ w.2.2 = t0 ∧
      (List.range 12).findSome? (fun k => (s.limb k).outWrites.find? (fun r => r.1 == i && r.2.1 == rd f.fields 12 4)) = some w) ∧
    (∃ (s : State) (i : Nat) (f : Frame) (rest : List Frame), s.storesWf ∧ s.hasNext i f rest ∧ f.typ = 8 ∧ rd f.fields 6 1 = 1) ∧
    (∃ (s : State) (i : Nat) (f : Frame) (rest : List Frame), s.storesWf ∧ s.hasNext i f rest ∧ f.typ = 8 ∧ rd f.fields 6 1 = 2 ∧
      s.f STREAM_CTRL_HALT_ON_PEER = 0) ∧
    (∃ (s : State) (i : Nat) (f : Frame) (rest : List Frame), s.storesWf ∧ s.hasNext i f rest ∧ f.typ = 8 ∧ rd f.fields 6 1 = 2 ∧
      s.f STREAM_CTRL_HALT_ON_PEER = 1 ∧ s.ras.ringCount < 64) :=
  ⟨⟨wTap [] ({ wSess with inbox := [{ (default : Frame) with typ := 1, cls := 1, fields := [16, 0, 0, 0, 5, 0, 0, 0, 0, 0, 0, 0, 0, 0, 0, 0] }] }), 5, { (default : Frame) with typ := 1, cls := 1, fields := [16, 0, 0, 0, 5, 0, 0, 0, 0, 0, 0, 0, 0, 0, 0, 0] }, [], by
      unfold State.storesWf
      refine ⟨?_, ⟨rfl, by decide +kernel⟩, ?_, ?_⟩ <;> decide +kernel⟩,
   ⟨wTap [] ({ wSess with inbox := [{ (default : Frame) with typ := 1, cls := 1, fields := [17, 0, 0, 0, 5, 0, 0, 0, 0, 0, 0, 0, 0, 0, 0, 0] }] }), 5, { (default : Frame) with typ := 1, cls := 1, fields := [17, 0, 0, 0, 5, 0, 0, 0, 0, 0, 0, 0, 0, 0, 0, 0] }, [], by
      unfold State.storesWf
      refine ⟨?_, ⟨rfl, by decide +kernel⟩, ?_, ?_, ?_⟩ <;> decide +kernel⟩,
   ⟨wTap [] ({ wSess with inbox := [{ (default : Frame) with typ := 2, cls := 1, fields := [16, 0, 0, 0, 5, 0, 0, 0, 0, 0, 0, 0, 0, 1, 0, 0] }] }), 5, 0, { (default : Frame) with typ := 2, cls := 1, fields := [16, 0, 0, 0, 5, 0, 0, 0, 0, 0, 0, 0, 0, 1, 0, 0] }, [], .readReceive 5, by
      unfold State.storesWf
      refine ⟨?_, ⟨rfl, by decide +kernel⟩, ?_, ?_, ?_, ?_⟩ <;> decide +kernel⟩,
   ⟨wTap [] ({ wSess with inbox := [{ (default : Frame) with typ := 7, cls := 1, fields := [16, 0, 0, 0, 5, 0, 0, 0, 0, 0, 0, 0, 0, 3, 0, 0] }] }), 5, 0, { (default : Frame) with typ := 7, cls := 1, fields := [16, 0, 0, 0, 5, 0, 0, 0, 0, 0, 0, 0, 0, 3, 0, 0] }, [], .creditReceive 5, by
      unfold State.storesWf
      refine ⟨?_, ⟨rfl, by decide +kernel⟩, ?_, ?_, ?_, ?_⟩ <;> decide +kernel⟩,
   ⟨{ wTap [] ({ wSess with inbox := [{ (default : Frame) with typ := 2, cls := 1, fields := [16, 0, 0, 0, 5, 0, 0, 0, 0, 0, 0, 0, 0, 1, 0, 0] }] }) with power := { wRun.power with linksFloor := true } }, 5, 2, 5, 0, { (default : Frame) with typ := 2, cls := 1, fields := [16, 0, 0, 0, 5, 0, 0, 0, 0, 0, 0, 0, 0, 1, 0, 0] }, [], .readReceive 5, by
      unfold State.storesWf
      refine ⟨?_, ⟨rfl, by decide +kernel⟩, ?_, ?_, ?_, ?_⟩ <;> decide +kernel⟩,
   ⟨{ wTap [] ({ wSess with inbox := [{ (default : Frame) with typ := 7, cls := 1, fields := [16, 0, 0, 0, 5, 0, 0, 0, 0, 0, 0, 0, 0, 3, 0, 0] }] }) with power := { wRun.power with linksFloor := true } }, 5, 2, 5, 0, { (default : Frame) with typ := 7, cls := 1, fields := [16, 0, 0, 0, 5, 0, 0, 0, 0, 0, 0, 0, 0, 3, 0, 0] }, [], .creditReceive 5, by
      unfold State.storesWf
      refine ⟨?_, ⟨rfl, by decide +kernel⟩, ?_, ?_, ?_, ?_⟩ <;> decide +kernel⟩,
   ⟨{ wSap ({ wSess with inbox := [{ (default : Frame) with typ := 9, fields := [1, 0, 0, 0, 0, 0, 0, 0, 0, 0, 0, 0, 9, 0, 0, 0] }] }) with limbs := [(1, { Limb.reset with outWrites := [(5, 9, 3)] })] }, 5, 3, { (default : Frame) with typ := 9, fields := [1, 0, 0, 0, 0, 0, 0, 0, 0, 0, 0, 0, 9, 0, 0, 0] }, [], (5, 9, 3), by
      unfold State.storesWf
      refine ⟨?_, ⟨rfl, by decide +kernel⟩, ?_, ?_, ?_, ?_, ?_⟩ <;> decide +kernel⟩,
   ⟨wSap ({ wSess with inbox := [{ (default : Frame) with typ := 8, fields := [0, 0, 0, 0, 0, 0, 1, 0] }] }), 5,
     { (default : Frame) with typ := 8, fields := [0, 0, 0, 0, 0, 0, 1, 0] }, [], by
      unfold State.storesWf
      refine ⟨?_, ⟨rfl, by decide +kernel⟩, ?_, ?_⟩ <;> decide +kernel⟩,
   ⟨wSap ({ wSess with inbox := [{ (default : Frame) with typ := 8, fields := [0, 0, 0, 0, 0, 0, 2, 0] }] }), 5,
     { (default : Frame) with typ := 8, fields := [0, 0, 0, 0, 0, 0, 2, 0] }, [], by
      unfold State.storesWf
      refine ⟨?_, ⟨rfl, by decide +kernel⟩, ?_, ?_, ?_⟩ <;> decide +kernel⟩,
   ⟨wF (wSap ({ wSess with inbox := [{ (default : Frame) with typ := 8, fields := [0, 0, 0, 0, 0, 0, 2, 0] }] })) STREAM_CTRL_HALT_ON_PEER 1, 5, { (default : Frame) with typ := 8, fields := [0, 0, 0, 0, 0, 0, 2, 0] }, [], by
      unfold State.storesWf
      refine ⟨?_, ⟨rfl, by decide +kernel⟩, ?_, ?_, ?_, ?_⟩ <;> decide +kernel⟩⟩

/-- The hypotheses of the clauses of `Obligations.SessionHandshake` hold together somewhere. -/
theorem wit_SessionHandshake :
    (∃ (s : State) (w : Word64) (i : Nat), s.storesWf ∧ s.noInjection ∧ s.sessCmd.busy = none ∧ s.cmdOk w = true ∧ s.canHandshake = true ∧
      i = SAP_SESSION_CMD_INDEX.of w ∧ (s.ses i).st = .closed) ∧
    (∃ (s : State) (w : Word64) (i : Nat), s.storesWf ∧ s.sessCmd.busy = none ∧ s.cmdOk w = true ∧ i = SAP_SESSION_CMD_INDEX.of w ∧
      (s.ses i).st = .closed) ∧
    (∃ (s : State) (w : Word64) (i : Nat), s.storesWf ∧ s.sessCmd.busy = none ∧ s.running = none ∧ i = SAP_SESSION_CMD_INDEX.of w ∧
      s.isOpen i = true) ∧
    (∃ (s : State) (w : Word64) (i : Nat) (c : Instr), s.sessCmd.busy = none ∧ i = SAP_SESSION_CMD_INDEX.of w ∧ (s.ses i).st = .closing ∧
      c ∈ [Instr.sessionOpen w, .sessionListen w, .sessionClose w]) ∧
    (∃ (s : State) (w : Word64) (i : Nat) (c : Instr), s.sessCmd.busy = none ∧ i = SAP_SESSION_CMD_INDEX.of w ∧ (s.ses i).st = .closing ∧
      c ∈ [Instr.sessionOpen w, .sessionListen w, .sessionClose w]) ∧
    (∃ (s : State) (w : Word64) (c : Instr), s.sessCmd.busy.isSome = true ∧ c ∈ [Instr.sessionOpen w, .sessionListen w, .sessionClose w]) ∧
    (∃ (s : State) (w : Word64) (c : Instr), s.sessCmd.busy.isSome = true ∧ c ∈ [Instr.sessionOpen w, .sessionListen w, .sessionClose w]) ∧
    (∃ (s s1 : State) (p i : Nat) (h : Bool) (q : ShakeIn) (v : Option Nat), s.storesWf ∧ s.noInjection ∧ (s.port p).link h = .up ∧
      s.takeShake (fun q => q.port == p && q.half == h && decide (rd q.fields 0 1 = 1)) = some (q, s1) ∧ rd (certIn q.data) 4 2 ≠ 7 ∧
      s1.crossed q.mac (rd q.fields 2 2) (rd q.fields 4 2) = false ∧ s1.acceptIndex q.mac (rd q.fields 4 2) = some i ∧
      (s1.checkHandshake [] q.data false).1 = v ∧ s.canHandshake = true ∧ s.busyJob = false) ∧
    (∃ (s s1 : State) (p : Nat) (h : Bool) (q : ShakeIn), (s.port p).link h = .up ∧
      s.takeShake (fun q => q.port == p && q.half == h && decide (rd q.fields 0 1 = 1)) = some (q, s1) ∧ (rd (certIn q.data) 4 2 = 7 ∨
      (s1.crossed q.mac (rd q.fields 2 2) (rd q.fields 4 2) = false ∧ s1.acceptIndex q.mac (rd q.fields 4 2) = none))) ∧
    (∃ (s s1 : State) (i : Nat) (r : ShakeIn) (hk : Shaking) (v : Option Nat), s.storesWf ∧ s.noInjection ∧ s.takeAnswer i 2 = some (r,
      s1) ∧ (s.ses i).shake = some hk ∧ (s1.checkHandshake (sha384 hk.opn) r.data (s.ses i).store).1 = v ∧ s.busyJob = false ∧
      s.sessCmd.busy = some i ∧ s.ras.ringCount < 62) ∧
    (∃ (s s1 : State) (i : Nat) (r : ShakeIn) (hk : Shaking) (v : Option Nat), s.storesWf ∧ s.noInjection ∧ s.takeAnswer i 2 = some (r,
      s1) ∧ (s.ses i).shake = some hk ∧ (s1.checkHandshake (sha384 hk.opn) r.data (s.ses i).store).1 = v ∧ s.busyJob = true) ∧
    (∃ (s : State) (i n : Nat) (c : Instr), s.storesWf ∧ (s.ses i).st = .opening ∧ (s.ses i).openReady = false ∧ s.sessCmd.busy = some i ∧
      ((c = .openRefuse i ∧ (s.takeAnswer i 3).isSome = true ∧ n = 1) ∨ (c = .handshakeTimeout i ∧ n = 3))) ∧
    (∃ (s : State) (i n : Nat) (c : Instr), s.storesWf ∧ (s.ses i).st = .opening ∧ (s.ses i).openReady = false ∧ s.sessCmd.busy = some i ∧
      ((c = .openRefuse i ∧ (s.takeAnswer i 3).isSome = true ∧ n = 1) ∨ (c = .handshakeTimeout i ∧ n = 3))) :=
  ⟨⟨wSap Session.reset, wd [(SAP_SESSION_CMD_INDEX, 5), (SAP_SESSION_CMD_PORT, 7)], 5,
    by unfold State.storesWf State.noInjection; decide +kernel⟩,
   ⟨wSap Session.reset, wd [(SAP_SESSION_CMD_INDEX, 5), (SAP_SESSION_CMD_PORT, 7)], 5, by unfold State.storesWf; decide +kernel⟩,
   ⟨wSap wSess, wd [(SAP_SESSION_CMD_INDEX, 5), (SAP_SESSION_CMD_PORT, 7)], 5, by unfold State.storesWf; decide +kernel⟩,
   ⟨wSap { wSess with st := .closing }, wd [(SAP_SESSION_CMD_INDEX, 5), (SAP_SESSION_CMD_PORT, 7)], 5,
     .sessionOpen (wd [(SAP_SESSION_CMD_INDEX, 5), (SAP_SESSION_CMD_PORT, 7)]), by decide +kernel⟩,
   ⟨wSap { wSess with st := .closing }, wd [(SAP_SESSION_CMD_INDEX, 5), (SAP_SESSION_CMD_PORT, 7)], 5,
     .sessionClose (wd [(SAP_SESSION_CMD_INDEX, 5), (SAP_SESSION_CMD_PORT, 7)]), by decide +kernel⟩,
   ⟨wBusyCmd wOpening, wd [(SAP_SESSION_CMD_INDEX, 5), (SAP_SESSION_CMD_PORT, 7)], .sessionOpen (wd [(SAP_SESSION_CMD_INDEX, 5),
     (SAP_SESSION_CMD_PORT, 7)]), by decide +kernel⟩,
   ⟨wBusyCmd wOpening, wd [(SAP_SESSION_CMD_INDEX, 5), (SAP_SESSION_CMD_PORT, 7)], .sessionClose (wd [(SAP_SESSION_CMD_INDEX, 5),
     (SAP_SESSION_CMD_PORT, 7)]), by decide +kernel⟩,
   ⟨wOffer (wSap Session.reset) 1 0xFFFF, wSap Session.reset, 7, 0, false, wShake 1 0xFFFF,
     ((wSap Session.reset).checkHandshake [] [] false).1, by
      unfold State.storesWf State.noInjection
      refine ⟨?_, ?_, ?_, rfl, ?_, ?_, ?_, rfl, ?_, ?_⟩ <;> decide +kernel⟩,
   ⟨wOffer (wSap Session.reset) 1 5, wSap Session.reset, 7, false, wShake 1 5, by
      refine ⟨?_, rfl, ?_⟩ <;> decide +kernel⟩,
   ⟨wOffer (wBusyCmd wOpening) 2 5, wBusyCmd wOpening, 5, wShake 2 5, ⟨1, [], []⟩,
     ((wBusyCmd wOpening).checkHandshake (sha384 []) [] false).1, by
      unfold State.storesWf State.noInjection
      refine ⟨?_, ?_, rfl, ?_, rfl, ?_, ?_, ?_⟩ <;> decide +kernel⟩,
   ⟨{ wOffer (wBusyCmd wOpening) 2 5 with job := (wJobS wJ).job }, { wBusyCmd wOpening with job := (wJobS wJ).job }, 5, wShake 2 5, ⟨1, [],
     []⟩, ((wBusyCmd wOpening).checkHandshake (sha384 []) [] false).1, by
      unfold State.storesWf State.noInjection
      refine ⟨?_, ?_, rfl, ?_, rfl, ?_⟩ <;> decide +kernel⟩,
   ⟨wOffer (wBusyCmd wOpening) 3 5, 5, 1, .openRefuse 5, by unfold State.storesWf; decide +kernel⟩,
   ⟨wBusyCmd wOpening, 5, 3, .handshakeTimeout 5, by unfold State.storesWf; decide +kernel⟩⟩

/-- The hypotheses of the clauses of `Obligations.SessionLife` hold together somewhere. -/
theorem wit_SessionLife :
    (∃ (s : State) (i : Nat) (f : Frame) (rest : List Frame) (k : List Byte × List Byte), s.storesWf ∧ s.hasNext i f rest ∧ f.op = 4 ∧
      s.isLive i = true ∧ s.pendingOn i = false ∧ (s.ses i).keys = some k) ∧
    (∃ (s : State) (i : Nat) (f : Frame) (rest : List Frame), s.storesWf ∧ s.hasNext i f rest ∧ f.op = 5 ∧ (s.ses i).epochSent = true) ∧
    (∃ (s : State) (i : Nat) (f : Frame) (rest : List Frame) (k : List Byte × List Byte), s.storesWf ∧ s.hasNext i f rest ∧ f.op = 6 ∧
      s.isOpen i = true ∧ s.running = none ∧ (s.ses i).keys = some k) ∧
    (∃ (s : State) (i : Nat) (k : List Byte × List Byte), s.storesWf ∧ (s.ses i).st = .closing ∧ (s.ses i).unacked = [] ∧
      s.pendingOn i = false ∧ (s.ses i).keys = some k) ∧
    (∃ (s : State) (i : Nat), s.storesWf ∧ s.isLive i = true ∧ s.limbOn (limbOfPort (s.ses i).port) = true) ∧
    (∃ (s : State) (i : Nat), s.storesWf ∧ s.isLive i = true ∧ s.ras.ringCount < 64) ∧
    (∃ (s : State) (i : Nat) (p : PrevEpoch), s.storesWf ∧ (s.ses i).prev = some p ∧ ringBefore s.now p.until_ = false) :=
  ⟨⟨wSap { wSess with inbox := [wCtl 4] }, 5, wCtl 4, [], (wKey, wKey), by
      unfold State.storesWf
      refine ⟨?_, ⟨rfl, by decide +kernel⟩, ?_, ?_, ?_, ?_⟩ <;> decide +kernel⟩,
   ⟨wSap { wSess with inbox := [wCtl 5], epochSent := true }, 5, wCtl 5, [], by
      unfold State.storesWf
      refine ⟨?_, ⟨rfl, by decide +kernel⟩, ?_, ?_⟩ <;> decide +kernel⟩,
   ⟨wSap { wSess with inbox := [wCtl 6] }, 5, wCtl 6, [], (wKey, wKey), by
      unfold State.storesWf
      refine ⟨?_, ⟨rfl, by decide +kernel⟩, ?_, ?_, ?_, ?_⟩ <;> decide +kernel⟩,
   ⟨wSap { wSess with st := .closing }, 5, (wKey, wKey), by unfold State.storesWf; decide +kernel⟩,
   ⟨wSap wSess, 5, by unfold State.storesWf; decide +kernel⟩,
   ⟨wAns (wResp 0 0), 5, by unfold State.storesWf; decide +kernel⟩,
   ⟨wSap { wSess with st := .closed, prev := some ⟨4, 100, [], [], 0, 0⟩ }, 5, ⟨4, 100, [], [], 0, 0⟩,
     by unfold State.storesWf; decide +kernel⟩⟩

/-- The hypotheses of the clauses of `Obligations.SapConfig` hold together somewhere. -/
theorem wit_SapConfig :
    (∃ (s : State) (w : Word64), s.storesWf ∧ s.busyJob = false ∧ 1 ≤ SAP_CONFIG_TAGFAIL_LIMIT.of w ∧ 1 ≤ SAP_CONFIG_HOLD.of w ∧
      SAP_CONFIG_HOLD.of w ≤ 1000 ∧ 8 ≤ SAP_CONFIG_GRACE.of w ∧ 1 ≤ SAP_CONFIG_ACK_DELAY.of w ∧ SAP_CONFIG_ACK_DELAY.of w ≤ 100 ∧
      16 ≤ SAP_CONFIG_RX_WINDOW.of w ∧ 1 ≤ SAP_CONFIG_RETX_LIMIT.of w ∧ 5 ≤ SAP_CONFIG_RTO.of w) ∧
    (∃ (s : State) (w : Word64), s.storesWf ∧ (s.busyJob = true ∨ SAP_CONFIG_TAGFAIL_LIMIT.of w = 0 ∨ SAP_CONFIG_HOLD.of w = 0 ∨
      1000 < SAP_CONFIG_HOLD.of w ∨ SAP_CONFIG_GRACE.of w < 8 ∨ SAP_CONFIG_ACK_DELAY.of w = 0 ∨ 100 < SAP_CONFIG_ACK_DELAY.of w ∨
      SAP_CONFIG_RX_WINDOW.of w < 16 ∨ SAP_CONFIG_RETX_LIMIT.of w = 0 ∨ SAP_CONFIG_RTO.of w < 5)) ∧
    (∃ (s : State) (w : Word64), s.storesWf ∧ (s.busyJob = true ∨ SAP_CONFIG_TAGFAIL_LIMIT.of w = 0 ∨ SAP_CONFIG_HOLD.of w = 0 ∨
      1000 < SAP_CONFIG_HOLD.of w ∨ SAP_CONFIG_GRACE.of w < 8 ∨ SAP_CONFIG_ACK_DELAY.of w = 0 ∨ 100 < SAP_CONFIG_ACK_DELAY.of w ∨
      SAP_CONFIG_RX_WINDOW.of w < 16 ∨ SAP_CONFIG_RETX_LIMIT.of w = 0 ∨ SAP_CONFIG_RTO.of w < 5)) ∧
    (∃ (s : State) (w : Word64), s.storesWf ∧ (s.busyJob = true ∨ SAP_CONFIG_TAGFAIL_LIMIT.of w = 0 ∨ SAP_CONFIG_HOLD.of w = 0 ∨
      1000 < SAP_CONFIG_HOLD.of w ∨ SAP_CONFIG_GRACE.of w < 8 ∨ SAP_CONFIG_ACK_DELAY.of w = 0 ∨ 100 < SAP_CONFIG_ACK_DELAY.of w ∨
      SAP_CONFIG_RX_WINDOW.of w < 16 ∨ SAP_CONFIG_RETX_LIMIT.of w = 0 ∨ SAP_CONFIG_RTO.of w < 5)) :=
  ⟨⟨wRun, wd [(SAP_CONFIG_TAGFAIL_LIMIT, 1), (SAP_CONFIG_HOLD, 1000), (SAP_CONFIG_GRACE, 8), (SAP_CONFIG_ACK_DELAY, 100),
    (SAP_CONFIG_RX_WINDOW, 16), (SAP_CONFIG_RETX_LIMIT, 1), (SAP_CONFIG_RTO, 5)], by unfold State.storesWf; decide +kernel⟩,
   ⟨wRun, wd [(SAP_CONFIG_TAGFAIL_LIMIT, 1), (SAP_CONFIG_HOLD, 1001), (SAP_CONFIG_GRACE, 8), (SAP_CONFIG_ACK_DELAY, 100),
     (SAP_CONFIG_RX_WINDOW, 16), (SAP_CONFIG_RETX_LIMIT, 1), (SAP_CONFIG_RTO, 5)], by unfold State.storesWf; decide +kernel⟩,
   ⟨wRun, wd [(SAP_CONFIG_TAGFAIL_LIMIT, 1), (SAP_CONFIG_HOLD, 1000), (SAP_CONFIG_GRACE, 8), (SAP_CONFIG_ACK_DELAY, 100),
     (SAP_CONFIG_RX_WINDOW, 16), (SAP_CONFIG_RETX_LIMIT, 1), (SAP_CONFIG_RTO, 4)], by unfold State.storesWf; decide +kernel⟩,
   ⟨wJobS wJ, wd [(SAP_CONFIG_TAGFAIL_LIMIT, 1), (SAP_CONFIG_HOLD, 1000), (SAP_CONFIG_GRACE, 8), (SAP_CONFIG_ACK_DELAY, 100),
     (SAP_CONFIG_RX_WINDOW, 16), (SAP_CONFIG_RETX_LIMIT, 1), (SAP_CONFIG_RTO, 5)], by unfold State.storesWf; decide +kernel⟩⟩

/-- The hypotheses of the clauses of `Obligations.ChunkReads` hold together somewhere. -/
theorem wit_ChunkReads :
    (∃ (s : State) (tap base v : Nat) (u : NetUnit) (a : StreamFlit) (e : CacheEntry), s.storesWf ∧ s.streamAsks tap u a ∧ a.op = 1 ∧
      a.cls = 1 ∧ a.chunks = 1 ∧ s.labelBase a.label false = some base ∧ s.chunkOk a.label base a.chunk = true ∧
      (s.mapped (limbOfTap tap) a.label a.chunk).isSome = true ∧ (s.limb (limbOfTap tap)).pending = [] ∧ s.journal.replaying = false ∧
      s.reenacts = false ∧ s.version ((base + 4096 * a.chunk) / 4096) = .ok v ∧ (s.limb (limbOfTap tap)).cache = [e] ∧
      e.addr = base + 4096 * a.chunk ∧ e.version = v ∧ e.data.length = 4096) ∧
    (∃ (s : State) (tap base v j : Nat) (u : NetUnit) (a : StreamFlit), s.storesWf ∧ s.streamAsks tap u a ∧ a.op = 1 ∧ a.cls = 1 ∧
      a.chunks = 1 ∧ s.labelBase a.label false = some base ∧ s.chunkOk a.label base a.chunk = true ∧
      s.mapped (limbOfTap tap) a.label a.chunk = some j ∧ (s.limb (limbOfTap tap)).pending = [] ∧ s.journal.replaying = false ∧
      s.reenacts = false ∧ s.version ((base + 4096 * a.chunk) / 4096) = .ok v ∧ (s.limb (limbOfTap tap)).cache = [] ∧
      (s.limb (limbOfTap tap)).missRoom = true ∧ sget 0 s.tree.pendingVer ((base + 4096 * a.chunk) / 4096) = 0 ∧ s.power.memShed < 4) ∧
    (∃ (s : State) (tap : Nat) (u d : NetUnit), s.storesWf ∧ (s.tap tap).func = 1 ∧ s.tapEnabled tap = true ∧
      s.limbOn (limbOfTap tap) = true ∧ firstMessage (s.tap tap).bufV = some [u, d] ∧ (vHead u.data).kind ≠ 2 ∧ ((vHead u.data).kind ≠ 0 ∨
      (streamFlit d.data).ok = false ∨ ((streamFlit d.data).op = 1 ∧ s.labelBase (streamFlit d.data).label false = none)) ∧
      s.ras.ringCount < 64) ∧
    (∃ (s : State) (tap : Nat) (u d : NetUnit), s.storesWf ∧ (s.tap tap).func = 1 ∧ s.tapEnabled tap = true ∧
      s.limbOn (limbOfTap tap) = true ∧ firstMessage (s.tap tap).bufV = some [u, d] ∧ (vHead u.data).kind ≠ 2 ∧ ((vHead u.data).kind ≠ 0 ∨
      (streamFlit d.data).ok = false ∨ ((streamFlit d.data).op = 1 ∧ s.labelBase (streamFlit d.data).label false = none)) ∧
      s.ras.ringCount < 64) ∧
    (∃ (s : State) (tap : Nat) (u d : NetUnit), s.storesWf ∧ (s.tap tap).func = 1 ∧ s.tapEnabled tap = true ∧
      s.limbOn (limbOfTap tap) = true ∧ firstMessage (s.tap tap).bufV = some [u, d] ∧ (vHead u.data).kind ≠ 2 ∧ ((vHead u.data).kind ≠ 0 ∨
      (streamFlit d.data).ok = false ∨ ((streamFlit d.data).op = 1 ∧ s.labelBase (streamFlit d.data).label false = none)) ∧
      s.ras.ringCount < 64) ∧
    (∃ (s : State) (i k v : Nat) (f : Frame) (rest : List Frame) (r q : PendReq) (plain : List Byte), s.storesWf ∧ s.noInjection ∧
      s.hasNext i f rest ∧ f.typ = 5 ∧ rd f.fields 0 8 = r.addr ∧ rd f.fields 8 8 = v ∧ r.addr < 2 ^ 51 ∧ k < 12 ∧ (s.limb k).pending = [r,
      q] ∧ (∀ j, j < 12 → j ≠ k → (s.limb j).pending = []) ∧ r.kind = .stream ∧ r.chunks = [.asked] ∧ r.done = 0 ∧ q.kind = .streamRead ∧
      q.tag ≠ r.tag ∧ q.parent = r.tag ∧ q.session = i ∧ q.seq.isSome = true ∧ q.addr = r.addr ∧ q.done = 0 ∧ q.count = 1 ∧
      s.version (r.addr / 4096) = .ok v ∧ (s.tap r.tap).func = 1 ∧
      gcmOpen (s.chunkKey q.label v) (chunkNonce r.addr v) (chunkAad r.addr v) f.data (cut f.fields 16 16) = some plain) ∧
    (∃ (s : State) (i k v w : Nat) (f : Frame) (rest : List Frame) (r q : PendReq), s.storesWf ∧ s.noInjection ∧ s.hasNext i f rest ∧
      f.typ = 5 ∧ rd f.fields 0 8 = r.addr ∧ rd f.fields 8 8 = w ∧ r.addr < 2 ^ 51 ∧ k < 12 ∧ (s.limb k).pending = [r, q] ∧ (∀ j, j < 12 →
      j ≠ k → (s.limb j).pending = []) ∧ r.kind = .stream ∧ r.chunks = [.asked] ∧ r.done = 0 ∧ q.kind = .streamRead ∧ q.tag ≠ r.tag ∧
      q.parent = r.tag ∧ q.session = i ∧ q.seq.isSome = true ∧ q.addr = r.addr ∧ q.done = 0 ∧ q.count = 1 ∧
      s.version (r.addr / 4096) = .ok v ∧ (s.tap r.tap).func = 1 ∧ (w ≠ v ∨
      gcmOpen (s.chunkKey q.label v) (chunkNonce r.addr v) (chunkAad r.addr v) f.data (cut f.fields 16 16) = none) ∧ s.ras.ringCount < 64) ∧
    (∃ (s : State) (i k v w : Nat) (f : Frame) (rest : List Frame) (r q : PendReq), s.storesWf ∧ s.noInjection ∧ s.hasNext i f rest ∧
      f.typ = 5 ∧ rd f.fields 0 8 = r.addr ∧ rd f.fields 8 8 = w ∧ r.addr < 2 ^ 51 ∧ k < 12 ∧ (s.limb k).pending = [r, q] ∧ (∀ j, j < 12 →
      j ≠ k → (s.limb j).pending = []) ∧ r.kind = .stream ∧ r.chunks = [.asked] ∧ r.done = 0 ∧ q.kind = .streamRead ∧ q.tag ≠ r.tag ∧
      q.parent = r.tag ∧ q.session = i ∧ q.seq.isSome = true ∧ q.addr = r.addr ∧ q.done = 0 ∧ q.count = 1 ∧
      s.version (r.addr / 4096) = .ok v ∧ (s.tap r.tap).func = 1 ∧ (w ≠ v ∨
      gcmOpen (s.chunkKey q.label v) (chunkNonce r.addr v) (chunkAad r.addr v) f.data (cut f.fields 16 16) = none) ∧ s.ras.ringCount < 64) ∧
    (∃ (s : State) (i : Nat) (f : Frame) (rest : List Frame), s.storesWf ∧ s.hasNext i f rest ∧ f.typ = 5 ∧ s.pendingOn i = false) ∧
    (∃ (s : State) (k a : Nat) (e : CacheEntry), s.storesWf ∧ k < 12 ∧ s.limbOn k = true ∧
      (s.limb k).cache.find? (fun e => e.addr == a && decide (s.pinsHeld k e < e.pins)) = some e ∧ (∀ j, j < 12 → ∀ r ∈ (s.limb j).pending,
      r.kind = .stream → r.chunks.contains .idle = false)) :=
  ⟨⟨wStore false [wStrHead 0, wStrFlit 1] { Limb.reset with cache := [⟨8192, 5, 0, List.replicate 4096 9⟩] } wSess, 16, 8192, 5,
    wStrHead 0, streamFlit (wStrFlit 1).data, (⟨8192, 5, 0, List.replicate 4096 9⟩ : CacheEntry), by
      unfold State.storesWf
      refine ⟨?_, ⟨rfl, by decide +kernel, by decide +kernel, ⟨_, List.mem_cons_of_mem _ (List.mem_singleton_self _), rfl, rfl⟩,
        by decide +kernel⟩, ?_, ?_, ?_, ?_, ?_, ?_, by decide +kernel, ?_, ?_, okEq (by decide +kernel), rfl, ?_, rfl,
        List.length_replicate⟩ <;> decide +kernel⟩,
   ⟨wStore false [wStrHead 0, wStrFlit 1] Limb.reset wSess, 16, 8192, 5, 6, wStrHead 0, streamFlit (wStrFlit 1).data, by
      unfold State.storesWf
      refine ⟨?_, ⟨rfl, by decide +kernel, by decide +kernel, ⟨_, List.mem_cons_of_mem _ (List.mem_singleton_self _), rfl, rfl⟩,
        by decide +kernel⟩, ?_, ?_, ?_, ?_, ?_, ?_, by decide +kernel, ?_, ?_, okEq (by decide +kernel), ?_, ?_, ?_, ?_⟩ <;> decide +kernel⟩,
   ⟨wStore false [wStrHead 1, wStrFlit 1] Limb.reset wSess, 16, wStrHead 1, wStrFlit 1, by unfold State.storesWf; decide +kernel⟩,
   ⟨wStore false [wStrHead 0, wStrFlit 3] Limb.reset wSess, 16, wStrHead 0, wStrFlit 3, by unfold State.storesWf; decide +kernel⟩,
   ⟨wStore true [wStrHead 0, wStrFlit 1] Limb.reset wSess, 16, wStrHead 0, wStrFlit 1, by unfold State.storesWf; decide +kernel⟩,
   ⟨wStore false [] (wPend [wRead, wAsk]) { wSess with inbox := [wChunk 5 wSealed.2] }, 6, 1, 5, wChunk 5 wSealed.2, [], wRead, wAsk, [7,
     7], by
      unfold State.storesWf State.noInjection
      refine ⟨?_, ?_, ⟨rfl, by decide +kernel⟩, ?_, ?_, rfl, ?_, ?_, ?_, ?_, ?_, ?_, by decide +kernel, ?_, ?_, ?_, ?_, ?_, ?_, by decide +kernel, ?_,
        okEq (by decide +kernel), ?_, wChunk_opens rfl rfl⟩ <;> decide +kernel⟩,
   ⟨wStore false [] (wPend [wRead, wAsk]) { wSess with inbox := [wChunk 4 []] }, 6, 1, 5, 4, wChunk 4 [], [], wRead, wAsk, by
      unfold State.storesWf State.noInjection
      refine ⟨?_, ?_, ⟨rfl, by decide +kernel⟩, ?_, ?_, ?_, ?_, ?_, ?_, by decide +kernel, ?_, ?_, ?_, ?_, ?_, ?_, by decide +kernel, ?_, ?_, ?_, ?_,
        okEq (by decide +kernel), ?_, .inl (by decide), ?_⟩ <;> decide +kernel⟩,
   ⟨wStore false [] (wPend [wRead, wAsk]) { wSess with inbox := [wChunk 5 []] }, 6, 1, 5, 5, wChunk 5 [], [], wRead, wAsk, by
      unfold State.storesWf State.noInjection
      refine ⟨?_, ?_, ⟨rfl, by decide +kernel⟩, ?_, ?_, ?_, ?_, ?_, ?_, by decide +kernel, ?_, ?_, ?_, ?_, ?_, ?_, by decide +kernel, ?_, ?_, ?_, ?_,
        okEq (by decide +kernel), ?_, .inr (gcmOpen_short rfl (by decide)), ?_⟩ <;> decide +kernel⟩,
   ⟨wStore false [] Limb.reset { wSess with inbox := [wChunk 5 wSealed.2] }, 6, wChunk 5 wSealed.2, [], by
      unfold State.storesWf
      refine ⟨?_, ⟨rfl, by decide +kernel⟩, ?_, ?_⟩ <;> decide +kernel⟩,
   ⟨wStore false [] { Limb.reset with cache := [⟨8192, 5, 1, []⟩] } wSess, 1, 8192, (⟨8192, 5, 1, []⟩ : CacheEntry),
     by unfold State.storesWf; decide +kernel⟩⟩

/-- The hypotheses of the clauses of `Obligations.ChunkWrites` hold together somewhere. -/
theorem wit_ChunkWrites :
    (∃ (s : State) (tap base : Nat) (u : NetUnit) (a : StreamFlit), s.storesWf ∧ s.streamAsks tap u a ∧ a.op = 2 ∧
      s.labelBase a.label true = some base ∧ s.chunkOk a.label base a.chunk = true ∧
      (s.mapped (limbOfTap tap) a.label a.chunk).isSome = true ∧ s.mutOk = false) ∧
    (∃ (s : State) (tap base i g : Nat) (u : NetUnit) (a : StreamFlit), s.storesWf ∧ s.streamAsks tap u a ∧ a.op = 2 ∧
      s.labelBase a.label true = some base ∧ s.chunkOk a.label base a.chunk = true ∧ s.mapped (limbOfTap tap) a.label a.chunk = some i ∧
      s.mutOk = true ∧ s.suppressed = false ∧ s.hostBase a.label = none ∧ (s.limb (limbOfTap tap)).freeTag = some g) ∧
    (∃ (s : State) (k v : Nat) (r : PendReq), s.storesWf ∧ k < 12 ∧ s.limbOn k = true ∧ r.session ≠ 1024 ∧ (s.limb k).pending = [r] ∧
      r.kind = .gather ∧ r.count ≤ r.done ∧ (s.tap r.tap).bufV = [] ∧ r.frame.nak = false ∧ r.cls ≠ 0 ∧ s.version (r.addr / 4096) = .ok v ∧
      v + 1 < 2 ^ 56) ∧
    (∃ (s : State) (k : Nat) (r : PendReq), s.storesWf ∧ k < 12 ∧ s.limbOn k = true ∧ (s.limb k).pending = [r] ∧ r.kind = .gather ∧
      r.count ≤ r.done ∧ (s.tap r.tap).bufV = [] ∧ r.frame.nak = true ∧ s.ras.ringCount < 64) ∧
    (∃ (s : State) (i k : Nat) (f : Frame) (rest : List Frame) (r : PendReq), s.storesWf ∧ s.hasNext i f rest ∧ f.resp = true ∧ f.typ = 3 ∧
      s.findReq i (rd f.fields 4 4) = some (k, r) ∧ rd f.fields 0 1 = 0 ∧ r.kind = .streamOpen) ∧
    (∃ (s : State) (i k : Nat) (f : Frame) (rest : List Frame) (r : PendReq) (w : StoreWrite), s.storesWf ∧ s.hasNext i f rest ∧
      f.resp = true ∧ f.typ = 6 ∧ s.findReq i (rd f.fields 4 4) = some (k, r) ∧ rd f.fields 0 1 = 0 ∧ r.kind = .streamWrite ∧
      s.stream.writes.find? (fun w => w.session == r.session && w.addr == r.addr && ! w.acked) = some w ∧ w.group = 0 ∧ (∀ j, j < 12 →
      ∀ q ∈ (s.limb j).pending, q.kind = .stream → q.chunks.contains .idle = false)) ∧
    (∃ (s : State), s.storesWf ∧ s.noInjection ∧ (∃ w ∈ s.stream.writes, w.group = 0) ∧ s.allSent = true ∧ s.stream.treeSent = false ∧
      s.f BARK_TREE_CFG_WIDTH ≠ 0 ∧ (∀ n, n < s.f BARK_TREE_CFG_WIDTH → s.isOpen (s.f BARK_TREE_CFG_FIRST + n) = true)) ∧
    (∃ (s : State), s.storesWf ∧ s.groupAcked 0 = true ∧ s.stream.treeSent = true ∧ s.allSent = true ∧ s.mutOk = false ∧ (∀ j, j < 12 →
      ∀ q ∈ (s.limb j).pending, q.kind = .stream → q.chunks.contains .idle = false)) ∧
    (∃ (s : State), (s.groupAcked 0 = false ∨ s.stream.treeSent = false)) :=
  ⟨⟨{ wStore true [wStrHead 0, wStrFlit 2] Limb.reset wSess with job := (wJobS { wJ with desc := { wDesc with bindings := [⟨2, 1, true, 0, 8192⟩] } }).job }, 16, 8192, wStrHead 0, streamFlit (wStrFlit 2).data, by
      unfold State.storesWf
      refine ⟨?_, ⟨rfl, by decide +kernel, by decide +kernel, ⟨_, List.mem_cons_of_mem _ (List.mem_singleton_self _), rfl, rfl⟩,
        by decide +kernel⟩, ?_, ?_, ?_, ?_, ?_⟩ <;> decide +kernel⟩,
   ⟨wStore true [wStrHead 0, wStrFlit 2] Limb.reset wSess, 16, 8192, 6, 0, wStrHead 0, streamFlit (wStrFlit 2).data, by
      unfold State.storesWf
      refine ⟨?_, ⟨rfl, by decide +kernel, by decide +kernel, ⟨_, List.mem_cons_of_mem _ (List.mem_singleton_self _), rfl, rfl⟩,
        by decide +kernel⟩, ?_, ?_, ?_, ?_, ?_, ?_, ?_, ?_⟩ <;> decide +kernel⟩,
   ⟨wStore true [] (wPend [wGather false]) wSess, 1, 5, wGather false, by
      unfold State.storesWf
      refine ⟨?_, ?_, ?_, ?_, ?_, ?_, by decide +kernel, ?_, ?_, ?_, okEq (by decide +kernel), ?_⟩ <;> decide +kernel⟩,
   ⟨wStore true [] (wPend [wGather true]) wSess, 1, wGather true, by unfold State.storesWf; decide +kernel⟩,
   ⟨{ wStore true [] (wPend [{ wAsk with kind := .streamOpen, label := 2 }]) { wSess with inbox := [wStResp 3] } with stream := ⟨[(6, 2, false)], [], false, (0, 0, 0), []⟩ }, 6, 1, wStResp 3, [], { wAsk with kind := .streamOpen, label := 2 }, by
      unfold State.storesWf
      refine ⟨?_, ⟨rfl, by decide +kernel⟩, ?_, ?_, ?_, ?_, ?_⟩ <;> decide +kernel⟩,
   ⟨{ wStore true [] (wPend [{ wAsk with kind := .streamWrite }]) { wSess with inbox := [wStResp 6] } with stream := ⟨[], [wWrite 0 false], false, (0, 0, 0), []⟩ }, 6, 1, wStResp 6, [], { wAsk with kind := .streamWrite }, wWrite 0 false, by
      unfold State.storesWf
      refine ⟨?_, ⟨rfl, by decide +kernel⟩, ?_, ?_, ?_, ?_, ?_, ?_, ?_, ?_⟩ <;> decide +kernel⟩,
   ⟨wF (wF { wStore true [] Limb.reset wSess with stream := ⟨[], [wWrite 0 false], false, (0, 0, 0), []⟩ } BARK_TREE_CFG_WIDTH 1) BARK_TREE_CFG_FIRST 6, by unfold State.storesWf State.noInjection; decide +kernel⟩,
   ⟨{ wStore true [] Limb.reset wSess with stream := ⟨[], [wWrite 0 true], true, (0, 0, 0), []⟩, job := JobUnit.reset },
     by unfold State.storesWf; decide +kernel⟩,
   ⟨{ wStore true [] Limb.reset wSess with stream := ⟨[], [wWrite 0 true], false, (0, 0, 0), []⟩ }, by decide +kernel⟩⟩

/-- The hypotheses of the clauses of `Obligations.StreamUpkeep` hold together somewhere. -/
theorem wit_StreamUpkeep :
    (∃ (s : State) (k tag d : Nat) (r : PendReq), s.storesWf ∧ s.limbOn k = true ∧
      (s.limb k).pending.find? (fun r => r.tag == tag) = some r ∧ r.reissue = some d ∧ ringBefore s.now d = false) ∧
    (∃ (s : State) (c : Ckpt), s.storesWf ∧ s.job.ckpt = some c ∧ c.dataSent = false ∧ s.power.memShed < 3 ∧ (∀ n, n ≤ s.ckptChunks false →
      ∃ l, l < 12 ∧ (s.mapped l c.label (c.half * (s.ckptChunks false + 1) + n)).isSome = true) ∧ (∀ n, n ≤ s.ckptChunks false →
      s.versionSpent (c.base / 4096 + (c.half * (s.ckptChunks false + 1) + n)) = false)) ∧
    (∃ (s : State) (c : Ckpt), s.storesWf ∧ s.job.ckpt = some c ∧ c.dataSent = true ∧ c.headerSent = false ∧ (∀ w ∈ s.stream.writes,
      w.group = 1 → w.acked = true) ∧ (∀ n, n ≤ s.ckptChunks false → ∃ l, l < 12 ∧
      (s.mapped l c.label (c.half * (s.ckptChunks false + 1) + n)).isSome = true) ∧ (∀ n, n ≤ s.ckptChunks false →
      s.versionSpent (c.base / 4096 + (c.half * (s.ckptChunks false + 1) + n)) = false)) ∧
    (∃ (s : State) (c : Ckpt) (n : Nat), s.storesWf ∧ s.job.ckpt = some c ∧ n ≤ s.ckptChunks false ∧ (∀ l, l < 12 →
      s.mapped l c.label (c.half * (s.ckptChunks false + 1) + n) = none) ∧ s.ras.ringCount < 64) ∧
    (∃ (s : State), s.storesWf ∧ s.busyJob = false) ∧
    (∃ (s : State), s.busyJob = true) ∧
    (∃ (s : State) (w : Word64), s.storesWf ∧ s.busyJob = false ∧ s.openSessions true = [] ∧ STREAM_EXTENT_CHUNKS.of w ≤ 23437500000) ∧
    (∃ (s : State) (w : Word64), s.storesWf ∧ (s.busyJob = true ∨ 23437500000 < STREAM_EXTENT_CHUNKS.of w)) ∧
    (∃ (s : State) (w : Word64), s.storesWf ∧ (s.busyJob = true ∨ 23437500000 < STREAM_EXTENT_CHUNKS.of w)) :=
  ⟨⟨wStore true [] (wPend [{ wAsk with reissue := some 100 }]) wSess, 1, 2, 100, { wAsk with reissue := some 100 },
    by unfold State.storesWf; decide +kernel⟩,
   ⟨wCkpt false, wCk false, by unfold State.storesWf; decide +kernel⟩,
   ⟨wCkpt true, wCk true, by unfold State.storesWf; decide +kernel⟩,
   ⟨{ wCkpt false with ports := [] }, wCk false, 0, by unfold State.storesWf; decide +kernel⟩,
   ⟨{ wStore true [] { Limb.reset with cache := [⟨8192, 5, 0, []⟩] } wSess with job := JobUnit.reset },
     by unfold State.storesWf; decide +kernel⟩,
   ⟨wJobS wJ, by decide +kernel⟩,
   ⟨wRun, wd [(STREAM_EXTENT_CHUNKS, 23437500000)], by unfold State.storesWf; decide +kernel⟩,
   ⟨wRun, wd [(STREAM_EXTENT_CHUNKS, 23437500001)], by unfold State.storesWf; decide +kernel⟩,
   ⟨wJobS wJ, 0, by unfold State.storesWf; decide +kernel⟩⟩

/-- The hypotheses of the clauses of `Obligations.HostLink` hold together somewhere. -/
theorem wit_HostLink :
    (∃ (s : State), s.storesWf ∧ s.hostPowered = true ∧ s.graft.load ≠ .staging) ∧
    (∃ (s : State), s.storesWf ∧ s.hostPowered = true ∧ s.graft.load ≠ .staging) ∧
    (∃ (s : State), s.hostPowered = true ∧ s.graft.load = .staging) ∧
    (∃ (s : State) (speed width : Nat), s.hostPowered = true ∧ s.host.up = false ∧ 1 ≤ speed ∧ speed ≤ 7 ∧ width ∈ [1, 2, 4, 8, 16] ∧
      s.host.clkMode = 0) ∧
    (∃ (s : State), s.host.up = true ∧ s.host.pba = 0) ∧
    (∃ (s : State) (v : Nat), s.host.up = true ∧ v < 32 ∧ s.host.pba = 2 ^ v ∧ s.vecMasked v = false) ∧
    (∃ (s : State), s.host.up = true ∧ s.host.cold = false) ∧
    (∃ (s : State), s.hostPowered = true) ∧
    (∃ (s : State), s.host.cold = true ∧ s.graft.load ≠ .staging) ∧
    (∃ (s : State), s.host.up = true ∧ s.host.ideSecure = true ∧ s.graft.load ≠ .staging ∧ s.ras.ringCount < 64) ∧
    (∃ (s : State), s.host.up = true) ∧
    (∃ (s : State), s.storesWf ∧ s.f JOB_CTRL_ENABLE = 1) ∧
    (∃ (s : State), s.graft.load = .staging) ∧
    (∃ (s : State), s.storesWf) :=
  ⟨⟨{ wHost with host := { wHost.host with epoch := 65535 } }, by unfold State.storesWf; decide +kernel⟩,
   ⟨{ wHost with host := { wHost.host with epoch := 65535 } }, by unfold State.storesWf; decide +kernel⟩,
   ⟨{ wHost with graft := { GraftUnit.reset with load := .staging } }, by decide +kernel⟩,
   ⟨{ wHost with host := { wHost.host with up := false } }, 7, 16, by decide +kernel⟩,
   ⟨wHost, by decide +kernel⟩,
   ⟨{ wHost with host := { wHost.host with pba := 2 ^ 31, msix := [(127, 1)] } }, 31, by decide +kernel⟩,
   ⟨wHost, by decide +kernel⟩,
   ⟨wHost, by decide +kernel⟩,
   ⟨{ wHost with host := { wHost.host with cold := true, up := false } }, by decide +kernel⟩,
   ⟨{ wHost with host := { wHost.host with ideSecure := true } }, by decide +kernel⟩,
   ⟨wHost, by decide +kernel⟩,
   ⟨wPost, by unfold State.storesWf; decide +kernel⟩,
   ⟨{ wHost with graft := { GraftUnit.reset with load := .staging } }, by decide +kernel⟩,
   ⟨wHost, by unfold State.storesWf; decide +kernel⟩⟩

/-- The hypotheses of the clauses of `Obligations.RegisterWrites` hold together somewhere. -/
theorem wit_RegisterWrites :
    (∃ (s : State) (w : Word64), s.storesWf ∧ 240 ≤ PWR_CAP_ENGINE_CAP.of w ∧ PWR_CAP_ENGINE_CAP.of w ≤ 920) ∧
    (∃ (s : State) (w : Word64), s.storesWf ∧ 240 ≤ PWR_CAP_ENGINE_CAP.of w ∧ PWR_CAP_ENGINE_CAP.of w ≤ 920) ∧
    (∃ (s : State) (w : Word64), s.storesWf ∧ (PWR_CAP_ENGINE_CAP.of w < 240 ∨ 920 < PWR_CAP_ENGINE_CAP.of w)) ∧
    (∃ (s : State) (w : Word64), s.storesWf ∧ (PWR_CAP_ENGINE_CAP.of w < 240 ∨ 920 < PWR_CAP_ENGINE_CAP.of w)) ∧
    (∃ (s : State), s.storesWf) ∧
    (∃ (s : State), s.f JOB_CTRL_ENABLE = 1) ∧
    (∃ (s : State), s.busyJob = true) ∧
    (∃ (s : State), s.storesWf ∧ s.bark.sealed = true) ∧
    (∃ (s : State), s.storesWf ∧ s.bark.sealed = false) ∧
    (∃ (s : State) (a : Nat), s.barkBusy = false ∧ s.bark.mbox.wf = true ∧ a < 2048) ∧
    (∃ (a : Nat), a ∈ [0x0, 0x8, 0x10018, 0x50010, 0x60020, 0xC0000, 0xE0008]) ∧
    (∃ (a : Nat), a ∈ [0x0, 0x8, 0x10018, 0x50010, 0x60020, 0xC0000, 0xE0008]) ∧
    (∃ (a : Nat), a ∈ [0x0, 0x8, 0x10018, 0x50010, 0x60020, 0xC0000, 0xE0008]) ∧
    (∃ (a : Nat), a ∈ [0x0, 0x8, 0x10018, 0x50010, 0x60020, 0xC0000, 0xE0008]) ∧
    (∃ (a : Nat), a ∈ [0x0, 0x8, 0x10018, 0x50010, 0x60020, 0xC0000, 0xE0008]) ∧
    (∃ (a : Nat), a ∈ [0x0, 0x8, 0x10018, 0x50010, 0x60020, 0xC0000, 0xE0008]) ∧
    (∃ (a : Nat), a ∈ [0x0, 0x8, 0x10018, 0x50010, 0x60020, 0xC0000, 0xE0008]) ∧
    (∃ (s : State), s.storesWf) ∧
    (∃ (s : State), s.storesWf) ∧
    (∃ (s : State), s.storesWf) :=
  ⟨⟨wRun, wd [(PWR_CAP_ENGINE_CAP, 240)], by unfold State.storesWf; decide +kernel⟩,
   ⟨wRun, wd [(PWR_CAP_ENGINE_CAP, 920)], by unfold State.storesWf; decide +kernel⟩,
   ⟨wRun, wd [(PWR_CAP_ENGINE_CAP, 239)], by unfold State.storesWf; decide +kernel⟩,
   ⟨wRun, wd [(PWR_CAP_ENGINE_CAP, 921)], by unfold State.storesWf; decide +kernel⟩,
   ⟨wF wRun JOB_STATUS_POST_ERR 1, by unfold State.storesWf; decide +kernel⟩,
   ⟨wPost, by decide +kernel⟩,
   ⟨wJobS wJ, by decide +kernel⟩,
   ⟨{ wRun with bark := { wRun.bark with sealed := true } }, by unfold State.storesWf; decide +kernel⟩,
   ⟨wRun, by unfold State.storesWf; decide +kernel⟩,
   ⟨wRun, 2047, by decide +kernel⟩,
   ⟨0x0, by decide +kernel⟩,
   ⟨0x8, by decide +kernel⟩,
   ⟨0x10018, by decide +kernel⟩,
   ⟨0x50010, by decide +kernel⟩,
   ⟨0x60020, by decide +kernel⟩,
   ⟨0xC0000, by decide +kernel⟩,
   ⟨0xE0008, by decide +kernel⟩,
   ⟨wF wRun ID_INT_CAUSE_CAUSE 3, by unfold State.storesWf; decide +kernel⟩,
   ⟨wF wRun ID_INT_CAUSE_CAUSE 3, by unfold State.storesWf; decide +kernel⟩,
   ⟨wF { wRun with host := { wRun.host with up := true, bme := true, msix := [(7, 1)] } } ID_INT_CAUSE_CAUSE 3,
     by unfold State.storesWf; decide +kernel⟩⟩

/-- The hypotheses of the clauses of `Obligations.ManagementAnswers` hold together somewhere. -/
theorem wit_ManagementAnswers :
    (∃ (s : State) (a : Nat), s.storesWf ∧ s.modl.standby = true ∧ a < 128) ∧
    (∃ (s : State), s.storesWf ∧ s.modl.standby = true ∧ s.boot.handover = false) ∧
    (∃ (s : State), s.storesWf ∧ s.modl.standby = true ∧ s.boot.handover = false) ∧
    (∃ (s : State), s.modl.standby = true ∧ s.boot.handover = false ∧ s.boot.trunk = true) ∧
    (∃ (s : State) (i : Nat) (r : FaultRec), s.modl.standby = true ∧ s.boot.handover = false ∧ s.boot.trunk = true ∧ i < 16 ∧
      s.ras.log[i]? = some r) ∧
    (∃ (s : State) (i : Nat), s.modl.standby = true ∧ s.boot.handover = false ∧ s.boot.trunk = true ∧ (s.ras.log.length ≤ i ∨ 16 ≤ i)) ∧
    (∃ (s : State) (i : Nat), s.modl.standby = true ∧ s.boot.handover = false ∧ s.boot.trunk = true ∧ (s.ras.log.length ≤ i ∨ 16 ≤ i)) ∧
    (∃ (s : State) (p : Instr × Nat), s.storesWf ∧ s.modl.standby = true ∧ s.boot.handover = false ∧ s.boot.trunk = false ∧
      p ∈ [(Instr.getEnv, 3), (.clearLoss, 0x14), (.setCap 240, 0x11), (.setPower 0, 0x10)]) ∧
    (∃ (s : State) (p : Instr × Nat), s.storesWf ∧ s.modl.standby = true ∧ s.boot.handover = false ∧ s.boot.trunk = false ∧
      p ∈ [(Instr.getEnv, 3), (.clearLoss, 0x14), (.setCap 240, 0x11), (.setPower 0, 0x10)]) :=
  ⟨⟨wMgmt, 127, by unfold State.storesWf; decide +kernel⟩,
   ⟨wMgmt, by unfold State.storesWf; decide +kernel⟩,
   ⟨wMgmt, by unfold State.storesWf; decide +kernel⟩,
   ⟨wMgmt, by decide +kernel⟩,
   ⟨{ wMgmt with ras := { wMgmt.ras with log := List.replicate 16 wRec } }, 15, wRec, by decide +kernel⟩,
   ⟨{ wMgmt with ras := { wMgmt.ras with log := List.replicate 17 wRec } }, 16, by decide +kernel⟩,
   ⟨wMgmt, 0, by decide +kernel⟩,
   ⟨{ wMgmt with boot := { wMgmt.boot with trunk := false } }, (Instr.getEnv, 3), by unfold State.storesWf; decide +kernel⟩,
   ⟨{ wMgmt with boot := { wMgmt.boot with trunk := false } }, (.setPower 0, 0x10), by unfold State.storesWf; decide +kernel⟩⟩

/-- The hypotheses of the clauses of `Obligations.ManagementOrders` hold together somewhere. -/
theorem wit_ManagementOrders :
    (∃ (s : State), s.modl.standby = true ∧ s.boot.handover = false ∧ s.boot.trunk = true ∧ s.power.state = .run ∧
      s.power.transit = .none ∧ s.mgmt.wakeAt = none) ∧
    (∃ (s : State) (n : Nat), s.modl.standby = true ∧ s.boot.handover = false ∧ s.boot.trunk = true ∧ s.power.state ≠ .off ∧ 240 ≤ n ∧
      n ≤ 920) ∧
    (∃ (s : State) (n : Nat), s.modl.standby = true ∧ s.boot.handover = false ∧ s.boot.trunk = true ∧ s.power.state ≠ .off ∧ 240 ≤ n ∧
      n ≤ 920) ∧
    (∃ (s : State) (n : Nat), s.modl.standby = true ∧ s.boot.handover = false ∧ s.boot.trunk = true ∧ s.power.state ≠ .off ∧ (n < 240 ∨
      920 < n)) ∧
    (∃ (s : State) (n : Nat), s.modl.standby = true ∧ s.boot.handover = false ∧ s.boot.trunk = true ∧ s.power.state ≠ .off ∧ (n < 240 ∨
      920 < n)) ∧
    (∃ (s : State) (j : Job), s.modl.standby = true ∧ s.boot.handover = false ∧ s.boot.trunk = true ∧ s.power.state ≠ .off ∧
      s.job.cur = some j ∧ j.abort = none) ∧
    (∃ (s : State), s.modl.standby = true ∧ s.boot.handover = false ∧ s.boot.trunk = true ∧ s.power.state ≠ .off) ∧
    (∃ (s : State), s.modl.standby = true ∧ s.boot.handover = false ∧ s.boot.trunk = true ∧ s.power.state ≠ .off ∧ s.hostPowered = true ∧
      s.graft.load ≠ .staging) ∧
    (∃ (s : State), s.storesWf ∧ s.modl.standby = true ∧ s.boot.handover = false ∧ s.boot.trunk = true) ∧
    (∃ (s : State), s.modl.standby = true ∧ s.boot.handover = false) ∧
    (∃ (s : State) (off : Nat) (bs : List Byte), s.modl.standby = true ∧ s.boot.handover = false ∧ s.boot.buffer.wf = true ∧
      bs.length ≤ 28 ∧ off + bs.length ≤ 2 ^ 24) ∧
    (∃ (s : State) (off : Nat) (bs : List Byte), s.modl.standby = true ∧ s.boot.handover = false ∧ (28 < bs.length ∨
      2 ^ 24 < off + bs.length)) ∧
    (∃ (s : State) (off : Nat) (bs : List Byte), s.modl.standby = true ∧ s.boot.handover = false ∧ (28 < bs.length ∨
      2 ^ 24 < off + bs.length)) ∧
    (∃ (s : State) (kind : Nat), s.noInjection ∧ s.modl.standby = true ∧ s.boot.handover = false ∧ s.boot.recovery.accepts kind = true) ∧
    (∃ (s : State) (kind : Nat), s.modl.standby = true ∧ s.boot.handover = false ∧ s.boot.recovery.accepts kind = false) ∧
    (∃ (s : State), s.boot.rebootDue = true) :=
  ⟨⟨wMgmt, by decide +kernel⟩,
   ⟨wMgmt, 240, by decide +kernel⟩,
   ⟨wMgmt, 920, by decide +kernel⟩,
   ⟨wMgmt, 239, by decide +kernel⟩,
   ⟨wMgmt, 921, by decide +kernel⟩,
   ⟨{ wMgmt with job := (wJobS wJ).job }, wJ, by decide +kernel⟩,
   ⟨wMgmt, by decide +kernel⟩,
   ⟨wMgmt, by decide +kernel⟩,
   ⟨wF wMgmt CLK_SRC_LOSS 1, by unfold State.storesWf; decide +kernel⟩,
   ⟨wMgmt, by decide +kernel⟩,
   ⟨wMgmt, 2 ^ 24 - 2, [5, 6], by decide +kernel⟩,
   ⟨wMgmt, 2 ^ 24 - 1, [5, 6], by decide +kernel⟩,
   ⟨wMgmt, 0, List.replicate 29 0, by decide +kernel⟩,
   ⟨wRecov, 1, by unfold State.noInjection; decide +kernel⟩,
   ⟨{ wRecov with boot := { wRecov.boot with recovery := .rom } }, 2, by decide +kernel⟩,
   ⟨{ wRecov with boot := { wRecov.boot with rebootDue := true } }, by decide +kernel⟩⟩

/-- The hypotheses of the clauses of `Obligations.BarkMailbox` hold together somewhere. -/
theorem wit_BarkMailbox :
    (∃ (s : State), s.storesWf ∧ s.noInjection ∧ s.barkBusy = false ∧ s.bark.entropyOk = true) ∧
    (∃ (s : State), s.storesWf ∧ s.noInjection ∧ s.barkBusy = false ∧ s.bark.entropyOk = false) ∧
    (∃ (s : State) (n : Nat) (top : List Byte) (c : Instr), s.storesWf ∧ s.barkBusy = true ∧ c ∈ [Instr.newNonce, .deviceCert, .attest n,
      .barkClaim n, .release n, .recover n, .hostOpen n, .grant n, .revoke n, .keyLoad n, .smkGenerate n, .smkExport n, .treeReset n,
      .rootLoad n top, .rollbackAdvance n, .planeRead n, .fwWrite n, .fwCommit n, .fwActivate n]) ∧
    (∃ (s : State) (n : Nat) (top : List Byte) (c : Instr), s.storesWf ∧ s.barkBusy = true ∧ c ∈ [Instr.newNonce, .deviceCert, .attest n,
      .barkClaim n, .release n, .recover n, .hostOpen n, .grant n, .revoke n, .keyLoad n, .smkGenerate n, .smkExport n, .treeReset n,
      .rootLoad n top, .rollbackAdvance n, .planeRead n, .fwWrite n, .fwCommit n, .fwActivate n]) ∧
    (∃ (s : State), s.storesWf ∧ s.barkBusy = false) ∧
    (∃ (s : State), s.storesWf ∧ s.barkBusy = false ∧ s.bark.lmsDone = false ∧ s.bark.lmsLeaf + 1 < 1024 ∧ rd (s.input 40) 32 8 % 2 = 0) ∧
    (∃ (s : State), s.storesWf ∧ s.barkBusy = false ∧ s.bark.lmsDone = true) ∧
    (∃ (s : State), s.storesWf ∧ s.barkBusy = false ∧ s.bark.lmsDone = false ∧ rd (s.input 40) 32 8 % 2 = 1) ∧
    (∃ (s : State) (ch : List Byte), s.storesWf ∧ s.bark.attest = some ch ∧ s.jobOn = false ∧ s.bark.lmsDone = false ∧
      s.bark.lmsLeaf + 1 < 1024 ∧ s.bark.meas.length = 9) ∧
    (∃ (s : State) (ch : List Byte), s.storesWf ∧ s.bark.attest = some ch ∧ s.jobOn = true) ∧
    (∃ (s : State) (n : Nat) (b : Bool), s.noInjection ∧ n ≤ 15 ∧ (s.flash.helperOk && b) = true) ∧
    (∃ (s : State) (n : Nat) (b : Bool), s.noInjection ∧ (15 < n ∨ (s.flash.helperOk && b) = false) ∧ s.ras.ringCount < 64) ∧
    (∃ (s : State) (n : Nat) (b : Bool), s.noInjection ∧ (15 < n ∨ (s.flash.helperOk && b) = false) ∧ s.ras.ringCount < 64) :=
  ⟨⟨wMgmt, by unfold State.storesWf State.noInjection; decide +kernel⟩,
   ⟨{ wMgmt with bark := { wMgmt.bark with entropyOk := false } }, by unfold State.storesWf State.noInjection; decide +kernel⟩,
   ⟨{ wMgmt with bark := { wMgmt.bark with attest := some [] } }, 40, [], .newNonce, by unfold State.storesWf; decide +kernel⟩,
   ⟨{ wMgmt with bark := { wMgmt.bark with attest := some [] } }, 40, [], .fwActivate 40, by unfold State.storesWf; decide +kernel⟩,
   ⟨wMgmt, by unfold State.storesWf; decide +kernel⟩,
   ⟨wBox ({ wMgmt with bark := { wMgmt.bark with lmsLeaf := 1022 } }) (List.replicate 32 9 ++ [0]),
     by unfold State.storesWf; decide +kernel⟩,
   ⟨{ wMgmt with bark := { wMgmt.bark with lmsDone := true } }, by unfold State.storesWf; decide +kernel⟩,
   ⟨wBox ({ wMgmt with bark := { wMgmt.bark with lmsLeaf := 5 } }) (List.replicate 32 9 ++ [1]), by unfold State.storesWf; decide +kernel⟩,
   ⟨{ wMgmt with bark := { wMgmt.bark with lmsLeaf := 1022, attest := some (List.replicate 32 9) } }, List.replicate 32 9,
     by unfold State.storesWf; decide +kernel⟩,
   ⟨{ { wMgmt with bark := { wMgmt.bark with attest := some [] } } with job := (wJobS wJ).job }, [],
     by unfold State.storesWf; decide +kernel⟩,
   ⟨wMgmt, 15, true, by unfold State.noInjection; decide +kernel⟩,
   ⟨wMgmt, 16, true, by unfold State.noInjection; decide +kernel⟩,
   ⟨wMgmt, 0, false, by unfold State.noInjection; decide +kernel⟩⟩

/-- The hypotheses of the clauses of `Obligations.Ownership` hold together somewhere. -/
theorem wit_Ownership :
    (∃ (s : State) (len : Nat), s.storesWf ∧ s.noInjection ∧ s.barkBusy = false ∧ s.bark.entropyOk = true ∧ len ≤ 16384 ∧ s.owner = 0 ∧
      s.anyLimit (ownerRegs ++ [0x1BE, 0x1BF]) = false ∧ s.hwIdle) ∧
    (∃ (s : State) (len : Nat), s.storesWf ∧ s.barkBusy = false ∧ len ≤ 16384 ∧ s.owner ≠ 0) ∧
    (∃ (s : State) (len : Nat), s.storesWf ∧ s.noInjection ∧ s.barkBusy = false ∧ s.bark.entropyOk = true ∧ len ≤ 16384 ∧ s.owner = 1 ∧
      s.jobPresent = false ∧ (s.hwReg 0x1BE).atLimit = false ∧ s.hwIdle) ∧
    (∃ (s : State) (len : Nat), s.storesWf ∧ s.barkBusy = false ∧ len ≤ 16384 ∧ (s.owner ≠ 1 ∨ s.jobPresent = true)) ∧
    (∃ (s : State) (len : Nat), s.storesWf ∧ s.barkBusy = false ∧ len ≤ 16384 ∧ (s.owner ≠ 1 ∨ s.jobPresent = true)) ∧
    (∃ (s : State) (len n : Nat), s.storesWf ∧ s.noInjection ∧ s.barkBusy = false ∧ s.bark.entropyOk = true ∧ len ≤ 16384 ∧ s.owner ≠ 2 ∧
      s.bark.scrubbing = false ∧ (s.hwReg 0x1BE).atLimit = false ∧ s.hwIdle ∧ s.jobPresent = false ∧
      n = 64 + rd (s.input len) 0x30 4 + sigBlock ∧ (s.input len).length ≤ n) ∧
    (∃ (s : State) (len : Nat), s.storesWf ∧ s.barkBusy = false ∧ len ≤ 16384 ∧ (s.owner = 2 ∨ s.bark.scrubbing = true)) ∧
    (∃ (s : State), s.storesWf ∧ s.bark.scrubbing = true ∧ s.owner = 2 ∧ s.jobOn = false ∧ (s.hwReg 0x1BE).atLimit = false) ∧
    (∃ (s : State), (s.bark.scrubbing = false ∨ s.jobOn = true)) :=
  ⟨⟨wBox (wOwn 0) (wHeadBody 1 ([])), 5393, by unfold State.storesWf State.noInjection State.hwIdle; decide +kernel⟩,
   ⟨wBox (wOwn 1) (wHeadBody 1 ([])), 5393, by unfold State.storesWf; decide +kernel⟩,
   ⟨wBox (wOwn 1) (wHeadBody 2 ([])), 5393, by unfold State.storesWf State.noInjection State.hwIdle; decide +kernel⟩,
   ⟨wOwn 0, 5393, by unfold State.storesWf; decide +kernel⟩,
   ⟨{ wOwn 1 with job := (wJobS wJ).job }, 0, by unfold State.storesWf; decide +kernel⟩,
   ⟨wBox (wOwn 1) (wHeadBody 3 ([])), 5393, 5393, by
      unfold State.storesWf State.noInjection State.hwIdle
      refine ⟨?_, ?_, ?_, ?_, ?_, ?_, by decide +kernel, ?_, ?_, ?_, ?_, Nat.le_of_eq (Memory.readBytes_length _ _ _)⟩ <;> decide +kernel⟩,
   ⟨wOwn 2, 5393, by unfold State.storesWf; decide +kernel⟩,
   ⟨{ wOwn 2 with bark := { (wOwn 2).bark with scrubbing := true } }, by unfold State.storesWf; decide +kernel⟩,
   ⟨wMgmt, by decide +kernel⟩⟩

/-- The hypotheses of some clauses of `Obligations.HostSessionAndGrants` hold together somewhere. -/
theorem wit_HostSessionAndGrants :
    (∃ (s : State) (len : Nat) (inp cred : List Byte), s.storesWf ∧ s.noInjection ∧ s.barkBusy = false ∧ s.bark.entropyOk = true ∧
      s.owner = 1 ∧ s.bark.lmsDone = false ∧ s.bark.lmsLeaf + 1 < 1024 ∧ len = 1681 + 64 + 176 + 2 * sigBlock ∧ inp = s.input len ∧
      cred = cut inp 1681 (64 + 176 + sigBlock)) ∧
    (∃ (s : State) (len : Nat) (inp cred : List Byte), s.storesWf ∧ s.noInjection ∧ s.barkBusy = false ∧ s.bark.entropyOk = true ∧
      s.owner = 1 ∧ s.bark.lmsDone = false ∧ s.bark.lmsLeaf + 1 < 1024 ∧ len = 1681 + 64 + 176 + 2 * sigBlock ∧ inp = s.input len ∧
      cred = cut inp 1681 (64 + 176 + sigBlock)) ∧
    (∃ (s : State) (len : Nat) (c : Instr), s.storesWf ∧ s.barkBusy = false ∧ len ≤ 16384 ∧ s.owner ≠ 1 ∧ c ∈ [Instr.hostOpen len,
      .grant len]) ∧
    (∃ (s : State) (len : Nat) (c : Instr), s.storesWf ∧ s.barkBusy = false ∧ len ≤ 16384 ∧ s.owner ≠ 1 ∧ c ∈ [Instr.hostOpen len,
      .grant len]) ∧
    (∃ (s : State) (len : Nat) (top : List Byte) (c : Instr), s.storesWf ∧ s.barkBusy = false ∧ len ≤ 16384 ∧ s.bark.host = none ∧
      c ∈ [Instr.revoke len, .keyLoad len, .smkGenerate len, .smkExport len, .treeReset len, .rootLoad len top, .rollbackAdvance len,
      .planeRead len, .fwWrite len, .fwCommit len, .fwActivate len]) ∧
    (∃ (s : State) (len : Nat) (top : List Byte) (c : Instr), s.storesWf ∧ s.barkBusy = false ∧ len ≤ 16384 ∧ s.bark.host = none ∧
      c ∈ [Instr.revoke len, .keyLoad len, .smkGenerate len, .smkExport len, .treeReset len, .rootLoad len top, .rollbackAdvance len,
      .planeRead len, .fwWrite len, .fwCommit len, .fwActivate len]) ∧
    (∃ (s : State) (len : Nat) (h : HostSess) (c : Instr), s.storesWf ∧ s.barkBusy = false ∧ len ≤ 16384 ∧ s.bark.host = some h ∧
      len = 32 + rd (s.input len) 8 4 ∧ rd (s.input len) 12 4 = 0 ∧ (openEnvelope h.key (s.input len) = none ∨ (∃ c, h.hostCtr = some c ∧
      rd (s.input len) 0 8 ≤ c)) ∧ c ∈ [Instr.revoke len, .rollbackAdvance len, .fwWrite len, .fwCommit len]) ∧
    (∃ (s : State) (len : Nat) (h : HostSess) (c : Instr), s.storesWf ∧ s.barkBusy = false ∧ len ≤ 16384 ∧ s.bark.host = some h ∧
      len = 32 + rd (s.input len) 8 4 ∧ rd (s.input len) 12 4 = 0 ∧ (openEnvelope h.key (s.input len) = none ∨ (∃ c, h.hostCtr = some c ∧
      rd (s.input len) 0 8 ≤ c)) ∧ c ∈ [Instr.revoke len, .rollbackAdvance len, .fwWrite len, .fwCommit len]) ∧
    (∃ (s : State) (len : Nat), s.storesWf ∧ s.noInjection ∧ s.barkBusy = false ∧ s.bark.entropyOk = true ∧ len ≤ 16384 ∧ s.owner = 1 ∧
      s.bark.grant = none ∧ rd (s.input len) 72 8 < 4 ∧ s.f BARK_POLICY_GRANTS_ALLOWED = 1 ∧ rd (s.input len) 96 2 = s.engineEpoch ∧
      ringBefore (rd (s.input len) 88 8 % 2 ^ 48) s.now = false) ∧
    (∃ (s : State) (g : Grant), s.bark.grant = some g ∧ g.on = false ∧ ringBefore s.now g.first = false) :=
  ⟨⟨wBox (wOwn 1) wOpenIn, 12579, (wBox (wOwn 1) wOpenIn).input 12579, cut ((wBox (wOwn 1) wOpenIn).input 12579) 1681 5569, by
      unfold State.storesWf State.noInjection
      refine ⟨?_, ?_, ?_, ?_, ?_, ?_, ?_, ?_, rfl, rfl⟩ <;> decide +kernel⟩,
   ⟨wOwn 1, 12579, (wOwn 1).input 12579, cut ((wOwn 1).input 12579) 1681 5569, by
      unfold State.storesWf State.noInjection
      refine ⟨?_, ?_, ?_, ?_, ?_, ?_, ?_, ?_, rfl, rfl⟩ <;> decide +kernel⟩,
   ⟨wMgmt, 0, .hostOpen 0, by unfold State.storesWf; decide +kernel⟩,
   ⟨wMgmt, 0, .grant 0, by unfold State.storesWf; decide +kernel⟩,
   ⟨wMgmt, 32, [], .revoke 32, by unfold State.storesWf; decide +kernel⟩,
   ⟨wMgmt, 32, [], .fwActivate 32, by unfold State.storesWf; decide +kernel⟩,
   ⟨wBox wEnvS (leBytes 8 4), 32, wHS, .revoke 32, by
      unfold State.storesWf
      refine ⟨?_, ?_, ?_, ?_, ?_, ?_, .inr ⟨4, rfl, by decide +kernel⟩, ?_⟩ <;> decide +kernel⟩,
   ⟨wBox wEnvS (leBytes 8 4), 32, wHS, .fwCommit 32, by
      unfold State.storesWf
      refine ⟨?_, ?_, ?_, ?_, ?_, ?_, .inr ⟨4, rfl, by decide +kernel⟩, ?_⟩ <;> decide +kernel⟩,
   ⟨wF (wBox (wOwn 1) (wHeadBody 4 (leBytes 8 0 ++ leBytes 8 3 ++ leBytes 8 90 ++ leBytes 8 100 ++ leBytes 2 0))) BARK_POLICY_GRANTS_ALLOWED 1, 5427, by unfold State.storesWf State.noInjection; decide +kernel⟩,
   ⟨wGrantS { wGrant with on := false, first := 100 }, { wGrant with on := false, first := 100 }, by decide +kernel⟩⟩

/-- The hypotheses of some clauses of `Obligations.HostSessionAndGrants` hold together somewhere. -/
theorem wit_HostSessionAndGrants_2 :
    (∃ (s : State) (g : Grant), s.bark.grant = some g ∧ ringBefore g.last s.now = true) ∧
    (∃ (s : State) (g : Grant), s.bark.grant = some g ∧ ringBefore g.last s.now = false) ∧
    (∃ (s : State) (len : Nat) (h : HostSess) (p : List Byte), s.storesWf ∧ len ≤ 16384 ∧ s.takes len h p) ∧
    (∃ (s : State) (len : Nat) (h : HostSess) (p : List Byte), s.storesWf ∧ len ≤ 16384 ∧ s.takes len h p ∧ s.jobPresent = false ∧
      p.length = 34 ∧ rd p 0 1 = 1 ∧ rd p 1 1 < 16) ∧
    (∃ (s : State) (len : Nat) (h : HostSess) (p : List Byte), s.storesWf ∧ s.noInjection ∧ len ≤ 16384 ∧ s.takes len h p ∧
      s.jobPresent = false ∧ s.bark.entropyOk = true) ∧
    (∃ (s : State) (len : Nat) (h : HostSess) (p k : List Byte), s.storesWf ∧ len ≤ 16384 ∧ s.takes len h p ∧ s.cert.line ≠ 1 ∧
      s.bark.smk = some k) ∧
    (∃ (s : State) (len : Nat) (h : HostSess) (p : List Byte), s.storesWf ∧ len ≤ 16384 ∧ s.takes len h p ∧ s.jobPresent = false ∧
      (s.hwReg 0x1BF).atLimit = false) ∧
    (∃ (s : State) (len : Nat) (h : HostSess) (p top : List Byte), s.storesWf ∧ len ≤ 16384 ∧ s.takes len h p ∧ s.jobPresent = false ∧
      p.length = 48 ∧ top.length = 64) ∧
    (∃ (s : State) (len n : Nat) (h : HostSess) (p : List Byte), s.storesWf ∧ len ≤ 16384 ∧ s.takes len h p ∧ s.hwIdle ∧ p.length = 9 ∧
      rd p 0 1 = n ∧ 4 ≤ n ∧ n ≤ 7 ∧ s.hwVal (0x1B0 + n) < rd p 1 8 ∧ (s.hwReg (0x1B0 + n)).atLimit = false) ∧
    (∃ (s : State) (len n : Nat) (h : HostSess) (p : List Byte), s.storesWf ∧ len ≤ 16384 ∧ s.takes len h p ∧ s.hwIdle ∧ p.length = 9 ∧
      rd p 0 1 = n ∧ 4 ≤ n ∧ n ≤ 7 ∧ s.hwVal (0x1B0 + n) < rd p 1 8 ∧ (s.hwReg (0x1B0 + n)).atLimit = false) :=
  ⟨⟨wGrantS { wGrant with last := 99 }, { wGrant with last := 99 }, by decide +kernel⟩,
   ⟨wGrantS { wGrant with last := 100 }, { wGrant with last := 100 }, by decide +kernel⟩,
   ⟨wEnv (wGrantS wGrant) ([]), 32, wHS, [], by
      unfold State.storesWf
      refine ⟨?_, ?_, takesOf (c := 5) rfl rfl rfl rfl rfl rfl rfl⟩ <;> decide +kernel⟩,
   ⟨wEnv (wEnvS) ([1, 15] ++ List.replicate 32 7), 66, wHS, [1, 15] ++ List.replicate 32 7, by
      unfold State.storesWf
      refine ⟨?_, ?_, takesOf (c := 5) rfl rfl rfl rfl rfl rfl rfl, ?_, ?_, ?_, ?_⟩ <;> decide +kernel⟩,
   ⟨wEnv (wEnvS) ([]), 32, wHS, [], by
      unfold State.storesWf State.noInjection
      refine ⟨?_, ?_, ?_, takesOf (c := 5) rfl rfl rfl rfl rfl rfl rfl, ?_, ?_⟩ <;> decide +kernel⟩,
   ⟨wEnv ({ wEnvS with bark := { wEnvS.bark with smk := some [8] } }) ([]), 32, wHS, [], [8], by
      unfold State.storesWf
      refine ⟨?_, ?_, takesOf (c := 5) rfl rfl rfl rfl rfl rfl rfl, ?_, ?_⟩ <;> decide +kernel⟩,
   ⟨wEnv (wEnvS) ([]), 32, wHS, [], by
      unfold State.storesWf
      refine ⟨?_, ?_, takesOf (c := 5) rfl rfl rfl rfl rfl rfl rfl, ?_, ?_⟩ <;> decide +kernel⟩,
   ⟨wEnv (wEnvS) (List.replicate 48 0), 80, wHS, List.replicate 48 0, List.replicate 64 0, by
      unfold State.storesWf
      refine ⟨?_, ?_, takesOf (c := 5) rfl rfl rfl rfl rfl rfl rfl, ?_, ?_, ?_⟩ <;> decide +kernel⟩,
   ⟨wEnv (wEnvS) ([7] ++ leBytes 8 1), 41, 7, wHS, [7] ++ leBytes 8 1, by
      unfold State.storesWf State.hwIdle
      refine ⟨?_, ?_, takesOf (c := 5) rfl rfl rfl rfl rfl rfl rfl, ?_, ?_, ?_, ?_, ?_, ?_, ?_⟩ <;> decide +kernel⟩,
   ⟨wEnv (wEnvS) ([4] ++ leBytes 8 1), 41, 4, wHS, [4] ++ leBytes 8 1, by
      unfold State.storesWf State.hwIdle
      refine ⟨?_, ?_, takesOf (c := 5) rfl rfl rfl rfl rfl rfl rfl, ?_, ?_, ?_, ?_, ?_, ?_, ?_⟩ <;> decide +kernel⟩⟩

/-- The hypotheses of some clauses of `Obligations.HostSessionAndGrants` hold together somewhere. -/
theorem wit_HostSessionAndGrants_3 :
    (∃ (s : State) (len n : Nat) (h : HostSess) (p : List Byte), s.storesWf ∧ len ≤ 16384 ∧ s.takes len h p ∧ s.hwIdle ∧ p.length = 9 ∧
      rd p 0 1 = n ∧ (rd p 1 8 ≤ s.hwVal (0x1B0 + n) ∨ n < 4 ∨ 7 < n)) ∧
    (∃ (s : State) (len n : Nat) (h : HostSess) (p : List Byte), s.storesWf ∧ len ≤ 16384 ∧ s.takes len h p ∧ s.hwIdle ∧ p.length = 9 ∧
      rd p 0 1 = n ∧ (rd p 1 8 ≤ s.hwVal (0x1B0 + n) ∨ n < 4 ∨ 7 < n)) ∧
    (∃ (s : State) (len n : Nat) (h : HostSess) (p : List Byte), s.storesWf ∧ len ≤ 16384 ∧ s.takes len h p ∧ s.hwIdle ∧ p.length = 9 ∧
      rd p 0 1 = n ∧ (rd p 1 8 ≤ s.hwVal (0x1B0 + n) ∨ n < 4 ∨ 7 < n)) ∧
    (∃ (s : State) (len : Nat) (h : HostSess) (p : List Byte) (g : Grant), s.storesWf ∧ len ≤ 16384 ∧ s.takes len h p ∧
      s.grantNow = some g ∧ g.planeRead = true ∧ p.length = 5 ∧ rd p 4 1 < 2 ∧ s.inGrid (rd p 0 2) (rd p 2 2) = true ∧
      s.domain (s.dieOf (rd p 0 2) (rd p 2 2)) = .on) ∧
    (∃ (s : State) (len : Nat) (h : HostSess) (p : List Byte), s.storesWf ∧ len ≤ 16384 ∧ s.takes len h p ∧ s.grantNow = none) :=
  ⟨⟨wEnv (wEnvS) ([7] ++ leBytes 8 0), 41, 7, wHS, [7] ++ leBytes 8 0, by
      unfold State.storesWf State.hwIdle
      refine ⟨?_, ?_, takesOf (c := 5) rfl rfl rfl rfl rfl rfl rfl, ?_, ?_, ?_, ?_⟩ <;> decide +kernel⟩,
   ⟨wEnv (wEnvS) ([3] ++ leBytes 8 9), 41, 3, wHS, [3] ++ leBytes 8 9, by
      unfold State.storesWf State.hwIdle
      refine ⟨?_, ?_, takesOf (c := 5) rfl rfl rfl rfl rfl rfl rfl, ?_, ?_, ?_, ?_⟩ <;> decide +kernel⟩,
   ⟨wEnv (wEnvS) ([8] ++ leBytes 8 9), 41, 8, wHS, [8] ++ leBytes 8 9, by
      unfold State.storesWf State.hwIdle
      refine ⟨?_, ?_, takesOf (c := 5) rfl rfl rfl rfl rfl rfl rfl, ?_, ?_, ?_, ?_⟩ <;> decide +kernel⟩,
   ⟨wEnv (wGrantS wGrant) ([3, 0, 5, 0, 1]), 37, wHS, [3, 0, 5, 0, 1], wGrant, by
      unfold State.storesWf
      refine ⟨?_, ?_, takesOf (c := 5) rfl rfl rfl rfl rfl rfl rfl, ?_, ?_, ?_, ?_, ?_, ?_⟩ <;> decide +kernel⟩,
   ⟨wEnv (wEnvS) ([]), 32, wHS, [], by
      unfold State.storesWf
      refine ⟨?_, ?_, takesOf (c := 5) rfl rfl rfl rfl rfl rfl rfl, ?_⟩ <;> decide +kernel⟩⟩

/-- The hypotheses of the clauses of `Obligations.FirmwareCommands` hold together somewhere. -/
theorem wit_FirmwareCommands :
    (∃ (s : State) (len : Nat) (h : HostSess) (p : List Byte), s.storesWf ∧ len ≤ 16384 ∧ s.takes len h p ∧ s.boot.buffer.wf = true ∧
      8 ≤ p.length ∧ (p.drop 8).length ≤ 16000 ∧ rd p 0 4 + (p.drop 8).length ≤ 2 ^ 24) ∧
    (∃ (s : State) (len : Nat) (h : HostSess) (p : List Byte), s.storesWf ∧ s.noInjection ∧ len ≤ 16384 ∧ s.takes len h p ∧ p.length = 5 ∧
      1 ≤ rd p 0 1 ∧ rd p 0 1 ≤ 3 ∧ (bufferImage s.boot.buffer).length = rd p 1 4) ∧
    (∃ (s : State) (len : Nat) (h : HostSess) (p : List Byte), s.storesWf ∧ len ≤ 16384 ∧ s.takes len h p ∧ p.length = 5 ∧ (rd p 0 1 = 0 ∨
      4 ≤ rd p 0 1)) ∧
    (∃ (s : State) (len : Nat) (h : HostSess) (p : List Byte), s.storesWf ∧ len ≤ 16384 ∧ s.takes len h p ∧ p.length = 5 ∧ (rd p 0 1 = 0 ∨
      4 ≤ rd p 0 1)) ∧
    (∃ (kind : Nat), (kind = 1 ∨ kind = 2 ∨ kind = 3)) ∧
    (∃ (kind : Nat), (kind = 1 ∨ kind = 2 ∨ kind = 3)) ∧
    (∃ (kind : Nat), (kind = 1 ∨ kind = 2 ∨ kind = 3)) ∧
    (∃ (s : State) (len : Nat) (h : HostSess) (p : List Byte), s.storesWf ∧ s.noInjection ∧ len ≤ 16384 ∧ s.takes len h p ∧
      s.mayActivate = 0 ∧ s.boot.trunk = true ∧ p.length = 2 ∧ rd p 0 1 = 2) ∧
    (∃ (s : State) (len : Nat) (h : HostSess) (p : List Byte), s.storesWf ∧ len ≤ 16384 ∧ s.takes len h p ∧ s.mayActivate ≠ 0) ∧
    (∃ (s : State) (i : FwImage) (b : Bool), s.boot.handover = true ∧ s.admissionWon = false ∧ s.selected 2 = some (b, i) ∧
      s.graft.load ≠ .staging) ∧
    (∃ (s : State) (k : Nat) (rest : List Nat) (i : FwImage) (b : Bool), s.storesWf ∧ s.boot.limbBoots = k :: rest ∧
      s.admissionWon = false ∧ s.selected 3 = some (b, i)) ∧
    (∃ (s : State) (k j : Nat) (rest : List Nat), s.boot.limbBoots = j :: rest ∧ j ≠ k) :=
  ⟨⟨wEnv (wEnvS) (leBytes 4 (2 ^ 24 - 2) ++ [0, 0, 0, 0, 5, 6]), 42, wHS, leBytes 4 (2 ^ 24 - 2) ++ [0, 0, 0, 0, 5, 6], by
      unfold State.storesWf
      refine ⟨?_, ?_, takesOf (c := 5) rfl rfl rfl rfl rfl rfl rfl, ?_, ?_, ?_, ?_⟩ <;> decide +kernel⟩,
   ⟨wEnv ({ wEnvS with boot := { wEnvS.boot with buffer := wImage } }) ([1] ++ leBytes 4 5394), 37, wHS, [1] ++ leBytes 4 5394, by
      unfold State.storesWf State.noInjection
      refine ⟨?_, ?_, ?_, takesOf (c := 5) rfl rfl rfl rfl rfl rfl rfl, ?_, ?_, ?_,
        wImage_length.trans (by decide +kernel)⟩ <;> decide +kernel⟩,
   ⟨wEnv (wEnvS) ([0] ++ leBytes 4 1), 37, wHS, [0] ++ leBytes 4 1, by
      unfold State.storesWf
      refine ⟨?_, ?_, takesOf (c := 5) rfl rfl rfl rfl rfl rfl rfl, ?_, ?_⟩ <;> decide +kernel⟩,
   ⟨wEnv (wEnvS) ([4] ++ leBytes 4 1), 37, wHS, [4] ++ leBytes 4 1, by
      unfold State.storesWf
      refine ⟨?_, ?_, takesOf (c := 5) rfl rfl rfl rfl rfl rfl rfl, ?_, ?_⟩ <;> decide +kernel⟩,
   ⟨1, by decide +kernel⟩,
   ⟨2, by decide +kernel⟩,
   ⟨3, by decide +kernel⟩,
   ⟨wEnv (wEnvS) ([2, 0]), 34, wHS, [2, 0], by
      unfold State.storesWf State.noInjection
      refine ⟨?_, ?_, ?_, takesOf (c := 5) rfl rfl rfl rfl rfl rfl rfl, ?_, ?_, ?_, ?_⟩ <;> decide +kernel⟩,
   ⟨wEnv ({ wEnvS with job := (wJobS wJ).job }) ([2, 0]), 34, wHS, [2, 0], by
      unfold State.storesWf
      refine ⟨?_, ?_, takesOf (c := 5) rfl rfl rfl rfl rfl rfl rfl, ?_⟩ <;> decide +kernel⟩,
   ⟨{ wMgmt with boot := { wMgmt.boot with handover := true }, flash := wFlash }, (imageOf (wRaw 2)).getD default, false, by
      refine ⟨?_, ?_, wSelected rfl rfl wImages.2.1, ?_⟩ <;> decide +kernel⟩,
   ⟨{ wMgmt with boot := { wMgmt.boot with limbBoots := [11] }, flash := wFlash }, 11, [], (imageOf (wRaw 3)).getD default, false, by
      unfold State.storesWf
      refine ⟨?_, ?_, ?_, wSelected rfl rfl wImages.2.2⟩ <;> decide +kernel⟩,
   ⟨{ wMgmt with boot := { wMgmt.boot with limbBoots := [11] } }, 3, 11, [], by decide +kernel⟩⟩

/-- The hypotheses of the clauses of `Obligations.HeartwoodWrites` hold together somewhere. -/
theorem wit_HeartwoodWrites :
    (∃ (s : State) (r k : Nat) (w : HwWrite), swf HwReg.zero s.hw.regs = true ∧ s.noInjection ∧
      s.hw.busy.find? (fun w => w.reg == r) = some w ∧ (s.hwReg r).atLimit = false ∧ (s.hwReg r).nextLive = some k ∧
      (s.hwReg r).slots.length = 4 ∧ hwAssigned r = true) ∧
    (∃ (s : State) (r k l x : Nat) (w : HwWrite), swf HwReg.zero s.hw.regs = true ∧ s.noInjection ∧
      s.hw.busy.find? (fun w => w.reg == r) = some w ∧ (s.hwReg r).atLimit = false ∧ (s.hwReg r).nextLive = some k ∧
      (s.hwReg r).verified k w.value s.poweredHours (some x) = false ∧ ((s.hwReg r).retire k x).nextLive = some l ∧
      (s.hwReg r).slots.length = 4 ∧ hwAssigned r = true ∧ s.ras.ringCount < 64) ∧
    (∃ (s : State) (r : Nat) (w : HwWrite), s.storesWf ∧ s.noInjection ∧ s.hw.busy.find? (fun w => w.reg == r) = some w ∧
      (s.hwReg r).atLimit = true ∧ (r < 0x0D0 ∨ 0x1A7 < r)) ∧
    (∃ (s : State) (r : Nat), (∀ w ∈ s.hw.busy, w.reg ≠ r)) ∧
    (∃ (s : State) (r : Nat) (b : HwSlot), s.hwIdle ∧ (s.hwReg r).newest = some b ∧ hwAssigned r = true ∧ (s.hwReg r).atLimit = false) ∧
    (∃ (s : State) (r : Nat) (b : HwSlot), s.hwIdle ∧ (s.hwReg r).newest = some b ∧ hwAssigned r = true ∧ (s.hwReg r).atLimit = false) ∧
    (∃ (s : State) (k : Nat), s.hwIdle ∧ k < 256 ∧ s.owner = 1 ∧ (s.hwReg (0x200 + k)).atLimit = false) ∧
    (∃ (s : State) (k : Nat), s.storesWf ∧ k < 256 ∧ s.owner ≠ 1) ∧
    (∃ (s : State), s.hwIdle ∧ (s.hwReg 0x1C8).atLimit = false ∧ (s.hwReg 0x1CA).atLimit = false) :=
  ⟨⟨wHwS, 0x200, 1, wHwW, by unfold State.noInjection; decide +kernel⟩,
   ⟨wHwS, 0x200, 1, 2, 6, wHwW, by unfold State.noInjection; decide +kernel⟩,
   ⟨{ wHwS with hw := { wHwS.hw with regs := sset HwReg.zero wHwS.hw.regs 0x200 ⟨[⟨0, 400000, 0, 0, true, 9⟩, ⟨0, 0, 0, 0, false, 0⟩, ⟨0, 0, 0, 0, false, 0⟩, ⟨0, 0, 0, 0, false, 0⟩], 0, false, false⟩ } }, 0x200, wHwW, by unfold State.storesWf State.noInjection; decide +kernel⟩,
   ⟨wMgmt, 0x200, by decide +kernel⟩,
   ⟨{ wMgmt with hw := { wMgmt.hw with hours := 4320 } }, 0x200, ⟨0, 1, 0, 0, true, 1⟩, by unfold State.hwIdle; decide +kernel⟩,
   ⟨{ wMgmt with hw := { wMgmt.hw with hours := 4319 } }, 0x200, ⟨0, 1, 0, 0, true, 1⟩, by unfold State.hwIdle; decide +kernel⟩,
   ⟨wOwn 1, 255, by unfold State.hwIdle; decide +kernel⟩,
   ⟨wOwn 0, 0, by unfold State.storesWf; decide +kernel⟩,
   ⟨wMgmt, by unfold State.hwIdle; decide +kernel⟩⟩

/-- The hypotheses of the clauses of `Obligations.PowerRequests` hold together somewhere. -/
theorem wit_PowerRequests :
    (∃ (s : State) (w : Word64), s.storesWf ∧ PState.ofCode (PWR_CTRL_STATE.of w) = none) ∧
    (∃ (s : State) (w : Word64) (st : PState), s.storesWf ∧ PState.ofCode (PWR_CTRL_STATE.of w) = some st ∧ (PWR_CTRL_GO.of w = 0 ∨
      s.mgmt.setAt = some s.now ∨ s.mgmt.wakeAt = some s.now)) ∧
    (∃ (s : State) (w : Word64) (st : PState), s.storesWf ∧ PState.ofCode (PWR_CTRL_STATE.of w) = some st ∧ (PWR_CTRL_GO.of w = 0 ∨
      s.mgmt.setAt = some s.now ∨ s.mgmt.wakeAt = some s.now)) ∧
    (∃ (s : State) (w : Word64) (st : PState), s.storesWf ∧ PState.ofCode (PWR_CTRL_STATE.of w) = some st ∧ (PWR_CTRL_GO.of w = 0 ∨
      s.mgmt.setAt = some s.now ∨ s.mgmt.wakeAt = some s.now)) ∧
    (∃ (s : State) (w : Word64) (st : PState), s.storesWf ∧ PState.ofCode (PWR_CTRL_STATE.of w) = some st ∧ PWR_CTRL_GO.of w = 1 ∧
      s.mgmt.setAt ≠ some s.now ∧ s.mgmt.wakeAt ≠ some s.now ∧ s.power.transit = .none ∧ s.power.state = .run ∧ st ≠ .run) ∧
    (∃ (s : State) (w : Word64) (st : PState), PState.ofCode (PWR_CTRL_STATE.of w) = some st ∧ PWR_CTRL_GO.of w = 1 ∧
      s.mgmt.setAt ≠ some s.now ∧ s.mgmt.wakeAt ≠ some s.now ∧ s.power.transit = .none ∧ s.power.state ≠ .run ∧ s.power.state ≠ .off ∧
      st ≠ s.power.state ∧ (st = .off ∨ (s.power.state.depth < st.depth ∧ s.power.state ≠ .deep))) ∧
    (∃ (s : State) (w : Word64) (st : PState), PState.ofCode (PWR_CTRL_STATE.of w) = some st ∧ PWR_CTRL_GO.of w = 1 ∧
      s.mgmt.setAt ≠ some s.now ∧ s.mgmt.wakeAt ≠ some s.now ∧ s.power.transit = .none ∧ s.power.state ≠ .run ∧ s.power.state ≠ .off ∧
      st ≠ s.power.state ∧ (st = .off ∨ (s.power.state.depth < st.depth ∧ s.power.state ≠ .deep))) ∧
    (∃ (s : State) (w : Word64), PWR_CTRL_STATE.of w = 0 ∧ PWR_CTRL_GO.of w = 1 ∧ s.mgmt.setAt ≠ some s.now ∧ s.mgmt.wakeAt ≠ some s.now ∧
      s.power.transit = .none ∧ s.power.state ≠ .run ∧ s.power.state ≠ .off) ∧
    (∃ (s : State) (ns : Nat), 2500 ≤ ns ∧ s.modl.standby = true ∧ s.modl.inputFailed = false ∧ s.modl.hardTripped = false ∧
      s.power.transit = .none ∧ s.power.state ≠ .run ∧ s.power.state ≠ .off) ∧
    (∃ (s : State) (ns : Nat), 2500 ≤ ns ∧ s.modl.standby = true ∧ (s.power.state = .off ∨ s.modl.inputFailed = true ∨
      s.modl.hardTripped = true)) ∧
    (∃ (s : State) (ns : Nat), 2500 ≤ ns ∧ s.modl.standby = true ∧ (s.power.state = .off ∨ s.modl.inputFailed = true ∨
      s.modl.hardTripped = true)) ∧
    (∃ (ns : Nat), ns < 1500) :=
  ⟨⟨wRun, wd [(PWR_CTRL_STATE, 5), (PWR_CTRL_GO, 1), (PWR_CTRL_AUTO_WAKE, 1)], by unfold State.storesWf; decide +kernel⟩,
   ⟨wRun, wd [(PWR_CTRL_STATE, 2), (PWR_CTRL_GO, 0), (PWR_CTRL_AUTO_WAKE, 1)], .sleep, by unfold State.storesWf; decide +kernel⟩,
   ⟨{ wRun with mgmt := { wRun.mgmt with setAt := some 100 } }, wd [(PWR_CTRL_STATE, 2), (PWR_CTRL_GO, 1), (PWR_CTRL_AUTO_WAKE, 1)],
     .sleep, by unfold State.storesWf; decide +kernel⟩,
   ⟨{ wRun with mgmt := { wRun.mgmt with wakeAt := some 100 } }, wd [(PWR_CTRL_STATE, 2), (PWR_CTRL_GO, 1), (PWR_CTRL_AUTO_WAKE, 1)],
     .sleep, by unfold State.storesWf; decide +kernel⟩,
   ⟨wRun, wd [(PWR_CTRL_STATE, 4), (PWR_CTRL_GO, 1), (PWR_CTRL_AUTO_WAKE, 1)], .off, by unfold State.storesWf; decide +kernel⟩,
   ⟨wPow .deep .none false, wd [(PWR_CTRL_STATE, 4), (PWR_CTRL_GO, 1), (PWR_CTRL_AUTO_WAKE, 1)], .off, by decide +kernel⟩,
   ⟨wPow .idle .none false, wd [(PWR_CTRL_STATE, 2), (PWR_CTRL_GO, 1), (PWR_CTRL_AUTO_WAKE, 1)], .sleep, by decide +kernel⟩,
   ⟨wPow .deep .none false, wd [(PWR_CTRL_STATE, 0), (PWR_CTRL_GO, 1), (PWR_CTRL_AUTO_WAKE, 1)], by decide +kernel⟩,
   ⟨wPow .sleep .none false, 2500, by decide +kernel⟩,
   ⟨wPow .off .none false, 2500, by decide +kernel⟩,
   ⟨wMod { wRun.modl with hardTripped := true, mains := false }, 2500, by decide +kernel⟩,
   ⟨1499, by decide +kernel⟩⟩

/-- The hypotheses of the clauses of `Obligations.PowerTransitions` hold together somewhere. -/
theorem wit_PowerTransitions :
    (∃ (s : State) (st : PState), s.storesWf ∧ s.power.transit = .entering st ∧ st ∈ [PState.idle, .sleep] ∧ s.power.wake = false ∧
      s.power.pending = none) ∧
    (∃ (s : State) (st : PState), s.storesWf ∧ s.power.transit = .entering st ∧ st ∈ [PState.idle, .sleep] ∧ s.power.wake = false ∧
      s.power.pending = none) ∧
    (∃ (s : State) (st : PState), s.power.transit = .entering st ∧ st ∈ [PState.idle, .sleep, .deep] ∧ s.power.wake = true) ∧
    (∃ (s : State) (st : PState), s.power.transit = .entering st ∧ st ∈ [PState.idle, .sleep, .deep] ∧ s.power.wake = true) ∧
    (∃ (s : State) (st : PState), s.power.transit = .entering st ∧ st ∈ [PState.idle, .sleep, .deep] ∧ s.power.wake = true) ∧
    (∃ (s : State) (ns : Nat) (st : PState), s.storesWf ∧ 2500 ≤ ns ∧ s.modl.standby = true ∧ s.power.state ≠ .off ∧
      s.modl.inputFailed = false ∧ s.modl.hardTripped = false ∧ s.power.transit = .entering st) ∧
    (∃ (s : State) (ns : Nat) (st : PState), s.storesWf ∧ 2500 ≤ ns ∧ s.modl.standby = true ∧ s.power.state ≠ .off ∧
      s.modl.inputFailed = false ∧ s.modl.hardTripped = false ∧ s.power.transit = .entering st) ∧
    (∃ (s : State) (st : PState), s.power.transit = .entering st) ∧
    (∃ (s : State), s.power.transit = .entering .off ∧ s.power.wake = true) ∧
    (∃ (s : State), s.storesWf ∧ s.power.transit = .entering .deep ∧ s.power.wake = false ∧ s.power.pending = none) ∧
    (∃ (s : State), s.power.transit = .entering .off ∧ s.power.wake = false ∧ s.power.pending = none) ∧
    (∃ (s : State), s.power.transit = .none) ∧
    (∃ (s : State), s.power.transit = .returning none ∧ s.power.state ≠ .deep) ∧
    (∃ (s : State) (q : PState), s.power.transit = .returning (some q) ∧ s.power.state ≠ .deep ∧ q ≠ .run) ∧
    (∃ (s : State), s.power.transit = .returning none ∧ s.power.state = .deep) ∧
    (∃ (s : State) (d : Nat), s.storesWf ∧ s.noInjection ∧ s.domain d = .waking ∧ s.bark.stalled = none) ∧
    (∃ (s : State) (d : Nat), s.noInjection ∧ s.domain d = .waking ∧ s.ras.ringCount < 64) ∧
    (∃ (s : State) (d : Nat), s.domain d ≠ .waking) :=
  ⟨⟨wPow .run (.entering .idle) false, .idle, by unfold State.storesWf; decide +kernel⟩,
   ⟨wPow .run (.entering .sleep) false, .sleep, by unfold State.storesWf; decide +kernel⟩,
   ⟨wPow .run (.entering .idle) true, .idle, by decide +kernel⟩,
   ⟨wPow .run (.entering .sleep) true, .sleep, by decide +kernel⟩,
   ⟨wPow .run (.entering .deep) true, .deep, by decide +kernel⟩,
   ⟨wPow .run (.entering .idle) false, 2500, .idle, by unfold State.storesWf; decide +kernel⟩,
   ⟨wPow .run (.entering .off) false, 2500, .off, by unfold State.storesWf; decide +kernel⟩,
   ⟨wPow .run (.entering .deep) false, .deep, by decide +kernel⟩,
   ⟨wPow .run (.entering .off) true, by decide +kernel⟩,
   ⟨wPow .run (.entering .deep) false, by unfold State.storesWf; decide +kernel⟩,
   ⟨wPow .run (.entering .off) false, by decide +kernel⟩,
   ⟨wRun, by decide +kernel⟩,
   ⟨wPow .sleep (.returning none) false, by decide +kernel⟩,
   ⟨wPow .sleep (.returning (some .idle)) false, .idle, by decide +kernel⟩,
   ⟨wPow .deep (.returning none) false, by decide +kernel⟩,
   ⟨wDom .waking, 3, by unfold State.storesWf State.noInjection; decide +kernel⟩,
   ⟨wDom .waking, 3, by unfold State.noInjection; decide +kernel⟩,
   ⟨wDom .on, 3, by decide +kernel⟩⟩

/-- The hypotheses of the clauses of `Obligations.DroopAndRails` hold together somewhere. -/
theorem wit_DroopAndRails :
    (∃ (s : State) (d n : Nat), s.storesWf ∧ s.domain d = .on ∧ 8 ≤ n ∧ n ≤ 32 ∧ sget 0 s.power.droops d ≠ s.f PWR_DROOP_LIMIT) ∧
    (∃ (s : State) (d n : Nat), s.storesWf ∧ s.domain d = .on ∧ 8 ≤ n ∧ n ≤ 32 ∧ sget 0 s.power.droops d ≠ s.f PWR_DROOP_LIMIT) ∧
    (∃ (s : State) (d n : Nat), s.storesWf ∧ s.domain d = .on ∧ 8 ≤ n ∧ n ≤ 32 ∧ sget 0 s.power.droops d = s.f PWR_DROOP_LIMIT ∧
      s.ras.ringCount < 64) ∧
    (∃ (s : State) (d n : Nat), (s.domain d ≠ .on ∨ n < 8 ∨ 32 < n)) ∧
    (∃ (s : State) (d n : Nat), (s.domain d ≠ .on ∨ n < 8 ∨ 32 < n)) ∧
    (∃ (s : State) (d n : Nat), (s.domain d ≠ .on ∨ n < 8 ∨ 32 < n)) ∧
    (∃ (s : State) (d : Nat), s.modl.mains = true ∧ s.domain d = .on ∧ s.ras.ringCount < 64) ∧
    (∃ (s : State) (d : Nat), s.modl.mains = true ∧ 48 ≤ d ∧ d < 60 ∧ s.ras.ringCount < 64) ∧
    (∃ (s : State) (d : Nat), s.modl.mains = true ∧ 48 ≤ d ∧ d < 60 ∧ s.ras.ringCount < 64) ∧
    (∃ (s : State), s.modl.mains = false) ∧
    (∃ (s : State), s.busyJob = true) ∧
    (∃ (s : State) (n : Nat), s.storesWf ∧ s.busyJob = false ∧ n ≤ 65535) ∧
    (∃ (s : State) (n : Nat), s.storesWf ∧ s.busyJob = false ∧ 65535 < n) :=
  ⟨⟨wDom .on, 3, 8, by unfold State.storesWf; decide +kernel⟩,
   ⟨wDom .on, 3, 32, by unfold State.storesWf; decide +kernel⟩,
   ⟨wF { wDom .on with power := { (wDom .on).power with droops := sset 0 [] 3 (wRun.f PWR_DROOP_LIMIT) } } PWR_DROOP_LIMIT (wRun.f PWR_DROOP_LIMIT), 3, 8, by unfold State.storesWf; decide +kernel⟩,
   ⟨wDom .off, 3, 8, by decide +kernel⟩,
   ⟨wDom .on, 3, 7, by decide +kernel⟩,
   ⟨wDom .on, 3, 33, by decide +kernel⟩,
   ⟨wDom .on, 3, by decide +kernel⟩,
   ⟨wRun, 48, by decide +kernel⟩,
   ⟨wRun, 59, by decide +kernel⟩,
   ⟨State.reset, by decide +kernel⟩,
   ⟨wJobS wJ, by decide +kernel⟩,
   ⟨wRun, 65535, by unfold State.storesWf; decide +kernel⟩,
   ⟨wRun, 65536, by unfold State.storesWf; decide +kernel⟩⟩

/-- The hypotheses of the clauses of `Obligations.DecisionEdges` hold together somewhere. -/
theorem wit_DecisionEdges :
    (∃ (s : State), (s.now % decisionRings s.ring.period ≠ 0 ∨ s.modl.mains = false)) ∧
    (∃ (s : State), (s.now % decisionRings s.ring.period ≠ 0 ∨ s.modl.mains = false)) ∧
    (∃ (s : State), s.storesWf ∧ s.noInjection ∧ s.now % decisionRings s.ring.period = 0 ∧ s.modl.mains = true) ∧
    (∃ (a : Nat), a ∈ [0x30010, 0x30018]) ∧
    (∃ (a : Nat), a ∈ [0x30010, 0x30018]) :=
  ⟨⟨{ wRun with ring := { rLock with number := decisionRings rLock.period + 1 } }, by decide +kernel⟩,
   ⟨State.reset, by decide +kernel⟩,
   ⟨{ wRun with ring := { rLock with number := decisionRings rLock.period } }, by unfold State.storesWf State.noInjection; decide +kernel⟩,
   ⟨0x30010, by decide +kernel⟩,
   ⟨0x30018, by decide +kernel⟩⟩

/-- The hypotheses of the clauses of `Obligations.SensorsAndTrips` hold together somewhere. -/
theorem wit_SensorsAndTrips :
    (∃ (s : State) (r : List Int), s.storesWf ∧ r.length = 818 ∧ (∀ d, d < 48 →
      8 ≤ (((r.drop (16 * d)).take 16).filter (sensorOk (median2 ((r.drop (16 * d)).take 16)))).length)) ∧
    (∃ (s : State) (r : List Int) (d : Nat), r.length = 818 ∧ d < 48 ∧ s.thermalUse d = true ∧ s.f (THM_DIE_INVALID d) = 0 ∧ (∀ e, e < 48 →
      ((((r.drop (16 * e)).take 16).filter (sensorOk (median2 ((r.drop (16 * e)).take 16)))).length < 8 ↔ e = d)) ∧ s.ras.ringCount < 64) ∧
    (∃ (r : List Int), r.length ≠ 818) ∧
    (∃ (s : State) (d : Nat), s.modl.mains = true ∧ d < 61 ∧ s.ras.ringCount < 64) ∧
    (∃ (s : State) (d : Nat), (s.modl.mains = false ∨ 61 ≤ d)) ∧
    (∃ (s : State) (d : Nat), (s.modl.mains = false ∨ 61 ≤ d)) ∧
    (∃ (s : State), s.storesWf ∧ (∀ d, d < 61 → s.dieTemp d < 100 * ((s.f THM_CONFIG_THROTTLE : Int) - s.f THM_CONFIG_HYST))) ∧
    (∃ (s : State) (d : Nat), d < 61 ∧ 100 * ((s.f THM_CONFIG_THROTTLE : Int) - s.f THM_CONFIG_HYST) ≤ s.dieTemp d) ∧
    (∃ (s : State), s.storesWf) :=
  ⟨⟨wRun, wTemps 5000, by unfold State.storesWf; decide +kernel⟩,
   ⟨{ wRun with graft := { GraftUnit.reset with active := some wGraftT } }, wTemps 16000, 0, by decide +kernel⟩,
   ⟨[], by decide +kernel⟩,
   ⟨wRun, 60, by decide +kernel⟩,
   ⟨State.reset, 0, by decide +kernel⟩,
   ⟨wRun, 61, by decide +kernel⟩,
   ⟨wRun, by unfold State.storesWf; decide +kernel⟩,
   ⟨wF wRun (THM_DIE_TEMP 5) 11000, 5, by decide +kernel⟩,
   ⟨wF wRun (THM_DIE_PEAK 60) 9000, by unfold State.storesWf; decide +kernel⟩⟩

/-- The hypotheses of the clauses of `Obligations.TelemetryAndJournal` hold together somewhere. -/
theorem wit_TelemetryAndJournal :
    (∃ (s : State), s.storesWf ∧ s.f TEL_CTRL_ENABLE = 0 ∧ s.f TEL_LEN_GROUPS ≠ 0) ∧
    (∃ (s : State), (s.f TEL_CTRL_ENABLE = 1 ∨ s.f TEL_LEN_GROUPS = 0)) ∧
    (∃ (s : State), (s.f TEL_CTRL_ENABLE = 1 ∨ s.f TEL_LEN_GROUPS = 0)) ∧
    (∃ (s : State), s.storesWf) ∧
    (∃ (s : State), s.tel.due = none) ∧
    (∃ (s : State) (q : Nat × List Byte), s.storesWf ∧ s.tel.due = some q ∧ s.canMaster = false) ∧
    (∃ (s : State) (q : Nat × List Byte) (h : HostSess), s.storesWf ∧ s.tel.due = some q ∧ s.canMaster = true ∧ s.bark.host = some h) ∧
    (∃ (s : State), s.journal.waiting.length < 4096 ∧ s.journal.recording = true) ∧
    (∃ (s : State) (h : HostSess), 4096 ≤ s.journal.waiting.length ∧ s.f JOURNAL_CTRL_TARGET = 1 ∧
      s.journal.used < 64 * s.f JOURNAL_LEN_SIZE ∧ s.canMaster = true ∧ s.bark.host = some h) ∧
    (∃ (s : State), s.storesWf ∧ s.journal.waiting ≠ [] ∧ s.journal.recording = false ∧ s.f JOURNAL_CTRL_TARGET = 1 ∧
      64 * s.f JOURNAL_LEN_SIZE ≤ s.journal.used ∧ s.journal.stopped = false) :=
  ⟨⟨wF wRun TEL_LEN_GROUPS 1, by unfold State.storesWf; decide +kernel⟩,
   ⟨wF wRun TEL_CTRL_ENABLE 1, by decide +kernel⟩,
   ⟨wRun, by decide +kernel⟩,
   ⟨wF wRun TEL_CTRL_ENABLE 1, by unfold State.storesWf; decide +kernel⟩,
   ⟨wRun, by decide +kernel⟩,
   ⟨{ wRun with tel := { wRun.tel with due := some (0, [7]) } }, (0, [7]), by unfold State.storesWf; decide +kernel⟩,
   ⟨{ wOut2 with tel := { wRun.tel with due := some (0, [7]) } }, (0, [7]), wHS, by unfold State.storesWf; decide +kernel⟩,
   ⟨{ wRun with journal := { wRun.journal with recording := true } }, by decide +kernel⟩,
   ⟨wF (wJour { wRun.journal with buffer := [wJRec], recording := true }) JOURNAL_LEN_SIZE 1, wHS, by decide +kernel⟩,
   ⟨wJour { wRun.journal with tail := [1] }, by unfold State.storesWf; decide +kernel⟩⟩

/-- The hypotheses of the clauses of `Obligations.ModuleEvents` hold together somewhere. -/
theorem wit_ModuleEvents :
    (∃ (s : State), s.modl.standby = true ∧ s.modl.inputOk = true ∧ s.ras.ringCount < 64) ∧
    (∃ (s : State), s.modl.inputOk = false) ∧
    (∃ (s : State), s.modl.standby = true ∧ s.modl.inputFailed = true) ∧
    (∃ (s : State), s.modl.standby = true ∧ s.modl.inputFailed = false) ∧
    (∃ (s : State), s.modl.standby = true ∧ s.hw.busy = []) ∧
    (∃ (s : State) (slot : Nat), s.modl.standby = false ∧ slot < 8) ∧
    (∃ (s : State), s.modl.standby = true) ∧
    (∃ (s : State) (c : Instr), s.modl.standby = false ∧ c ∈ [Instr.inputFail, .inputReturn, .standbyLoss]) ∧
    (∃ (s : State) (c : Instr), s.modl.standby = false ∧ c ∈ [Instr.inputFail, .inputReturn, .standbyLoss]) ∧
    (∃ (s : State) (ns : Nat), 2500 ≤ ns ∧ s.modl.standby = true) ∧
    (∃ (ns : Nat), ns < 1500) ∧
    (∃ (ns : Nat), 2500 ≤ ns) ∧
    (∃ (ns : Nat), ns < 1500) ∧
    (∃ (s : State), s.modl.hold = false ∧ s.modl.mains = true ∧ s.ras.ringCount < 64) ∧
    (∃ (s : State), s.modl.hold = false ∧ s.modl.mains = false) ∧
    (∃ (s : State), s.modl.hold = true ∧ s.modl.holdDropped = false) ∧
    (∃ (s : State), s.modl.hold = true ∧ s.modl.holdDropped = true) :=
  ⟨⟨wRun, by decide +kernel⟩,
   ⟨wMod { wRun.modl with mains := false, inputOk := false }, by decide +kernel⟩,
   ⟨wMod { wRun.modl with mains := false, inputOk := false, inputFailed := true }, by decide +kernel⟩,
   ⟨wRun, by decide +kernel⟩,
   ⟨wRun, by decide +kernel⟩,
   ⟨wMod { wRun.modl with standby := false, mains := false }, 7, by decide +kernel⟩,
   ⟨wRun, by decide +kernel⟩,
   ⟨wMod { wRun.modl with standby := false, mains := false }, .inputFail, by decide +kernel⟩,
   ⟨wMod { wRun.modl with standby := false, mains := false }, .standbyLoss, by decide +kernel⟩,
   ⟨wRun, 2500, by decide +kernel⟩,
   ⟨1499, by decide +kernel⟩,
   ⟨2501, by decide +kernel⟩,
   ⟨1499, by decide +kernel⟩,
   ⟨wRun, by decide +kernel⟩,
   ⟨wMod { wRun.modl with mains := false }, by decide +kernel⟩,
   ⟨wMod { wRun.modl with hold := true }, by decide +kernel⟩,
   ⟨wMod { wRun.modl with hold := true, holdDropped := true, mains := false }, by decide +kernel⟩⟩

/-- The hypotheses of the clauses of `Obligations.Injections` hold together somewhere. -/
theorem wit_Injections :
    (∃ (s : State) (w : Word64) (c : Instr), s.storesWf ∧ s.mayInject = false ∧ c ∈ [Instr.injCell w, .injNet w, .injEdge w, .injRoot w]) ∧
    (∃ (s : State) (w : Word64) (c : Instr), s.storesWf ∧ s.mayInject = false ∧ c ∈ [Instr.injCell w, .injNet w, .injEdge w, .injRoot w]) ∧
    (∃ (s : State), s.storesWf ∧ s.mayInject = true) ∧
    (∃ (s : State), s.storesWf ∧ s.mayInject = true) ∧
    (∃ (s : State), s.storesWf ∧ s.mayInject = true) ∧
    (∃ (s : State), s.storesWf ∧ s.mayInject = true) ∧
    (∃ (s : State) (w : Word64), s.storesWf ∧ s.mayInject = true ∧ INJ_CELL_GO.of w = 1 ∧ s.ras.inj.cell = none ∧ 1 ≤ INJ_CELL_DET.of w ∧
      INJ_CELL_DET.of w ≤ 12) ∧
    (∃ (s : State) (w : Word64), s.storesWf ∧ s.mayInject = true ∧ INJ_CELL_GO.of w = 1 ∧ s.ras.inj.cell = none ∧ 1 ≤ INJ_CELL_DET.of w ∧
      INJ_CELL_DET.of w ≤ 12) ∧
    (∃ (s : State) (w : Word64), s.storesWf ∧ s.mayInject = true ∧ INJ_NET_GO.of w = 1 ∧ s.ras.inj.net = none ∧ 13 ≤ INJ_NET_DET.of w ∧
      INJ_NET_DET.of w ≤ 16) ∧
    (∃ (s : State) (w : Word64), s.storesWf ∧ s.mayInject = true ∧ INJ_NET_GO.of w = 1 ∧ s.ras.inj.net = none ∧ 13 ≤ INJ_NET_DET.of w ∧
      INJ_NET_DET.of w ≤ 16) ∧
    (∃ (s : State) (w : Word64), s.storesWf ∧ s.mayInject = true ∧ INJ_EDGE_GO.of w = 1 ∧ s.ras.inj.edge = none ∧ 17 ≤ INJ_EDGE_DET.of w ∧
      INJ_EDGE_DET.of w ≤ 26) ∧
    (∃ (s : State) (w : Word64), s.storesWf ∧ s.mayInject = true ∧ INJ_EDGE_GO.of w = 1 ∧ s.ras.inj.edge = none ∧ 17 ≤ INJ_EDGE_DET.of w ∧
      INJ_EDGE_DET.of w ≤ 26) ∧
    (∃ (s : State) (w : Word64), s.storesWf ∧ s.mayInject = true ∧ INJ_ROOT_GO.of w = 1 ∧ s.ras.inj.root = none ∧ 27 ≤ INJ_ROOT_DET.of w ∧
      INJ_ROOT_DET.of w ≤ 46) ∧
    (∃ (s : State) (w : Word64), s.storesWf ∧ s.mayInject = true ∧ INJ_ROOT_GO.of w = 1 ∧ s.ras.inj.root = none ∧ 27 ≤ INJ_ROOT_DET.of w ∧
      INJ_ROOT_DET.of w ≤ 46) ∧
    (∃ (s : State) (w : Word64), s.storesWf ∧ s.mayInject = true ∧ INJ_ROOT_GO.of w = 0) :=
  ⟨⟨wRun, 0, .injCell 0, by unfold State.storesWf; decide +kernel⟩,
   ⟨wGrantS { wGrant with last := 99 }, 0, .injCell 0, by unfold State.storesWf; decide +kernel⟩,
   ⟨{ wGrantS wGrant with ras := { (wGrantS wGrant).ras with inj := { (wGrantS wGrant).ras.inj with cell := some ⟨1, 0, 0, 120⟩ } } },
     by unfold State.storesWf; decide +kernel⟩,
   ⟨wGrantS wGrant, by unfold State.storesWf; decide +kernel⟩,
   ⟨wGrantS wGrant, by unfold State.storesWf; decide +kernel⟩,
   ⟨wGrantS wGrant, by unfold State.storesWf; decide +kernel⟩,
   ⟨wGrantS wGrant, wd [(INJ_CELL_GO, 1), (INJ_CELL_DET, 1), (INJ_CELL_X, 3), (INJ_CELL_Y, 5)], by unfold State.storesWf; decide +kernel⟩,
   ⟨wGrantS wGrant, wd [(INJ_CELL_GO, 1), (INJ_CELL_DET, 12), (INJ_CELL_X, 3), (INJ_CELL_Y, 5)], by unfold State.storesWf; decide +kernel⟩,
   ⟨wGrantS wGrant, wd [(INJ_NET_GO, 1), (INJ_NET_DET, 13), (INJ_NET_X, 3), (INJ_NET_Y, 5)], by unfold State.storesWf; decide +kernel⟩,
   ⟨wGrantS wGrant, wd [(INJ_NET_GO, 1), (INJ_NET_DET, 16), (INJ_NET_X, 3), (INJ_NET_Y, 5)], by unfold State.storesWf; decide +kernel⟩,
   ⟨wGrantS wGrant, wd [(INJ_EDGE_GO, 1), (INJ_EDGE_DET, 17), (INJ_EDGE_PORT, 7)], by unfold State.storesWf; decide +kernel⟩,
   ⟨wGrantS wGrant, wd [(INJ_EDGE_GO, 1), (INJ_EDGE_DET, 26), (INJ_EDGE_PORT, 7)], by unfold State.storesWf; decide +kernel⟩,
   ⟨wGrantS wGrant, wd [(INJ_ROOT_GO, 1), (INJ_ROOT_DET, 27), (INJ_ROOT_DIE, 3)], by unfold State.storesWf; decide +kernel⟩,
   ⟨wGrantS wGrant, wd [(INJ_ROOT_GO, 1), (INJ_ROOT_DET, 46), (INJ_ROOT_DIE, 3)], by unfold State.storesWf; decide +kernel⟩,
   ⟨wGrantS wGrant, wd [(INJ_ROOT_DET, 30), (INJ_ROOT_DIE, 3)], by unfold State.storesWf; decide +kernel⟩⟩

/-- The hypotheses of the clauses of `Obligations.RecoverySteps` hold together somewhere. -/
theorem wit_RecoverySteps :
    (∃ (s : State) (j : Job) (r n row : Nat), s.job.cur = some j ∧ s.ras.recov.declared = some r ∧ ringBefore r s.now = true ∧
      j.stage = .running ∧ j.abort = none ∧ s.ras.recov.pendingShifts = [(n, row)] ∧ s.canRetire n row) ∧
    (∃ (s : State) (j : Job) (r n row : Nat), s.job.cur = some j ∧ s.ras.recov.declared = some r ∧ ringBefore r s.now = true ∧
      j.stage = .running ∧ j.abort = none ∧ s.ras.recov.pendingShifts = [(n, row)] ∧ 4 < (s.rowsWith n row).length ∧ s.ras.ringCount < 64) ∧
    (∃ (s : State) (j : Job) (r a : Nat), s.job.cur = some j ∧ s.ras.recov.declared = some r ∧ ringBefore r s.now = true ∧
      j.stage ≠ .preparing ∧ j.abort = some (a, r)) ∧
    (∃ (s : State), (s.job.cur = none ∨ s.ras.recov.declared = none)) ∧
    (∃ (s : State), (s.job.cur = none ∨ s.ras.recov.declared = none)) ∧
    (∃ (s : State) (n row k : Nat), swf HwReg.zero s.hw.regs = true ∧ s.jobOn = false ∧ s.ras.recov.pendingShifts = [(n, row)] ∧
      s.canRetire n row ∧ (s.hwReg (0x0D0 + n / 2)).nextLive = some k ∧ (s.hwReg (0x0D0 + n / 2)).slots.length = 4) ∧
    (∃ (s : State), (s.jobOn = true ∨ s.ras.recov.pendingShifts = [])) ∧
    (∃ (s : State), (s.jobOn = true ∨ s.ras.recov.pendingShifts = [])) ∧
    (∃ (s : State), s.ras.recov.stage = .shift ∧ s.hwIdle ∧ (∀ p ∈ s.ras.recov.cells, (s.cell p.1 p.2).dead = false)) ∧
    (∃ (s : State), s.ras.recov.stage = .shift ∧ s.hwIdle ∧ (∃ p ∈ s.ras.recov.cells, (s.cell p.1 p.2).dead = true)) ∧
    (∃ (s : State), s.ras.recov.stage = .copy) ∧
    (∃ (s : State) (j : Job), s.storesWf ∧ s.job.cur = some j ∧ s.ras.recov.stage = .restore ∧ (s.job.valid0.isSome = true ∨
      s.job.valid1.isSome = true ∨ j.committed = 0) ∧ s.ras.recov.resumeAt ≤ s.job.firstReplayed) ∧
    (∃ (s : State) (j : Job) (r : Restore), s.storesWf ∧ s.job.cur = some j ∧ s.ras.recov.stage = .restore ∧ r.chunkFault = none ∧
      (s.job.valid0.isSome = true ∨ s.job.valid1.isSome = true ∨ j.committed = 0) ∧ s.job.firstReplayed < s.ras.recov.resumeAt) ∧
    (∃ (s : State) (j : Job) (c : Nat) (r : Restore), s.storesWf ∧ s.job.cur = some j ∧ s.ras.recov.stage = .restore ∧
      r.chunkFault = some c ∧ s.ras.ringCount < 63) ∧
    (∃ (s : State) (j : Job) (r : Restore), s.storesWf ∧ s.job.cur = some j ∧ s.ras.recov.stage = .restore ∧ r.chunkFault = none ∧
      s.job.valid0 = none ∧ s.job.valid1 = none ∧ j.committed ≠ 0 ∧ s.ras.ringCount < 64) ∧
    (∃ (s : State) (j : Job), s.storesWf ∧ s.job.cur = some j ∧ s.ras.recov.stage = .replay ∧ s.replayOver j = true ∧ j.phase ≠ .update ∧
      s.ras.recov.inUpdate = false ∧ s.ras.recov.resumeAt < j.desc.steps) ∧
    (∃ (s : State) (j : Job), s.storesWf ∧ s.job.cur = some j ∧ s.ras.recov.stage = .replay ∧ s.replayOver j = true ∧ j.phase ≠ .update ∧
      j.desc.steps ≤ s.ras.recov.resumeAt) ∧
    (∃ (s : State) (j : Job), s.job.cur = some j ∧ (s.ras.recov.stage ≠ .replay ∨ s.replayOver j = false)) ∧
    (∃ (s : State) (j : Job), s.job.cur = some j ∧ (s.ras.recov.stage ≠ .replay ∨ s.replayOver j = false)) :=
  ⟨⟨wRecS wJ ⟨.idle, [(3, 5)], [0], 90, false, none, some 99, [(0, 5)], 0⟩, wJ, 99, 0, 5,
    by unfold State.canRetire State.hwIdle; decide +kernel⟩,
   ⟨wHw (wRecS wJ ⟨.idle, [(3, 5)], [0], 90, false, none, some 99, [(0, 5)], 0⟩) 0x0D0 (bandFields [1, 2, 3, 4]).1, wJ, 99, 0, 5,
     by decide +kernel⟩,
   ⟨wRecS { wJ with abort := some (2, 99) } ⟨.idle, [(3, 5)], [0], 90, false, none, some 99, [(0, 5)], 0⟩,
     { wJ with abort := some (2, 99) }, 99, 2, by decide +kernel⟩,
   ⟨wRun, by decide +kernel⟩,
   ⟨wRecS wJ ⟨.idle, [(3, 5)], [0], 90, false, none, none, [], 0⟩, by decide +kernel⟩,
   ⟨{ wRun with ras := { wRun.ras with recov := { wRun.ras.recov with pendingShifts := [(431, 127)] } }, hw := { wRun.hw with regs := [] } }, 431, 127, 1, by unfold State.canRetire State.hwIdle; decide +kernel⟩,
   ⟨wRun, by decide +kernel⟩,
   ⟨wJobS wJ, by decide +kernel⟩,
   ⟨wRecS { wJ with stage := .recovering } ⟨.shift, [(3, 5)], [0], 90, false, none, none, [], 0⟩, by unfold State.hwIdle; decide +kernel⟩,
   ⟨wDeadC (wRecS { wJ with stage := .recovering } ⟨.shift, [(3, 5)], [0], 90, false, none, none, [], 0⟩),
     by unfold State.hwIdle; decide +kernel⟩,
   ⟨wRecS { wJ with stage := .recovering } ⟨.copy, [(3, 5)], [0], 90, false, none, none, [], 0⟩, by decide +kernel⟩,
   ⟨wRecS { wJ with stage := .recovering } ⟨.restore, [(3, 5)], [0], 90, false, none, none, [], 0⟩, { wJ with stage := .recovering },
     by unfold State.storesWf; decide +kernel⟩,
   ⟨wRecS { wJ with stage := .recovering } ⟨.restore, [(3, 5)], [0], 90, false, none, none, [], 1⟩, { wJ with stage := .recovering },
     ⟨none, [], [], []⟩, by unfold State.storesWf; decide +kernel⟩,
   ⟨wRecS { wJ with stage := .recovering } ⟨.restore, [(3, 5)], [0], 90, false, none, none, [], 0⟩, { wJ with stage := .recovering }, 5,
     ⟨some 5, [], [], []⟩, by unfold State.storesWf; decide +kernel⟩,
   ⟨wRecS { wJ with stage := .recovering, committed := 1 } ⟨.restore, [(3, 5)], [0], 90, false, none, none, [], 0⟩,
     { wJ with stage := .recovering, committed := 1 }, ⟨none, [], [], []⟩, by unfold State.storesWf; decide +kernel⟩,
   ⟨wRecS { wJ with stage := .recovering } ⟨.replay, [(3, 5)], [0], 90, false, none, none, [], 0⟩, { wJ with stage := .recovering },
     by unfold State.storesWf; decide +kernel⟩,
   ⟨wRecS { wJ with stage := .recovering, step := 1 } ⟨.replay, [(3, 5)], [0], 90, false, none, none, [], 1⟩,
     { wJ with stage := .recovering, step := 1 }, by unfold State.storesWf; decide +kernel⟩,
   ⟨wRecS { wJ with stage := .recovering } ⟨.copy, [(3, 5)], [0], 90, false, none, none, [], 0⟩, { wJ with stage := .recovering },
     by decide +kernel⟩,
   ⟨wRecS { wJ with stage := .recovering } ⟨.replay, [(3, 5)], [0], 90, false, none, none, [], 5⟩, { wJ with stage := .recovering },
     by decide +kernel⟩⟩

/-- The hypotheses of the clauses of `Obligations.SelfTests` hold together somewhere. -/
theorem wit_SelfTests :
    (∃ (s : State) (px py : Nat), s.storesWf ∧ s.noInjection ∧ px < 1152 ∧ py < 792 ∧ s.dieEnabled (8 * (py / 132) + px / 144) = true ∧
      s.underTest (8 * (py / 132) + px / 144) (px % 144) (py % 132) = true) ∧
    (∃ (s : State) (px py x y : Nat), s.storesWf ∧ s.noInjection ∧ px < 1152 ∧ py < 792 ∧ s.dieEnabled (8 * (py / 132) + px / 144) = true ∧
      s.underTest (8 * (py / 132) + px / 144) (px % 144) (py % 132) = true ∧
      s.logicalAt (8 * (py / 132) + px / 144) (py % 132) (px % 144) = some (x, y) ∧ (s.cell x y).dead = false ∧ s.ras.ringCount < 64) ∧
    (∃ (s : State) (px py : Nat), (1152 ≤ px ∨ 792 ≤ py ∨ s.dieEnabled (8 * (py / 132) + px / 144) = false ∨
      s.underTest (8 * (py / 132) + px / 144) (px % 144) (py % 132) = false)) ∧
    (∃ (s : State) (px py : Nat), (1152 ≤ px ∨ 792 ≤ py ∨ s.dieEnabled (8 * (py / 132) + px / 144) = false ∨
      s.underTest (8 * (py / 132) + px / 144) (px % 144) (py % 132) = false)) :=
  ⟨⟨{ wF wRun RAS_CTRL_SELFTEST_EN 1 with ras := { wRun.ras with selftest := { wRun.ras.selftest with position := sset 0 [] 0 (16 * 5 + 3) } } }, 3, 5, by unfold State.storesWf State.noInjection; decide +kernel⟩,
   ⟨{ wF wRun RAS_CTRL_SELFTEST_EN 1 with ras := { wRun.ras with selftest := { wRun.ras.selftest with position := sset 0 [] 0 (16 * 5 + 3) } } }, 3, 5, (({ wF wRun RAS_CTRL_SELFTEST_EN 1 with ras := { wRun.ras with selftest := { wRun.ras.selftest with position := sset 0 [] 0 (16 * 5 + 3) } } }).logicalAt 0 5 3 |>.getD (0, 0)).1, (({ wF wRun RAS_CTRL_SELFTEST_EN 1 with ras := { wRun.ras with selftest := { wRun.ras.selftest with position := sset 0 [] 0 (16 * 5 + 3) } } }).logicalAt 0 5 3 |>.getD (0, 0)).2, by unfold State.storesWf State.noInjection; decide +kernel⟩,
   ⟨wRun, 1152, 0, by decide +kernel⟩,
   ⟨wRun, 0, 792, by decide +kernel⟩⟩

/-- The hypotheses of the clauses of `Obligations.BootToTrunk` hold together somewhere. -/
theorem wit_BootToTrunk :
    (∃ (s : State) (o : BootObs), s.bootsAt 0 ∧ o.resetLow = true) ∧
    (∃ (s : State) (o : BootObs), s.bootsAt 0 ∧ o.resetLow = false) ∧
    (∃ (s : State) (b : Bool) (k : Bank) (rest : List (Bool × Bank)) (i : FwImage), s.bootsAt 1 ∧ s.bark.meas.length = 9 ∧
      s.flash.order 1 = (b, k) :: rest ∧ imageOf k.image = some i) ∧
    (∃ (s : State), s.bootsAt 1 ∧ s.flash.order 1 = []) ∧
    (∃ (s : State), s.bootsAt 2 ∧ s.clk.xtal = true) ∧
    (∃ (s : State) (o : BootObs), s.storesWf ∧ s.bootsAt 3 ∧ o.pufBits ≤ pufLimit ∧ s.flash.helperOk = true) ∧
    (∃ (s : State) (o : BootObs), s.bootsAt 3 ∧ (pufLimit < o.pufBits ∨ s.flash.helperOk = false) ∧ s.ras.ringCount < 64) ∧
    (∃ (s : State), s.bootsAt 4) ∧
    (∃ (s : State) (raw : List Byte), s.bootsAt 5 ∧ raw = s.flash.cert ∧ headerOk 6 64 false raw = true ∧ rd raw 8 8 = s.hwVal 0x001 ∧
      zeros (cut raw 0x44 4) = true ∧ zeros (cut raw 0x68 24) = true ∧ (certOf raw).line < 2 ∧ (certOf raw).suits = true ∧
      (certOf raw).hash = s.certHash ∧ s.rollback 3 ≤ (certOf raw).svn ∧ ({ s with cert := certOf raw } : State).masksAgree raw = true ∧
      s.ras.ringCount < 63) ∧
    (∃ (s : State), s.bootsAt 5 ∧ (headerOk 6 64 false s.flash.cert = false ∨ rd s.flash.cert 8 8 ≠ s.hwVal 0x001 ∨
      zeros (cut s.flash.cert 0x44 4) = false ∨ zeros (cut s.flash.cert 0x68 24) = false ∨ 2 ≤ (certOf s.flash.cert).line ∨
      (certOf s.flash.cert).suits = false ∨ (certOf s.flash.cert).hash ≠ s.certHash ∨ (certOf s.flash.cert).svn < s.rollback 3 ∨
      ({ s with cert := certOf s.flash.cert } : State).masksAgree s.flash.cert = false) ∧ s.ras.ringCount < 63) ∧
    (∃ (s : State), s.bootsAt 6 ∧ s.boot.latched = true) ∧
    (∃ (s : State) (b : Bool) (k : Bank) (rest : List (Bool × Bank)) (i : FwImage), s.bootsAt 6 ∧ s.boot.latched = false ∧
      s.flash.order 2 = (b, k) :: rest ∧ imageOf k.image = some i) ∧
    (∃ (s : State), s.bootsAt 7 ∧ (s.hwReg 0x1C1).atLimit = false ∧ (s.hwReg 0x1C1).slots.length = 4 ∧
      (s.hwReg 0x1C1).nextLive.isSome = true ∧ swf HwReg.zero s.hw.regs = true) ∧
    (∃ (s : State), s.bootsAt 7 ∧ (s.hwReg 0x1C1).atLimit = true) ∧
    (∃ (s : State), (s.modl.standby = false ∨ s.boot.stopped = true ∨ s.boot.recovery = .rom ∨ s.boot.recovery = .seed)) ∧
    (∃ (s : State), (s.modl.standby = false ∨ s.boot.stopped = true ∨ s.boot.recovery = .rom ∨ s.boot.recovery = .seed)) ∧
    (∃ (s : State), (s.modl.standby = false ∨ s.boot.stopped = true ∨ s.boot.recovery = .rom ∨ s.boot.recovery = .seed)) ∧
    (∃ (s : State), (s.modl.standby = false ∨ s.boot.stopped = true ∨ s.boot.recovery = .rom ∨ s.boot.recovery = .seed)) :=
  ⟨⟨State.reset, { wObs with resetLow := true }, by unfold State.bootsAt; decide +kernel⟩,
   ⟨State.reset, wObs, by unfold State.bootsAt; decide +kernel⟩,
   ⟨{ ({ State.reset with boot := { State.reset.boot with stage := 1 } } : State) with flash := wFlash }, false, Bank.holding 1 (wRaw 1),
     [], (imageOf (wRaw 1)).getD default, by
      unfold State.bootsAt
      refine ⟨?_, ?_, wOrder rfl, (image_holding 1 _).symm ▸ some_getD wImages.1⟩ <;> decide +kernel⟩,
   ⟨{ ({ State.reset with boot := { State.reset.boot with stage := 1 } } : State) with flash := { Flash.shipped with seedA := Bank.blank, seedB := Bank.blank, limbA := Bank.blank, limbB := Bank.blank } }, by unfold State.bootsAt; decide +kernel⟩,
   ⟨{ ({ State.reset with boot := { State.reset.boot with stage := 2 } } : State) with clk := { State.reset.clk with xtal := true } },
     by unfold State.bootsAt; decide +kernel⟩,
   ⟨{ State.reset with boot := { State.reset.boot with stage := 3 } }, wObs, by unfold State.storesWf State.bootsAt; decide +kernel⟩,
   ⟨{ State.reset with boot := { State.reset.boot with stage := 3 } }, { wObs with pufBits := 2 ^ 20 },
     by unfold State.bootsAt; decide +kernel⟩,
   ⟨{ State.reset with boot := { State.reset.boot with stage := 4 } }, by unfold State.bootsAt; decide +kernel⟩,
   ⟨wBurl, wCert, by
      unfold State.bootsAt
      refine ⟨?_, rfl, ?_, ?_, ?_, ?_, ?_, ?_, wBurl_hash, ?_, ?_, ?_⟩ <;> decide +kernel⟩,
   ⟨{ wBurl with flash := { wBurl.flash with cert := [] } }, by unfold State.bootsAt; decide +kernel⟩,
   ⟨{ State.reset with boot := { State.reset.boot with stage := 6, latched := true } }, by unfold State.bootsAt; decide +kernel⟩,
   ⟨{ ({ State.reset with boot := { State.reset.boot with stage := 6 } } : State) with flash := wFlash }, false, Bank.holding 1 (wRaw 2),
     [], (imageOf (wRaw 2)).getD default, by
      unfold State.bootsAt
      refine ⟨?_, ?_, wOrder rfl, (image_holding 1 _).symm ▸ some_getD wImages.2.1⟩ <;> decide +kernel⟩,
   ⟨{ ({ State.reset with boot := { State.reset.boot with stage := 7 } } : State) with hw := { State.reset.hw with regs := [] } },
     by unfold State.bootsAt; decide +kernel⟩,
   ⟨{ ({ State.reset with boot := { State.reset.boot with stage := 7 } } : State) with hw := { State.reset.hw with regs := sset HwReg.zero State.reset.hw.regs 0x1C1 ⟨[⟨0, 400000, 0, 0, true, 9⟩, ⟨0, 400000, 0, 0, false, 0⟩, ⟨0, 400000, 0, 0, false, 0⟩, ⟨0, 400000, 0, 0, false, 0⟩], 0, false, true⟩ } }, by unfold State.bootsAt; decide +kernel⟩,
   ⟨{ State.reset with modl := { State.reset.modl with standby := false } }, by decide +kernel⟩,
   ⟨{ State.reset with boot := { State.reset.boot with stage := 5, stopped := true } }, by decide +kernel⟩,
   ⟨{ State.reset with boot := { State.reset.boot with stage := 1, recovery := .rom } }, by decide +kernel⟩,
   ⟨{ State.reset with boot := { State.reset.boot with stage := 6, recovery := .seed } }, by decide +kernel⟩⟩

/-- The hypotheses of the clauses of `Obligations.BootToReady` hold together somewhere. -/
theorem wit_BootToReady :
    (∃ (s : State), s.bootsAt 8 ∧ s.modl.inputOk = true ∧ 2000 ≤ s.modl.flow ∧ s.modl.inlet ≤ 4500 ∧ s.modl.hold = false) ∧
    (∃ (s : State), s.bootsAt 8 ∧ (s.modl.inputOk = false ∨ s.modl.flow < 2000 ∨ 4500 < s.modl.inlet ∨ s.modl.hold = true)) ∧
    (∃ (s : State), s.bootsAt 8 ∧ (s.modl.inputOk = false ∨ s.modl.flow < 2000 ∨ 4500 < s.modl.inlet ∨ s.modl.hold = true)) ∧
    (∃ (s : State) (n : Nat), n ∈ [9, 11, 14] ∧ s.bootsAt n) ∧
    (∃ (s : State) (n : Nat), n ∈ [9, 11, 14] ∧ s.bootsAt n) ∧
    (∃ (s : State) (n : Nat), n ∈ [9, 11, 14] ∧ s.bootsAt n) ∧
    (∃ (s : State), s.bootsAt 10) ∧
    (∃ (s : State), s.bootsAt 10) ∧
    (∃ (s : State), s.bootsAt 12 ∧ s.owner = 2) ∧
    (∃ (s : State), s.bootsAt 12 ∧ s.owner ≠ 2) ∧
    (∃ (s : State), s.storesWf ∧ s.bootsAt 13 ∧ s.bark.scrubbing = false) ∧
    (∃ (s : State), s.bootsAt 13 ∧ s.bark.scrubbing = true) ∧
    (∃ (s : State) (b : Bool) (k : Bank) (rest : List (Bool × Bank)) (i : FwImage), s.bootsAt 15 ∧ s.flash.order 3 = (b, k) :: rest ∧
      imageOf k.image = some i) ∧
    (∃ (s : State), s.bootsAt 15 ∧ s.flash.order 3 = []) ∧
    (∃ (s : State), s.bootsAt 16) ∧
    (∃ (s : State) (o : BootObs), s.bootsAt 17 ∧ o.perstLow = true) ∧
    (∃ (s : State) (o : BootObs), s.bootsAt 17 ∧ o.perstLow = false ∧ 1 ≤ o.speed ∧ o.speed ≤ 7 ∧ o.width ∈ [1, 2, 4, 8, 16] ∧
      s.host.clkMode = 0) :=
  ⟨⟨{ ({ State.reset with boot := { State.reset.boot with stage := 8 } } : State) with modl := { State.reset.modl with inputOk := true, flow := 2000, inlet := 4500 } }, by unfold State.bootsAt; decide +kernel⟩,
   ⟨{ ({ State.reset with boot := { State.reset.boot with stage := 8 } } : State) with modl := { State.reset.modl with inputOk := true, flow := 2000, inlet := 4500, hold := true } }, by unfold State.bootsAt; decide +kernel⟩,
   ⟨{ ({ State.reset with boot := { State.reset.boot with stage := 8 } } : State) with modl := { State.reset.modl with inputOk := true, flow := 1999 } }, by unfold State.bootsAt; decide +kernel⟩,
   ⟨{ State.reset with boot := { State.reset.boot with stage := 9 } }, 9, by unfold State.bootsAt; decide +kernel⟩,
   ⟨{ State.reset with boot := { State.reset.boot with stage := 11 } }, 11, by unfold State.bootsAt; decide +kernel⟩,
   ⟨{ State.reset with boot := { State.reset.boot with stage := 14 } }, 14, by unfold State.bootsAt; decide +kernel⟩,
   ⟨{ State.reset with boot := { State.reset.boot with stage := 10 } }, by unfold State.bootsAt; decide +kernel⟩,
   ⟨{ State.reset with boot := { State.reset.boot with stage := 10 } }, by unfold State.bootsAt; decide +kernel⟩,
   ⟨wHw ({ State.reset with boot := { State.reset.boot with stage := 12 } }) 0x1BE 2, by unfold State.bootsAt; decide +kernel⟩,
   ⟨{ State.reset with boot := { State.reset.boot with stage := 12 } }, by unfold State.bootsAt; decide +kernel⟩,
   ⟨{ ({ State.reset with boot := { State.reset.boot with stage := 13 } } : State) with cells := wCells },
     by unfold State.storesWf State.bootsAt; decide +kernel⟩,
   ⟨{ ({ State.reset with boot := { State.reset.boot with stage := 13 } } : State) with bark := { State.reset.bark with scrubbing := true } }, by unfold State.bootsAt; decide +kernel⟩,
   ⟨{ ({ State.reset with boot := { State.reset.boot with stage := 15 } } : State) with flash := wFlash }, false, Bank.holding 1 (wRaw 3),
     [], (imageOf (wRaw 3)).getD default, by
      unfold State.bootsAt
      exact ⟨by decide +kernel, wOrder rfl, (image_holding 1 _).symm ▸ some_getD wImages.2.2⟩⟩,
   ⟨{ ({ State.reset with boot := { State.reset.boot with stage := 15 } } : State) with flash := { Flash.shipped with seedA := Bank.blank, seedB := Bank.blank, limbA := Bank.blank, limbB := Bank.blank } }, by unfold State.bootsAt; decide +kernel⟩,
   ⟨{ State.reset with boot := { State.reset.boot with stage := 16 } }, by unfold State.bootsAt; decide +kernel⟩,
   ⟨{ State.reset with boot := { State.reset.boot with stage := 17 } }, { wObs with perstLow := true },
     by unfold State.bootsAt; decide +kernel⟩,
   ⟨{ State.reset with boot := { State.reset.boot with stage := 17 } }, wObs, by unfold State.bootsAt; decide +kernel⟩⟩

/-- The hypotheses of the clauses of `Obligations.CounterClears` hold together somewhere. -/
theorem wit_CounterClears :
    (∀ p ∈ [(Instr.graftClrCounters, GRAFT_CNT_COUNT, 6), (.jobClrCounters, JOB_CNT_COUNT, 12), (.sapClrCounters, SAP_CNT_COUNT, 14),
      (.streamClrCounters, STREAM_CNT_COUNT, 12), (.idClrCounters, ID_HOST_CNT_COUNT, 9), (.barkClrCounters, BARK_CNT_COUNT, 12),
      (.hwClrCounters, HW_CNT_COUNT, 6), (.pwrClrCounters, PWR_CNT_COUNT, 8), (.thmClrCounters, THM_CNT_COUNT, 5), (.telClrCounters,
      TEL_CNT_COUNT, 2), (.journalClrCounters, JOURNAL_CNT_COUNT, 4)], ∃ s : State, s.storesWf) ∧
    (∃ (s : State), s.storesWf) ∧
    (∃ (s : State), s.storesWf) ∧
    (∃ (s : State), s.storesWf) ∧
    (∃ (s : State), s.storesWf) :=
  ⟨fun _ _ => ⟨wF wRun (JOB_CNT_COUNT 11) 5, by unfold State.storesWf; decide +kernel⟩,
   ⟨wF wRun (SPARSE_CNT_COUNT 3) 5, by unfold State.storesWf; decide +kernel⟩,
   ⟨wF wRun (FAB_CNT_COUNT 3) 5, by unfold State.storesWf; decide +kernel⟩,
   ⟨wF wRun (EDGE_PORT_FEC_CORRECTED 3) 5, by unfold State.storesWf; decide +kernel⟩,
   ⟨wF wRun (RAS_CNT_COUNT 3) 5, by unfold State.storesWf; decide +kernel⟩⟩

/-- The hypotheses of the clauses of `Obligations.StepRunsTheFrontCommand` hold together somewhere. -/
theorem wit_StepRunsTheFrontCommand :
    (∃ (s : State) (c : Instr) (rest : List Instr), s.pending = c :: rest) ∧
    (∃ (s : State), s.pending = []) :=
  ⟨⟨{ wRun with pending := [.ready] }, .ready, [], by decide +kernel⟩,
   ⟨wRun, by decide +kernel⟩⟩

/-- The hypotheses of the clauses of `Obligations.WhatACommandCanDo` hold together somewhere. -/
theorem wit_WhatACommandCanDo :
    (∃ (c : Instr) (s : State), (∀ x y, namedCell c = some (x, y) → s.inGrid x y = true)) ∧
    (∃ (c : Instr) (s : State) (x y : Nat), namedCell c = some (x, y) ∧ s.inGrid x y = false) :=
  ⟨⟨.ready, wRun, (fun _ _ e => nomatch e)⟩,
   ⟨.spanLoad 2000 0, wRun, 2000, 0, by decide +kernel⟩⟩

/-- The hypotheses of the clauses of `Obligations.EveryStepKeepsTheStateSound` hold together somewhere. -/
theorem wit_EveryStepKeepsTheStateSound :
    (∃ (s t : State), s.storesWf ∧ s.ringOk ∧ step s = .next t) :=
  ⟨{ wRun with pending := [.ready] }, wRun, by
      unfold State.storesWf State.ringOk
      refine ⟨?_, ?_, rfl⟩ <;> decide +kernel⟩

/-! ## Ill-formed commands are refused by well-formedness, one per check -/

theorem test_cell_outside_grid : (Instr.spanLoad 1152 0).wf = false ∧ (Instr.spanLoad 1151 767).wf = true := by decide

theorem test_lane_outside_unit : (Instr.groupIssue 0 0 8).wf = false ∧ (Instr.groupIssue 0 0 7).wf = true := by decide

theorem test_window_outside_cell : (Instr.windowOpen 0 0 16).wf = false ∧ (Instr.windowOpen 0 0 15).wf = true := by decide

theorem test_tap_outside_rim : (Instr.streamRequest 384).wf = false ∧ (Instr.streamRequest 383).wf = true := by decide

theorem test_port_outside_edge : (Instr.retrain 72).wf = false ∧ (Instr.retrain 71).wf = true := by decide

theorem test_session_outside_table : (Instr.rtoExpiry 1024).wf = false ∧ (Instr.rtoExpiry 1023).wf = true := by decide

theorem test_die_outside_engine : (Instr.hardTrip 61).wf = false ∧ (Instr.hardTrip 60).wf = true := by decide

theorem test_pll_outside_engine : (Instr.pllUnlock 61).wf = false ∧ (Instr.pllUnlock 60).wf = true := by decide

theorem test_register_outside_heartwood : (Instr.heartwoodRefresh 1024).wf = false ∧ (Instr.heartwoodRefresh 1023).wf = true := by decide

/-! ## The codes and formats, on the check values of the algorithms the spec names -/

/-- The digits 1 to 9 as bytes. -/
def digits : List Byte := [0x31, 0x32, 0x33, 0x34, 0x35, 0x36, 0x37, 0x38, 0x39]

/-- The published check value of CRC-32C. -/
theorem test_crc32c_check : crc32c digits = 0xE3069283 := by decide +kernel

/-- The published check value of the CRC-64 with this polynomial, reflected, all ones before and after. -/
theorem test_crc64_check : crc64 digits = 0x995DC9BBDF1939FA := by decide +kernel

/-- The first eight bytes of SHA-384 of the empty string. -/
theorem test_sha384_empty : (sha384 []).take 8 = [0x38, 0xB0, 0x60, 0xA7, 0x51, 0xAC, 0x96, 0x38] := by decide +kernel

/-- The first eight bytes of SHA-384 of abc. -/
theorem test_sha384_abc : (sha384 [0x61, 0x62, 0x63]).take 8 = [0xCB, 0x00, 0x75, 0x3F, 0x45, 0xA3, 0x5E, 0x8B] := by decide +kernel

/-- 1 + 2^-24 is a tie, and goes to the even neighbour 1; 1 + 3·2^-24 goes to 1 + 2^-22. -/
theorem test_fp32_ties_to_even :
    add32 0x3F800000#32 0x33800000#32 = 0x3F800000#32 ∧ add32 0x3F800001#32 0x33800000#32 = 0x3F800002#32 := by decide +kernel

/-- E4M3 holds 240 as 0x77; 1000 lies above its largest finite value, 448 or 0x7E, and saturates to it. -/
theorem test_e4m3_pack : packFloat .e4m3 true (.fin false 240 0) = 0x77 ∧ packFloat .e4m3 true (.fin false 1000 0) = 0x7E := by
  decide +kernel

/-- An INT8 value of 0x80 is -128. -/
theorem test_int8_sign : Fmt.int8.decode 0x80 = .fin true 128 0 := by decide +kernel

/-! ## Single steps -/

/-- A step from reset with CRYSTAL_GOOD in front takes it off the queue. -/
theorem test_step_takes_front :
    (match step { State.reset with pending := [.crystalGood, .ready] } with
     | .next t => decide (t.pending = [.ready]) && t.clk.xtalGood
     | _ => false) = true := by decide +kernel

/-- The largest cell outside variant A's grid of 1,152 by 768 stops, and the last cell does not. -/
theorem test_absent_cell :
    exec (.spanLoad 1152 0) wRun = .fault (.absentCell 1152 0) ∧
      (match exec (.spanLoad 0 0) wRun with | .next _ => true | _ => false) = true := ⟨by rfl, by decide +kernel⟩

/-- No row of the table gives bits, so no word spells a command. -/
theorem test_no_word_spells : decodeTableWord 64 0 = none := by rfl

/-- RING_NUMBER of a ring at number 100 reads 100. -/
theorem test_ring_registers_read : wRun.viewTime 0x10018 = [(0, 100)] := by decide +kernel

end Sys2Proof.Tests
end

section
/-!
PROOFS. Events of the module (O50): what the resets of Table 16.1 leave behind, what a recorded fault leaves in the fault log, the end
of a job at an input failure, and the filter of the reset and wake pins.
-/
namespace Sys2Proof.Machine

/-! ## The ring and FAULT_N at a reset -/

/-- Moving the lock state ends at the state asked for. -/
theorem lockTo_lock (s : State) (l : LockState) : (s.lockTo l).ring.lock = l := by
  unfold State.lockTo
  split
  · assumption
  · exact congrArg Ring.lock ((State.event_alters _ _).only .ring (by decide))

/-- Dropping the lock ends at the state asked for. -/
theorem dropLock_lock (s : State) (l : LockState) : (s.dropLock l).ring.lock = l := lockTo_lock _ l

/-- Settling FAULT_N can change that pin and nothing else. -/
theorem settleFaultN_eq (s : State) :
    s.settleFaultN = { s with modl := { s.modl with faultN := s.settleFaultN.modl.faultN } } := by
  unfold State.settleFaultN
  split <;> rfl

/-! ## ENGINE reset -/

/-- What an ENGINE reset that turns s into t clears and what it leaves (Table 16.1), as far as the module's events speak of it. -/
structure EngineResetFrom (s t : State) : Prop where
  stage : t.boot.stage = 0
  lock : t.ring.lock = .unlocked
  cells : t.cells = []
  sess : t.sess = []
  cur : t.job.cur = none
  grant : t.bark.grant = none
  log : t.ras.log = []
  slotId : t.modl.slotId = s.modl.slotId
  inputOk : t.modl.inputOk = s.modl.inputOk
  hold : t.modl.hold = s.modl.hold
  inputFailed : t.modl.inputFailed = false
  holdDropped : t.modl.holdDropped = false
  hwRegs : t.hw.regs = s.hw.regs
  flash : t.flash = s.flash

/-- The first part of an ENGINE reset touches registers, the ring unit and the message it may cause alone. -/
theorem dropLock_clear_alters (s : State) (l : LockState) (F : Nat → Fld) (n : Nat) (Fs : List Fld) :
    Alters [.regs, .ring, .host, .sent] s (((s.clearArr F n).clearFs Fs).dropLock l) :=
  .step (State.dropLock_alters _ _) (by decide +kernel) (.step (State.clearFs_alters _ _) (by decide +kernel)
    (.step (State.clearArr_alters _ _ _) (by decide +kernel) (.refl _ _)))

/-- Settling FAULT_N after the reset changes nothing of this. -/
theorem EngineResetFrom.settleFaultN {s t : State} (h : EngineResetFrom s t) : EngineResetFrom s t.settleFaultN := by
  rw [settleFaultN_eq]
  exact ⟨h.stage, h.lock, h.cells, h.sess, h.cur, h.grant, h.log, h.slotId, h.inputOk, h.hold, h.inputFailed, h.holdDropped,
    h.hwRegs, h.flash⟩

theorem engineReset_engineResetFrom (s : State) : EngineResetFrom s s.engineReset := by
  have kept := dropLock_clear_alters s .unlocked SAP_DIE_EPOCH_EPOCH 60 [INJ_COUNT_FIRED, BURL_STATUS_LAST_BAND]
  have lock := dropLock_lock ((s.clearArr SAP_DIE_EPOCH_EPOCH 60).clearFs [INJ_COUNT_FIRED, BURL_STATUS_LAST_BAND]) .unlocked
  unfold State.engineReset
  dsimp only
  revert kept lock
  generalize ((s.clearArr SAP_DIE_EPOCH_EPOCH 60).clearFs [INJ_COUNT_FIRED, BURL_STATUS_LAST_BAND]).dropLock .unlocked = t
  intro kept lock
  have modl : t.modl = s.modl := kept.only .modl (by decide)
  have hw : t.hw = s.hw := kept.only .hw (by decide)
  refine EngineResetFrom.settleFaultN ?_
  constructor
  case lock => exact lock
  case slotId => exact (congrArg Module.slotId modl :)
  case inputOk => exact (congrArg Module.inputOk modl :)
  case hold => exact (congrArg Module.hold modl :)
  case hwRegs => exact (congrArg Heartwood.regs hw :)
  case flash => exact kept.only .flash (by decide)
  all_goals rfl

/-! ## Fault records -/

/-- The fault log holds a record of a fault code from a source. -/
def State.Logged (s : State) (fc : FaultCode) (src : Src) : Prop :=
  ∃ q ∈ s.ras.log, q.cls = fc.cls ∧ q.code = fc.code ∧ q.src = src

theorem State.Logged.of_log_eq {s t : State} {fc : FaultCode} {src : Src} (h : s.Logged fc src) (e : t.ras.log = s.ras.log) :
    t.Logged fc src := by
  unfold State.Logged
  rw [e]
  exact h

/-- What leaves the RAS unit alone keeps what is logged. -/
theorem State.Logged.of_alters {ps : List Part} {s t : State} {fc : FaultCode} {src : Src} (h : s.Logged fc src) (k : Alters ps s t)
    (hp : Part.ras ∉ ps) : t.Logged fc src := h.of_log_eq (congrArg Ras.log (k.only .ras hp))

/-- Once a record stands in the log, its count, its cause and its journal copy touch neither the log nor the job. -/
theorem announceRec_alters (s : State) (kind : Nat) (inj : Bool) (body : List Byte) :
    Alters [.regs, .host, .journal, .free, .sent] s (((s.inc (RAS_CNT_COUNT 0) 1).event 1).record kind inj body) :=
  .step (State.record_alters _ _ _ _) (by decide +kernel) (.step (State.event_alters _ _) (by decide +kernel)
    (.step (State.inc_alters _ _ _) (by decide +kernel) (.refl _ _)))

/-- With room in the record ring a fault leaves its record (R418). -/
theorem writeRec_logged {s : State} (room : s.ras.ringCount < 64) (fc : FaultCode) (src : Src) (detail : Nat) (blocks : Bool)
    (w : When) (inj : Bool) : (s.writeRec fc src detail blocks w inj).Logged fc src := by
  unfold State.writeRec
  rw [if_neg (Nat.not_le.mpr room)]
  dsimp only
  refine State.Logged.of_alters ?_ (announceRec_alters _ _ _ _) (by decide)
  exact ⟨_, List.mem_cons_self .., rfl, rfl, rfl⟩

/-- Writing a record brings up no job. -/
theorem writeRec_cur_none {s : State} (h : s.job.cur = none) (fc : FaultCode) (src : Src) (detail : Nat) (blocks : Bool)
    (w : When) (inj : Bool) : (s.writeRec fc src detail blocks w inj).job.cur = none := by
  unfold State.writeRec
  split
  · exact h
  · dsimp only
    have before : (s.whenOf w).2.2.job = s.job := (State.whenOf_alters s w).only .job (by decide)
    rw [show (State.record _ _ _ _).job = _ from (announceRec_alters _ _ _ _).only .job (by decide)]
    show ((s.whenOf w).2.2.job.cur).map _ = none
    rw [before, h]
    rfl

/-! ## The end of a job at a fault -/

/-- The journal's records leave the fault log alone. -/
theorem record_log (s : State) (kind : Nat) (inj : Bool) (body : List Byte) : (s.record kind inj body).ras.log = s.ras.log :=
  congrArg Ras.log ((State.record_alters _ _ _ _).only .ras (by decide))

/-- What follows the end of a job's work, up to the completion cause, touches registers, counts and messages alone. -/
theorem endJob_tail_alters (s : State) (status : Nat) :
    Alters [.regs, .pendStep, .bark, .sent] s (((s.countEnd status).settleStep).endTags false) :=
  .step (State.endTags_alters _ _) (by decide +kernel) (.step (State.settleStep_alters _) (by decide +kernel)
    (.step (State.countEnd_alters _ _) (by decide +kernel) (.refl _ _)))

/-- The end of a job leaves no job, and every record of the fault log. -/
theorem endJob_ends (s : State) (status reason last : Nat) :
    (s.endJob status reason last).job.cur = none ∧ (s.endJob status reason last).ras.log = s.ras.log := by
  cases cur : s.job.cur with
  | none =>
    have same : s.endJob status reason last = s := by unfold State.endJob; rw [cur]
    rw [same]
    exact ⟨cur, rfl⟩
  | some j =>
    unfold State.endJob
    rw [cur]
    dsimp only
    have tail {t u : State} (k : u.job.cur = none ∧ u.ras.log = s.ras.log) (h : Alters [.regs, .pendStep, .bark, .sent, .host] u t) :
        t.job.cur = none ∧ t.ras.log = s.ras.log := by
      rw [show t.job = u.job from h.only .job (by decide), show t.ras = u.ras from h.only .ras (by decide)]
      exact k
    split
    · refine tail ?_ (.step (State.event_alters _ _) (by decide +kernel) (.step (endJob_tail_alters _ _) (by decide +kernel) (.refl _ _)))
      exact ⟨rfl, record_log ..⟩
    · refine tail ?_ (.step (endJob_tail_alters _ _) (by decide +kernel) (.refl _ _))
      exact ⟨rfl, record_log ..⟩

/-- A fault that ends the job leaves none. -/
theorem raiseEnd_cur (s : State) (fc : FaultCode) (src : Src) (detail : Nat) (w : When) (inj : Bool) :
    (s.raiseEnd fc src detail w inj).job.cur = none := by
  unfold State.raiseEnd
  split
  case h_1 cur =>
    rw [show (((s.writeRec fc src detail false w inj).lastRegs fc src detail).job) = _ from
      (State.lastRegs_alters _ _ _ _).only .job (by decide)]
    exact writeRec_cur_none cur ..
  case h_2 => exact (endJob_ends _ _ _ _).1

/-- With room in the record ring a fault leaves its record, whatever the registers of its class show then. -/
theorem shownRec_logged {s : State} (room : s.ras.ringCount < 64) (fc : FaultCode) (src : Src) (detail : Nat) (blocks : Bool)
    (w : When) (inj : Bool) : ((s.writeRec fc src detail blocks w inj).lastRegs fc src detail).Logged fc src :=
  (writeRec_logged room ..).of_alters (State.lastRegs_alters _ _ _ _) (by decide)

/-- Marking the job, where a condition holds, touches the job unit alone. -/
theorem markJob_alters (s : State) (c : Bool) (f : Job → Job) : Alters [.job] s (if c then s.setJob f else s) :=
  .ite (State.setJob_alters _ _) (.refl _ _)

/-- Discarding at the stores, where a condition holds, touches neither the fault log nor the pins. -/
theorem discard_alters (s : State) (c : Bool) :
    Alters [.regs, .tree, .sess, .limbs, .stream, .host, .sent] s (if c then s.syncStores false 0 else s) :=
  .ite (State.syncStores_alters _ _ _) (.refl _ _)

/-- With room in the record ring a fault that ends the job leaves its record (R418). -/
theorem raiseEnd_logged {s : State} (room : s.ras.ringCount < 64) (fc : FaultCode) (src : Src) (detail : Nat) (w : When) (inj : Bool) :
    (s.raiseEnd fc src detail w inj).Logged fc src := by
  unfold State.raiseEnd
  split
  · exact shownRec_logged room ..
  · exact ((shownRec_logged room ..).of_alters (discard_alters _ _) (by decide)).of_log_eq (endJob_ends _ _ _ _).2

/-- With room in the record ring a fault leaves its record, whatever it does to the job (R249, R418). -/
theorem raise_logged {s : State} (room : s.ras.ringCount < 64) (fc : FaultCode) (src : Src) (detail : Nat) (stops : Bool) (w : When)
    (inj : Bool) : (s.raise fc src detail stops w inj).Logged fc src := by
  unfold State.raise
  split
  · exact shownRec_logged room ..
  · have marked (b c : Bool) (f : Job → Job) :=
      (shownRec_logged room fc src detail b w inj).of_alters (markJob_alters _ c f) (by decide)
    dsimp only
    split
    · exact ((marked _ _ _).of_alters (State.syncStores_alters _ false 0) (by decide)).of_log_eq (endJob_ends _ _ _ _).2
    · exact marked _ _ _

/-! ## Faults that no pin shows -/

/-- No register shows an input failure as the last fault of its class. -/
theorem lastRegs_inputFail (s : State) (src : Src) (detail : Nat) : s.lastRegs ⟨.power, 1⟩ src detail = s := rfl

/-- No register shows a condensation hold as the last fault of its class. -/
theorem lastRegs_condensation (s : State) (src : Src) (detail : Nat) : s.lastRegs ⟨.thermal, 6⟩ src detail = s := rfl

section
variable {fc : FaultCode} {src : Src} {detail : Nat} (quiet : ∀ t : State, (t.lastRegs fc src detail).modl = t.modl)
include quiet

/-- The record of a fault that no pin shows leaves the module's pins and conditions alone. -/
theorem shownRec_modl (s : State) (blocks : Bool) (w : When) (inj : Bool) :
    ((s.writeRec fc src detail blocks w inj).lastRegs fc src detail).modl = s.modl :=
  (quiet _).trans ((State.writeRec_alters _ _ _ _ _ _ _).only .modl (by decide))

/-- So does the fault, whatever it does to the job. -/
theorem raise_modl (s : State) (stops : Bool) (w : When) (inj : Bool) : (s.raise fc src detail stops w inj).modl = s.modl := by
  unfold State.raise
  split
  · exact shownRec_modl quiet ..
  · have marked (b c : Bool) (f : Job → Job) :=
      ((markJob_alters ((s.writeRec fc src detail b w inj).lastRegs fc src detail) c f).only .modl (by decide)).trans
        (shownRec_modl quiet s b w inj)
    dsimp only
    split
    · exact ((State.updateFault_alters _ _).only .modl (by decide)).trans (marked _ _ _)
    · exact marked _ _ _

/-- So does one that ends the job. -/
theorem raiseEnd_modl (s : State) (w : When) (inj : Bool) : (s.raiseEnd fc src detail w inj).modl = s.modl := by
  unfold State.raiseEnd
  split
  · exact shownRec_modl quiet ..
  · exact ((State.endJob_alters _ _ _ _).only .modl (by decide)).trans
      (((discard_alters _ _).only .modl (by decide)).trans (shownRec_modl quiet ..))

end

/-! ## An input failure -/

/-- FAULT_N is asserted, and no other pin or condition moves. -/
theorem faultN_modl (s : State) : s.faultN.modl = { s.modl with faultN := true } := by
  unfold State.faultN
  split
  case isTrue asserted => rw [← asserted]
  case isFalse => exact (State.inBand_alters _).only .modl (by decide)

/-- LAST_GASP closes heartwood to further writes; what has persisted stays (R23, R377). -/
theorem lastGasp_hw (s : State) (cls code : Nat) :
    (s.lastGasp cls code).hw.closed = true ∧ (s.lastGasp cls code).hw.regs = s.hw.regs := by
  unfold State.lastGasp
  dsimp only
  split <;> exact ⟨rfl, rfl⟩

/-- The links that go down with main rails are ports, registers and messages alone. -/
theorem linksDown_alters (s : State) (ps : List Nat) (hs : List Bool) :
    Alters [.regs, .ports, .host, .sent] s (ps.foldl (fun s p => hs.foldl (fun s h => s.linkTo p h .disabled) s) s) :=
  .foldl (fun _ _ => .foldl (fun _ _ => State.linkTo_alters _ _ _ _) _ (.refl _ _)) _ (.refl _ _)

/-- Main rails down: the module shows it, the cells are gone, the job unit still holds what it held. -/
theorem dropRails_down (s : State) :
    s.dropRails.modl = { s.modl with mains := false, pwrGood := false } ∧ s.dropRails.cells = [] ∧
      s.dropRails.job.cur = s.job.cur := by
  have kept := linksDown_alters s (List.range 72) [false, true]
  unfold State.dropRails
  dsimp only
  revert kept
  generalize (List.range 72).foldl (fun s p => [false, true].foldl (fun s h => s.linkTo p h .disabled) s) s = t
  intro kept
  have modl : t.modl = s.modl := kept.only .modl (by decide)
  have job : t.job = s.job := kept.only .job (by decide)
  rw [modl, job]
  exact ⟨rfl, rfl, rfl⟩

/-- The effect of an input failure on the module's pins and conditions (R23). -/
theorem inputFails_modl (s : State) (inj : Bool) :
    (s.inputFails inj).modl = { s.modl with faultN := true, inputFailed := true, mains := false, pwrGood := false } := by
  unfold State.inputFails
  dsimp only
  rw [(dropRails_down _).1, setModl_modl, faultN_modl, show (State.lastGasp _ _ _).modl = _ from
    (State.lastGasp_alters _ _ _).only .modl (by decide), raiseEnd_modl (fun t => congrArg State.modl (lastRegs_inputFail t _ _))]

/-- Between the record of a fault and the drop of main rails an input failure touches heartwood, registers and pins alone. -/
theorem gasp_alters (s : State) (cls code : Nat) (f : Module → Module) :
    Alters [.regs, .modl, .hw, .sent] s ((s.lastGasp cls code).faultN.setModl f) :=
  .step (State.setModl_alters _ _) (by decide +kernel) (.step (State.faultN_alters _) (by decide +kernel)
    (.step (State.lastGasp_alters _ _ _) (by decide +kernel) (.refl _ _)))

/-- An input failure empties the cells (R22). -/
theorem inputFails_cells (s : State) (inj : Bool) : (s.inputFails inj).cells = [] := (dropRails_down _).2.1

/-- An input failure ends the job (R23). -/
theorem inputFails_cur (s : State) (inj : Bool) : (s.inputFails inj).job.cur = none := by
  unfold State.inputFails
  dsimp only
  rw [(dropRails_down _).2.2, show (State.setModl _ _).job = _ from (gasp_alters _ _ _ _).only .job (by decide)]
  exact raiseEnd_cur ..

/-- With room in the record ring an input failure is recorded as POWER/INPUT_FAIL (R23). -/
theorem inputFails_logged {s : State} (room : s.ras.ringCount < 64) (inj : Bool) :
    (s.inputFails inj).Logged ⟨.power, 1⟩ .engine :=
  ((raiseEnd_logged room ..).of_alters (gasp_alters _ _ _ _) (by decide)).of_alters (State.dropRails_alters _) (by decide)

/-- An input failure closes heartwood, and what has persisted stays (R23, R377). -/
theorem inputFails_hw (s : State) (inj : Bool) :
    (s.inputFails inj).hw.closed = true ∧ (s.inputFails inj).hw.regs = s.hw.regs := by
  unfold State.inputFails
  dsimp only
  rw [show (State.dropRails _).hw = _ from (State.dropRails_alters _).only .hw (by decide), setModl_hw,
    show (State.faultN _).hw = _ from (State.faultN_alters _).only .hw (by decide),
    ← show (s.raiseEnd ⟨.power, 1⟩ .engine 0 .during inj).hw = s.hw from (State.raiseEnd_alters _ _ _ _ _ _).only .hw (by decide)]
  exact lastGasp_hw ..

/-- INPUT_FAIL of an input in range is an input failure. -/
theorem exec_inputFail_inRange {s : State} (standby : s.modl.standby = true) (inRange : s.modl.inputOk = true) :
    exec .inputFail s = .next ((s.setModl (fun m => { m with inputOk := false })).inputFails false) := by
  simp [execInputFail, standby, inRange]

/-- INPUT_RETURN after an input failure is an ENGINE reset with the input in range (R23). -/
theorem exec_inputReturn_failed {s : State} (standby : s.modl.standby = true) (failed : s.modl.inputFailed = true) :
    exec .inputReturn s = .next (s.setModl (fun m => { m with inputOk := true })).engineReset := by
  simp [execInputReturn, standby, failed]

/-- INPUT_RETURN with no input failure standing notes the input, no more. -/
theorem exec_inputReturn_notFailed {s : State} (standby : s.modl.standby = true) (notFailed : s.modl.inputFailed = false) :
    exec .inputReturn s = .next (s.setModl (fun m => { m with inputOk := true })) := by
  simp [execInputReturn, standby, notFailed]

/-- STANDBY_LOSS with no heartwood write under way is a power-on reset that leaves standby down. -/
theorem exec_standbyLoss_idle {s : State} (standby : s.modl.standby = true) (idle : s.hw.busy = []) :
    exec .standbyLoss s = .next ((s.powerOnReset s.modl.slotId).setModl (fun m => { m with standby := false })) := by
  simp [execStandbyLoss, standby, idle]

/-! ## The filter of the pins (R28) -/

theorem pulse_of_long {ns : Nat} (long : 2500 ≤ ns) (s : State) : s.pulse ns = (true, s) := by
  unfold State.pulse
  exact if_pos long

theorem pulse_of_short {ns : Nat} (short : ns < 1500) (s : State) : s.pulse ns = (false, s) := by
  unfold State.pulse
  rw [if_neg (by omega), if_pos short]

/-- A short pulse on RESET_N or WAKE_N does nothing. -/
theorem exec_short_pulse {ns : Nat} (short : ns < 1500) (s : State) :
    exec (.resetN ns) s = .next s ∧ exec (.wakeN ns) s = .next s := by
  simp [execResetN, execWakeN, pulse_of_short short]

/-- A long pulse on RESET_N with standby up is an ENGINE reset (R446). -/
theorem exec_resetN_long {ns : Nat} (long : 2500 ≤ ns) {s : State} (standby : s.modl.standby = true) :
    exec (.resetN ns) s = .next s.engineReset := by
  simp [execResetN, pulse_of_long long, standby]

/-- How long a pulse lasts beyond 2.5 µs makes no difference. -/
theorem exec_long_pulse {ns : Nat} (long : 2500 ≤ ns) (s : State) :
    exec (.resetN ns) s = exec (.resetN 2500) s ∧ exec (.wakeN ns) s = exec (.wakeN 2500) s := by
  simp only [exec_resetN, exec_wakeN, execResetN, execWakeN, pulse_of_long long, pulse_of_long (Nat.le_refl 2500), and_self]

/-! ## The condensation hold (R26) -/

theorem exec_condensationHold_mains {s : State} (free : s.modl.hold = false) (mains : s.modl.mains = true) :
    exec .condensationHold s =
      .next ((s.setModl (fun m => { m with hold := true })).raise ⟨.thermal, 6⟩ .engine 0 false .during false) := by
  simp [execCondensationHold, free, mains]

theorem exec_condensationHold_noMains {s : State} (free : s.modl.hold = false) (down : s.modl.mains = false) :
    exec .condensationHold s = .next (s.setModl (fun m => { m with hold := true })) := by
  simp [execCondensationHold, free, down]

theorem exec_condensationClear_dropped {s : State} (hold : s.modl.hold = true) (dropped : s.modl.holdDropped = true) :
    exec .condensationClear s = .next (s.setModl (fun m => { m with hold := false })).engineReset := by
  simp [execCondensationClear, hold, dropped]

theorem exec_condensationClear_notDropped {s : State} (hold : s.modl.hold = true) (kept : s.modl.holdDropped = false) :
    exec .condensationClear s = .next (s.setModl (fun m => { m with hold := false })) := by
  simp [execCondensationClear, hold, kept]

/-! ## The obligation -/

/-- A change of the module alone changes nothing else. -/
theorem setModl_only (s : State) (f : Module → Module) : OnlyChanges [.modl] s (s.setModl f) := (State.setModl_alters s f).only

/-- Settles O50: each event answers the state that the lemma on its operation describes: an input failure `inputFails`, a return, a long
pulse and the end of a hold that dropped the rails `engineReset`, standby `powerOnReset`. -/
theorem moduleEvents : Obligations.ModuleEvents := by
  refine ⟨?inputFail, ?inputOut, ?returnFailed, ?returnPlain, ?standbyLoss, ?powerOn, ?powerOnUp, ?standbyDown, ?resetLong,
    ?resetShort, ?pulseLong, ?wakeShort, ?holdMains, ?holdNoMains, ?clearPlain, ?clearDropped, ?tilt⟩
  case inputFail =>
    intro s standby inRange room
    have modl := inputFails_modl (s.setModl (fun m => { m with inputOk := false })) false
    obtain ⟨closed, hwRegs⟩ := inputFails_hw (s.setModl (fun m => { m with inputOk := false })) false
    have logged : State.Logged _ _ _ := inputFails_logged (s := s.setModl (fun m => { m with inputOk := false })) room false
    exact ⟨_, exec_inputFail_inRange standby inRange, congrArg Module.inputFailed modl, congrArg Module.inputOk modl,
      congrArg Module.mains modl, congrArg Module.faultN modl, congrArg Module.pwrGood modl, inputFails_cur .., inputFails_cells ..,
      closed, logged, hwRegs, (State.inputFails_alters _ _).only .flash (by decide)⟩
  case inputOut =>
    intro s out
    simp [execInputFail, out]
  case returnFailed =>
    intro s standby failed
    have reset := engineReset_engineResetFrom (s.setModl (fun m => { m with inputOk := true }))
    exact ⟨_, exec_inputReturn_failed standby failed, reset.inputOk, reset.inputFailed, reset.stage, reset.lock,
      reset.hwRegs, reset.flash⟩
  case returnPlain =>
    intro s standby notFailed
    exact ⟨_, exec_inputReturn_notFailed standby notFailed, rfl, setModl_only _ _⟩
  case standbyLoss =>
    intro s standby idle
    exact ⟨_, exec_standbyLoss_idle standby idle, rfl, rfl, rfl, rfl, rfl, rfl, rfl⟩
  case powerOn =>
    intro s slot down small
    exact ⟨s.powerOnReset slot, by simp [execPowerOn, down], rfl, Nat.mod_eq_of_lt small, rfl, rfl, rfl, rfl, rfl, rfl⟩
  case powerOnUp =>
    intro s slot standby
    simp [execPowerOn, standby]
  case standbyDown =>
    intro s down c member
    simp only [List.mem_cons, List.not_mem_nil, or_false] at member
    obtain rfl | rfl | rfl := member
    · simp [execInputFail, down]
    · simp [execInputReturn, down]
    · simp [execStandbyLoss, down]
  case resetLong =>
    intro s ns long standby
    have reset := engineReset_engineResetFrom s
    exact ⟨_, exec_resetN_long long standby, reset.stage, reset.lock, reset.cells, reset.sess, reset.cur, reset.grant, reset.log,
      reset.slotId, reset.hwRegs, reset.flash⟩
  case resetShort => exact fun s ns short => (exec_short_pulse short s).1
  case pulseLong => exact fun s ns long => exec_long_pulse long s
  case wakeShort => exact fun s ns short => (exec_short_pulse short s).2
  case holdMains =>
    intro s free mains room
    have modl := raise_modl (fun t => congrArg State.modl (lastRegs_condensation t .engine 0))
      (s.setModl (fun m => { m with hold := true })) false .during false
    have logged : State.Logged _ _ _ := raise_logged (s := s.setModl (fun m => { m with hold := true })) room ⟨.thermal, 6⟩ .engine 0
      false .during false
    exact ⟨_, exec_condensationHold_mains free mains, congrArg Module.hold modl, logged⟩
  case holdNoMains =>
    intro s free down
    exact ⟨_, exec_condensationHold_noMains free down, rfl, setModl_only _ _⟩
  case clearPlain =>
    intro s hold kept
    exact ⟨_, exec_condensationClear_notDropped hold kept, rfl, setModl_only _ _⟩
  case clearDropped =>
    intro s hold dropped
    have reset := engineReset_engineResetFrom (s.setModl (fun m => { m with hold := false }))
    exact ⟨_, exec_condensationClear_dropped hold dropped, reset.hold, reset.holdDropped, reset.stage, reset.lock⟩
  case tilt => exact fun s => ⟨_, rfl, rfl, setModl_only _ _⟩

end Sys2Proof.Machine
end

section
/-!
PROOFS. Decision edges (O47): which register fields a fault record writes, what the power half of a decision edge leaves alone, where
the thermal ceiling goes, and the commands that write the settings an edge takes.
-/
namespace Sys2Proof.Machine

/-! ## Register fields that a fault record writes -/

namespace FieldsKept

/-- Counting in a listed field keeps the others. -/
theorem inc {l : List Fld} {s t : State} {F : Fld} {n : Nat} (m : F.key ∈ l.map Fld.key) (h : FieldsKept l s t) :
    FieldsKept l s (t.inc F n) := h.setF m

/-- Raising a listed bit keeps the others. -/
theorem flag {l : List Fld} {s t : State} {F : Fld} (m : F.key ∈ l.map Fld.key) (h : FieldsKept l s t) :
    FieldsKept l s (t.flag F) := h.setF m

/-- Both branches of a condition. -/
theorem ite {l : List Fld} {s t u : State} {c : Prop} [Decidable c] (h : FieldsKept l s t) (k : FieldsKept l s u) :
    FieldsKept l s (if c then t else u) := by split <;> assumption

/-- An event writes the cause register and the count of messages. -/
theorem event {l : List Fld} {s t : State} {v : Nat} (cause : ID_INT_CAUSE_CAUSE.key ∈ l.map Fld.key)
    (sent : (ID_HOST_CNT_COUNT 7).key ∈ l.map Fld.key) (h : FieldsKept l s t) : FieldsKept l s (t.event v) :=
  fun F hF => (f_event (fun e => hF (e ▸ cause)) (fun e => hF (e ▸ sent))).trans (h F hF)

end FieldsKept

/-- The fields that the power half of a decision edge may write: the counts of capping actions and episodes, and what the fault record of
an episode writes: the count of records or of those lost, the cause, and what the journal shows of it. -/
def capFields : List Fld :=
  [PWR_CNT_COUNT 3, PWR_CNT_COUNT 4, RAS_CNT_COUNT 0, RAS_CNT_COUNT 1, ID_INT_CAUSE_CAUSE, ID_HOST_CNT_COUNT 7, JOURNAL_CNT_COUNT 0,
   JOURNAL_CNT_COUNT 1, JOURNAL_CNT_COUNT 2, JOURNAL_STATUS_STOPPED, JOURNAL_STATUS_HWM]

/-- An event writes none but these. -/
theorem FieldsKept.capEvent {s t : State} {v : Nat} (h : FieldsKept capFields s t) : FieldsKept capFields s (t.event v) :=
  h.event (by decide) (by decide)

/-- Neither does a record of the journal, whether it is kept, lost or stops the journal. -/
theorem FieldsKept.record {s t : State} {kind : Nat} {inj : Bool} {body : List Byte} (h : FieldsKept capFields s t) :
    FieldsKept capFields s (t.record kind inj body) := by
  unfold State.record State.journalStop
  split
  · exact h
  · split
    · exact h.inc (by decide)
    · dsimp only
      split
      · exact .inc (by decide) (.capEvent (.flag (by decide) (h.ofRegs rfl)))
      · refine .ite (.capEvent (.flag (by decide) ?_)) ?_
        all_goals exact .inc (by decide) (.inc (by decide) (h.ofRegs rfl))

/-- Nor a fault record. -/
theorem FieldsKept.writeRec {s t : State} {fc : FaultCode} {src : Src} {detail : Nat} {blocks : Bool} {w : When} {inj : Bool}
    (h : FieldsKept capFields s t) : FieldsKept capFields s (t.writeRec fc src detail blocks w inj) := by
  have drawn : (t.whenOf w).2.2.regs = t.regs := by cases w <;> rfl
  unfold State.writeRec
  exact .ite (.inc (by decide) h) (.record (.capEvent (.inc (by decide) (h.ofRegs drawn))))

/-- A fault record arms and disarms no injection. -/
theorem writeRec_inj (s : State) (fc : FaultCode) (src : Src) (detail : Nat) (blocks : Bool) (w : When) (inj : Bool) :
    (s.writeRec fc src detail blocks w inj).ras.inj = s.ras.inj := by
  have drawn : (s.whenOf w).2.2.ras = s.ras := (State.whenOf_alters s w).only .ras (by decide)
  unfold State.writeRec
  split
  · rfl
  · dsimp only
    rw [show (State.record _ _ _ _).ras = _ from (announceRec_alters _ _ _ _).only .ras (by decide)]
    exact (congrArg Ras.inj drawn :)

/-! ## CAP_UNMET -/

/-- POWER/CAP_UNMET is recorded and raises the POWER cause; it stops no commit and ends no job. -/
theorem raise_capUnmet (s : State) (src : Src) (detail : Nat) (w : When) (inj : Bool) :
    s.raise ⟨.power, 2⟩ src detail false w inj = (s.writeRec ⟨.power, 2⟩ src detail false w inj).event 5 := by
  unfold State.raise
  split <;> rfl

/-- What judging the episode may do: nothing, set CAP_UNMET aside, or begin an episode. -/
theorem capEpisode_cases (s : State) (c : Nat) (spent : Bool) :
    s.capEpisode c spent = s ∨ s.capEpisode c spent = s.setPower (fun p => { p with capUnmet := false }) ∨
    ∃ inj, s.capEpisode c spent = ((((s.setPower (fun p => { p with capUnmet := true })).inc (PWR_CNT_COUNT 4) 1).writeRec
      ⟨.power, 2⟩ .engine 0 false .start inj).event 5) := by
  unfold State.capEpisode
  split
  · exact .inr (.inl rfl)
  · split
    · exact .inr (.inr ⟨_, raise_capUnmet ..⟩)
    · exact .inl rfl

/-- Judging the episode moves CAP_UNMET alone in the power unit. -/
theorem capEpisode_power (s : State) (c : Nat) (spent : Bool) :
    ∃ b, (s.capEpisode c spent).power = { s.power with capUnmet := b } := by
  obtain same | ended | ⟨inj, begun⟩ := capEpisode_cases s c spent
  · exact ⟨s.power.capUnmet, by rw [same]⟩
  · exact ⟨false, by rw [ended]; rfl⟩
  · refine ⟨true, ?_⟩
    rw [begun, show (State.event _ _).power = _ from (State.event_alters _ _).only .power (by decide),
      show (State.writeRec _ _ _ _ _ _ _).power = _ from (State.writeRec_alters _ _ _ _ _ _ _).only .power (by decide)]
    rfl

/-- An episode ends once P_1ms is at most C (R401). -/
theorem capEpisode_met {s : State} {c : Nat} (met : s.power.measW ≤ c) (spent : Bool) :
    (s.capEpisode c spent).power.capUnmet = false := by
  unfold State.capEpisode
  rw [if_pos met]
  rfl

/-- Judging the episode arms and disarms no injection. -/
theorem capEpisode_inj (s : State) (c : Nat) (spent : Bool) : (s.capEpisode c spent).ras.inj = s.ras.inj := by
  obtain same | ended | ⟨inj, begun⟩ := capEpisode_cases s c spent
  · rw [same]
  · rw [ended]; rfl
  · rw [begun, show (State.event _ _).ras = _ from (State.event_alters _ _).only .ras (by decide), writeRec_inj]
    rfl

/-- Judging the episode writes none but the fields named. -/
theorem FieldsKept.capEpisode {s t : State} {c : Nat} {spent : Bool} (h : FieldsKept capFields s t) :
    FieldsKept capFields s (t.capEpisode c spent) := by
  obtain same | ended | ⟨inj, begun⟩ := capEpisode_cases t c spent
  · rw [same]; exact h
  · rw [ended]; exact h.ofRegs rfl
  · rw [begun]; exact .capEvent (.writeRec (.inc (by decide) (h.ofRegs rfl)))

/-! ## The power half of a decision edge -/

/-- The settings written are taken, and the classes shed or restore work: what they did, whether an action was taken, whether none is
left. -/
def State.shedNow (s : State) : State × Bool × Bool := s.takeSettings.shed (50 * s.takeSettings.power.capInForce)

/-- The action of an edge, where one was taken, is counted. -/
def State.shedCounted (s : State) : State := if s.shedNow.2.1 then s.shedNow.1.inc (PWR_CNT_COUNT 3) 1 else s.shedNow.1

/-- A decision edge up to the thermal ceiling: settings taken, work shed or restored, the episode judged. -/
def State.powerJudged (s : State) : State :=
  s.shedCounted.capEpisode (50 * s.takeSettings.power.capInForce) s.shedNow.2.2

/-- Shedding moves the capping ceiling and the shed levels; the settings, the reading and the domains stay. -/
theorem shedCounted_power (s : State) : ∃ ceil mem link floor, s.shedCounted.power =
    { s.takeSettings.power with capCeil := ceil, memShed := mem, linkShed := link, linksFloor := floor } := by
  unfold State.shedCounted
  split <;> exact ⟨_, _, _, _, rfl⟩

theorem shedCounted_alters (s : State) : Alters [.regs, .power] s s.shedCounted :=
  have shed : Alters [.regs, .power] s s.shedNow.1 :=
    .step (State.shed_alters _ _) (by decide) (.step (State.takeSettings_alters s) (by decide) (.refl _ s))
  .ite (.step (State.inc_alters _ _ _) (by decide) shed) shed

theorem powerJudged_alters (s : State) :
    Alters [.regs, .modl, .power, .tel, .bark, .tree, .job, .cells, .sess, .limbs, .stream, .host, .ras, .journal, .pendStep, .free,
      .sent] s s.powerJudged :=
  .step (State.capEpisode_alters _ _ _) (by decide +kernel) (.step (shedCounted_alters s) (by decide +kernel) (.refl _ s))

/-- The power unit after the power half: the settings in force are those taken at this edge (R396). -/
theorem powerJudged_power (s : State) : ∃ ceil mem link floor unmet, s.powerJudged.power =
    { s.takeSettings.power with capCeil := ceil, memShed := mem, linkShed := link, linksFloor := floor, capUnmet := unmet } := by
  obtain ⟨ceil, mem, link, floor, shed⟩ := shedCounted_power s
  obtain ⟨unmet, judged⟩ := capEpisode_power s.shedCounted (50 * s.takeSettings.power.capInForce) s.shedNow.2.2
  exact ⟨ceil, mem, link, floor, unmet, judged.trans (by rw [shed])⟩

/-- With P_1ms at most the C just taken no episode stands. -/
theorem powerJudged_met {s : State} (met : s.power.measW ≤ 50 * s.takeSettings.power.capInForce) :
    s.powerJudged.power.capUnmet = false := by
  obtain ⟨ceil, mem, link, floor, shed⟩ := shedCounted_power s
  exact capEpisode_met (by rw [shed]; exact met) _

theorem powerJudged_noInjection {s : State} (h : s.noInjection) : s.powerJudged.noInjection := by
  have inj : s.powerJudged.ras.inj = s.ras.inj :=
    (capEpisode_inj _ _ _).trans (congrArg Ras.inj ((shedCounted_alters s).only .ras (by decide)))
  unfold State.noInjection
  rw [inj]
  exact h

theorem powerJudged_fieldsKept (s : State) : FieldsKept capFields s s.powerJudged :=
  have shed : FieldsKept capFields s s.shedNow.1 := .ofRegs (t := s) rfl (.refl _ s)
  .capEpisode (.ite (.inc (by decide) shed) shed)

/-- Whether a die is in use depends on the active graft, the certificate and the domains alone. -/
theorem hotUse_congr {s t : State} (graft : t.graft = s.graft) (cert : t.cert = s.cert)
    (domains : t.power.domains = s.power.domains) (d : Nat) : t.hotUse d = s.hotUse d := by
  unfold State.hotUse State.thermalUse State.transitDie State.dieCrossed State.dieConfigured State.dieRect State.cellAt State.domain
    State.dieEnabled
  rw [graft, cert, domains]

theorem powerJudged_hotUse (s : State) (d : Nat) : s.powerJudged.hotUse d = s.hotUse d := by
  have kept := powerJudged_alters s
  obtain ⟨ceil, mem, link, floor, unmet, power⟩ := powerJudged_power s
  exact hotUse_congr (kept.only .graft (by decide)) (kept.only .cert (by decide)) (by rw [power]; rfl) d

/-! ## The thermal ceiling (R407) -/

/-- Where the thermal ceiling goes at die temperatures: down by STEP, up by STEP to at most 120, or nowhere. -/
def State.nextCeil (s : State) (temp : Nat → Int) : Nat :=
  if ((List.range 61).filter s.hotUse).any (fun d => decide (100 * (s.f THM_CONFIG_THROTTLE : Int) ≤ temp d)) then
    s.thermal.ceil - s.f THM_CONFIG_STEP
  else if ((List.range 61).filter s.hotUse).all
      (fun d => decide (temp d < 100 * (s.f THM_CONFIG_THROTTLE : Int) - 100 * (s.f THM_CONFIG_HYST : Int))) then
    min 120 (s.thermal.ceil + s.f THM_CONFIG_STEP)
  else s.thermal.ceil

/-- An event leaves the thermal unit alone. -/
theorem event_thermal (s : State) (v : Nat) : (s.event v).thermal = s.thermal := (State.event_alters s v).only .thermal (by decide)

/-- What is shown, counted and raised leaves the ceiling where the step put it. -/
theorem thermalStep_ceil (s : State) (temp : Nat → Int) (inj : Bool) :
    (s.thermalStep temp inj).thermal.ceil = s.nextCeil temp := by
  have raised (t : State) (fc : FaultCode) : (t.raise fc .engine 0 false .start inj).thermal = t.thermal :=
    (State.raise_alters ..).only .thermal (by decide)
  have counted (t : State) (F : Fld) (n : Nat) : (t.inc F n).thermal = t.thermal := rfl
  unfold State.thermalStep
  simp only [apply_ite State.thermal, apply_ite Thermal.ceil, event_thermal, raised, counted, setThermal_thermal, ite_self]
  rfl

theorem thermalStep_power (s : State) (temp : Nat → Int) (inj : Bool) : (s.thermalStep temp inj).power = s.power :=
  (State.thermalStep_alters s temp inj).only .power (by decide)

section
variable {s : State} {temp : Nat → Int}

/-- One die in use at THROTTLE or above is enough. -/
theorem nextCeil_hot {d : Nat} (die : d < 61) (used : s.hotUse d = true) (hot : 100 * (s.f THM_CONFIG_THROTTLE : Int) ≤ temp d) :
    s.nextCeil temp = s.thermal.ceil - s.f THM_CONFIG_STEP := by
  unfold State.nextCeil
  exact if_pos (List.any_eq_true.mpr ⟨d, by simp [die, used], by simpa using hot⟩)

theorem not_any_hot (cool : ∀ d, d < 61 → s.hotUse d = true → temp d < 100 * (s.f THM_CONFIG_THROTTLE : Int)) :
    ¬ ((List.range 61).filter s.hotUse).any (fun d => decide (100 * (s.f THM_CONFIG_THROTTLE : Int) ≤ temp d)) = true := by
  simpa using cool

theorem nextCeil_cold (cold : ∀ d, d < 61 → s.hotUse d = true →
      temp d < 100 * (s.f THM_CONFIG_THROTTLE : Int) - 100 * (s.f THM_CONFIG_HYST : Int)) :
    s.nextCeil temp = min 120 (s.thermal.ceil + s.f THM_CONFIG_STEP) := by
  have cool (d : Nat) (die : d < 61) (used : s.hotUse d = true) : temp d < 100 * (s.f THM_CONFIG_THROTTLE : Int) := by
    have := cold d die used
    omega
  unfold State.nextCeil
  rw [if_neg (not_any_hot cool)]
  exact if_pos (List.all_eq_true.mpr (by simpa using cold))

theorem nextCeil_between (cool : ∀ d, d < 61 → s.hotUse d = true → temp d < 100 * (s.f THM_CONFIG_THROTTLE : Int)) {d : Nat}
    (die : d < 61) (used : s.hotUse d = true)
    (warm : 100 * (s.f THM_CONFIG_THROTTLE : Int) - 100 * (s.f THM_CONFIG_HYST : Int) ≤ temp d) :
    s.nextCeil temp = s.thermal.ceil := by
  unfold State.nextCeil
  rw [if_neg (not_any_hot cool)]
  refine if_neg (fun all => absurd (List.all_eq_true.mp all d (by simp [die, used])) ?_)
  simpa using warm

end

/-- The power half leaves alone what the thermal ceiling depends on. -/
theorem powerJudged_nextCeil (s : State) (temp : Nat → Int) : s.powerJudged.nextCeil temp = s.nextCeil temp := by
  have kept := powerJudged_fieldsKept s
  have thermal : s.powerJudged.thermal = s.thermal := (powerJudged_alters s).only .thermal (by decide)
  unfold State.nextCeil
  rw [kept THM_CONFIG_THROTTLE (by decide), kept THM_CONFIG_HYST (by decide), kept THM_CONFIG_STEP (by decide), thermal,
    funext (powerJudged_hotUse s)]

/-! ## The commands -/

/-- A decision edge on a D-th ring edge with main rails up and no injection armed (R396). -/
theorem exec_decisionEdge_falls {s : State} (quiet : s.noInjection) (falls : s.now % decisionRings s.ring.period = 0)
    (mains : s.modl.mains = true) : exec .decisionEdge s = .next (s.powerJudged.thermalStep s.dieTemp false) := by
  have here : ¬ (s.now % decisionRings s.ring.period ≠ 0 ∨ s.modl.mains = false) := by simp [falls, mains]
  have fire (det : Nat) : s.powerJudged.fireRoot none det (fun _ => true) = (none, s.powerJudged) :=
    fireRoot_none (powerJudged_noInjection quiet) ..
  unfold State.powerJudged State.shedCounted State.shedNow at fire ⊢
  simp only [exec_decisionEdge, execDecisionEdge, if_neg here, fire]
  rfl

/-- On another ring edge it does nothing (R396). Nor does it with main rails down, which is the model's choice (log 174). -/
theorem exec_decisionEdge_not {s : State} (h : s.now % decisionRings s.ring.period ≠ 0 ∨ s.modl.mains = false) :
    exec .decisionEdge s = .next s := by
  simp only [exec_decisionEdge, execDecisionEdge, if_pos h]

/-- A write at an address of the PWR block. -/
theorem exec_registerWrite_pwr {a : Nat} (block : a / 0x10000 = 3) (s : State) (w : Word64) :
    exec (.registerWrite a w) s = .next (s.writePwr a w) := by
  simp only [exec_registerWrite, execRegisterWrite, block]

/-- What holds of the power unit before a management command and after its effect holds after the command, served or refused. -/
theorem mgmtOn_power {P : Power → Prop} {s : State} {cmd : Nat} {f : State → State} (stays : P s.power) (effect : P (f s).power) :
    P (s.mgmtOn cmd f).power := by
  have answered (status : Nat) (data : List Byte) : P (s.answer cmd status data).power := by
    rw [show (s.answer cmd status data).power = s.power from (State.answer_alters ..).only .power (by decide)]
    exact stays
  unfold State.mgmtOn State.mgmtTrunk State.mgmtAlways State.answerRefused
  split
  · exact stays
  · split
    · exact answered ..
    · dsimp only
      split
      · split
        · exact answered ..
        · exact effect
      · exact answered ..

/-- SET_CAP moves the management cap alone in the power unit (R332). -/
theorem setCap_power (s : State) (n : Nat) : ∃ t, exec (.setCap n) s = .next t ∧
    t.power = { s.power with mgmtCap := t.power.mgmtCap } := by
  refine ⟨_, rfl, mgmtOn_power (P := fun p => p = { s.power with mgmtCap := p.mgmtCap }) rfl ?_⟩
  split
  · rw [show (State.answerNotify _ _).power = _ from (State.answerNotify_alters ..).only .power (by decide)]
    rfl
  · rw [show (State.answer _ _ _ _).power = _ from (State.answer_alters ..).only .power (by decide)]

/-! ## The obligation -/

/-- Settles O47: an edge that falls is its power half, which takes the settings, and then the thermal step. That an edge with main rails
down does nothing is the model's choice (log 174). -/
theorem decisionEdges : Obligations.DecisionEdges := by
  refine ⟨fun s => exec_decisionEdge_not, ?falls, by decide, ?written, setCap_power⟩
  case falls =>
    intro s _ quiet falls mains
    refine ⟨_, exec_decisionEdge_falls quiet falls mains, ?_⟩
    rw [thermalStep_power, thermalStep_ceil, powerJudged_nextCeil]
    have met := powerJudged_met (s := s)
    obtain ⟨ceil, mem, link, floor, unmet, power⟩ := powerJudged_power s
    rw [power] at met ⊢
    refine ⟨rfl, rfl, rfl, met, fun d die used hot => nextCeil_hot die used hot, nextCeil_cold, ?_⟩
    rintro cool ⟨d, die, used, warm⟩
    exact nextCeil_between cool die used warm
  case written =>
    intro s w a written
    have block : a / 0x10000 = 3 := by
      revert a
      decide
    exact ⟨_, exec_registerWrite_pwr block s w, (State.writePwr_alters s a w).only⟩

end Sys2Proof.Machine
end

section
/-!
PROOFS. Orders of the management port (O38): what a command that the port serves answers with, what an ENGINE and a HOSTPORT reset
leave behind beyond the module's events (O50), and the commit of an image.
-/
namespace Sys2Proof.Machine

/-! ## Serving and answering -/

section
variable {s : State} {cmd : Nat} {f : State → State} (standby : s.modl.standby = true) (here : s.boot.handover = false)
include standby here

/-- On standby power and with no hand-over the port serves (R329, R457). -/
theorem mgmtAlways_served : s.mgmtAlways cmd f = f s := by
  unfold State.mgmtAlways
  rw [if_neg (by simp [standby]), if_neg (by simp [here])]

/-- Once Trunk runs, it serves these commands too (R329). -/
theorem mgmtTrunk_served (trunk : s.boot.trunk = true) : s.mgmtTrunk cmd f = f s := by
  unfold State.mgmtTrunk
  rw [mgmtAlways_served standby here, if_pos trunk]

/-- And these outside OFF (R329). -/
theorem mgmtOn_served (trunk : s.boot.trunk = true) (on : s.power.state ≠ .off) : s.mgmtOn cmd f = f s := by
  unfold State.mgmtOn
  rw [mgmtTrunk_served standby here trunk, if_neg on]

end

/-- An answer leaves its status and its data in the port (R330). -/
theorem answer_mgmt (s : State) (cmd status : Nat) (data : List Byte) :
    (s.answer cmd status data).mgmt = { s.mgmt with status := status, data := data } := by
  unfold State.answer
  split <;> rfl

/-- An answer shows in these fields alone. -/
theorem answer_fieldsKept (s : State) (cmd status : Nat) (data : List Byte) :
    FieldsKept [ID_MGMT_LAST_CMD, ID_MGMT_LAST_STATUS, ID_HOST_CNT_COUNT 8] s (s.answer cmd status data) :=
  have shown : FieldsKept [ID_MGMT_LAST_CMD, ID_MGMT_LAST_STATUS, ID_HOST_CNT_COUNT 8] s
      (({ s with mgmt := { s.mgmt with status := status, data := data } } : State).setF ID_MGMT_LAST_CMD cmd |>.setF
        ID_MGMT_LAST_STATUS status) :=
    .setF (by decide) (.setF (by decide) (.ofRegs rfl (.refl _ s)))
  .ite (shown.setF (by decide)) (shown.setF (by decide))

theorem answerNotify_mgmt (s : State) (cmd : Nat) : (s.answerNotify cmd).mgmt = { s.mgmt with status := 0, data := [] } :=
  ((State.event_alters _ _).only .mgmt (by decide)).trans (answer_mgmt ..)

theorem answerNotify_power (s : State) (cmd : Nat) : (s.answerNotify cmd).power = s.power :=
  (State.answerNotify_alters s cmd).only .power (by decide)

theorem answerNotify_boot (s : State) (cmd : Nat) : (s.answerNotify cmd).boot = s.boot :=
  (State.answerNotify_alters s cmd).only .boot (by decide)

/-- An event may hold its message pending, and changes nothing else of the host port. -/
theorem event_host (s : State) (v : Nat) : ∃ pba, (s.event v).host = { s.host with pba := pba } := by
  unfold State.event State.signal
  dsimp only
  split
  · exact ⟨_, rfl⟩
  · split
    · split <;> exact ⟨_, rfl⟩
    · exact ⟨_, rfl⟩

/-- So may an answer that notifies. -/
theorem answerNotify_host (s : State) (cmd : Nat) : ∃ pba, (s.answerNotify cmd).host = { s.host with pba := pba } := by
  obtain ⟨pba, host⟩ := event_host (s.answer cmd 0 []) 16
  exact ⟨pba, host.trans (by rw [show (s.answer cmd 0 []).host = s.host from (State.answer_alters ..).only .host (by decide)])⟩

/-! ## Power state, cap, abort and CLEAR_LOSS -/

/-- In RUN, with no change of state under way, a request for another state waits, and no job is fetched (R389). -/
theorem powerRequest_run {s : State} {st : PState} (other : st ≠ .run) (run : s.power.state = .run) (still : s.power.transit = .none) :
    s.powerRequest st = s.setPower (fun p => { p with pending := some st, fetchStop := true }) := by
  unfold State.powerRequest
  rw [if_neg other, still, run]

/-- The management port's abort of the current job is its first one (R256, R333). -/
theorem registerAbort_current {s : State} {j : Job} (cur : s.job.cur = some j) (first : j.abort = none) (reason ring : Nat) :
    (s.registerAbort j.desc.jobId reason ring).job = { s.job with cur := some { j with abort := some (reason, ring) } } := by
  unfold State.registerAbort
  dsimp only
  generalize recorded : s.record 3 false (leBytes 1 reason ++ [0, 0, 0] ++ leBytes 4 j.desc.jobId) = t
  have job : t.job = s.job := recorded ▸ (State.record_alters ..).only .job (by decide)
  simp [job, cur, first]

section
variable {s : State} (standby : s.modl.standby = true) (here : s.boot.handover = false) (trunk : s.boot.trunk = true)
include standby here trunk

theorem exec_setPower_sleep (run : s.power.state = .run) (still : s.power.transit = .none) (noWake : s.mgmt.wakeAt = none) :
    exec (.setPower 2) s = .next ((({ s with mgmt := { s.mgmt with setAt := some s.now } } : State).setPower
      (fun p => { p with pending := some .sleep, fetchStop := true })).answerNotify 0x10) := by
  have waits := powerRequest_run (s := { s with mgmt := { s.mgmt with setAt := some s.now } }) (st := .sleep) (by decide) run still
  rw [exec_setPower, execSetPower, mgmtOn_served standby here trunk (by simp [run]), ← waits]
  exact congrArg (fun t : State => (.next (t.answerNotify 0x10) : Res)) (if_neg (by simp [noWake]))

theorem exec_setCap_inRange (on : s.power.state ≠ .off) {n : Nat} (inRange : 240 ≤ n ∧ n ≤ 920) :
    exec (.setCap n) s = .next ((s.setPower (fun p => { p with mgmtCap := n })).answerNotify 0x11) := by
  rw [exec_setCap, execSetCap, mgmtOn_served standby here trunk on, if_pos inRange]

theorem exec_setCap_outOfRange (on : s.power.state ≠ .off) {n : Nat} (out : ¬ (240 ≤ n ∧ n ≤ 920)) :
    exec (.setCap n) s = .next (s.answer 0x11 2 []) := by
  rw [exec_setCap, execSetCap, mgmtOn_served standby here trunk on, if_neg out]

theorem exec_abort_served (on : s.power.state ≠ .off) (jobId : Nat) :
    exec (.abort jobId) s = .next ((s.registerAbort jobId 3 s.now).answerNotify 0x12) := by
  rw [exec_abort, execAbort, mgmtOn_served standby here trunk on]

theorem exec_clearLoss_served : exec .clearLoss s = .next ((s.setF CLK_SRC_LOSS 0).settleFaultN.answer 0x14 0 []) := by
  rw [exec_clearLoss, execClearLoss, mgmtTrunk_served standby here trunk, State.answerOk]

/-! ## Resets -/

theorem exec_reset_engine (on : s.power.state ≠ .off) : exec (.reset 0) s = .next (s.answerNotify 0x13).engineReset := by
  rw [exec_reset, execReset, mgmtOn_served standby here trunk on, if_pos rfl]

theorem exec_reset_hostport (on : s.power.state ≠ .off) (powered : s.hostPowered = true) :
    exec (.reset 1) s = .next ((s.hostReset false).answerNotify 0x13) := by
  rw [exec_reset, execReset, mgmtOn_served standby here trunk on, if_neg (by decide), if_pos rfl, if_pos powered]

end

/-- Boot after an ENGINE reset begins at stage 0 with the latch, the buffer and the banks booted last as they were (R445). -/
theorem engineReset_boot (s : State) : s.engineReset.boot =
    { Boot.reset with latched := s.boot.latched, buffer := s.boot.buffer, bootedB := s.boot.bootedB } := by
  have boot := (dropLock_clear_alters s .unlocked SAP_DIE_EPOCH_EPOCH 60 [INJ_COUNT_FIRED, BURL_STATUS_LAST_BAND]).only .boot (by decide)
  unfold State.engineReset
  rw [settleFaultN_eq]
  dsimp only
  rw [boot]

/-- What else an ENGINE reset clears (Table 16.1): the job queue, the seal, main rails. -/
theorem engineReset_cleared (s : State) :
    s.engineReset.job.queue = [] ∧ s.engineReset.bark.sealed = false ∧ s.engineReset.modl.mains = false := by
  unfold State.engineReset
  rw [settleFaultN_eq]
  exact ⟨rfl, rfl, rfl⟩

/-- A HOSTPORT reset with no staging read in flight advances the epoch, takes the link down and touches no more than these parts
(R317, R318). -/
theorem hostReset_notStaging {s : State} (still : s.graft.load ≠ .staging) :
    Alters [.regs, .host, .bark] s (s.hostReset false) ∧ (s.hostReset false).host.up = false ∧
      (s.hostReset false).host.epoch = (s.host.epoch + 1) % 65536 := by
  unfold State.hostReset
  dsimp only
  rw [if_neg still]
  refine ⟨.step (State.inc_alters _ _ _) (by decide) ?_, Bool.and_false _, rfl⟩
  exact .update (.refl _ s)

/-! ## Recovery -/

section
variable {s : State} (standby : s.modl.standby = true) (here : s.boot.handover = false)
include standby here

theorem exec_recoveryEnter_served :
    exec .recoveryEnter s = .next (({ s with boot := { s.boot with latched := true } } : State).answerNotify 0x20) := by
  rw [exec_recoveryEnter, execRecoveryEnter, mgmtAlways_served standby here]

theorem exec_recoveryWrite_fits {off : Nat} {bs : List Byte} (fits : ¬ (28 < bs.length ∨ 16 * 2 ^ 20 < off + bs.length)) :
    exec (.recoveryWrite off bs) s =
      .next (({ s with boot := { s.boot with buffer := s.boot.buffer.writeBytes off bs } } : State).answer 0x21 0 []) := by
  rw [exec_recoveryWrite, execRecoveryWrite, mgmtAlways_served standby here, if_neg fits, State.answerOk]

theorem exec_recoveryWrite_beyond {off : Nat} {bs : List Byte} (beyond : 28 < bs.length ∨ 16 * 2 ^ 20 < off + bs.length) :
    exec (.recoveryWrite off bs) s = .next (s.answer 0x21 2 []) := by
  rw [exec_recoveryWrite, execRecoveryWrite, mgmtAlways_served standby here, if_pos beyond]

theorem exec_recoveryCommit_notAccepted {kind : Nat} (other : s.boot.recovery.accepts kind = false) :
    exec (.recoveryCommit kind) s = .next (s.answer 0x22 3 [3]) := by
  rw [exec_recoveryCommit, execRecoveryCommit, mgmtAlways_served standby here, other, if_pos (by decide)]
  rfl

end

/-- With no injection armed no signature is made to fail. -/
theorem sigForce_quiet {s : State} (quiet : s.noInjection) : s.sigForce = (0, false, s) := by
  unfold State.sigForce
  rw [fireRoot_none quiet]
  rfl

section
variable {s : State} {kind : Nat} (quiet : s.noInjection) (standby : s.modl.standby = true) (here : s.boot.handover = false)
  (accepted : s.boot.recovery.accepts kind = true)
include quiet standby here accepted

/-- A commit that passes is counted, writes its bank, and in recovery mode has the engine reset (R450, R455). -/
theorem exec_recoveryCommit_passed (passed : (s.fwVerify kind (bufferImage s.boot.buffer) 0).passed = true) :
    exec (.recoveryCommit kind) s =
      .next (({ (s.objectCount true).commitImage kind (bufferImage s.boot.buffer) with
        boot := { s.boot with rebootDue := decide (s.boot.recovery ≠ .none) } } : State).answer 0x22 0 []) := by
  rw [exec_recoveryCommit, execRecoveryCommit, mgmtAlways_served standby here, accepted, if_neg (by decide)]
  unfold State.commitBuffer
  rw [sigForce_quiet quiet]
  dsimp only
  generalize s.fwVerify kind (bufferImage s.boot.buffer) 0 = verdict at passed ⊢
  cases verdict with
  | ok i => rfl
  | bad | signature w | rollback => exact absurd passed Bool.false_ne_true

/-- A commit that fails is counted, is recorded where the record has a code, and is answered BAD_IMAGE (R335, R454). -/
theorem exec_recoveryCommit_failed (failed : (s.fwVerify kind (bufferImage s.boot.buffer) 0).passed = false) :
    exec (.recoveryCommit kind) s =
      .next ((s.fwRecord kind false (s.fwVerify kind (bufferImage s.boot.buffer) 0)).answer 0x22 3 [3]) := by
  rw [exec_recoveryCommit, execRecoveryCommit, mgmtAlways_served standby here, accepted, if_neg (by decide)]
  unfold State.commitBuffer
  rw [sigForce_quiet quiet]
  dsimp only
  generalize s.fwVerify kind (bufferImage s.boot.buffer) 0 = verdict at failed ⊢
  cases verdict with
  | ok i => exact absurd failed.symm Bool.false_ne_true
  | bad | signature w | rollback => rfl

end

/-- A reboot due after a commit is an ENGINE reset with the latch cleared (R455). -/
theorem exec_recoveryReboot_due {s : State} (due : s.boot.rebootDue = true) :
    exec .recoveryReboot s = .next ({ s with boot := { s.boot with latched := false } } : State).engineReset := by
  rw [exec_recoveryReboot, execRecoveryReboot, if_pos due]

/-! ## The obligation -/

/-- Settles O38: the port serves each order, which is then the operation that the lemma on it describes, and the answer moves what the
port shows and no more. That a commit is one command is the model's choice (log 31). -/
theorem managementOrders : Obligations.ManagementOrders := by
  refine ⟨?setPower, ?setCap, ?setCapOut, ?abort, ?resetEngine, ?resetHost, ?clearLoss, ?enter, ?write, ?writeOut, ?commit,
    ?commitOther, ?reboot⟩
  case setPower =>
    intro s standby here trunk run still noWake
    have order := exec_setPower_sleep standby here trunk run still noWake
    refine ⟨_, order, ?_, ?_, ?_, (exec_alters order).only⟩
    · rw [answerNotify_power]
      rfl
    · rw [answerNotify_mgmt]
      rfl
    · rw [answerNotify_mgmt]
  case setCap =>
    intro s n standby here trunk on low high
    have order := exec_setCap_inRange standby here trunk on ⟨low, high⟩
    refine ⟨_, order, ?_, ?_, (exec_alters order).only⟩
    · rw [answerNotify_power]
      rfl
    · rw [answerNotify_mgmt]
  case setCapOut =>
    intro s n standby here trunk on out
    refine ⟨_, exec_setCap_outOfRange standby here trunk on (by omega), ?_, (State.answer_alters ..).only⟩
    rw [answer_mgmt]
  case abort =>
    intro s j standby here trunk on cur first
    refine ⟨_, exec_abort_served standby here trunk on j.desc.jobId, ?_, ?_⟩
    · rw [show (State.answerNotify _ _).job = _ from (State.answerNotify_alters ..).only .job (by decide)]
      exact registerAbort_current cur first ..
    · rw [answerNotify_mgmt]
  case resetEngine =>
    intro s standby here trunk on
    have answered := State.answerNotify_alters s 0x13
    have reset := engineReset_engineResetFrom (s.answerNotify 0x13)
    obtain ⟨queue, unsealed, mains⟩ := engineReset_cleared (s.answerNotify 0x13)
    have hw : (s.answerNotify 0x13).hw = s.hw := answered.only .hw (by decide)
    have modl : (s.answerNotify 0x13).modl = s.modl := answered.only .modl (by decide)
    exact ⟨_, exec_reset_engine standby here trunk on, reset.stage, reset.lock, reset.cur, queue, reset.cells, reset.sess, reset.log,
      unsealed, reset.grant, mains, reset.hwRegs.trans (congrArg Heartwood.regs hw), reset.flash.trans (answered.only .flash (by decide)),
      reset.slotId.trans (congrArg Module.slotId modl),
      Eq.trans ((State.engineReset_alters _).only .cert (by decide)) (answered.only .cert (by decide))⟩
  case resetHost =>
    intro s standby here trunk on powered still
    obtain ⟨alters, up, epoch⟩ := hostReset_notStaging still
    obtain ⟨pba, host⟩ := answerNotify_host (s.hostReset false) 0x13
    refine ⟨_, exec_reset_hostport standby here trunk on powered, (congrArg HostPort.epoch host).trans epoch,
      (congrArg HostPort.up host).trans up, ?_,
      Alters.only (.step (State.answerNotify_alters ..) (by decide) (alters.step (by decide) (.refl _ s)))⟩
    rw [answerNotify_mgmt]
  case clearLoss =>
    intro s stores standby here trunk
    have order := exec_clearLoss_served standby here trunk
    refine ⟨_, order, ?_, ?_, (exec_alters order).only⟩
    · rw [answer_fieldsKept _ _ _ _ CLK_SRC_LOSS (by decide), settleFaultN_eq]
      exact f_setF_self stores.1 CLK_SRC_LOSS 0
    · rw [answer_mgmt]
  case enter =>
    intro s standby here
    have order := exec_recoveryEnter_served standby here
    refine ⟨_, order, answerNotify_boot .., ?_, (exec_alters order).only⟩
    rw [answerNotify_mgmt]
  case write =>
    intro s off bs standby here sound short inside
    have order := exec_recoveryWrite_fits (off := off) (bs := bs) standby here (by omega)
    have boot : (({ s with boot := { s.boot with buffer := s.boot.buffer.writeBytes off bs } } : State).answer 0x21 0 []).boot =
        { s.boot with buffer := s.boot.buffer.writeBytes off bs } := (State.answer_alters ..).only .boot (by decide)
    refine ⟨_, order, ?_, ?_, ?_, ?_, (exec_alters order).only⟩
    all_goals simp only [boot, answer_mgmt]
    · intro i within
      rw [Memory.read_writeBytes_inside sound within, List.getD_eq_getElem _ _ within]
    · exact fun a outside => Memory.read_writeBytes_outside outside
  case writeOut =>
    intro s off bs standby here beyond
    refine ⟨_, exec_recoveryWrite_beyond standby here (by omega), (State.answer_alters ..).only .boot (by decide), ?_,
      (State.answer_alters ..).only⟩
    rw [answer_mgmt]
  case commit =>
    intro s kind quiet standby here accepted
    cases verdict : (s.fwVerify kind (bufferImage s.boot.buffer) 0).passed with
    | true =>
      have order := exec_recoveryCommit_passed quiet standby here accepted verdict
      refine ⟨_, order, ?_, (exec_alters order).only⟩
      rw [if_pos rfl]
      refine ⟨(State.answer_alters ..).only .flash (by decide), ?_, (State.answer_alters ..).only .boot (by decide)⟩
      rw [answer_mgmt]
    | false =>
      have order := exec_recoveryCommit_failed quiet standby here accepted verdict
      refine ⟨_, order, ?_, (exec_alters order).only⟩
      rw [if_neg (by decide), answer_mgmt]
      exact ⟨Eq.trans ((State.answer_alters ..).only .flash (by decide)) ((State.fwRecord_alters ..).only .flash (by decide)), rfl, rfl⟩
  case commitOther =>
    intro s kind standby here other
    have answered := State.answer_alters s 0x22 3 [3]
    refine ⟨_, exec_recoveryCommit_notAccepted standby here other, answered.only .flash (by decide), ?_, ?_, answered.only⟩
    all_goals rw [answer_mgmt]
  case reboot =>
    intro s due
    have reset := engineReset_engineResetFrom { s with boot := { s.boot with latched := false } }
    have boot := engineReset_boot { s with boot := { s.boot with latched := false } }
    exact ⟨_, exec_recoveryReboot_due due, reset.stage, congrArg Boot.latched boot, congrArg Boot.rebootDue boot, reset.flash,
      reset.hwRegs⟩

end Sys2Proof.Machine
end
